-- ==== Sys2Proof/Word.lean ====
section
/-! DEFINITION. The word types of the block and the type of its sparse tables. -/

namespace Sys2Proof

/-- One byte of memory. -/
abbrev Byte := BitVec 8

/-- A register of register space, a command word, a sync-object value (R56, R246). -/
abbrev Word := BitVec 64

/-- A 32-bit element: an accumulator cell, a vector lane (R80, R126). -/
abbrev Word32 := BitVec 32

/-- The bytes of one 64 B line, byte 0 in the low bits (R168, R271). -/
abbrev Line := BitVec 512

/-- A sparse table: keys strictly rising, no entry equal to what an unlisted key reads as
(the reading, the writing and that form stand in Machine/Tab.lean). -/
abbrev Tab (α : Type) := List (Nat × α)

end Sys2Proof
end

