-- ==== Sys2Proof/Syntax.lean ====
section
/-! DEFINITION. The commands of the block: one constructor per row of spec/opcode_table.json, in the
table's order, and the types of their operands. The first operand `t` of every command is the elapsed tick at
which it reaches the device (log entry 4). -/

namespace Sys2Proof

/-- What lowers the package into reset (R484, R519): a pin held low for so many ns, or a loss that R25 or R490
gives to the package. -/
inductive ResetSource
  | rstN (ns : Nat) | pwrGood (ns : Nat) | pllLoss | hubLoss
  deriving DecidableEq, Repr

/-- The PLLs and references of R25. -/
inductive Pll
  | aclk (die : Nat) | hclk (cluster : Nat) | fclkHub (hub : Nat) | sclkHub (hub : Nat)
  | fclkTdie (die : Nat) | fclkHost | mclk (stack : Nat) | tbclk | refclk
  deriving DecidableEq, Repr

/-- What the data of a die-to-die transfer feeds (R21): an agent that waits for an answer, memory, a line of a host core's
cache, a line of a core's scratchpad, or a line that a COPY has moved to its destination. -/
inductive D2dInto
  | answer | memory | cache (core : Nat) | scratchpad (core line : Nat) | command (q i : Nat)
  deriving DecidableEq, Repr

/-- How a host core asks for an access (R56): a plain load or store, a vector or pair access, an instruction
fetch, or cache maintenance by address. -/
inductive AccessKind
  | plain | vector | pair | fetch | cmo
  deriving DecidableEq, Repr

/-- How a buffered store ended at its target (R378, R384). -/
inductive AckKind
  | ok | lost | refused
  deriving DecidableEq, Repr

/-- A register a software write names: an offset of register space, or an implementation system register of a
host core (R51, R390). -/
inductive RegTarget
  | space (off : Nat) | system (core num : Nat)
  deriving DecidableEq, Repr

/-- What the ECC found in a line (R274): nothing, one bad symbol (its number), or more. -/
inductive EccFinding
  | clean | ce (symbol : Nat) | ue
  deriving DecidableEq, Repr

/-- What the reads of a command find: lines of the scratchpad, by their numbers, whose parity check fails (R175), the ECC's
findings in lines of HBM (R274), and lines in the caches of host cores, by core and number, whose parity check fails
(R372). -/
structure Found where
  sp : List Nat
  ecc : List (Nat × EccFinding)
  cache : List (Nat × Nat)
  deriving DecidableEq, Repr

/-- No error is found. -/
def Found.none : Found := ⟨[], [], []⟩

/-- The form of a memory-side request (R279). -/
inductive MopForm
  | scalar | line | cells
  deriving DecidableEq, Repr

/-- A memory-side request (R279): its form, target address, whether it fetches, the operand (an element in the
low bits, a whole line, or contribution k at the k-th element; a CAS takes compare then swap), the byte mask of a
line operation, the number of cells, the target address of a SETTLE, what its reads find (R274, R372), and how many of the
cells left a command performs, all when none (R283). -/
structure MopReq where
  form : MopForm
  pa : Nat
  fetch : Bool
  operand : Line
  mask : Word
  n : Nat
  target : Nat
  found : Found
  part : Option Nat
  deriving DecidableEq, Repr

/-- A message of the fabric (R346). -/
structure Msg where
  kind : Nat
  lines : Nat
  tag : Nat
  dst : Nat
  src : Nat
  code : Nat
  addr : Word
  data : List Word
  deriving DecidableEq, Repr

/-- A flit (R345) without its CRC, which the device computes. -/
structure Flit where
  seq : Nat
  ack : Nat
  nak : Bool
  cls : Nat
  null : Bool
  crClass : Nat
  crRsp : Bool
  crCount : Nat
  msgs : List Msg
  deriving DecidableEq, Repr

/-- A fabric packet of an Ethernet port (R363): its transport header and its messages. -/
structure Packet where
  seq : Nat
  ack : Nat
  cls : Nat
  nak : Bool
  ackOnly : Bool
  restart : Bool
  msgs : List Msg
  deriving DecidableEq, Repr

/-- What training and enumeration of one CXL port found (R296): the resulting STATE code, the rate and width
codes and the capacities of the endpoints in bytes, as Identify Memory Device reports them, in ascending switch port order. -/
structure CxlBring where
  state : Nat
  rate : Nat
  width : Nat
  caps : List Nat
  deriving DecidableEq, Repr

/-- What training of one customer site found (R38): whether a partner answered, whether training succeeded, the
rate code, the lanes repaired and the eight descriptor words read over sideband. -/
structure SiteBring where
  partner : Bool
  trained : Bool
  rate : Nat
  lanes : Nat
  desc : List Word
  deriving DecidableEq, Repr

/-- What the physical world gives a boot (R446): read errors of the two slots (header, body), the µs at which
the last HBM stack trained, the CXL ports and the sites. -/
structure BootEnv where
  hdrErrA : Bool
  hdrErrB : Bool
  bodyErrA : Bool
  bodyErrB : Bool
  hbmTrainedUs : Nat
  cxl : List CxlBring
  sites : List SiteBring
  deriving DecidableEq, Repr

/-- One sample of the converters (R454): watts and VIN amperes per polder P0–P7, VIN in mV, and VIN amperes of
the package. -/
structure PowerSample where
  watts : List Nat
  amps : List Nat
  vinMv : Nat
  vinA : Nat
  deriving DecidableEq, Repr

/-- What the tester reaches over JTAG (R516): an address, or a host core's architectural registers. -/
inductive JtagTarget
  | address (pa : Nat) | hostRegs (core : Nat)
  deriving DecidableEq, Repr

/-- A registered waiter (R248): a tensor core's SWAIT or a queue's WAIT. -/
inductive WaiterId
  | core (c : Nat) | queue (q : Nat)
  deriving DecidableEq, Repr

/-- The commands of the block, one per row of the opcode table. -/
inductive Instr
  /-- R484, R519, R531: package reset. -/
  | packageReset (t : Nat) (src : ResetSource)
  /-- R446: boot, ending at tick t. -/
  | boot (t : Nat) (env : BootEnv)
  /-- R446: a stack has not trained in time. -/
  | hbmTrainingTimeout (t : Nat) (stack : Nat)
  /-- R446: step 7 of boot reaches its bound. -/
  | bringupTimeout (t : Nat)
  /-- R445. -/
  | sysProtLock (t agent : Nat) (v : Word)
  /-- R446, R452. -/
  | bootRelease (t agent : Nat) (v : Word)
  /-- R60. -/
  | registerWrite (t agent : Nat) (reg : RegTarget) (v : Word)
  /-- R25, R26: the PLLs and references whose losses are detected in one tick. -/
  | pllLockLoss (t : Nat) (plls : List Pll)
  /-- R25: a stack's MCLK relocks (locked) or does not. -/
  | mclkRelock (t stack : Nat) (locked : Bool)
  /-- R21: a transfer over a port of R19 (numbered as R500 does) fails its parity. -/
  | d2dParityError (t port : Nat)
  /-- R21: the resent transfer, of the line at pa for an agent, arrives; what its data feeds. -/
  | d2dResentTransfer (t port agent pa : Nat) (into : D2dInto) (failed : Bool)
  /-- R31. -/
  | sysTbCfgWrite (t agent : Nat) (v : Word)
  /-- R33: an exchange with the parent begins at its multiple, or completes once the parent's message has come. -/
  | timingExchange (t : Nat)
  /-- R36. -/
  | holdoverEntry (t : Nat)
  /-- R43: a site's mean over the 1 ms window, in units of 10 mW. -/
  | sitePowerWindow (t site mean : Nat)
  /-- R43. -/
  | siteSupplyCut (t site : Nat)
  /-- R44: a link loss (1) or an uncorrectable error (2), or the cut (0). -/
  | siteDown (t site cause : Nat)
  /-- R68. -/
  | txnBegin (t agent : Nat)
  /-- R73. -/
  | txnCommit (t agent : Nat) (v : Word)
  /-- R76. -/
  | txnRollback (t agent : Nat) (v : Word)
  /-- R77. -/
  | txnAbort (t agent : Nat) (v : Word)
  /-- R73, R74, R78. -/
  | txnApply (t : Nat)
  /-- R77. -/
  | leaseExpiry (t : Nat)
  /-- R285: the configuration register of record ring 0 (translation faults), 1 (HBM errors), 2 (throttle log),
  3 (resets), 4 (faults) or 5 + n (trace ring n) is written with ENABLE 1. -/
  | ringEnable (t agent ring : Nat) (v : Word)
  /-- R379: translated by an entry of a tag (R376), with what its reads find, the parity of the core's own caches included
  (R372). -/
  | hostCoreLoad (t core pa size tag : Nat) (kind : AccessKind) (found : Found)
  /-- R378: data in the low size bytes. -/
  | hostCoreStore (t core pa size tag : Nat) (kind : AccessKind) (data : Line)
  /-- R378: entry number i of the store buffer ends. -/
  | storeAck (t core i : Nat) (ack : AckKind) (found : Found)
  /-- R402: op is a code of R279, or 0x40 and above for an atomic without one (log entry 14). -/
  | hostAtomic (t core pa size tag op : Nat) (a b : Word) (found : Found)
  /-- R380. -/
  | loadReserved (t core pa size tag : Nat) (found : Found)
  /-- R380; whether the core has taken an exception or interrupt of its instruction set since its last load-reserved. -/
  | storeConditional (t core pa size tag : Nat) (data : Word) (broken : Bool)
  /-- R382. -/
  | acquire (t core : Nat)
  /-- R382. -/
  | release (t core : Nat)
  /-- R382. -/
  | full (t core : Nat)
  /-- R382. -/
  | device (t core : Nat)
  /-- R382. -/
  | rc (t core : Nat)
  /-- R376. -/
  | tlbInvalidation (t core tag : Nat)
  /-- R384; whether the handler of the last precise exception has returned. -/
  | hcDevsynRead (t core : Nat) (returned : Bool)
  /-- R388; whether the handler of the last precise exception has returned (R384). -/
  | hcStrictWrite (t core : Nat) (returned : Bool) (v : Word)
  /-- R374. -/
  | hcL2lockWrite (t core : Nat) (v : Word)
  /-- R396: a core evicts a line (its number, PA / 64), whose parity holds or not (R372). -/
  | l2Eviction (t core line : Nat) (parityOk : Bool)
  /-- R396. -/
  | notice (t core line : Nat)
  /-- R396. -/
  | writeBack (t core line : Nat)
  /-- R400, with what its reads find. -/
  | readShared (t core line : Nat) (found : Found)
  /-- R400. -/
  | readForOwnership (t core line : Nat) (found : Found)
  /-- R402. -/
  | conditionalReadForOwnership (t core line : Nat) (found : Found)
  /-- R401. -/
  | coherentRead (t agent line : Nat) (found : Found)
  /-- R401: bytes of the line selected by the mask. -/
  | nonCachingWrite (t agent line : Nat) (mask : Word) (data : Line) (found : Found)
  /-- R399. -/
  | invalidation (t cluster : Nat)
  /-- R407. -/
  | dirProbe (t agent : Nat) (v : Word)
  /-- R207: the LAUNCH at index i of queue q. -/
  | launch (t q i : Nat) (found : Found)
  /-- R208. -/
  | launchDispatch (t q i : Nat)
  /-- R129. -/
  | programLoadDone (t core : Nat) (found : Found)
  /-- R130. -/
  | launchComplete (t q i : Nat)
  /-- R131. -/
  | sibling (t core : Nat)
  /-- R164. -/
  | watchdog (t core : Nat)
  /-- R159: the core issues the instruction with this opcode and these low 56 bits. -/
  | nop (t core : Nat) (body : BitVec 56)
  /-- R130. -/
  | end_ (t core : Nat) (body : BitVec 56)
  /-- R136. -/
  | mpass (t core : Nat) (body : BitVec 56)
  /-- R141. -/
  | mdrain (t core : Nat) (body : BitVec 56)
  /-- R89: the fill at the front of the accumulator port ends; the cycles since the last such report in which a port lost a
  bank of the scratchpad (R171), whether its parity holds (R102), and the scratchpad lines whose parity fails (R175). -/
  | fillDone (t core conflicts : Nat) (parityOk : Bool) (spBad : List Nat)
  /-- R93: the streaming pass ends, after so many operand stalls (R171) and so many cycles that the gate duty held (R467); the
  rest as for a fill. -/
  | streamEnd (t core stalls gated conflicts : Nat) (parityOk : Bool) (spBad : List Nat)
  /-- R93: recirculation ends after so many cycles. -/
  | recirculationEnd (t core cycles : Nat)
  /-- R142; the cycles in which a port lost a bank as for a fill. -/
  | drainDone (t core conflicts : Nat) (parityOk : Bool)
  /-- R143; whether the register parity holds (R102). -/
  | vop (t core : Nat) (body : BitVec 56) (parityOk : Bool)
  /-- R147, with the scratchpad lines whose parity fails (R175). -/
  | vld (t core : Nat) (body : BitVec 56) (spBad : List Nat)
  /-- R147. -/
  | vst (t core : Nat) (body : BitVec 56)
  /-- R148, with the scratchpad lines whose parity fails (R175). -/
  | smove (t core : Nat) (body : BitVec 56) (spBad : List Nat)
  /-- R149, with the scratchpad lines whose parity fails in the bursts that it begins (R175). -/
  | tcopy (t core : Nat) (body : BitVec 56) (spBad : List Nat)
  /-- R182: copy number k of the core (the model's count of its TCOPYs) moves the lines of a list, or all that are left and
  is complete; the cycles in which a port lost a bank as for a fill, and what its reads find. -/
  | tcopyComplete (t core k conflicts : Nat) (only : Option (List Nat)) (found : Found)
  /-- R187: copy k fails with a cause of R186 at a row and a virtual address. -/
  | copyFault (t core k cause row va : Nat)
  /-- R151. -/
  | ccwait (t core : Nat) (body : BitVec 56)
  /-- R151. -/
  | ccset (t core : Nat) (body : BitVec 56)
  /-- R153. -/
  | ssig (t core : Nat) (body : BitVec 56)
  /-- R154. -/
  | swait (t core : Nat) (body : BitVec 56)
  /-- R155. -/
  | fence (t core : Nat) (body : BitVec 56)
  /-- R156. -/
  | tag (t core : Nat) (body : BitVec 56)
  /-- R157. -/
  | hint (t core : Nat) (body : BitVec 56)
  /-- R158. -/
  | aop (t core : Nat) (body : BitVec 56)
  /-- R158. -/
  | aopi (t core : Nat) (body : BitVec 56)
  /-- R158. -/
  | ali (t core : Nat) (body : BitVec 56)
  /-- R158. -/
  | ard (t core : Nat) (body : BitVec 56)
  /-- R159. -/
  | br (t core : Nat) (body : BitVec 56)
  /-- R159. -/
  | brc (t core : Nat) (body : BitVec 56)
  /-- R160. -/
  | loop (t core : Nat) (body : BitVec 56)
  /-- R191: a write of QE_Q_CFG with ENABLE 1. -/
  | queueEnable (t agent q : Nat) (v : Word)
  /-- R192: a write of QE_Q_CFG with ENABLE 0. -/
  | queueDisable (t agent q : Nat) (v : Word)
  /-- R197. -/
  | tailWrite (t agent q : Nat) (v : Word)
  /-- R199. -/
  | resume (t agent q : Nat)
  /-- R190. -/
  | abandon (t agent q : Nat)
  /-- R203, with what its reads find. -/
  | slotRead (t q i : Nat) (found : Found)
  /-- R203, with what its reads find. -/
  | slotReread (t q i : Nat) (found : Found)
  /-- R460: the Sluice's choice among the queues of both hubs. -/
  | sluiceChoice (t : Nat)
  /-- R228: the walk of the command queue q is about to start. -/
  | walk (t q : Nat) (found : Found)
  /-- R227: a walk ahead for tag of queue q at a virtual address. -/
  | walkAhead (t q va : Nat) (found : Found)
  /-- R209, with what its reads find. -/
  | copy (t q i : Nat) (found : Found)
  /-- R210. -/
  | inlineWrite (t q i : Nat) (found : Found)
  /-- R211. -/
  | signal (t q i : Nat)
  /-- R211. -/
  | wait (t q i : Nat)
  /-- R315. -/
  | collective (t q i : Nat) (found : Found)
  /-- R212. -/
  | migrate (t q i : Nat)
  /-- R212. -/
  | hintCommand (t q i : Nat)
  /-- R212. -/
  | fenceCommand (t q i : Nat)
  /-- R217. -/
  | commandComplete (t q i : Nat)
  /-- R225. -/
  | trCtxWrite (t agent ctx : Nat) (v : Word)
  /-- R235. -/
  | trInvalAst (t agent : Nat) (v : Word)
  /-- R235: the pending invalidation with this number. -/
  | invalidationComplete (t k : Nat)
  /-- R240. -/
  | continuationRecord (t slot : Nat)
  /-- R242. -/
  | trFaultResolve (t agent : Nat) (v : Word)
  /-- R246. -/
  | syAdd (t agent obj : Nat) (v : Word)
  /-- R246. -/
  | sySet (t agent obj : Nat) (v : Word)
  /-- R256: the oldest advance on its way reaches its queue. -/
  | advance (t : Nat)
  /-- R257. -/
  | syTrigCfg (t agent obj : Nat) (v : Word)
  /-- R258. -/
  | syEventRead (t agent core : Nat)
  /-- R250. -/
  | waitTimeout (t : Nat) (w : WaiterId)
  /-- R262. -/
  | mbLock (t agent m : Nat)
  /-- R263. -/
  | mbRelease (t agent m : Nat) (v : Word)
  /-- R263. -/
  | mbReqWrite (t agent m : Nat) (v : Word)
  /-- R263. -/
  | mbReqRead (t agent m : Nat)
  /-- R263. -/
  | mbRspWrite (t agent m : Nat) (v : Word)
  /-- R263. -/
  | mbRspRead (t agent m : Nat)
  /-- R263. -/
  | mbSend (t agent m : Nat) (v : Word)
  /-- R263. -/
  | mbAck (t agent m : Nat) (v : Word)
  /-- R265. -/
  | mailboxTimeout (t m : Nat)
  /-- R451: firmware answers the ATTEST that mailbox m holds. -/
  | attest (t m : Nat)
  /-- R450. -/
  | getCerts (t m : Nat)
  /-- R450: whether each programmed block read back equal. -/
  | imageWrite (t m : Nat) (readBackOk : Bool) (found : Found)
  /-- R447. -/
  | setNext (t m : Nat)
  /-- R434. -/
  | rollbackCommit (t m : Nat)
  /-- R475. -/
  | throttleLog (t m : Nat)
  /-- R502: the sampling ends at tick t2. -/
  | waitGraph (t m t2 : Nat)
  /-- R503. -/
  | stateCollect (t m : Nat)
  /-- R280. -/
  | iadd32 (t agent : Nat) (r : MopReq)
  /-- R280. -/
  | iadd64 (t agent : Nat) (r : MopReq)
  /-- R280. -/
  | smin32 (t agent : Nat) (r : MopReq)
  /-- R280. -/
  | smin64 (t agent : Nat) (r : MopReq)
  /-- R280. -/
  | smax32 (t agent : Nat) (r : MopReq)
  /-- R280. -/
  | smax64 (t agent : Nat) (r : MopReq)
  /-- R280. -/
  | umin32 (t agent : Nat) (r : MopReq)
  /-- R280. -/
  | umin64 (t agent : Nat) (r : MopReq)
  /-- R280. -/
  | umax32 (t agent : Nat) (r : MopReq)
  /-- R280. -/
  | umax64 (t agent : Nat) (r : MopReq)
  /-- R280. -/
  | fadd32 (t agent : Nat) (r : MopReq)
  /-- R280. -/
  | faddbf16 (t agent : Nat) (r : MopReq)
  /-- R280. -/
  | fadd16 (t agent : Nat) (r : MopReq)
  /-- R123. -/
  | eaFp32 (t agent : Nat) (r : MopReq)
  /-- R123. -/
  | eaBf16 (t agent : Nat) (r : MopReq)
  /-- R123. -/
  | eaFp16 (t agent : Nat) (r : MopReq)
  /-- R125. -/
  | settleFp32 (t agent : Nat) (r : MopReq)
  /-- R125. -/
  | settleBf16 (t agent : Nat) (r : MopReq)
  /-- R280. -/
  | cas32 (t agent : Nat) (r : MopReq)
  /-- R280. -/
  | cas64 (t agent : Nat) (r : MopReq)
  /-- R280. -/
  | swap32 (t agent : Nat) (r : MopReq)
  /-- R280. -/
  | swap64 (t agent : Nat) (r : MopReq)
  /-- R278: the line leaves its channel's line store. -/
  | lineStoreWriteback (t line : Nat)
  /-- R275. -/
  | scrub (t line : Nat) (ecc : EccFinding)
  /-- R287: cause 0 CE rate, 1 interface error, 2 temperature, 3 software, 4 relock; agent of a software write. -/
  | retrain (t ch cause agent : Nat)
  /-- R287. -/
  | retrainDone (t ch : Nat)
  /-- R288. -/
  | retrainFail (t ch : Nat)
  /-- R288. -/
  | retrainRetry (t ch : Nat)
  /-- R290: cause 1 CE rate, 2 a write of RETIRE by agent. -/
  | retire (t ch cause agent : Nat)
  /-- R292: the next granule moves; whether the lost channel still answers, and what the ECC finds. -/
  | granuleMove (t : Nat) (answers : Bool) (ecc : List (Nat × EccFinding))
  /-- R299. -/
  | cxlLinkRecovery (t port : Nat)
  /-- R299. -/
  | cxlPortDown (t port : Nat)
  /-- R301. -/
  | tierObjCfg (t agent n : Nat) (v : Word)
  /-- R304: the oldest migration of object n. -/
  | migrationCheck (t n : Nat) (found : Found)
  /-- R304. -/
  | migrationDrain (t n : Nat)
  /-- R304: the lines of a list are copied, or all that are left. -/
  | migrationCopy (t n : Nat) (only : Option (List Nat)) (found : Found)
  /-- R310. -/
  | rillEnable (t agent n : Nat) (v : Word)
  /-- R311. -/
  | rillEvaluation (t q : Nat) (found : Found)
  /-- R318. -/
  | ceEpochCfg (t agent n : Nat) (v : Word)
  /-- R318. -/
  | epochCheckDone (t n : Nat) (found : Found)
  /-- R335. -/
  | bucketComplete (t q i : Nat) (found : Found)
  /-- R340. -/
  | bucketTimeout (t q i : Nat)
  /-- R339: the oldest refused message of hub h. -/
  | collResend (t h : Nat)
  /-- R331: the oldest message that a port has delivered is a member's DONE. -/
  | doneMessage (t port : Nat) (found : Found)
  /-- R347. -/
  | flitSend (t link : Nat)
  /-- R349: symbols the FEC corrected, whether the codeword was uncorrectable, whether the CRC holds, and
  whether the receipt met its part of the bound (R510). -/
  | flitReceive (t link : Nat) (words : List Word) (fecCorr : Nat) (fecBad : Bool)
  /-- R349. -/
  | replayTimeout (t link : Nat)
  /-- R350. -/
  | tokenEarn (t link : Nat)
  /-- R346: the oldest message delivered by port agent (0x9000 + l or 0x9100 + p) is a WRITE. -/
  | write (t port : Nat) (found : Found)
  /-- R346. -/
  | writeMasked (t port : Nat) (found : Found)
  /-- R346. -/
  | read (t port : Nat) (found : Found)
  /-- R359. -/
  | mop (t port : Nat) (found : Found)
  /-- R339. -/
  | coll (t port : Nat) (found : Found)
  /-- R346. -/
  | time (t port : Nat)
  /-- R346. -/
  | ack (t port : Nat)
  /-- R346. -/
  | data (t port : Nat)
  /-- R346. -/
  | mopRsp (t port : Nat)
  /-- R358. -/
  | refuse (t port : Nat)
  /-- R352. -/
  | linkEnable (t agent link : Nat) (v : Word)
  /-- R352: the neighbour's identifier, its RESUME bit and its last good SEQ. -/
  | trainingDone (t link peer : Nat) (resume : Bool) (lastSeq : Nat)
  /-- R352. -/
  | trainingTimeout (t link : Nat)
  /-- R353: cause 0 replays, 1 a lane, 2 the neighbour, 3 software (agent). -/
  | linkRetrain (t link cause agent : Nat)
  /-- R353. -/
  | retrainTimeout (t link : Nat)
  /-- R354. -/
  | autoTrain (t link : Nat)
  /-- R354. -/
  | train (t agent link : Nat)
  /-- R360: the outstanding request with this tag. -/
  | peerTimeout (t tag : Nat)
  /-- R356. -/
  | windowValid (t agent w : Nat) (v : Word)
  /-- R357. -/
  | linkRejoin (t w link : Nat)
  /-- R364. -/
  | fabricPacket (t port : Nat) (bytes : List Byte) (found : Found)
  /-- R364. -/
  | rtoResend (t peer cls : Nat)
  /-- R364. -/
  | epeerDown (t peer : Nat)
  /-- R364. -/
  | epeerValid (t agent peer : Nat) (v : Word)
  /-- R365. -/
  | managementFrame (t port : Nat) (bytes : List Byte) (found : Found)
  /-- R365. -/
  | mtxTail (t agent port : Nat) (v : Word) (found : Found)
  /-- R454. -/
  | powerSample (t : Nat) (x : PowerSample)
  /-- R464. -/
  | dutyRamp (t die : Nat)
  /-- R466: cluster, and whether the step is up. -/
  | hclkStep (t cluster : Nat) (up : Bool)
  /-- R458: the reservation with this number. -/
  | reservationGrant (t k : Nat)
  /-- R458. -/
  | reservationEnd (t k : Nat)
  /-- R462. -/
  | starve (t q : Nat)
  /-- R472. -/
  | throttleCont (t : Nat)
  /-- R468: °C per polder P0–P7. -/
  | thermalSample (t : Nat) (temps : List Nat)
  /-- R477: cause 0 SAG_WARN_N, 1 the VIN monitor. -/
  | saveStart (t cause : Nat)
  /-- R478. -/
  | saveDrainEnd (t : Nat)
  /-- R478. -/
  | saveComplete (t : Nat)
  /-- R481. -/
  | holdVinLoss (t : Nat)
  /-- R491. -/
  | dbgCtxrst (t agent : Nat) (v : Word)
  /-- R492: the oldest request. -/
  | contextReset (t : Nat)
  /-- R486: DBG_FENCE_TC_n. -/
  | tcFence (t agent n : Nat) (v : Word)
  /-- R487: DBG_FENCE_HC_n. -/
  | hcFence (t agent n : Nat) (v : Word)
  /-- R405, R484: a write of DBG_HOSTDIE_RESET. -/
  | hostDieReset (t agent : Nat) (v : Word)
  /-- R488: PLL loss (software false) or a write of RESET by agent. -/
  | cofferdam (t die : Nat) (software : Bool) (agent : Nat)
  /-- R488. -/
  | dieResetting (t die : Nat)
  /-- R488: whether the PLLs locked. -/
  | dieResetDone (t die : Nat) (locked : Bool)
  /-- R489. -/
  | readmit (t agent die : Nat)
  /-- R490. -/
  | hubControlError (t hub : Nat)
  /-- R506: the oldest offered event. -/
  | traceEvent (t : Nat)
  /-- R511. -/
  | traceBudgetWindow (t : Nat)
  /-- R509. -/
  | trcMark (t agent : Nat) (v : Word)
  /-- R513. -/
  | counterSample (t : Nat)
  /-- R514, with the scratchpad lines whose parity fails (R175). -/
  | dbgSpDataRead (t agent : Nat) (spBad : List Nat)
  /-- R515: DBG_HC_HALT_n. -/
  | dbgHcHalt (t agent n : Nat) (v : Word)
  /-- R516. -/
  | jtagDebugAccess (t : Nat) (isWrite : Bool) (target : JtagTarget) (v : Word) (found : Found)
  /-- R529. -/
  | i3cWrite (t : Nat) (index : Byte)
  /-- R529. -/
  | i3cRead (t : Nat)
  /-- R531. -/
  | testMode (t : Nat) (high : Bool)
  /-- R46: a read (size bytes) or write by agent a of site n in a traffic class. -/
  | customerDieRequest (t site a cls pa size : Nat) (isWrite : Bool) (data : Line) (found : Found)
  /-- R299. -/
  | cxlLinkRecovered (t port : Nat)
  /-- R369. -/
  | ethLinkUp (t port : Nat) (up : Bool)
  /-- R482: HOLD_VIN in mV. -/
  | holdOkChange (t mv : Nat)
  /-- R529. -/
  | i3cDynamicAddress (t addr : Nat)
  /-- R295. -/
  | cxlError (t port : Nat) (status : Word)
  deriving DecidableEq, Repr

end Sys2Proof
end

