-- ==== Sys2Proof/Decode.lean ====
section
/-! DEFINITION. The command that a word of the table's bits spells: the rows of spec/opcode_table.json give no bits,
so none (log entry 7). The bits of tile instructions (R132–R134) and of queue commands (R200–R212) are fields of the
operands of their rows and are read where their meanings stand. -/

namespace Sys2Proof

/-- The command a word of nbits bits spells: the table gives bits to no row. -/
def decodeTableWord (_nbits _w : Nat) : Option Instr := none

end Sys2Proof
end

