-- ==== Sys2Proof/Config.lean ====
section
/-! DEFINITION. What the manual leaves open, as constants without a value (the free values), and the functions that
other standards define and this manual only names. Nothing can evaluate them, so every claim holds for every value
they may take. -/

namespace Sys2Proof.Config

/-- The free value number n (log entry 11): an order, a choice or a value that the manual says is not fixed. -/
opaque freeWord : Nat → Word

/-- The choice of the RCP result among the FP32 values within the bound of R101 (log entry 10). -/
opaque rcpPick : Word32 → Nat

/-- The choice of the RSQRT result within the bound of R101 (log entry 10). -/
opaque rsqrtPick : Word32 → Nat

/-- The choice of the EXP result within the bound of R101 (log entry 10). -/
opaque expPick : Word32 → Nat

/-- The hop limit of the IPv6 headers that the device sends, which R363 does not give (log entry 138). -/
opaque hopLimit : Byte

/-- The flow label of the IPv6 headers that the device sends, which R363 does not give (log entry 138). -/
opaque flowLabel : Nat

/-- SHA-512, named by R431 and R433 (log entry 9). -/
opaque sha512 : List Byte → List Byte

/-- Ed25519 verification under RFC 8032, named by R435: public key, message, signature (log entry 9). -/
opaque ed25519Verify : List Byte → List Byte → List Byte → Bool

/-- ML-DSA-65 verification under FIPS 204 with a context string, named by R435 (log entry 9). -/
opaque mldsa65Verify : List Byte → List Byte → List Byte → List Byte → Bool

/-- The Ed25519 signature of a report by the device identity of R449 (log entry 9). -/
opaque identitySignEd : List Byte → List Byte

/-- The ML-DSA-65 signature of a report by the device identity of R449, with its context (log entry 9). -/
opaque identitySignMl : List Byte → List Byte → List Byte

/-- The DER certificates of the read-only certificate store of R449 (log entry 9). -/
opaque certificates : List Byte

/-- The traffic class of a host core's accesses to peer windows, which the manual does not give; its low two bits count
(log entry 32). -/
opaque hostClass (core : Nat) : Nat

/-- The words in which SEC_DIKE_RULE_LO and _HI show the three standard rules of R444, whose words the manual does not
give: word w of rule r at 2 r + w (log entry 31). -/
opaque standardRule : Nat → Word

/-- The result of a host-core atomic that has no code in R279: its operation, the old value and the operands
(the core instruction set's, R16, R402; log entry 14). -/
opaque coreAtomic : Nat → Word → Word → Word → Word

/-- The coefficient of a column on an earlier one in the orthonormalisation of R336, whose order of summation the manual does not
give: the earlier column and the column as it stands (log entry 37). -/
opaque gsCoef : List Word32 → List Word32 → Word32

/-- An element of a column less its part along an earlier one, which R336 does not say how to round: the coefficient, the
earlier column's element, and the element (log entry 37). -/
opaque gsLess : Word32 → Word32 → Word32 → Word32

/-- An element of a column divided by its norm, which R336 does not say how to round: the element and the norm (log entry 37).
-/
opaque gsUnit : Word32 → Word32 → Word32

/-- Word w of an entry of a save section whose layout the manual does not give, from the values it holds (R479, log
entry 43). -/
opaque saveWord (section_ w : Nat) (content : List Word) : Word

/-- The size of a flash erase block less one, which the flash announces in SFDP (R427, R450; log entry 51). -/
opaque eraseBlock : Nat

end Sys2Proof.Config
end

