-- ==== Sys2Proof/Machine/Tab.lean ====
section
/-! DEFINITION. Reading and writing a sparse table whose unlisted keys read as a given function of the key. -/

namespace Sys2Proof

variable {α : Type}

/-- The value at a key: that of the first entry of the key, or what an unlisted key reads as. -/
def Tab.get (d : Nat → α) : Tab α → Nat → α
  | [], k => d k
  | (k', v) :: r, k => if k' = k then v else Tab.get d r k

/-- The table without a key. -/
def Tab.drop : Tab α → Nat → Tab α
  | [], _ => []
  | (k', v) :: r, k => if k' = k then Tab.drop r k else (k', v) :: Tab.drop r k

/-- A new entry before the first larger key. -/
def Tab.insert : Tab α → Nat → α → Tab α
  | [], k, v => [(k, v)]
  | (k', v') :: r, k, v => if k < k' then (k, v) :: (k', v') :: r else (k', v') :: Tab.insert r k v

/-- The table with a key given a value; writing what an unlisted key reads as removes the entry. -/
def Tab.put [DecidableEq α] (d : Nat → α) (t : Tab α) (k : Nat) (v : α) : Tab α :=
  if v = d k then Tab.drop t k else Tab.insert (Tab.drop t k) k v

/-- The canonical form: keys strictly rising, no entry equal to what an unlisted key reads as. -/
def Tab.wf [DecidableEq α] (d : Nat → α) : Tab α → Bool
  | [] => true
  | (k, v) :: r => decide (v ≠ d k) && r.all (fun e => decide (k < e.1)) && Tab.wf d r

/-- The keys with an entry, in rising order. -/
def Tab.keys (t : Tab α) : List Nat := t.map Prod.fst

end Sys2Proof
end

