-- ==== Sys2Proof/Machine/Regs.lean ====
section
/-! DEFINITION. The register tables of the manual: where each register of register space lies, its fields, how a
write treats each field (R60, R62, R63) and what it reads after package reset. System register n of host core c
(R390) has the offset 2^32 + 0x40 c + 8 (n - 0xC00), which no bus address reaches. -/

namespace Sys2Proof.Machine

/-- How software reaches a field: RW, RO, W1C, WO, RWL, or a count cleared by a write of all ones (R79, R267). -/
inductive Acc
  | rw | ro | w1c | wo | rwl | ones
  deriving DecidableEq, Repr

/-- What a written value is held to (R62, R63): any value, a numeric range, powers of two clamped down, or codes. -/
inductive Clamp
  | free | range (lo hi : Nat) | pow2 (lo hi : Nat) | codes (ranges : List (Nat × Nat))
  deriving DecidableEq, Repr

/-- A field of a register: lowest bit, width, access, range and reset value. -/
structure RField where
  /-- lowest bit -/
  lo : Nat
  /-- width -/
  w : Nat
  /-- access -/
  acc : Acc
  /-- range -/
  clamp : Clamp
  /-- reset value -/
  reset : Nat
  deriving DecidableEq, Repr

/-- A register, or a row of like registers: the offset of the first, the distance and the number of them, whether
they are transactional (R67), and their fields; every other bit is reserved. -/
structure Reg where
  /-- offset of the first -/
  base : Nat
  /-- distance -/
  stride : Nat
  /-- how many -/
  count : Nat
  /-- marked (T), R67 -/
  txn : Bool
  /-- fields -/
  fields : List RField
  deriving DecidableEq, Repr

/-- Where a field lies: the register row's base and distance, its lowest bit and its width. -/
structure Fld where
  /-- offset of the first register -/
  base : Nat
  /-- distance -/
  stride : Nat
  /-- lowest bit -/
  lo : Nat
  /-- width -/
  w : Nat
  deriving DecidableEq, Repr

/-- The offset of the register of number i that holds a field. -/
def Fld.off (f : Fld) (i : Nat) : Nat := f.base + f.stride * i

/-! Fields of the SYS block. -/

/-- SYS_ID.VENDOR -/
def SYS_ID.VENDOR : Fld := ⟨0x0, 0x0, 0, 16⟩
/-- SYS_ID.FAMILY -/
def SYS_ID.FAMILY : Fld := ⟨0x0, 0x0, 16, 16⟩
/-- SYS_ID.MEMBER -/
def SYS_ID.MEMBER : Fld := ⟨0x0, 0x0, 32, 16⟩
/-- SYS_PART_INFO.PRESENTED_WIDTH -/
def SYS_PART_INFO.PRESENTED_WIDTH : Fld := ⟨0x8, 0x0, 0, 8⟩
/-- SYS_PART_INFO.ENABLED_TC -/
def SYS_PART_INFO.ENABLED_TC : Fld := ⟨0x8, 0x0, 16, 16⟩
/-- SYS_PART_INFO.GRADE -/
def SYS_PART_INFO.GRADE : Fld := ⟨0x8, 0x0, 32, 8⟩
/-- SYS_PART_INFO.STEPPING -/
def SYS_PART_INFO.STEPPING : Fld := ⟨0x8, 0x0, 40, 8⟩
/-- SYS_PARAM_0.TENSOR_DIES -/
def SYS_PARAM_0.TENSOR_DIES : Fld := ⟨0x10, 0x0, 0, 8⟩
/-- SYS_PARAM_0.TC_PER_DIE -/
def SYS_PARAM_0.TC_PER_DIE : Fld := ⟨0x10, 0x0, 8, 8⟩
/-- SYS_PARAM_0.ARRAY_EDGE -/
def SYS_PARAM_0.ARRAY_EDGE : Fld := ⟨0x10, 0x0, 16, 8⟩
/-- SYS_PARAM_0.HOST_CORES -/
def SYS_PARAM_0.HOST_CORES : Fld := ⟨0x10, 0x0, 24, 8⟩
/-- SYS_PARAM_0.HBM_STACKS -/
def SYS_PARAM_0.HBM_STACKS : Fld := ⟨0x10, 0x0, 32, 8⟩
/-- SYS_PARAM_0.LINKS -/
def SYS_PARAM_0.LINKS : Fld := ⟨0x10, 0x0, 40, 8⟩
/-- SYS_PARAM_0.DIR_SLICES -/
def SYS_PARAM_0.DIR_SLICES : Fld := ⟨0x10, 0x0, 48, 8⟩
/-- SYS_PARAM_0.SCRATCHPAD_LOG2 -/
def SYS_PARAM_0.SCRATCHPAD_LOG2 : Fld := ⟨0x10, 0x0, 56, 8⟩
/-- SYS_PARAM_1.QUEUES -/
def SYS_PARAM_1.QUEUES : Fld := ⟨0x18, 0x0, 0, 16⟩
/-- SYS_PARAM_1.SYNC_OBJECTS -/
def SYS_PARAM_1.SYNC_OBJECTS : Fld := ⟨0x18, 0x0, 16, 16⟩
/-- SYS_PARAM_1.CONTEXTS -/
def SYS_PARAM_1.CONTEXTS : Fld := ⟨0x18, 0x0, 32, 16⟩
/-- SYS_PARAM_1.MAILBOXES -/
def SYS_PARAM_1.MAILBOXES : Fld := ⟨0x18, 0x0, 48, 8⟩
/-- SYS_PARAM_1.CXL_PORTS -/
def SYS_PARAM_1.CXL_PORTS : Fld := ⟨0x18, 0x0, 56, 8⟩
/-- SYS_TC_ENABLE_n.EN -/
def SYS_TC_ENABLE_n.EN : Fld := ⟨0x20, 0x8, 0, 52⟩
/-- SYS_TIMEBASE.COUNT -/
def SYS_TIMEBASE.COUNT : Fld := ⟨0x100, 0x0, 0, 64⟩
/-- SYS_TB_CFG.REF_LINK -/
def SYS_TB_CFG.REF_LINK : Fld := ⟨0x108, 0x0, 0, 5⟩
/-- SYS_TB_CFG.ROOT -/
def SYS_TB_CFG.ROOT : Fld := ⟨0x108, 0x0, 5, 1⟩
/-- SYS_TB_CFG.SYNC_LOG2 -/
def SYS_TB_CFG.SYNC_LOG2 : Fld := ⟨0x108, 0x0, 8, 4⟩
/-- SYS_TB_CFG.ENABLE -/
def SYS_TB_CFG.ENABLE : Fld := ⟨0x108, 0x0, 12, 1⟩
/-- SYS_TB_STATUS.STATE -/
def SYS_TB_STATUS.STATE : Fld := ⟨0x110, 0x0, 0, 3⟩
/-- SYS_TB_STATUS.STEPS -/
def SYS_TB_STATUS.STEPS : Fld := ⟨0x110, 0x0, 8, 8⟩
/-- SYS_TB_STATUS.OFFSET -/
def SYS_TB_STATUS.OFFSET : Fld := ⟨0x110, 0x0, 32, 16⟩
/-- SYS_TB_STATUS.ALIGN_FAULT -/
def SYS_TB_STATUS.ALIGN_FAULT : Fld := ⟨0x110, 0x0, 48, 1⟩
/-- SYS_CLK_STATUS.TDIE_LOCK -/
def SYS_CLK_STATUS.TDIE_LOCK : Fld := ⟨0x118, 0x0, 0, 4⟩
/-- SYS_CLK_STATUS.HOST_LOCK -/
def SYS_CLK_STATUS.HOST_LOCK : Fld := ⟨0x118, 0x0, 4, 1⟩
/-- SYS_CLK_STATUS.HUB_LOCK -/
def SYS_CLK_STATUS.HUB_LOCK : Fld := ⟨0x118, 0x0, 5, 2⟩
/-- SYS_CLK_STATUS.HBM_LOCK -/
def SYS_CLK_STATUS.HBM_LOCK : Fld := ⟨0x118, 0x0, 8, 12⟩
/-- SYS_CLK_STATUS.TDIE_WALLED -/
def SYS_CLK_STATUS.TDIE_WALLED : Fld := ⟨0x118, 0x0, 24, 4⟩
/-- SYS_REG_STATUS.IGNORED_WRITE -/
def SYS_REG_STATUS.IGNORED_WRITE : Fld := ⟨0x120, 0x0, 0, 1⟩
/-- SYS_REG_STATUS.BAD_CODE -/
def SYS_REG_STATUS.BAD_CODE : Fld := ⟨0x120, 0x0, 1, 1⟩
/-- SYS_REG_STATUS.COUNT -/
def SYS_REG_STATUS.COUNT : Fld := ⟨0x120, 0x0, 16, 16⟩
/-- SYS_REG_LAST_ADDR.OFFSET -/
def SYS_REG_LAST_ADDR.OFFSET : Fld := ⟨0x128, 0x0, 0, 32⟩
/-- SYS_REG_LAST_ADDR.AGENT -/
def SYS_REG_LAST_ADDR.AGENT : Fld := ⟨0x128, 0x0, 32, 16⟩
/-- SYS_CDS_STATUS_n.STATE -/
def SYS_CDS_STATUS_n.STATE : Fld := ⟨0x200, 0x8, 0, 3⟩
/-- SYS_CDS_STATUS_n.RATE -/
def SYS_CDS_STATUS_n.RATE : Fld := ⟨0x200, 0x8, 4, 3⟩
/-- SYS_CDS_STATUS_n.LANES_REPAIRED -/
def SYS_CDS_STATUS_n.LANES_REPAIRED : Fld := ⟨0x200, 0x8, 8, 4⟩
/-- SYS_CDS_STATUS_n.POWER -/
def SYS_CDS_STATUS_n.POWER : Fld := ⟨0x200, 0x8, 16, 16⟩
/-- SYS_CDS_STATUS_n.OVER -/
def SYS_CDS_STATUS_n.OVER : Fld := ⟨0x200, 0x8, 32, 1⟩
/-- SYS_CDS_STATUS_n.CUT -/
def SYS_CDS_STATUS_n.CUT : Fld := ⟨0x200, 0x8, 33, 1⟩
/-- SYS_CDS_DESC.WORD -/
def SYS_CDS_DESC.WORD : Fld := ⟨0x240, 0x8, 0, 64⟩
/-- SYS_PROT_LOCK.LOCK -/
def SYS_PROT_LOCK.LOCK : Fld := ⟨0x300, 0x0, 0, 1⟩

/-- The registers of the SYS block. -/
def regsSYS : List Reg := [
  -- SYS_ID
  ⟨0x0, 0x0, 1, false, [⟨0, 16, .ro, .free, 6743⟩, ⟨16, 16, .ro, .free, 28688⟩, ⟨32, 16, .ro, .free, 5⟩]⟩,
  -- SYS_PART_INFO
  ⟨0x8, 0x0, 1, false, [⟨0, 8, .ro, .free, 0⟩, ⟨16, 16, .ro, .free, 0⟩, ⟨32, 8, .ro, .free, 0⟩, ⟨40, 8, .ro, .free, 0⟩]⟩,
  -- SYS_PARAM_0
  ⟨0x10, 0x0, 1, false, [⟨0, 8, .ro, .free, 4⟩, ⟨8, 8, .ro, .free, 52⟩, ⟨16, 8, .ro, .free, 128⟩, ⟨24, 8, .ro, .free, 96⟩, ⟨32, 8, .ro, .free, 12⟩, ⟨40, 8, .ro, .free, 24⟩, ⟨48, 8, .ro, .free, 32⟩, ⟨56, 8, .ro, .free, 22⟩]⟩,
  -- SYS_PARAM_1
  ⟨0x18, 0x0, 1, false, [⟨0, 16, .ro, .free, 16384⟩, ⟨16, 16, .ro, .free, 8192⟩, ⟨32, 16, .ro, .free, 4096⟩, ⟨48, 8, .ro, .free, 64⟩, ⟨56, 8, .ro, .free, 8⟩]⟩,
  -- SYS_TC_ENABLE_n
  ⟨0x20, 0x8, 4, false, [⟨0, 52, .ro, .free, 0⟩]⟩,
  -- SYS_TIMEBASE
  ⟨0x100, 0x0, 1, false, [⟨0, 64, .ro, .free, 0⟩]⟩,
  -- SYS_TB_CFG
  ⟨0x108, 0x0, 1, false, [⟨0, 5, .rw, .range 0 23, 0⟩, ⟨5, 1, .rw, .free, 1⟩, ⟨8, 4, .rw, .range 12 15, 15⟩, ⟨12, 1, .rw, .free, 0⟩]⟩,
  -- SYS_TB_STATUS
  ⟨0x110, 0x0, 1, false, [⟨0, 3, .ro, .free, 0⟩, ⟨8, 8, .ro, .free, 0⟩, ⟨32, 16, .ro, .free, 0⟩, ⟨48, 1, .w1c, .free, 0⟩]⟩,
  -- SYS_CLK_STATUS
  ⟨0x118, 0x0, 1, false, [⟨0, 4, .ro, .free, 0⟩, ⟨4, 1, .ro, .free, 0⟩, ⟨5, 2, .ro, .free, 0⟩, ⟨8, 12, .ro, .free, 0⟩, ⟨24, 4, .ro, .free, 0⟩]⟩,
  -- SYS_REG_STATUS
  ⟨0x120, 0x0, 1, false, [⟨0, 1, .w1c, .free, 0⟩, ⟨1, 1, .w1c, .free, 0⟩, ⟨16, 16, .ro, .free, 0⟩]⟩,
  -- SYS_REG_LAST_ADDR
  ⟨0x128, 0x0, 1, false, [⟨0, 32, .ro, .free, 0⟩, ⟨32, 16, .ro, .free, 0⟩]⟩,
  -- SYS_CDS_STATUS_n
  ⟨0x200, 0x8, 2, false, [⟨0, 3, .ro, .free, 0⟩, ⟨4, 3, .ro, .free, 0⟩, ⟨8, 4, .ro, .free, 0⟩, ⟨16, 16, .ro, .free, 0⟩, ⟨32, 1, .w1c, .free, 0⟩, ⟨33, 1, .w1c, .free, 0⟩]⟩,
  -- SYS_CDS_DESC
  ⟨0x240, 0x8, 16, false, [⟨0, 64, .ro, .free, 0⟩]⟩,
  -- SYS_PROT_LOCK
  ⟨0x300, 0x0, 1, false, [⟨0, 1, .rwl, .free, 0⟩]⟩]

/-! Fields of the TXN block. -/

/-- TXN_BEGIN.RESULT -/
def TXN_BEGIN.RESULT : Fld := ⟨0x10000, 0x0, 0, 16⟩
/-- TXN_COMMIT.SYNC -/
def TXN_COMMIT.SYNC : Fld := ⟨0x10008, 0x0, 0, 13⟩
/-- TXN_COMMIT.SIGNAL -/
def TXN_COMMIT.SIGNAL : Fld := ⟨0x10008, 0x0, 13, 1⟩
/-- TXN_ROLLBACK.GO -/
def TXN_ROLLBACK.GO : Fld := ⟨0x10010, 0x0, 0, 1⟩
/-- TXN_STATUS.STATE -/
def TXN_STATUS.STATE : Fld := ⟨0x10018, 0x0, 0, 2⟩
/-- TXN_STATUS.OVERFLOW -/
def TXN_STATUS.OVERFLOW : Fld := ⟨0x10018, 0x0, 2, 1⟩
/-- TXN_STATUS.RESULT -/
def TXN_STATUS.RESULT : Fld := ⟨0x10018, 0x0, 8, 8⟩
/-- TXN_STATUS.OWNER -/
def TXN_STATUS.OWNER : Fld := ⟨0x10018, 0x0, 16, 16⟩
/-- TXN_STATUS.ENTRIES -/
def TXN_STATUS.ENTRIES : Fld := ⟨0x10018, 0x0, 32, 9⟩
/-- TXN_STATUS.FOREIGN -/
def TXN_STATUS.FOREIGN : Fld := ⟨0x10018, 0x0, 48, 16⟩
/-- TXN_CFG.LEASE -/
def TXN_CFG.LEASE : Fld := ⟨0x10020, 0x0, 0, 20⟩
/-- TXN_LAST_TIME.TICK -/
def TXN_LAST_TIME.TICK : Fld := ⟨0x10028, 0x0, 0, 64⟩
/-- TXN_REFUSED_ADDR.OFFSET -/
def TXN_REFUSED_ADDR.OFFSET : Fld := ⟨0x10030, 0x0, 0, 32⟩
/-- TXN_ABORT.GO -/
def TXN_ABORT.GO : Fld := ⟨0x10038, 0x0, 0, 1⟩

/-- The registers of the TXN block. -/
def regsTXN : List Reg := [
  -- TXN_BEGIN
  ⟨0x10000, 0x0, 1, false, [⟨0, 16, .ro, .free, 0⟩]⟩,
  -- TXN_COMMIT
  ⟨0x10008, 0x0, 1, false, [⟨0, 13, .wo, .free, 0⟩, ⟨13, 1, .wo, .free, 0⟩]⟩,
  -- TXN_ROLLBACK
  ⟨0x10010, 0x0, 1, false, [⟨0, 1, .wo, .free, 0⟩]⟩,
  -- TXN_STATUS
  ⟨0x10018, 0x0, 1, false, [⟨0, 2, .ro, .free, 0⟩, ⟨2, 1, .ro, .free, 0⟩, ⟨8, 8, .ro, .free, 0⟩, ⟨16, 16, .ro, .free, 0⟩, ⟨32, 9, .ro, .free, 0⟩, ⟨48, 16, .ones, .free, 0⟩]⟩,
  -- TXN_CFG
  ⟨0x10020, 0x0, 1, false, [⟨0, 20, .rw, .range 100 1000000, 10000⟩]⟩,
  -- TXN_LAST_TIME
  ⟨0x10028, 0x0, 1, false, [⟨0, 64, .ro, .free, 0⟩]⟩,
  -- TXN_REFUSED_ADDR
  ⟨0x10030, 0x0, 1, false, [⟨0, 32, .ro, .free, 0⟩]⟩,
  -- TXN_ABORT
  ⟨0x10038, 0x0, 1, false, [⟨0, 1, .wo, .free, 0⟩]⟩]

/-! Fields of the SLU block. -/

/-- SLU_PKG_CFG.SUSTAIN_W -/
def SLU_PKG_CFG.SUSTAIN_W : Fld := ⟨0x100000, 0x0, 0, 13⟩
/-- SLU_PKG_CFG.PKG_PEAK_W -/
def SLU_PKG_CFG.PKG_PEAK_W : Fld := ⟨0x100000, 0x0, 16, 13⟩
/-- SLU_PKG_CFG.EXCURSION_MS -/
def SLU_PKG_CFG.EXCURSION_MS : Fld := ⟨0x100000, 0x0, 32, 4⟩
/-- SLU_PKG_STATUS.PM10 -/
def SLU_PKG_STATUS.PM10 : Fld := ⟨0x100008, 0x0, 0, 13⟩
/-- SLU_PKG_STATUS.PM1 -/
def SLU_PKG_STATUS.PM1 : Fld := ⟨0x100008, 0x0, 16, 13⟩
/-- SLU_PKG_STATUS.PM100 -/
def SLU_PKG_STATUS.PM100 : Fld := ⟨0x100008, 0x0, 32, 13⟩
/-- SLU_PKG_STATUS.HOLD_OK -/
def SLU_PKG_STATUS.HOLD_OK : Fld := ⟨0x100008, 0x0, 48, 1⟩
/-- SLU_PKG_STATUS.SAG -/
def SLU_PKG_STATUS.SAG : Fld := ⟨0x100008, 0x0, 49, 1⟩
/-- SLU_PKG_EXC.EXC_US -/
def SLU_PKG_EXC.EXC_US : Fld := ⟨0x100010, 0x0, 0, 17⟩
/-- SLU_PKG_EXC.VIN_A10 -/
def SLU_PKG_EXC.VIN_A10 : Fld := ⟨0x100010, 0x0, 20, 12⟩
/-- SLU_PKG_EXC.VIN_MV -/
def SLU_PKG_EXC.VIN_MV : Fld := ⟨0x100010, 0x0, 32, 16⟩
/-- SLU_PKG_FORECAST.NEXT_1MS -/
def SLU_PKG_FORECAST.NEXT_1MS : Fld := ⟨0x100018, 0x0, 0, 13⟩
/-- SLU_PKG_FORECAST.RESERVED -/
def SLU_PKG_FORECAST.RESERVED : Fld := ⟨0x100018, 0x0, 16, 13⟩
/-- SLU_CFG.DEFAULT_PCLASS -/
def SLU_CFG.DEFAULT_PCLASS : Fld := ⟨0x100020, 0x0, 0, 3⟩
/-- SLU_CFG.STARVE_US -/
def SLU_CFG.STARVE_US : Fld := ⟨0x100020, 0x0, 4, 12⟩
/-- SLU_CFG.PREARM_US -/
def SLU_CFG.PREARM_US : Fld := ⟨0x100020, 0x0, 16, 8⟩
/-- SLU_CFG.STEP_W -/
def SLU_CFG.STEP_W : Fld := ⟨0x100020, 0x0, 24, 11⟩
/-- SLU_CFG.THROTTLE_C -/
def SLU_CFG.THROTTLE_C : Fld := ⟨0x100020, 0x0, 36, 7⟩
/-- SLU_PCLASS.W0 -/
def SLU_PCLASS.W0 : Fld := ⟨0x100028, 0x0, 0, 8⟩
/-- SLU_PCLASS.W1 -/
def SLU_PCLASS.W1 : Fld := ⟨0x100028, 0x0, 8, 8⟩
/-- SLU_PCLASS.W2 -/
def SLU_PCLASS.W2 : Fld := ⟨0x100028, 0x0, 16, 8⟩
/-- SLU_PCLASS.W3 -/
def SLU_PCLASS.W3 : Fld := ⟨0x100028, 0x0, 24, 8⟩
/-- SLU_PCLASS.W4 -/
def SLU_PCLASS.W4 : Fld := ⟨0x100028, 0x0, 32, 8⟩
/-- SLU_PCLASS.W5 -/
def SLU_PCLASS.W5 : Fld := ⟨0x100028, 0x0, 40, 8⟩
/-- SLU_PCLASS.W6 -/
def SLU_PCLASS.W6 : Fld := ⟨0x100028, 0x0, 48, 8⟩
/-- SLU_PCLASS.W7 -/
def SLU_PCLASS.W7 : Fld := ⟨0x100028, 0x0, 56, 8⟩
/-- SLU_CLASS_FLOOR.FLOOR0 -/
def SLU_CLASS_FLOOR.FLOOR0 : Fld := ⟨0x100030, 0x0, 0, 12⟩
/-- SLU_CLASS_FLOOR.FLOOR1 -/
def SLU_CLASS_FLOOR.FLOOR1 : Fld := ⟨0x100030, 0x0, 16, 12⟩
/-- SLU_CLASS_FLOOR.FLOOR2 -/
def SLU_CLASS_FLOOR.FLOOR2 : Fld := ⟨0x100030, 0x0, 32, 12⟩
/-- SLU_POLDER_CFG.BUDGET_W -/
def SLU_POLDER_CFG.BUDGET_W : Fld := ⟨0x100100, 0x20, 0, 12⟩
/-- SLU_POLDER_CFG.PEAK_W -/
def SLU_POLDER_CFG.PEAK_W : Fld := ⟨0x100100, 0x20, 16, 12⟩
/-- SLU_POLDER_CFG.IMAX_A -/
def SLU_POLDER_CFG.IMAX_A : Fld := ⟨0x100100, 0x20, 32, 10⟩
/-- SLU_POLDER_STATUS.M10 -/
def SLU_POLDER_STATUS.M10 : Fld := ⟨0x100108, 0x20, 0, 12⟩
/-- SLU_POLDER_STATUS.M1 -/
def SLU_POLDER_STATUS.M1 : Fld := ⟨0x100108, 0x20, 16, 12⟩
/-- SLU_POLDER_STATUS.M100 -/
def SLU_POLDER_STATUS.M100 : Fld := ⟨0x100108, 0x20, 32, 12⟩
/-- SLU_POLDER_STATUS.RESERVED -/
def SLU_POLDER_STATUS.RESERVED : Fld := ⟨0x100108, 0x20, 48, 12⟩
/-- SLU_POLDER_THR.DUTY -/
def SLU_POLDER_THR.DUTY : Fld := ⟨0x100110, 0x20, 0, 5⟩
/-- SLU_POLDER_THR.TEMP_C -/
def SLU_POLDER_THR.TEMP_C : Fld := ⟨0x100110, 0x20, 8, 8⟩
/-- SLU_POLDER_THR.OPEN -/
def SLU_POLDER_THR.OPEN : Fld := ⟨0x100110, 0x20, 16, 6⟩
/-- SLU_POLDER_ENERGY.UJ -/
def SLU_POLDER_ENERGY.UJ : Fld := ⟨0x100118, 0x20, 0, 64⟩
/-- SLU_HCLK.MAX -/
def SLU_HCLK.MAX : Fld := ⟨0x100400, 0x8, 0, 6⟩
/-- SLU_HCLK.CUR -/
def SLU_HCLK.CUR : Fld := ⟨0x100400, 0x8, 8, 6⟩
/-- SLU_LOG_RING.BASE -/
def SLU_LOG_RING.BASE : Fld := ⟨0x101000, 0x0, 12, 40⟩
/-- SLU_LOG_CFG.ENTRIES -/
def SLU_LOG_CFG.ENTRIES : Fld := ⟨0x101008, 0x0, 0, 17⟩
/-- SLU_LOG_CFG.NOTIFY_SYNC -/
def SLU_LOG_CFG.NOTIFY_SYNC : Fld := ⟨0x101008, 0x0, 17, 13⟩
/-- SLU_LOG_CFG.NOTIFY -/
def SLU_LOG_CFG.NOTIFY : Fld := ⟨0x101008, 0x0, 30, 1⟩
/-- SLU_LOG_CFG.ENABLE -/
def SLU_LOG_CFG.ENABLE : Fld := ⟨0x101008, 0x0, 31, 1⟩
/-- SLU_LOG_HEAD.HEAD -/
def SLU_LOG_HEAD.HEAD : Fld := ⟨0x101010, 0x0, 0, 32⟩
/-- SLU_LOG_STATUS.TAIL -/
def SLU_LOG_STATUS.TAIL : Fld := ⟨0x101018, 0x0, 0, 32⟩
/-- SLU_LOG_STATUS.LOST -/
def SLU_LOG_STATUS.LOST : Fld := ⟨0x101018, 0x0, 32, 16⟩
/-- SLU_HINT_STATUS.HELD -/
def SLU_HINT_STATUS.HELD : Fld := ⟨0x102000, 0x0, 0, 11⟩
/-- SLU_HINT_STATUS.DROPPED -/
def SLU_HINT_STATUS.DROPPED : Fld := ⟨0x102000, 0x0, 32, 16⟩

/-- The registers of the SLU block. -/
def regsSLU : List Reg := [
  -- SLU_PKG_CFG
  ⟨0x100000, 0x0, 1, true, [⟨0, 13, .rw, .range 1000 3600, 3600⟩, ⟨16, 13, .rw, .range 1000 4200, 4200⟩, ⟨32, 4, .rw, .range 0 10, 10⟩]⟩,
  -- SLU_PKG_STATUS
  ⟨0x100008, 0x0, 1, false, [⟨0, 13, .ro, .free, 0⟩, ⟨16, 13, .ro, .free, 0⟩, ⟨32, 13, .ro, .free, 0⟩, ⟨48, 1, .ro, .free, 0⟩, ⟨49, 1, .ro, .free, 0⟩]⟩,
  -- SLU_PKG_EXC
  ⟨0x100010, 0x0, 1, false, [⟨0, 17, .ro, .free, 0⟩, ⟨20, 12, .ro, .free, 0⟩, ⟨32, 16, .ro, .free, 0⟩]⟩,
  -- SLU_PKG_FORECAST
  ⟨0x100018, 0x0, 1, false, [⟨0, 13, .ro, .free, 0⟩, ⟨16, 13, .ro, .free, 0⟩]⟩,
  -- SLU_CFG
  ⟨0x100020, 0x0, 1, true, [⟨0, 3, .rw, .free, 4⟩, ⟨4, 12, .rw, .range 10 4000, 100⟩, ⟨16, 8, .rw, .range 0 200, 20⟩, ⟨24, 11, .rw, .range 20 1000, 100⟩, ⟨36, 7, .rw, .range 70 100, 100⟩]⟩,
  -- SLU_PCLASS
  ⟨0x100028, 0x0, 1, true, [⟨0, 8, .rw, .free, 5⟩, ⟨8, 8, .rw, .free, 20⟩, ⟨16, 8, .rw, .free, 40⟩, ⟨24, 8, .rw, .free, 60⟩, ⟨32, 8, .rw, .free, 80⟩, ⟨40, 8, .rw, .free, 95⟩, ⟨48, 8, .rw, .free, 110⟩, ⟨56, 8, .rw, .free, 125⟩]⟩,
  -- SLU_CLASS_FLOOR
  ⟨0x100030, 0x0, 1, true, [⟨0, 12, .rw, .range 0 3600, 0⟩, ⟨16, 12, .rw, .range 0 3600, 0⟩, ⟨32, 12, .rw, .range 0 3600, 0⟩]⟩,
  -- SLU_POLDER_CFG
  ⟨0x100100, 0x0, 1, true, [⟨0, 12, .rw, .range 20 1500, 750⟩, ⟨16, 12, .rw, .range 20 1800, 850⟩, ⟨32, 10, .rw, .range 10 1000, 500⟩]⟩,
  -- SLU_POLDER_CFG
  ⟨0x100120, 0x0, 1, true, [⟨0, 12, .rw, .range 20 1500, 750⟩, ⟨16, 12, .rw, .range 20 1800, 850⟩, ⟨32, 10, .rw, .range 10 1000, 500⟩]⟩,
  -- SLU_POLDER_CFG
  ⟨0x100140, 0x0, 1, true, [⟨0, 12, .rw, .range 20 1500, 750⟩, ⟨16, 12, .rw, .range 20 1800, 850⟩, ⟨32, 10, .rw, .range 10 1000, 500⟩]⟩,
  -- SLU_POLDER_CFG
  ⟨0x100160, 0x0, 1, true, [⟨0, 12, .rw, .range 20 1500, 750⟩, ⟨16, 12, .rw, .range 20 1800, 850⟩, ⟨32, 10, .rw, .range 10 1000, 500⟩]⟩,
  -- SLU_POLDER_CFG
  ⟨0x100180, 0x0, 1, true, [⟨0, 12, .rw, .range 20 1500, 300⟩, ⟨16, 12, .rw, .range 20 1800, 360⟩, ⟨32, 10, .rw, .range 10 1000, 220⟩]⟩,
  -- SLU_POLDER_CFG
  ⟨0x1001a0, 0x0, 1, true, [⟨0, 12, .rw, .range 20 1500, 320⟩, ⟨16, 12, .rw, .range 20 1800, 380⟩, ⟨32, 10, .rw, .range 10 1000, 230⟩]⟩,
  -- SLU_POLDER_CFG
  ⟨0x1001c0, 0x0, 1, true, [⟨0, 12, .rw, .range 20 1500, 320⟩, ⟨16, 12, .rw, .range 20 1800, 380⟩, ⟨32, 10, .rw, .range 10 1000, 230⟩]⟩,
  -- SLU_POLDER_CFG
  ⟨0x1001e0, 0x0, 1, true, [⟨0, 12, .rw, .range 20 1500, 560⟩, ⟨16, 12, .rw, .range 20 1800, 620⟩, ⟨32, 10, .rw, .range 10 1000, 380⟩]⟩,
  -- SLU_POLDER_STATUS
  ⟨0x100108, 0x20, 8, false, [⟨0, 12, .ro, .free, 0⟩, ⟨16, 12, .ro, .free, 0⟩, ⟨32, 12, .ro, .free, 0⟩, ⟨48, 12, .ro, .free, 0⟩]⟩,
  -- SLU_POLDER_THR
  ⟨0x100110, 0x20, 8, false, [⟨0, 5, .ro, .free, 16⟩, ⟨8, 8, .ro, .free, 0⟩, ⟨16, 6, .ro, .free, 0⟩]⟩,
  -- SLU_POLDER_ENERGY
  ⟨0x100118, 0x20, 8, false, [⟨0, 64, .ro, .free, 0⟩]⟩,
  -- SLU_HCLK
  ⟨0x100400, 0x8, 12, true, [⟨0, 6, .rw, .range 10 32, 32⟩, ⟨8, 6, .ro, .free, 32⟩]⟩,
  -- SLU_LOG_RING
  ⟨0x101000, 0x0, 1, false, [⟨12, 40, .rw, .free, 0⟩]⟩,
  -- SLU_LOG_CFG
  ⟨0x101008, 0x0, 1, false, [⟨0, 17, .rw, .pow2 64 65536, 64⟩, ⟨17, 13, .rw, .free, 0⟩, ⟨30, 1, .rw, .free, 0⟩, ⟨31, 1, .rw, .free, 0⟩]⟩,
  -- SLU_LOG_HEAD
  ⟨0x101010, 0x0, 1, false, [⟨0, 32, .rw, .free, 0⟩]⟩,
  -- SLU_LOG_STATUS
  ⟨0x101018, 0x0, 1, false, [⟨0, 32, .ro, .free, 0⟩, ⟨32, 16, .ro, .free, 0⟩]⟩,
  -- SLU_HINT_STATUS
  ⟨0x102000, 0x0, 1, false, [⟨0, 11, .ro, .free, 0⟩, ⟨32, 16, .ro, .free, 0⟩]⟩]

/-! Fields of the QEDB block. -/

/-- QE_DB_TAIL.TAIL -/
def QE_DB_TAIL.TAIL : Fld := ⟨0x1000000, 0x1000, 0, 32⟩
/-- QE_DB_HEAD.HEAD -/
def QE_DB_HEAD.HEAD : Fld := ⟨0x1000008, 0x1000, 0, 32⟩
/-- QE_DB_CQ_HEAD.CQ_HEAD -/
def QE_DB_CQ_HEAD.CQ_HEAD : Fld := ⟨0x1000010, 0x1000, 0, 32⟩
/-- QE_DB_STATUS.STATE -/
def QE_DB_STATUS.STATE : Fld := ⟨0x1000018, 0x1000, 0, 2⟩
/-- QE_DB_STATUS.REASON -/
def QE_DB_STATUS.REASON : Fld := ⟨0x1000018, 0x1000, 8, 4⟩
/-- QE_DB_STATUS.CQ_TAIL -/
def QE_DB_STATUS.CQ_TAIL : Fld := ⟨0x1000018, 0x1000, 32, 32⟩

/-- The registers of the QEDB block. -/
def regsQEDB : List Reg := [
  -- QE_DB_TAIL
  ⟨0x1000000, 0x1000, 16384, false, [⟨0, 32, .rw, .free, 0⟩]⟩,
  -- QE_DB_HEAD
  ⟨0x1000008, 0x1000, 16384, false, [⟨0, 32, .ro, .free, 0⟩]⟩,
  -- QE_DB_CQ_HEAD
  ⟨0x1000010, 0x1000, 16384, false, [⟨0, 32, .rw, .free, 0⟩]⟩,
  -- QE_DB_STATUS
  ⟨0x1000018, 0x1000, 16384, false, [⟨0, 2, .ro, .free, 0⟩, ⟨8, 4, .ro, .free, 0⟩, ⟨32, 32, .ro, .free, 0⟩]⟩]

/-! Fields of the QE block. -/

/-- QE_Q_RING.BASE -/
def QE_Q_RING.BASE : Fld := ⟨0x5000000, 0x40, 12, 40⟩
/-- QE_Q_CFG.SLOTS -/
def QE_Q_CFG.SLOTS : Fld := ⟨0x5000008, 0x40, 0, 17⟩
/-- QE_Q_CFG.CONTEXT -/
def QE_Q_CFG.CONTEXT : Fld := ⟨0x5000008, 0x40, 20, 12⟩
/-- QE_Q_CFG.MAX_INFLIGHT -/
def QE_Q_CFG.MAX_INFLIGHT : Fld := ⟨0x5000008, 0x40, 32, 9⟩
/-- QE_Q_CFG.STOP_ON_ERR -/
def QE_Q_CFG.STOP_ON_ERR : Fld := ⟨0x5000008, 0x40, 41, 1⟩
/-- QE_Q_CFG.ENABLE -/
def QE_Q_CFG.ENABLE : Fld := ⟨0x5000008, 0x40, 42, 1⟩
/-- QE_Q_SCHED.CLASS -/
def QE_Q_SCHED.CLASS : Fld := ⟨0x5000010, 0x40, 0, 2⟩
/-- QE_Q_SCHED.WEIGHT -/
def QE_Q_SCHED.WEIGHT : Fld := ⟨0x5000010, 0x40, 8, 8⟩
/-- QE_Q_CQ_BASE.BASE -/
def QE_Q_CQ_BASE.BASE : Fld := ⟨0x5000018, 0x40, 12, 40⟩
/-- QE_Q_CQ_CFG.ENTRIES -/
def QE_Q_CQ_CFG.ENTRIES : Fld := ⟨0x5000020, 0x40, 0, 17⟩
/-- QE_Q_CQ_CFG.NOTIFY_SYNC -/
def QE_Q_CQ_CFG.NOTIFY_SYNC : Fld := ⟨0x5000020, 0x40, 20, 13⟩
/-- QE_Q_CQ_CFG.NOTIFY -/
def QE_Q_CQ_CFG.NOTIFY : Fld := ⟨0x5000020, 0x40, 33, 1⟩
/-- QE_Q_STATUS.STATE -/
def QE_Q_STATUS.STATE : Fld := ⟨0x5000028, 0x40, 0, 2⟩
/-- QE_Q_STATUS.REASON -/
def QE_Q_STATUS.REASON : Fld := ⟨0x5000028, 0x40, 8, 4⟩
/-- QE_Q_STATUS.INFLIGHT -/
def QE_Q_STATUS.INFLIGHT : Fld := ⟨0x5000028, 0x40, 16, 9⟩
/-- QE_Q_STATUS.HEAD -/
def QE_Q_STATUS.HEAD : Fld := ⟨0x5000028, 0x40, 32, 32⟩
/-- QE_Q_CTRL.RESUME -/
def QE_Q_CTRL.RESUME : Fld := ⟨0x5000030, 0x40, 0, 1⟩
/-- QE_Q_CTRL.ABANDON -/
def QE_Q_CTRL.ABANDON : Fld := ⟨0x5000030, 0x40, 1, 1⟩
/-- QE_CTX_SEED.SEED -/
def QE_CTX_SEED.SEED : Fld := ⟨0x5100000, 0x8, 0, 64⟩

/-- The registers of the QE block. -/
def regsQE : List Reg := [
  -- QE_Q_RING
  ⟨0x5000000, 0x40, 16384, false, [⟨12, 40, .rw, .free, 0⟩]⟩,
  -- QE_Q_CFG
  ⟨0x5000008, 0x40, 16384, false, [⟨0, 17, .rw, .pow2 16 65536, 16⟩, ⟨20, 12, .rw, .free, 0⟩, ⟨32, 9, .rw, .range 1 256, 64⟩, ⟨41, 1, .rw, .free, 1⟩, ⟨42, 1, .rw, .free, 0⟩]⟩,
  -- QE_Q_SCHED
  ⟨0x5000010, 0x40, 16384, true, [⟨0, 2, .rw, .free, 3⟩, ⟨8, 8, .rw, .range 1 255, 16⟩]⟩,
  -- QE_Q_CQ_BASE
  ⟨0x5000018, 0x40, 16384, false, [⟨12, 40, .rw, .free, 0⟩]⟩,
  -- QE_Q_CQ_CFG
  ⟨0x5000020, 0x40, 16384, false, [⟨0, 17, .rw, .pow2 16 65536, 16⟩, ⟨20, 13, .rw, .free, 0⟩, ⟨33, 1, .rw, .free, 0⟩]⟩,
  -- QE_Q_STATUS
  ⟨0x5000028, 0x40, 16384, false, [⟨0, 2, .ro, .free, 0⟩, ⟨8, 4, .ro, .free, 0⟩, ⟨16, 9, .ro, .free, 0⟩, ⟨32, 32, .ro, .free, 0⟩]⟩,
  -- QE_Q_CTRL
  ⟨0x5000030, 0x40, 16384, false, [⟨0, 1, .wo, .free, 0⟩, ⟨1, 1, .wo, .free, 0⟩]⟩,
  -- QE_CTX_SEED
  ⟨0x5100000, 0x8, 4096, false, [⟨0, 64, .rw, .free, 0⟩]⟩]

/-! Fields of the SY block. -/

/-- SY_VAL.VALUE -/
def SY_VAL.VALUE : Fld := ⟨0x8000000, 0x40, 0, 64⟩
/-- SY_ADD.V -/
def SY_ADD.V : Fld := ⟨0x8000008, 0x40, 0, 64⟩
/-- SY_SET.V -/
def SY_SET.V : Fld := ⟨0x8000010, 0x40, 0, 64⟩
/-- SY_TRIG_CFG.ARM -/
def SY_TRIG_CFG.ARM : Fld := ⟨0x8000018, 0x40, 0, 1⟩
/-- SY_TRIG_CFG.COND -/
def SY_TRIG_CFG.COND : Fld := ⟨0x8000018, 0x40, 1, 2⟩
/-- SY_TRIG_CFG.ACTION -/
def SY_TRIG_CFG.ACTION : Fld := ⟨0x8000018, 0x40, 3, 1⟩
/-- SY_TRIG_CFG.ADVANCE -/
def SY_TRIG_CFG.ADVANCE : Fld := ⟨0x8000018, 0x40, 4, 5⟩
/-- SY_TRIG_CFG.TARGET -/
def SY_TRIG_CFG.TARGET : Fld := ⟨0x8000018, 0x40, 16, 14⟩
/-- SY_TRIG_CFG.REFUSED -/
def SY_TRIG_CFG.REFUSED : Fld := ⟨0x8000018, 0x40, 32, 1⟩
/-- SY_TRIG_CFG.FIRED -/
def SY_TRIG_CFG.FIRED : Fld := ⟨0x8000018, 0x40, 33, 1⟩
/-- SY_TRIG_VALUE.VALUE -/
def SY_TRIG_VALUE.VALUE : Fld := ⟨0x8000020, 0x40, 0, 64⟩
/-- SY_TRIG_STEP.STEP -/
def SY_TRIG_STEP.STEP : Fld := ⟨0x8000028, 0x40, 0, 64⟩
/-- SY_STAT.WAITERS -/
def SY_STAT.WAITERS : Fld := ⟨0x8000030, 0x40, 0, 15⟩
/-- SY_STAT.FIRES -/
def SY_STAT.FIRES : Fld := ⟨0x8000030, 0x40, 32, 16⟩
/-- SY_EVENT.OBJ -/
def SY_EVENT.OBJ : Fld := ⟨0x8100000, 0x8, 0, 13⟩
/-- SY_EVENT.VALID -/
def SY_EVENT.VALID : Fld := ⟨0x8100000, 0x8, 13, 1⟩
/-- SY_EVENT.LOST -/
def SY_EVENT.LOST : Fld := ⟨0x8100000, 0x8, 14, 1⟩

/-- The registers of the SY block. -/
def regsSY : List Reg := [
  -- SY_VAL
  ⟨0x8000000, 0x40, 8192, false, [⟨0, 64, .ro, .free, 0⟩]⟩,
  -- SY_ADD
  ⟨0x8000008, 0x40, 8192, false, [⟨0, 64, .wo, .free, 0⟩]⟩,
  -- SY_SET
  ⟨0x8000010, 0x40, 8192, false, [⟨0, 64, .wo, .free, 0⟩]⟩,
  -- SY_TRIG_CFG
  ⟨0x8000018, 0x40, 8192, true, [⟨0, 1, .rw, .free, 0⟩, ⟨1, 2, .rw, .free, 0⟩, ⟨3, 1, .rw, .free, 0⟩, ⟨4, 5, .rw, .range 1 16, 1⟩, ⟨16, 14, .rw, .free, 0⟩, ⟨32, 1, .ro, .free, 0⟩, ⟨33, 1, .w1c, .free, 0⟩]⟩,
  -- SY_TRIG_VALUE
  ⟨0x8000020, 0x40, 8192, true, [⟨0, 64, .rw, .free, 0⟩]⟩,
  -- SY_TRIG_STEP
  ⟨0x8000028, 0x40, 8192, true, [⟨0, 64, .rw, .free, 0⟩]⟩,
  -- SY_STAT
  ⟨0x8000030, 0x40, 8192, false, [⟨0, 15, .ro, .free, 0⟩, ⟨32, 16, .ro, .free, 0⟩]⟩,
  -- SY_EVENT
  ⟨0x8100000, 0x8, 96, false, [⟨0, 13, .ro, .free, 0⟩, ⟨13, 1, .ro, .free, 0⟩, ⟨14, 1, .ro, .free, 0⟩]⟩]

/-! Fields of the MB block. -/

/-- MB_LOCK.RESULT -/
def MB_LOCK.RESULT : Fld := ⟨0x9000000, 0x100, 0, 16⟩
/-- MB_RELEASE.GO -/
def MB_RELEASE.GO : Fld := ⟨0x9000008, 0x100, 0, 1⟩
/-- MB_REQ.WORD -/
def MB_REQ.WORD : Fld := ⟨0x9000010, 0x100, 0, 64⟩
/-- MB_RSP.WORD -/
def MB_RSP.WORD : Fld := ⟨0x9000018, 0x100, 0, 64⟩
/-- MB_SEND.CMD -/
def MB_SEND.CMD : Fld := ⟨0x9000020, 0x100, 0, 16⟩
/-- MB_ACK.CODE -/
def MB_ACK.CODE : Fld := ⟨0x9000028, 0x100, 0, 8⟩
/-- MB_STATUS.STATE -/
def MB_STATUS.STATE : Fld := ⟨0x9000030, 0x100, 0, 2⟩
/-- MB_STATUS.REQ_COUNT -/
def MB_STATUS.REQ_COUNT : Fld := ⟨0x9000030, 0x100, 2, 6⟩
/-- MB_STATUS.RSP_COUNT -/
def MB_STATUS.RSP_COUNT : Fld := ⟨0x9000030, 0x100, 8, 6⟩
/-- MB_STATUS.OVERFLOW -/
def MB_STATUS.OVERFLOW : Fld := ⟨0x9000030, 0x100, 14, 1⟩
/-- MB_STATUS.EMPTY_READ -/
def MB_STATUS.EMPTY_READ : Fld := ⟨0x9000030, 0x100, 15, 1⟩
/-- MB_STATUS.OWNER -/
def MB_STATUS.OWNER : Fld := ⟨0x9000030, 0x100, 16, 16⟩
/-- MB_STATUS.FOREIGN -/
def MB_STATUS.FOREIGN : Fld := ⟨0x9000030, 0x100, 32, 8⟩
/-- MB_STATUS.ABORTS -/
def MB_STATUS.ABORTS : Fld := ⟨0x9000030, 0x100, 40, 8⟩
/-- MB_STATUS.LATE -/
def MB_STATUS.LATE : Fld := ⟨0x9000030, 0x100, 48, 8⟩
/-- MB_CFG.NOTIFY_SYNC -/
def MB_CFG.NOTIFY_SYNC : Fld := ⟨0x9000038, 0x100, 0, 13⟩
/-- MB_CFG.NOTIFY -/
def MB_CFG.NOTIFY : Fld := ⟨0x9000038, 0x100, 13, 1⟩
/-- MB_CFG.TLOG2 -/
def MB_CFG.TLOG2 : Fld := ⟨0x9000038, 0x100, 16, 6⟩

/-- The registers of the MB block. -/
def regsMB : List Reg := [
  -- MB_LOCK
  ⟨0x9000000, 0x100, 64, false, [⟨0, 16, .ro, .free, 0⟩]⟩,
  -- MB_RELEASE
  ⟨0x9000008, 0x100, 64, false, [⟨0, 1, .wo, .free, 0⟩]⟩,
  -- MB_REQ
  ⟨0x9000010, 0x100, 64, false, [⟨0, 64, .rw, .free, 0⟩]⟩,
  -- MB_RSP
  ⟨0x9000018, 0x100, 64, false, [⟨0, 64, .rw, .free, 0⟩]⟩,
  -- MB_SEND
  ⟨0x9000020, 0x100, 64, false, [⟨0, 16, .wo, .free, 0⟩]⟩,
  -- MB_ACK
  ⟨0x9000028, 0x100, 64, false, [⟨0, 8, .rw, .free, 0⟩]⟩,
  -- MB_STATUS
  ⟨0x9000030, 0x100, 64, false, [⟨0, 2, .ro, .free, 0⟩, ⟨2, 6, .ro, .free, 0⟩, ⟨8, 6, .ro, .free, 0⟩, ⟨14, 1, .ro, .free, 0⟩, ⟨15, 1, .w1c, .free, 0⟩, ⟨16, 16, .ro, .free, 0⟩, ⟨32, 8, .ones, .free, 0⟩, ⟨40, 8, .ro, .free, 0⟩, ⟨48, 8, .ro, .free, 0⟩]⟩,
  -- MB_CFG
  ⟨0x9000038, 0x100, 64, false, [⟨0, 13, .rwl, .free, 0⟩, ⟨13, 1, .rwl, .free, 0⟩, ⟨16, 6, .rwl, .range 20 34, 24⟩]⟩]

/-! Fields of the TR block. -/

/-- TR_CTX.VALID -/
def TR_CTX.VALID : Fld := ⟨0xa000000, 0x8, 0, 1⟩
/-- TR_CTX.REFUSED -/
def TR_CTX.REFUSED : Fld := ⟨0xa000000, 0x8, 1, 1⟩
/-- TR_CTX.ROOT -/
def TR_CTX.ROOT : Fld := ⟨0xa000000, 0x8, 12, 40⟩
/-- TR_INVAL_AST.TAG -/
def TR_INVAL_AST.TAG : Fld := ⟨0xa010000, 0x0, 0, 12⟩
/-- TR_INVAL_AST.SIGNAL -/
def TR_INVAL_AST.SIGNAL : Fld := ⟨0xa010000, 0x0, 12, 1⟩
/-- TR_INVAL_AST.SYNC -/
def TR_INVAL_AST.SYNC : Fld := ⟨0xa010000, 0x0, 13, 13⟩
/-- TR_INVAL_STATUS.PENDING -/
def TR_INVAL_STATUS.PENDING : Fld := ⟨0xa010008, 0x0, 0, 7⟩
/-- TR_INVAL_STATUS.REFUSED -/
def TR_INVAL_STATUS.REFUSED : Fld := ⟨0xa010008, 0x0, 16, 16⟩
/-- TR_FAULT_RING.BASE -/
def TR_FAULT_RING.BASE : Fld := ⟨0xa010010, 0x0, 12, 40⟩
/-- TR_FAULT_CFG.ENTRIES -/
def TR_FAULT_CFG.ENTRIES : Fld := ⟨0xa010018, 0x0, 0, 17⟩
/-- TR_FAULT_CFG.NOTIFY_SYNC -/
def TR_FAULT_CFG.NOTIFY_SYNC : Fld := ⟨0xa010018, 0x0, 17, 13⟩
/-- TR_FAULT_CFG.NOTIFY -/
def TR_FAULT_CFG.NOTIFY : Fld := ⟨0xa010018, 0x0, 30, 1⟩
/-- TR_FAULT_CFG.ENABLE -/
def TR_FAULT_CFG.ENABLE : Fld := ⟨0xa010018, 0x0, 31, 1⟩
/-- TR_FAULT_HEAD.HEAD -/
def TR_FAULT_HEAD.HEAD : Fld := ⟨0xa010020, 0x0, 0, 32⟩
/-- TR_FAULT_STATUS.TAIL -/
def TR_FAULT_STATUS.TAIL : Fld := ⟨0xa010028, 0x0, 0, 32⟩
/-- TR_FAULT_STATUS.OPEN -/
def TR_FAULT_STATUS.OPEN : Fld := ⟨0xa010028, 0x0, 32, 11⟩
/-- TR_FAULT_STATUS.STALE -/
def TR_FAULT_STATUS.STALE : Fld := ⟨0xa010028, 0x0, 48, 8⟩
/-- TR_FAULT_STATUS.LOST -/
def TR_FAULT_STATUS.LOST : Fld := ⟨0xa010028, 0x0, 56, 8⟩
/-- TR_FAULT_RESOLVE.SLOT -/
def TR_FAULT_RESOLVE.SLOT : Fld := ⟨0xa010030, 0x0, 0, 10⟩
/-- TR_FAULT_RESOLVE.ACTION -/
def TR_FAULT_RESOLVE.ACTION : Fld := ⟨0xa010030, 0x0, 10, 1⟩
/-- TR_FAULT_RESOLVE.SEQ -/
def TR_FAULT_RESOLVE.SEQ : Fld := ⟨0xa010030, 0x0, 32, 32⟩
/-- TR_WALK_HIT.COUNT -/
def TR_WALK_HIT.COUNT : Fld := ⟨0xa010038, 0x0, 0, 64⟩
/-- TR_WALK_MISS.COUNT -/
def TR_WALK_MISS.COUNT : Fld := ⟨0xa010040, 0x0, 0, 64⟩

/-- The registers of the TR block. -/
def regsTR : List Reg := [
  -- TR_CTX
  ⟨0xa000000, 0x8, 4096, false, [⟨0, 1, .rw, .free, 0⟩, ⟨1, 1, .ro, .free, 0⟩, ⟨12, 40, .rw, .free, 0⟩]⟩,
  -- TR_INVAL_AST
  ⟨0xa010000, 0x0, 1, false, [⟨0, 12, .wo, .free, 0⟩, ⟨12, 1, .wo, .free, 0⟩, ⟨13, 13, .wo, .free, 0⟩]⟩,
  -- TR_INVAL_STATUS
  ⟨0xa010008, 0x0, 1, false, [⟨0, 7, .ro, .free, 0⟩, ⟨16, 16, .ro, .free, 0⟩]⟩,
  -- TR_FAULT_RING
  ⟨0xa010010, 0x0, 1, false, [⟨12, 40, .rw, .free, 0⟩]⟩,
  -- TR_FAULT_CFG
  ⟨0xa010018, 0x0, 1, false, [⟨0, 17, .rw, .pow2 64 65536, 64⟩, ⟨17, 13, .rw, .free, 0⟩, ⟨30, 1, .rw, .free, 0⟩, ⟨31, 1, .rw, .free, 0⟩]⟩,
  -- TR_FAULT_HEAD
  ⟨0xa010020, 0x0, 1, false, [⟨0, 32, .rw, .free, 0⟩]⟩,
  -- TR_FAULT_STATUS
  ⟨0xa010028, 0x0, 1, false, [⟨0, 32, .ro, .free, 0⟩, ⟨32, 11, .ro, .free, 0⟩, ⟨48, 8, .ro, .free, 0⟩, ⟨56, 8, .ro, .free, 0⟩]⟩,
  -- TR_FAULT_RESOLVE
  ⟨0xa010030, 0x0, 1, false, [⟨0, 10, .wo, .free, 0⟩, ⟨10, 1, .wo, .free, 0⟩, ⟨32, 32, .wo, .free, 0⟩]⟩,
  -- TR_WALK_HIT
  ⟨0xa010038, 0x0, 1, false, [⟨0, 64, .ro, .free, 0⟩]⟩,
  -- TR_WALK_MISS
  ⟨0xa010040, 0x0, 1, false, [⟨0, 64, .ro, .free, 0⟩]⟩]

/-! Fields of the TC block. -/

/-- TC_STATUS.STATE -/
def TC_STATUS.STATE : Fld := ⟨0x10000000, 0x10000, 0, 3⟩
/-- TC_STATUS.RECIRC -/
def TC_STATUS.RECIRC : Fld := ⟨0x10000000, 0x10000, 3, 1⟩
/-- TC_STATUS.CONTEXT -/
def TC_STATUS.CONTEXT : Fld := ⟨0x10000000, 0x10000, 16, 12⟩
/-- TC_COLMAP.BYPASS0 -/
def TC_COLMAP.BYPASS0 : Fld := ⟨0x10000008, 0x10000, 0, 7⟩
/-- TC_COLMAP.BYPASS0_VALID -/
def TC_COLMAP.BYPASS0_VALID : Fld := ⟨0x10000008, 0x10000, 7, 1⟩
/-- TC_COLMAP.BYPASS1 -/
def TC_COLMAP.BYPASS1 : Fld := ⟨0x10000008, 0x10000, 8, 7⟩
/-- TC_COLMAP.BYPASS1_VALID -/
def TC_COLMAP.BYPASS1_VALID : Fld := ⟨0x10000008, 0x10000, 15, 1⟩
/-- TC_COLMAP.TRIMMED -/
def TC_COLMAP.TRIMMED : Fld := ⟨0x10000008, 0x10000, 16, 2⟩
/-- TC_RECIRC_CFG.THRESHOLD -/
def TC_RECIRC_CFG.THRESHOLD : Fld := ⟨0x10000010, 0x10000, 0, 11⟩
/-- TC_RECIRC_COEF.PJ -/
def TC_RECIRC_COEF.PJ : Fld := ⟨0x10000018, 0x10000, 0, 16⟩
/-- TC_CYC_STREAM.COUNT -/
def TC_CYC_STREAM.COUNT : Fld := ⟨0x10000020, 0x10000, 0, 64⟩
/-- TC_CYC_RECIRC.COUNT -/
def TC_CYC_RECIRC.COUNT : Fld := ⟨0x10000028, 0x10000, 0, 64⟩
/-- TC_CYC_IDLE.COUNT -/
def TC_CYC_IDLE.COUNT : Fld := ⟨0x10000030, 0x10000, 0, 64⟩
/-- TC_RECIRC_ENERGY.NJ -/
def TC_RECIRC_ENERGY.NJ : Fld := ⟨0x10000038, 0x10000, 0, 64⟩
/-- TC_EXC.CODE -/
def TC_EXC.CODE : Fld := ⟨0x10000100, 0x10000, 0, 5⟩
/-- TC_EXC.PRECISE -/
def TC_EXC.PRECISE : Fld := ⟨0x10000100, 0x10000, 5, 1⟩
/-- TC_EXC.PC -/
def TC_EXC.PC : Fld := ⟨0x10000100, 0x10000, 8, 14⟩
/-- TC_EXC.DETAIL -/
def TC_EXC.DETAIL : Fld := ⟨0x10000100, 0x10000, 32, 16⟩
/-- TC_EXC_UADDR.VA -/
def TC_EXC_UADDR.VA : Fld := ⟨0x10000108, 0x10000, 0, 48⟩
/-- TC_FLAGS.FLAGS -/
def TC_FLAGS.FLAGS : Fld := ⟨0x10000110, 0x10000, 0, 6⟩
/-- TC_PC.PC -/
def TC_PC.PC : Fld := ⟨0x10000118, 0x10000, 0, 14⟩
/-- TC_PROG_ADDR.VA -/
def TC_PROG_ADDR.VA : Fld := ⟨0x10000120, 0x10000, 0, 45⟩
/-- TC_PROG_INFO.LEN -/
def TC_PROG_INFO.LEN : Fld := ⟨0x10000128, 0x10000, 0, 15⟩
/-- TC_PROG_INFO.CONTEXT -/
def TC_PROG_INFO.CONTEXT : Fld := ⟨0x10000128, 0x10000, 16, 12⟩
/-- TC_PROG_INFO.VALID -/
def TC_PROG_INFO.VALID : Fld := ⟨0x10000128, 0x10000, 28, 1⟩
/-- TC_HINT_DROP.COUNT -/
def TC_HINT_DROP.COUNT : Fld := ⟨0x10000130, 0x10000, 0, 32⟩
/-- TC_COPY_FAULT.CAUSE -/
def TC_COPY_FAULT.CAUSE : Fld := ⟨0x10000200, 0x10000, 0, 3⟩
/-- TC_COPY_FAULT.DIR -/
def TC_COPY_FAULT.DIR : Fld := ⟨0x10000200, 0x10000, 3, 1⟩
/-- TC_COPY_FAULT.CNT -/
def TC_COPY_FAULT.CNT : Fld := ⟨0x10000200, 0x10000, 4, 3⟩
/-- TC_COPY_FAULT.PC -/
def TC_COPY_FAULT.PC : Fld := ⟨0x10000200, 0x10000, 8, 14⟩
/-- TC_COPY_FAULT.ROW -/
def TC_COPY_FAULT.ROW : Fld := ⟨0x10000200, 0x10000, 32, 16⟩
/-- TC_COPY_FAULT.MORE -/
def TC_COPY_FAULT.MORE : Fld := ⟨0x10000200, 0x10000, 48, 16⟩
/-- TC_COPY_STATUS.INFLIGHT -/
def TC_COPY_STATUS.INFLIGHT : Fld := ⟨0x10000208, 0x10000, 0, 7⟩
/-- TC_COPY_STATUS.RD_LINES -/
def TC_COPY_STATUS.RD_LINES : Fld := ⟨0x10000208, 0x10000, 8, 11⟩
/-- TC_COPY_STATUS.WR_LINES -/
def TC_COPY_STATUS.WR_LINES : Fld := ⟨0x10000208, 0x10000, 19, 11⟩
/-- TC_COPY_BYTES_IN.BYTES -/
def TC_COPY_BYTES_IN.BYTES : Fld := ⟨0x10000210, 0x10000, 0, 64⟩
/-- TC_COPY_BYTES_OUT.BYTES -/
def TC_COPY_BYTES_OUT.BYTES : Fld := ⟨0x10000218, 0x10000, 0, 64⟩
/-- TC_SP_CONFLICT.COUNT -/
def TC_SP_CONFLICT.COUNT : Fld := ⟨0x10000220, 0x10000, 0, 64⟩
/-- TC_SP_POISON.POISON_IN -/
def TC_SP_POISON.POISON_IN : Fld := ⟨0x10000228, 0x10000, 0, 16⟩
/-- TC_SP_POISON.PARITY -/
def TC_SP_POISON.PARITY : Fld := ⟨0x10000228, 0x10000, 16, 16⟩
/-- TC_SP_POISON.POISON_OUT -/
def TC_SP_POISON.POISON_OUT : Fld := ⟨0x10000228, 0x10000, 32, 16⟩
/-- TC_SP_OPSTALL.COUNT -/
def TC_SP_OPSTALL.COUNT : Fld := ⟨0x10000230, 0x10000, 0, 64⟩
/-- TC_PMC_SEL_0.SEL -/
def TC_PMC_SEL_0.SEL : Fld := ⟨0x10000300, 0x10000, 0, 8⟩
/-- TC_PMC_SEL_0.CONTEXT -/
def TC_PMC_SEL_0.CONTEXT : Fld := ⟨0x10000300, 0x10000, 8, 12⟩
/-- TC_PMC_SEL_0.CTX_EN -/
def TC_PMC_SEL_0.CTX_EN : Fld := ⟨0x10000300, 0x10000, 20, 1⟩
/-- TC_PMC_SEL_0.LAYER -/
def TC_PMC_SEL_0.LAYER : Fld := ⟨0x10000300, 0x10000, 32, 16⟩
/-- TC_PMC_SEL_0.LAYER_EN -/
def TC_PMC_SEL_0.LAYER_EN : Fld := ⟨0x10000300, 0x10000, 48, 1⟩
/-- TC_PMC_0.COUNT -/
def TC_PMC_0.COUNT : Fld := ⟨0x10000308, 0x10000, 0, 64⟩
/-- TC_PMC_SEL_1.SEL -/
def TC_PMC_SEL_1.SEL : Fld := ⟨0x10000310, 0x10000, 0, 8⟩
/-- TC_PMC_SEL_1.CONTEXT -/
def TC_PMC_SEL_1.CONTEXT : Fld := ⟨0x10000310, 0x10000, 8, 12⟩
/-- TC_PMC_SEL_1.CTX_EN -/
def TC_PMC_SEL_1.CTX_EN : Fld := ⟨0x10000310, 0x10000, 20, 1⟩
/-- TC_PMC_SEL_1.LAYER -/
def TC_PMC_SEL_1.LAYER : Fld := ⟨0x10000310, 0x10000, 32, 16⟩
/-- TC_PMC_SEL_1.LAYER_EN -/
def TC_PMC_SEL_1.LAYER_EN : Fld := ⟨0x10000310, 0x10000, 48, 1⟩
/-- TC_PMC_1.COUNT -/
def TC_PMC_1.COUNT : Fld := ⟨0x10000318, 0x10000, 0, 64⟩
/-- TC_PMC_SEL_2.SEL -/
def TC_PMC_SEL_2.SEL : Fld := ⟨0x10000320, 0x10000, 0, 8⟩
/-- TC_PMC_SEL_2.CONTEXT -/
def TC_PMC_SEL_2.CONTEXT : Fld := ⟨0x10000320, 0x10000, 8, 12⟩
/-- TC_PMC_SEL_2.CTX_EN -/
def TC_PMC_SEL_2.CTX_EN : Fld := ⟨0x10000320, 0x10000, 20, 1⟩
/-- TC_PMC_SEL_2.LAYER -/
def TC_PMC_SEL_2.LAYER : Fld := ⟨0x10000320, 0x10000, 32, 16⟩
/-- TC_PMC_SEL_2.LAYER_EN -/
def TC_PMC_SEL_2.LAYER_EN : Fld := ⟨0x10000320, 0x10000, 48, 1⟩
/-- TC_PMC_2.COUNT -/
def TC_PMC_2.COUNT : Fld := ⟨0x10000328, 0x10000, 0, 64⟩
/-- TC_PMC_SEL_3.SEL -/
def TC_PMC_SEL_3.SEL : Fld := ⟨0x10000330, 0x10000, 0, 8⟩
/-- TC_PMC_SEL_3.CONTEXT -/
def TC_PMC_SEL_3.CONTEXT : Fld := ⟨0x10000330, 0x10000, 8, 12⟩
/-- TC_PMC_SEL_3.CTX_EN -/
def TC_PMC_SEL_3.CTX_EN : Fld := ⟨0x10000330, 0x10000, 20, 1⟩
/-- TC_PMC_SEL_3.LAYER -/
def TC_PMC_SEL_3.LAYER : Fld := ⟨0x10000330, 0x10000, 32, 16⟩
/-- TC_PMC_SEL_3.LAYER_EN -/
def TC_PMC_SEL_3.LAYER_EN : Fld := ⟨0x10000330, 0x10000, 48, 1⟩
/-- TC_PMC_3.COUNT -/
def TC_PMC_3.COUNT : Fld := ⟨0x10000338, 0x10000, 0, 64⟩

/-- The registers of the TC block. -/
def regsTC : List Reg := [
  -- TC_STATUS
  ⟨0x10000000, 0x10000, 256, false, [⟨0, 3, .ro, .free, 1⟩, ⟨3, 1, .ro, .free, 0⟩, ⟨16, 12, .ro, .free, 0⟩]⟩,
  -- TC_COLMAP
  ⟨0x10000008, 0x10000, 256, false, [⟨0, 7, .ro, .free, 0⟩, ⟨7, 1, .ro, .free, 0⟩, ⟨8, 7, .ro, .free, 0⟩, ⟨15, 1, .ro, .free, 0⟩, ⟨16, 2, .ro, .free, 0⟩]⟩,
  -- TC_RECIRC_CFG
  ⟨0x10000010, 0x10000, 256, false, [⟨0, 11, .rw, .range 0 1024, 96⟩]⟩,
  -- TC_RECIRC_COEF
  ⟨0x10000018, 0x10000, 256, false, [⟨0, 16, .ro, .free, 0⟩]⟩,
  -- TC_CYC_STREAM
  ⟨0x10000020, 0x10000, 256, false, [⟨0, 64, .ro, .free, 0⟩]⟩,
  -- TC_CYC_RECIRC
  ⟨0x10000028, 0x10000, 256, false, [⟨0, 64, .ro, .free, 0⟩]⟩,
  -- TC_CYC_IDLE
  ⟨0x10000030, 0x10000, 256, false, [⟨0, 64, .ro, .free, 0⟩]⟩,
  -- TC_RECIRC_ENERGY
  ⟨0x10000038, 0x10000, 256, false, [⟨0, 64, .ro, .free, 0⟩]⟩,
  -- TC_EXC
  ⟨0x10000100, 0x10000, 256, false, [⟨0, 5, .ro, .free, 0⟩, ⟨5, 1, .ro, .free, 0⟩, ⟨8, 14, .ro, .free, 0⟩, ⟨32, 16, .ro, .free, 0⟩]⟩,
  -- TC_EXC_UADDR
  ⟨0x10000108, 0x10000, 256, false, [⟨0, 48, .ro, .free, 0⟩]⟩,
  -- TC_FLAGS
  ⟨0x10000110, 0x10000, 256, false, [⟨0, 6, .ro, .free, 0⟩]⟩,
  -- TC_PC
  ⟨0x10000118, 0x10000, 256, false, [⟨0, 14, .ro, .free, 0⟩]⟩,
  -- TC_PROG_ADDR
  ⟨0x10000120, 0x10000, 256, false, [⟨0, 45, .ro, .free, 0⟩]⟩,
  -- TC_PROG_INFO
  ⟨0x10000128, 0x10000, 256, false, [⟨0, 15, .ro, .free, 0⟩, ⟨16, 12, .ro, .free, 0⟩, ⟨28, 1, .ro, .free, 0⟩]⟩,
  -- TC_HINT_DROP
  ⟨0x10000130, 0x10000, 256, false, [⟨0, 32, .ro, .free, 0⟩]⟩,
  -- TC_COPY_FAULT
  ⟨0x10000200, 0x10000, 256, false, [⟨0, 3, .ro, .free, 0⟩, ⟨3, 1, .ro, .free, 0⟩, ⟨4, 3, .ro, .free, 0⟩, ⟨8, 14, .ro, .free, 0⟩, ⟨32, 16, .ro, .free, 0⟩, ⟨48, 16, .ro, .free, 0⟩]⟩,
  -- TC_COPY_STATUS
  ⟨0x10000208, 0x10000, 256, false, [⟨0, 7, .ro, .free, 0⟩, ⟨8, 11, .ro, .free, 0⟩, ⟨19, 11, .ro, .free, 0⟩]⟩,
  -- TC_COPY_BYTES_IN
  ⟨0x10000210, 0x10000, 256, false, [⟨0, 64, .ro, .free, 0⟩]⟩,
  -- TC_COPY_BYTES_OUT
  ⟨0x10000218, 0x10000, 256, false, [⟨0, 64, .ro, .free, 0⟩]⟩,
  -- TC_SP_CONFLICT
  ⟨0x10000220, 0x10000, 256, false, [⟨0, 64, .ro, .free, 0⟩]⟩,
  -- TC_SP_POISON
  ⟨0x10000228, 0x10000, 256, false, [⟨0, 16, .ro, .free, 0⟩, ⟨16, 16, .ro, .free, 0⟩, ⟨32, 16, .ro, .free, 0⟩]⟩,
  -- TC_SP_OPSTALL
  ⟨0x10000230, 0x10000, 256, false, [⟨0, 64, .ro, .free, 0⟩]⟩,
  -- TC_PMC_SEL_0
  ⟨0x10000300, 0x10000, 256, false, [⟨0, 8, .rw, .codes [(0, 9)], 0⟩, ⟨8, 12, .rw, .free, 0⟩, ⟨20, 1, .rw, .free, 0⟩, ⟨32, 16, .rw, .free, 0⟩, ⟨48, 1, .rw, .free, 0⟩]⟩,
  -- TC_PMC_0
  ⟨0x10000308, 0x10000, 256, false, [⟨0, 64, .rw, .free, 0⟩]⟩,
  -- TC_PMC_SEL_1
  ⟨0x10000310, 0x10000, 256, false, [⟨0, 8, .rw, .codes [(0, 9)], 0⟩, ⟨8, 12, .rw, .free, 0⟩, ⟨20, 1, .rw, .free, 0⟩, ⟨32, 16, .rw, .free, 0⟩, ⟨48, 1, .rw, .free, 0⟩]⟩,
  -- TC_PMC_1
  ⟨0x10000318, 0x10000, 256, false, [⟨0, 64, .rw, .free, 0⟩]⟩,
  -- TC_PMC_SEL_2
  ⟨0x10000320, 0x10000, 256, false, [⟨0, 8, .rw, .codes [(0, 9)], 0⟩, ⟨8, 12, .rw, .free, 0⟩, ⟨20, 1, .rw, .free, 0⟩, ⟨32, 16, .rw, .free, 0⟩, ⟨48, 1, .rw, .free, 0⟩]⟩,
  -- TC_PMC_2
  ⟨0x10000328, 0x10000, 256, false, [⟨0, 64, .rw, .free, 0⟩]⟩,
  -- TC_PMC_SEL_3
  ⟨0x10000330, 0x10000, 256, false, [⟨0, 8, .rw, .codes [(0, 9)], 0⟩, ⟨8, 12, .rw, .free, 0⟩, ⟨20, 1, .rw, .free, 0⟩, ⟨32, 16, .rw, .free, 0⟩, ⟨48, 1, .rw, .free, 0⟩]⟩,
  -- TC_PMC_3
  ⟨0x10000338, 0x10000, 256, false, [⟨0, 64, .rw, .free, 0⟩]⟩]

/-! Fields of the HM block. -/

/-- HM_CH_STATUS.STATE -/
def HM_CH_STATUS.STATE : Fld := ⟨0x20000000, 0x40, 0, 3⟩
/-- HM_CH_STATUS.RETRAINS -/
def HM_CH_STATUS.RETRAINS : Fld := ⟨0x20000000, 0x40, 8, 8⟩
/-- HM_CH_STATUS.TRAIN_FAILS -/
def HM_CH_STATUS.TRAIN_FAILS : Fld := ⟨0x20000000, 0x40, 16, 2⟩
/-- HM_CH_STATUS.SUSPENDED -/
def HM_CH_STATUS.SUSPENDED : Fld := ⟨0x20000000, 0x40, 18, 1⟩
/-- HM_CH_ERR.CE -/
def HM_CH_ERR.CE : Fld := ⟨0x20000008, 0x40, 0, 32⟩
/-- HM_CH_ERR.UE -/
def HM_CH_ERR.UE : Fld := ⟨0x20000008, 0x40, 32, 16⟩
/-- HM_CH_CTRL.RETRAIN -/
def HM_CH_CTRL.RETRAIN : Fld := ⟨0x20000010, 0x40, 0, 1⟩
/-- HM_CH_CTRL.RETIRE -/
def HM_CH_CTRL.RETIRE : Fld := ⟨0x20000010, 0x40, 1, 1⟩
/-- HM_CH_RD_BYTES.BYTES -/
def HM_CH_RD_BYTES.BYTES : Fld := ⟨0x20000018, 0x40, 0, 64⟩
/-- HM_CH_WR_BYTES.BYTES -/
def HM_CH_WR_BYTES.BYTES : Fld := ⟨0x20000020, 0x40, 0, 64⟩
/-- HM_CH_MOPS.COUNT -/
def HM_CH_MOPS.COUNT : Fld := ⟨0x20000028, 0x40, 0, 64⟩
/-- HM_CH_HELD.TICKS -/
def HM_CH_HELD.TICKS : Fld := ⟨0x20000030, 0x40, 0, 64⟩
/-- HM_CFG.SCRUB_HOURS -/
def HM_CFG.SCRUB_HOURS : Fld := ⟨0x20010000, 0x0, 0, 8⟩
/-- HM_CFG.CE_RETRAIN -/
def HM_CFG.CE_RETRAIN : Fld := ⟨0x20010000, 0x0, 8, 16⟩
/-- HM_CFG.CE_RETIRE -/
def HM_CFG.CE_RETIRE : Fld := ⟨0x20010000, 0x0, 24, 16⟩
/-- HM_CFG.AUTO_RETIRE -/
def HM_CFG.AUTO_RETIRE : Fld := ⟨0x20010000, 0x0, 40, 1⟩
/-- HM_CFG.REPAIR_GBPS -/
def HM_CFG.REPAIR_GBPS : Fld := ⟨0x20010000, 0x0, 41, 7⟩
/-- HM_STATUS.LOSSES -/
def HM_STATUS.LOSSES : Fld := ⟨0x20010008, 0x0, 0, 2⟩
/-- HM_STATUS.UNREPAIRED -/
def HM_STATUS.UNREPAIRED : Fld := ⟨0x20010008, 0x0, 2, 1⟩
/-- HM_STATUS.REPAIR_ACTIVE -/
def HM_STATUS.REPAIR_ACTIVE : Fld := ⟨0x20010008, 0x0, 3, 1⟩
/-- HM_STATUS.LOST0 -/
def HM_STATUS.LOST0 : Fld := ⟨0x20010008, 0x0, 4, 9⟩
/-- HM_STATUS.LOST0_VALID -/
def HM_STATUS.LOST0_VALID : Fld := ⟨0x20010008, 0x0, 13, 1⟩
/-- HM_STATUS.LOST1 -/
def HM_STATUS.LOST1 : Fld := ⟨0x20010008, 0x0, 14, 9⟩
/-- HM_STATUS.LOST1_VALID -/
def HM_STATUS.LOST1_VALID : Fld := ⟨0x20010008, 0x0, 23, 1⟩
/-- HM_STATUS.MOVED -/
def HM_STATUS.MOVED : Fld := ⟨0x20010008, 0x0, 32, 20⟩
/-- HM_ERR_RING.BASE -/
def HM_ERR_RING.BASE : Fld := ⟨0x20010010, 0x0, 12, 40⟩
/-- HM_ERR_CFG.ENTRIES -/
def HM_ERR_CFG.ENTRIES : Fld := ⟨0x20010018, 0x0, 0, 17⟩
/-- HM_ERR_CFG.NOTIFY_SYNC -/
def HM_ERR_CFG.NOTIFY_SYNC : Fld := ⟨0x20010018, 0x0, 17, 13⟩
/-- HM_ERR_CFG.NOTIFY -/
def HM_ERR_CFG.NOTIFY : Fld := ⟨0x20010018, 0x0, 30, 1⟩
/-- HM_ERR_CFG.ENABLE -/
def HM_ERR_CFG.ENABLE : Fld := ⟨0x20010018, 0x0, 31, 1⟩
/-- HM_ERR_HEAD.HEAD -/
def HM_ERR_HEAD.HEAD : Fld := ⟨0x20010020, 0x0, 0, 32⟩
/-- HM_ERR_STATUS.TAIL -/
def HM_ERR_STATUS.TAIL : Fld := ⟨0x20010028, 0x0, 0, 32⟩
/-- HM_ERR_STATUS.LOST -/
def HM_ERR_STATUS.LOST : Fld := ⟨0x20010028, 0x0, 32, 16⟩

/-- The registers of the HM block. -/
def regsHM : List Reg := [
  -- HM_CH_STATUS
  ⟨0x20000000, 0x40, 384, false, [⟨0, 3, .ro, .free, 0⟩, ⟨8, 8, .ro, .free, 0⟩, ⟨16, 2, .ro, .free, 0⟩, ⟨18, 1, .ro, .free, 0⟩]⟩,
  -- HM_CH_ERR
  ⟨0x20000008, 0x40, 384, false, [⟨0, 32, .ro, .free, 0⟩, ⟨32, 16, .ro, .free, 0⟩]⟩,
  -- HM_CH_CTRL
  ⟨0x20000010, 0x40, 384, false, [⟨0, 1, .wo, .free, 0⟩, ⟨1, 1, .wo, .free, 0⟩]⟩,
  -- HM_CH_RD_BYTES
  ⟨0x20000018, 0x40, 384, false, [⟨0, 64, .ro, .free, 0⟩]⟩,
  -- HM_CH_WR_BYTES
  ⟨0x20000020, 0x40, 384, false, [⟨0, 64, .ro, .free, 0⟩]⟩,
  -- HM_CH_MOPS
  ⟨0x20000028, 0x40, 384, false, [⟨0, 64, .ro, .free, 0⟩]⟩,
  -- HM_CH_HELD
  ⟨0x20000030, 0x40, 384, false, [⟨0, 64, .ro, .free, 0⟩]⟩,
  -- HM_CFG
  ⟨0x20010000, 0x0, 1, false, [⟨0, 8, .rw, .range 1 168, 24⟩, ⟨8, 16, .rw, .range 1 65535, 256⟩, ⟨24, 16, .rw, .range 1 65535, 4096⟩, ⟨40, 1, .rw, .free, 1⟩, ⟨41, 7, .rw, .range 1 64, 16⟩]⟩,
  -- HM_STATUS
  ⟨0x20010008, 0x0, 1, false, [⟨0, 2, .ro, .free, 0⟩, ⟨2, 1, .ro, .free, 0⟩, ⟨3, 1, .ro, .free, 0⟩, ⟨4, 9, .ro, .free, 0⟩, ⟨13, 1, .ro, .free, 0⟩, ⟨14, 9, .ro, .free, 0⟩, ⟨23, 1, .ro, .free, 0⟩, ⟨32, 20, .ro, .free, 0⟩]⟩,
  -- HM_ERR_RING
  ⟨0x20010010, 0x0, 1, false, [⟨12, 40, .rw, .free, 0⟩]⟩,
  -- HM_ERR_CFG
  ⟨0x20010018, 0x0, 1, false, [⟨0, 17, .rw, .pow2 64 65536, 64⟩, ⟨17, 13, .rw, .free, 0⟩, ⟨30, 1, .rw, .free, 0⟩, ⟨31, 1, .rw, .free, 0⟩]⟩,
  -- HM_ERR_HEAD
  ⟨0x20010020, 0x0, 1, false, [⟨0, 32, .rw, .free, 0⟩]⟩,
  -- HM_ERR_STATUS
  ⟨0x20010028, 0x0, 1, false, [⟨0, 32, .ro, .free, 0⟩, ⟨32, 16, .ro, .free, 0⟩]⟩]

/-! Fields of the TIER block. -/

/-- TIER_CFG.WAYS_LOG2 -/
def TIER_CFG.WAYS_LOG2 : Fld := ⟨0x21000000, 0x0, 0, 2⟩
/-- TIER_STATUS.FAR_GIB -/
def TIER_STATUS.FAR_GIB : Fld := ⟨0x21000008, 0x0, 0, 14⟩
/-- TIER_STATUS.MOVING -/
def TIER_STATUS.MOVING : Fld := ⟨0x21000008, 0x0, 16, 7⟩
/-- TIER_STATUS.WAITING -/
def TIER_STATUS.WAITING : Fld := ⟨0x21000008, 0x0, 32, 16⟩
/-- TIER_MIG_CFG.GBPS -/
def TIER_MIG_CFG.GBPS : Fld := ⟨0x21000010, 0x0, 0, 10⟩
/-- TIER_PORT_STATUS.STATE -/
def TIER_PORT_STATUS.STATE : Fld := ⟨0x21000100, 0x20, 0, 3⟩
/-- TIER_PORT_STATUS.RATE -/
def TIER_PORT_STATUS.RATE : Fld := ⟨0x21000100, 0x20, 4, 2⟩
/-- TIER_PORT_STATUS.WIDTH -/
def TIER_PORT_STATUS.WIDTH : Fld := ⟨0x21000100, 0x20, 6, 1⟩
/-- TIER_PORT_STATUS.ENDPOINTS -/
def TIER_PORT_STATUS.ENDPOINTS : Fld := ⟨0x21000100, 0x20, 8, 3⟩
/-- TIER_PORT_STATUS.CAP_GIB -/
def TIER_PORT_STATUS.CAP_GIB : Fld := ⟨0x21000100, 0x20, 16, 16⟩
/-- TIER_PORT_STATUS.POISON_RD -/
def TIER_PORT_STATUS.POISON_RD : Fld := ⟨0x21000100, 0x20, 32, 16⟩
/-- TIER_PORT_STATUS.LOST_WR -/
def TIER_PORT_STATUS.LOST_WR : Fld := ⟨0x21000100, 0x20, 48, 16⟩
/-- TIER_PORT_RD_BYTES.BYTES -/
def TIER_PORT_RD_BYTES.BYTES : Fld := ⟨0x21000108, 0x20, 0, 64⟩
/-- TIER_PORT_WR_BYTES.BYTES -/
def TIER_PORT_WR_BYTES.BYTES : Fld := ⟨0x21000110, 0x20, 0, 64⟩
/-- TIER_RILL_BASE.BASE -/
def TIER_RILL_BASE.BASE : Fld := ⟨0x21010000, 0x20, 12, 40⟩
/-- TIER_RILL_CFG.ENTRIES -/
def TIER_RILL_CFG.ENTRIES : Fld := ⟨0x21010008, 0x20, 0, 13⟩
/-- TIER_RILL_CFG.QUEUE -/
def TIER_RILL_CFG.QUEUE : Fld := ⟨0x21010008, 0x20, 16, 14⟩
/-- TIER_RILL_CFG.MAX_OUT -/
def TIER_RILL_CFG.MAX_OUT : Fld := ⟨0x21010008, 0x20, 32, 5⟩
/-- TIER_RILL_CFG.ENABLE -/
def TIER_RILL_CFG.ENABLE : Fld := ⟨0x21010008, 0x20, 40, 1⟩
/-- TIER_RILL_STATUS.CURSOR -/
def TIER_RILL_STATUS.CURSOR : Fld := ⟨0x21010010, 0x20, 0, 12⟩
/-- TIER_RILL_STATUS.OUT -/
def TIER_RILL_STATUS.OUT : Fld := ⟨0x21010010, 0x20, 16, 5⟩
/-- TIER_RILL_STATUS.LAP -/
def TIER_RILL_STATUS.LAP : Fld := ⟨0x21010010, 0x20, 32, 16⟩
/-- TIER_RILL_STATUS.FAILS -/
def TIER_RILL_STATUS.FAILS : Fld := ⟨0x21010010, 0x20, 48, 16⟩
/-- TIER_RILL_GATED.GATED_TICKS -/
def TIER_RILL_GATED.GATED_TICKS : Fld := ⟨0x21010018, 0x20, 0, 64⟩
/-- TIER_OBJ_CFG.VALID -/
def TIER_OBJ_CFG.VALID : Fld := ⟨0x21100000, 0x20, 0, 1⟩
/-- TIER_OBJ_CFG.HOME -/
def TIER_OBJ_CFG.HOME : Fld := ⟨0x21100000, 0x20, 1, 1⟩
/-- TIER_OBJ_CFG.LEAF -/
def TIER_OBJ_CFG.LEAF : Fld := ⟨0x21100000, 0x20, 2, 2⟩
/-- TIER_OBJ_CFG.REFUSED -/
def TIER_OBJ_CFG.REFUSED : Fld := ⟨0x21100000, 0x20, 4, 1⟩
/-- TIER_OBJ_CFG.STATE -/
def TIER_OBJ_CFG.STATE : Fld := ⟨0x21100000, 0x20, 5, 2⟩
/-- TIER_OBJ_CFG.PHASE -/
def TIER_OBJ_CFG.PHASE : Fld := ⟨0x21100000, 0x20, 8, 2⟩
/-- TIER_OBJ_CFG.CONTEXT -/
def TIER_OBJ_CFG.CONTEXT : Fld := ⟨0x21100000, 0x20, 16, 12⟩
/-- TIER_OBJ_CFG.LAST -/
def TIER_OBJ_CFG.LAST : Fld := ⟨0x21100000, 0x20, 28, 4⟩
/-- TIER_OBJ_CFG.MOVES -/
def TIER_OBJ_CFG.MOVES : Fld := ⟨0x21100000, 0x20, 32, 16⟩
/-- TIER_OBJ_CFG.NOOPS -/
def TIER_OBJ_CFG.NOOPS : Fld := ⟨0x21100000, 0x20, 48, 16⟩
/-- TIER_OBJ_VA.VA -/
def TIER_OBJ_VA.VA : Fld := ⟨0x21100008, 0x20, 12, 36⟩
/-- TIER_OBJ_VA.LENGTH -/
def TIER_OBJ_VA.LENGTH : Fld := ⟨0x21100008, 0x20, 48, 16⟩
/-- TIER_OBJ_HBM.PA -/
def TIER_OBJ_HBM.PA : Fld := ⟨0x21100010, 0x20, 12, 40⟩
/-- TIER_OBJ_FAR.PA -/
def TIER_OBJ_FAR.PA : Fld := ⟨0x21100018, 0x20, 12, 40⟩

/-- The registers of the TIER block. -/
def regsTIER : List Reg := [
  -- TIER_CFG
  ⟨0x21000000, 0x0, 1, false, [⟨0, 2, .rwl, .free, 3⟩]⟩,
  -- TIER_STATUS
  ⟨0x21000008, 0x0, 1, false, [⟨0, 14, .ro, .free, 0⟩, ⟨16, 7, .ro, .free, 0⟩, ⟨32, 16, .ro, .free, 0⟩]⟩,
  -- TIER_MIG_CFG
  ⟨0x21000010, 0x0, 1, true, [⟨0, 10, .rw, .range 16 512, 256⟩]⟩,
  -- TIER_PORT_STATUS
  ⟨0x21000100, 0x20, 8, false, [⟨0, 3, .ro, .free, 0⟩, ⟨4, 2, .ro, .free, 0⟩, ⟨6, 1, .ro, .free, 0⟩, ⟨8, 3, .ro, .free, 0⟩, ⟨16, 16, .ro, .free, 0⟩, ⟨32, 16, .ro, .free, 0⟩, ⟨48, 16, .ro, .free, 0⟩]⟩,
  -- TIER_PORT_RD_BYTES
  ⟨0x21000108, 0x20, 8, false, [⟨0, 64, .ro, .free, 0⟩]⟩,
  -- TIER_PORT_WR_BYTES
  ⟨0x21000110, 0x20, 8, false, [⟨0, 64, .ro, .free, 0⟩]⟩,
  -- TIER_RILL_BASE
  ⟨0x21010000, 0x20, 64, false, [⟨12, 40, .rw, .free, 0⟩]⟩,
  -- TIER_RILL_CFG
  ⟨0x21010008, 0x20, 64, true, [⟨0, 13, .rw, .range 1 4096, 1⟩, ⟨16, 14, .rw, .free, 0⟩, ⟨32, 5, .rw, .range 1 16, 8⟩, ⟨40, 1, .rw, .free, 0⟩]⟩,
  -- TIER_RILL_STATUS
  ⟨0x21010010, 0x20, 64, false, [⟨0, 12, .ro, .free, 0⟩, ⟨16, 5, .ro, .free, 0⟩, ⟨32, 16, .ro, .free, 0⟩, ⟨48, 16, .ro, .free, 0⟩]⟩,
  -- TIER_RILL_GATED
  ⟨0x21010018, 0x20, 64, false, [⟨0, 64, .ro, .free, 0⟩]⟩,
  -- TIER_OBJ_CFG
  ⟨0x21100000, 0x20, 65536, false, [⟨0, 1, .rw, .free, 0⟩, ⟨1, 1, .rw, .free, 0⟩, ⟨2, 2, .rw, .codes [(0, 2)], 0⟩, ⟨4, 1, .ro, .free, 0⟩, ⟨5, 2, .ro, .free, 0⟩, ⟨8, 2, .ro, .free, 0⟩, ⟨16, 12, .rw, .free, 0⟩, ⟨28, 4, .ro, .free, 0⟩, ⟨32, 16, .ro, .free, 0⟩, ⟨48, 16, .ro, .free, 0⟩]⟩,
  -- TIER_OBJ_VA
  ⟨0x21100008, 0x20, 65536, false, [⟨12, 36, .rw, .free, 0⟩, ⟨48, 16, .rw, .free, 0⟩]⟩,
  -- TIER_OBJ_HBM
  ⟨0x21100010, 0x20, 65536, false, [⟨12, 40, .rw, .free, 0⟩]⟩,
  -- TIER_OBJ_FAR
  ⟨0x21100018, 0x20, 65536, false, [⟨12, 40, .rw, .free, 0⟩]⟩]

/-! Fields of the CE block. -/

/-- CE_CFG.RETRY_US -/
def CE_CFG.RETRY_US : Fld := ⟨0x22000000, 0x0, 0, 7⟩
/-- CE_CFG.TIMEOUT_LOG2 -/
def CE_CFG.TIMEOUT_LOG2 : Fld := ⟨0x22000000, 0x0, 8, 5⟩
/-- CE_STATUS.ACTIVE -/
def CE_STATUS.ACTIVE : Fld := ⟨0x22000010, 0x20, 0, 8⟩
/-- CE_STATUS.WAITING -/
def CE_STATUS.WAITING : Fld := ⟨0x22000010, 0x20, 8, 16⟩
/-- CE_STATUS.LATE -/
def CE_STATUS.LATE : Fld := ⟨0x22000010, 0x20, 24, 16⟩
/-- CE_STATUS.NOT_READY -/
def CE_STATUS.NOT_READY : Fld := ⟨0x22000010, 0x20, 40, 16⟩
/-- CE_BYTES_OUT.BYTES -/
def CE_BYTES_OUT.BYTES : Fld := ⟨0x22000018, 0x20, 0, 64⟩
/-- CE_BYTES_IN.BYTES -/
def CE_BYTES_IN.BYTES : Fld := ⟨0x22000020, 0x20, 0, 64⟩
/-- CE_EPOCH_CFG.EPOCH -/
def CE_EPOCH_CFG.EPOCH : Fld := ⟨0x22001000, 0x20, 0, 32⟩
/-- CE_EPOCH_CFG.VALID -/
def CE_EPOCH_CFG.VALID : Fld := ⟨0x22001000, 0x20, 32, 1⟩
/-- CE_EPOCH_CFG.MEMBERS -/
def CE_EPOCH_CFG.MEMBERS : Fld := ⟨0x22001000, 0x20, 33, 17⟩
/-- CE_EPOCH_LIST.BASE -/
def CE_EPOCH_LIST.BASE : Fld := ⟨0x22001008, 0x20, 12, 40⟩
/-- CE_EPOCH_STATUS.STATE -/
def CE_EPOCH_STATUS.STATE : Fld := ⟨0x22001010, 0x20, 0, 2⟩
/-- CE_EPOCH_STATUS.FLAT -/
def CE_EPOCH_STATUS.FLAT : Fld := ⟨0x22001010, 0x20, 2, 1⟩
/-- CE_EPOCH_STATUS.L -/
def CE_EPOCH_STATUS.L : Fld := ⟨0x22001010, 0x20, 4, 4⟩
/-- CE_EPOCH_STATUS.G -/
def CE_EPOCH_STATUS.G : Fld := ⟨0x22001010, 0x20, 8, 17⟩
/-- CE_EPOCH_STATUS.CAUSE -/
def CE_EPOCH_STATUS.CAUSE : Fld := ⟨0x22001010, 0x20, 25, 3⟩
/-- CE_EPOCH_STATUS.POSITION -/
def CE_EPOCH_STATUS.POSITION : Fld := ⟨0x22001010, 0x20, 32, 16⟩
/-- CE_EPOCH_STATUS.BUCKETS -/
def CE_EPOCH_STATUS.BUCKETS : Fld := ⟨0x22001010, 0x20, 48, 9⟩

/-- The registers of the CE block. -/
def regsCE : List Reg := [
  -- CE_CFG
  ⟨0x22000000, 0x0, 1, true, [⟨0, 7, .rw, .range 1 100, 5⟩, ⟨8, 5, .rw, .range 20 34, 30⟩]⟩,
  -- CE_STATUS
  ⟨0x22000010, 0x20, 2, false, [⟨0, 8, .ro, .free, 0⟩, ⟨8, 16, .ro, .free, 0⟩, ⟨24, 16, .ro, .free, 0⟩, ⟨40, 16, .ro, .free, 0⟩]⟩,
  -- CE_BYTES_OUT
  ⟨0x22000018, 0x20, 2, false, [⟨0, 64, .ro, .free, 0⟩]⟩,
  -- CE_BYTES_IN
  ⟨0x22000020, 0x20, 2, false, [⟨0, 64, .ro, .free, 0⟩]⟩,
  -- CE_EPOCH_CFG
  ⟨0x22001000, 0x20, 16, true, [⟨0, 32, .rw, .free, 0⟩, ⟨32, 1, .rw, .free, 0⟩, ⟨33, 17, .rw, .range 1 65536, 1⟩]⟩,
  -- CE_EPOCH_LIST
  ⟨0x22001008, 0x20, 16, true, [⟨12, 40, .rw, .free, 0⟩]⟩,
  -- CE_EPOCH_STATUS
  ⟨0x22001010, 0x20, 16, false, [⟨0, 2, .ro, .free, 0⟩, ⟨2, 1, .ro, .free, 0⟩, ⟨4, 4, .ro, .free, 0⟩, ⟨8, 17, .ro, .free, 0⟩, ⟨25, 3, .ro, .free, 0⟩, ⟨32, 16, .ro, .free, 0⟩, ⟨48, 9, .ro, .free, 0⟩]⟩]

/-! Fields of the LK block. -/

/-- LK_LINK_CFG.C0_PCT -/
def LK_LINK_CFG.C0_PCT : Fld := ⟨0x30000000, 0x40, 0, 3⟩
/-- LK_LINK_CFG.REPLAY_LIMIT -/
def LK_LINK_CFG.REPLAY_LIMIT : Fld := ⟨0x30000000, 0x40, 4, 8⟩
/-- LK_LINK_CFG.AUTO_TRAIN -/
def LK_LINK_CFG.AUTO_TRAIN : Fld := ⟨0x30000000, 0x40, 12, 1⟩
/-- LK_LINK_CFG.ENABLE -/
def LK_LINK_CFG.ENABLE : Fld := ⟨0x30000000, 0x40, 13, 1⟩
/-- LK_LINK_CFG.IN_FLOOR -/
def LK_LINK_CFG.IN_FLOOR : Fld := ⟨0x30000000, 0x40, 14, 2⟩
/-- LK_LINK_STATUS.STATE -/
def LK_LINK_STATUS.STATE : Fld := ⟨0x30000008, 0x40, 0, 3⟩
/-- LK_LINK_STATUS.C0_SUSPENDED -/
def LK_LINK_STATUS.C0_SUSPENDED : Fld := ⟨0x30000008, 0x40, 3, 1⟩
/-- LK_LINK_STATUS.RETRAINS -/
def LK_LINK_STATUS.RETRAINS : Fld := ⟨0x30000008, 0x40, 8, 8⟩
/-- LK_LINK_STATUS.LINK_RESETS -/
def LK_LINK_STATUS.LINK_RESETS : Fld := ⟨0x30000008, 0x40, 16, 8⟩
/-- LK_LINK_STATUS.PEER_ID -/
def LK_LINK_STATUS.PEER_ID : Fld := ⟨0x30000008, 0x40, 32, 32⟩
/-- LK_LINK_CTRL.RETRAIN -/
def LK_LINK_CTRL.RETRAIN : Fld := ⟨0x30000010, 0x40, 0, 1⟩
/-- LK_LINK_CTRL.TRAIN -/
def LK_LINK_CTRL.TRAIN : Fld := ⟨0x30000010, 0x40, 1, 1⟩
/-- LK_LINK_ERR.FEC_CORR -/
def LK_LINK_ERR.FEC_CORR : Fld := ⟨0x30000018, 0x40, 0, 32⟩
/-- LK_LINK_ERR.FEC_UNCORR -/
def LK_LINK_ERR.FEC_UNCORR : Fld := ⟨0x30000018, 0x40, 32, 16⟩
/-- LK_LINK_ERR.CRC_FAIL -/
def LK_LINK_ERR.CRC_FAIL : Fld := ⟨0x30000018, 0x40, 48, 16⟩
/-- LK_LINK_REPLAY.REPLAYS -/
def LK_LINK_REPLAY.REPLAYS : Fld := ⟨0x30000020, 0x40, 0, 32⟩
/-- LK_LINK_REPLAY.OVER_RESERVE -/
def LK_LINK_REPLAY.OVER_RESERVE : Fld := ⟨0x30000020, 0x40, 32, 32⟩
/-- LK_LINK_TX_FLITS.COUNT -/
def LK_LINK_TX_FLITS.COUNT : Fld := ⟨0x30000028, 0x40, 0, 64⟩
/-- LK_LINK_RX_FLITS.COUNT -/
def LK_LINK_RX_FLITS.COUNT : Fld := ⟨0x30000030, 0x40, 0, 64⟩
/-- LK_DEVICE_ID.DEVICE -/
def LK_DEVICE_ID.DEVICE : Fld := ⟨0x30001000, 0x0, 0, 32⟩
/-- LK_CFG.PEER_TIMEOUT -/
def LK_CFG.PEER_TIMEOUT : Fld := ⟨0x30001008, 0x0, 0, 14⟩
/-- LK_CFG.GUARD -/
def LK_CFG.GUARD : Fld := ⟨0x30001008, 0x0, 14, 1⟩
/-- LK_CLASS_WEIGHT.W1 -/
def LK_CLASS_WEIGHT.W1 : Fld := ⟨0x30001010, 0x0, 0, 8⟩
/-- LK_CLASS_WEIGHT.W2 -/
def LK_CLASS_WEIGHT.W2 : Fld := ⟨0x30001010, 0x0, 8, 8⟩
/-- LK_CLASS_WEIGHT.W3 -/
def LK_CLASS_WEIGHT.W3 : Fld := ⟨0x30001010, 0x0, 16, 8⟩
/-- LK_STATUS.LATE -/
def LK_STATUS.LATE : Fld := ⟨0x30001018, 0x0, 0, 16⟩
/-- LK_STATUS.GUARDED -/
def LK_STATUS.GUARDED : Fld := ⟨0x30001018, 0x0, 16, 16⟩
/-- LK_STATUS.REFUSED -/
def LK_STATUS.REFUSED : Fld := ⟨0x30001018, 0x0, 32, 16⟩
/-- LK_STATUS.LOST -/
def LK_STATUS.LOST : Fld := ⟨0x30001018, 0x0, 48, 16⟩
/-- LK_WIN.VALID -/
def LK_WIN.VALID : Fld := ⟨0x30010000, 0x10, 0, 1⟩
/-- LK_WIN.MODE -/
def LK_WIN.MODE : Fld := ⟨0x30010000, 0x10, 1, 1⟩
/-- LK_WIN.VIA -/
def LK_WIN.VIA : Fld := ⟨0x30010000, 0x10, 2, 1⟩
/-- LK_WIN.REFUSED -/
def LK_WIN.REFUSED : Fld := ⟨0x30010000, 0x10, 3, 1⟩
/-- LK_WIN.LINKS -/
def LK_WIN.LINKS : Fld := ⟨0x30010000, 0x10, 4, 24⟩
/-- LK_WIN.REMOTE_HI -/
def LK_WIN.REMOTE_HI : Fld := ⟨0x30010000, 0x10, 28, 12⟩
/-- LK_WIN.OUTSTANDING -/
def LK_WIN.OUTSTANDING : Fld := ⟨0x30010000, 0x10, 48, 16⟩
/-- LK_WIN_DEV.DEVICE -/
def LK_WIN_DEV.DEVICE : Fld := ⟨0x30010008, 0x10, 0, 32⟩
/-- LK_WIN_DEV.EPEER -/
def LK_WIN_DEV.EPEER : Fld := ⟨0x30010008, 0x10, 32, 12⟩
/-- LK_ETH_CFG.ENABLE -/
def LK_ETH_CFG.ENABLE : Fld := ⟨0x30020000, 0x100, 0, 1⟩
/-- LK_ETH_CFG.RATE -/
def LK_ETH_CFG.RATE : Fld := ⟨0x30020000, 0x100, 1, 1⟩
/-- LK_ETH_CFG.PFC -/
def LK_ETH_CFG.PFC : Fld := ⟨0x30020000, 0x100, 2, 1⟩
/-- LK_ETH_CFG.UDP_PORT -/
def LK_ETH_CFG.UDP_PORT : Fld := ⟨0x30020000, 0x100, 16, 16⟩
/-- LK_ETH_CFG.MTU -/
def LK_ETH_CFG.MTU : Fld := ⟨0x30020000, 0x100, 32, 14⟩
/-- LK_ETH_CFG.RTO_US -/
def LK_ETH_CFG.RTO_US : Fld := ⟨0x30020000, 0x100, 48, 11⟩
/-- LK_ETH_MAC.MAC -/
def LK_ETH_MAC.MAC : Fld := ⟨0x30020008, 0x100, 0, 48⟩
/-- LK_ETH_IP_HI.IP -/
def LK_ETH_IP_HI.IP : Fld := ⟨0x30020010, 0x100, 0, 64⟩
/-- LK_ETH_IP_LO.IP -/
def LK_ETH_IP_LO.IP : Fld := ⟨0x30020018, 0x100, 0, 64⟩
/-- LK_ETH_STATUS.UP -/
def LK_ETH_STATUS.UP : Fld := ⟨0x30020020, 0x100, 0, 1⟩
/-- LK_ETH_STATUS.CSUM_DROP -/
def LK_ETH_STATUS.CSUM_DROP : Fld := ⟨0x30020020, 0x100, 16, 16⟩
/-- LK_ETH_STATUS.NO_PEER -/
def LK_ETH_STATUS.NO_PEER : Fld := ⟨0x30020020, 0x100, 32, 16⟩
/-- LK_ETH_STATUS.RX_DROP -/
def LK_ETH_STATUS.RX_DROP : Fld := ⟨0x30020020, 0x100, 48, 16⟩
/-- LK_ETH_CLASS.DSCP_0 -/
def LK_ETH_CLASS.DSCP_0 : Fld := ⟨0x30020028, 0x100, 0, 6⟩
/-- LK_ETH_CLASS.DSCP_1 -/
def LK_ETH_CLASS.DSCP_1 : Fld := ⟨0x30020028, 0x100, 6, 6⟩
/-- LK_ETH_CLASS.DSCP_2 -/
def LK_ETH_CLASS.DSCP_2 : Fld := ⟨0x30020028, 0x100, 12, 6⟩
/-- LK_ETH_CLASS.DSCP_3 -/
def LK_ETH_CLASS.DSCP_3 : Fld := ⟨0x30020028, 0x100, 18, 6⟩
/-- LK_ETH_CLASS.PRIO_0 -/
def LK_ETH_CLASS.PRIO_0 : Fld := ⟨0x30020028, 0x100, 32, 3⟩
/-- LK_ETH_CLASS.PRIO_1 -/
def LK_ETH_CLASS.PRIO_1 : Fld := ⟨0x30020028, 0x100, 35, 3⟩
/-- LK_ETH_CLASS.PRIO_2 -/
def LK_ETH_CLASS.PRIO_2 : Fld := ⟨0x30020028, 0x100, 38, 3⟩
/-- LK_ETH_CLASS.PRIO_3 -/
def LK_ETH_CLASS.PRIO_3 : Fld := ⟨0x30020028, 0x100, 41, 3⟩
/-- LK_ETH_MRX.BASE -/
def LK_ETH_MRX.BASE : Fld := ⟨0x30020030, 0x100, 12, 40⟩
/-- LK_ETH_MTX.BASE -/
def LK_ETH_MTX.BASE : Fld := ⟨0x30020038, 0x100, 12, 40⟩
/-- LK_ETH_MCFG.RX_LOG2 -/
def LK_ETH_MCFG.RX_LOG2 : Fld := ⟨0x30020040, 0x100, 0, 4⟩
/-- LK_ETH_MCFG.TX_LOG2 -/
def LK_ETH_MCFG.TX_LOG2 : Fld := ⟨0x30020040, 0x100, 4, 4⟩
/-- LK_ETH_MCFG.NOTIFY_SYNC -/
def LK_ETH_MCFG.NOTIFY_SYNC : Fld := ⟨0x30020040, 0x100, 8, 13⟩
/-- LK_ETH_MCFG.NOTIFY -/
def LK_ETH_MCFG.NOTIFY : Fld := ⟨0x30020040, 0x100, 21, 1⟩
/-- LK_ETH_MTX_TAIL.TAIL -/
def LK_ETH_MTX_TAIL.TAIL : Fld := ⟨0x30020048, 0x100, 0, 32⟩
/-- LK_EPEER_IP_HI.IP -/
def LK_EPEER_IP_HI.IP : Fld := ⟨0x30040000, 0x20, 0, 64⟩
/-- LK_EPEER_IP_LO.IP -/
def LK_EPEER_IP_LO.IP : Fld := ⟨0x30040008, 0x20, 0, 64⟩
/-- LK_EPEER_CFG.NEXT_MAC -/
def LK_EPEER_CFG.NEXT_MAC : Fld := ⟨0x30040010, 0x20, 0, 48⟩
/-- LK_EPEER_CFG.PORT -/
def LK_EPEER_CFG.PORT : Fld := ⟨0x30040010, 0x20, 48, 2⟩
/-- LK_EPEER_CFG.VALID -/
def LK_EPEER_CFG.VALID : Fld := ⟨0x30040010, 0x20, 50, 1⟩
/-- LK_EPEER_CFG.STATE -/
def LK_EPEER_CFG.STATE : Fld := ⟨0x30040010, 0x20, 52, 2⟩

/-- The registers of the LK block. -/
def regsLK : List Reg := [
  -- LK_LINK_CFG
  ⟨0x30000000, 0x40, 24, true, [⟨0, 3, .rw, .range 0 5, 5⟩, ⟨4, 8, .rw, .range 1 255, 64⟩, ⟨12, 1, .rw, .free, 1⟩, ⟨13, 1, .rw, .free, 0⟩, ⟨14, 2, .rw, .free, 0⟩]⟩,
  -- LK_LINK_STATUS
  ⟨0x30000008, 0x40, 24, false, [⟨0, 3, .ro, .free, 0⟩, ⟨3, 1, .ro, .free, 0⟩, ⟨8, 8, .ro, .free, 0⟩, ⟨16, 8, .ro, .free, 0⟩, ⟨32, 32, .ro, .free, 0⟩]⟩,
  -- LK_LINK_CTRL
  ⟨0x30000010, 0x40, 24, false, [⟨0, 1, .wo, .free, 0⟩, ⟨1, 1, .wo, .free, 0⟩]⟩,
  -- LK_LINK_ERR
  ⟨0x30000018, 0x40, 24, false, [⟨0, 32, .ro, .free, 0⟩, ⟨32, 16, .ro, .free, 0⟩, ⟨48, 16, .ro, .free, 0⟩]⟩,
  -- LK_LINK_REPLAY
  ⟨0x30000020, 0x40, 24, false, [⟨0, 32, .ro, .free, 0⟩, ⟨32, 32, .ro, .free, 0⟩]⟩,
  -- LK_LINK_TX_FLITS
  ⟨0x30000028, 0x40, 24, false, [⟨0, 64, .ro, .free, 0⟩]⟩,
  -- LK_LINK_RX_FLITS
  ⟨0x30000030, 0x40, 24, false, [⟨0, 64, .ro, .free, 0⟩]⟩,
  -- LK_DEVICE_ID
  ⟨0x30001000, 0x0, 1, false, [⟨0, 32, .rwl, .free, 0⟩]⟩,
  -- LK_CFG
  ⟨0x30001008, 0x0, 1, true, [⟨0, 14, .rw, .range 10 10000, 1000⟩, ⟨14, 1, .rw, .free, 0⟩]⟩,
  -- LK_CLASS_WEIGHT
  ⟨0x30001010, 0x0, 1, true, [⟨0, 8, .rw, .range 1 255, 64⟩, ⟨8, 8, .rw, .range 1 255, 32⟩, ⟨16, 8, .rw, .range 1 255, 16⟩]⟩,
  -- LK_STATUS
  ⟨0x30001018, 0x0, 1, false, [⟨0, 16, .ro, .free, 0⟩, ⟨16, 16, .ro, .free, 0⟩, ⟨32, 16, .ro, .free, 0⟩, ⟨48, 16, .ro, .free, 0⟩]⟩,
  -- LK_WIN
  ⟨0x30010000, 0x10, 256, true, [⟨0, 1, .rw, .free, 0⟩, ⟨1, 1, .rw, .free, 0⟩, ⟨2, 1, .rw, .free, 0⟩, ⟨3, 1, .ro, .free, 0⟩, ⟨4, 24, .rw, .free, 0⟩, ⟨28, 12, .rw, .free, 0⟩, ⟨48, 16, .ro, .free, 0⟩]⟩,
  -- LK_WIN_DEV
  ⟨0x30010008, 0x10, 256, true, [⟨0, 32, .rw, .free, 0⟩, ⟨32, 12, .rw, .free, 0⟩]⟩,
  -- LK_ETH_CFG
  ⟨0x30020000, 0x100, 4, false, [⟨0, 1, .rw, .free, 0⟩, ⟨1, 1, .rw, .free, 0⟩, ⟨2, 1, .rw, .free, 0⟩, ⟨16, 16, .rw, .free, 31774⟩, ⟨32, 14, .rw, .range 1518 9216, 9216⟩, ⟨48, 11, .rw, .range 5 2000, 50⟩]⟩,
  -- LK_ETH_MAC
  ⟨0x30020008, 0x100, 4, false, [⟨0, 48, .rw, .free, 0⟩]⟩,
  -- LK_ETH_IP_HI
  ⟨0x30020010, 0x100, 4, false, [⟨0, 64, .rw, .free, 0⟩]⟩,
  -- LK_ETH_IP_LO
  ⟨0x30020018, 0x100, 4, false, [⟨0, 64, .rw, .free, 0⟩]⟩,
  -- LK_ETH_STATUS
  ⟨0x30020020, 0x100, 4, false, [⟨0, 1, .ro, .free, 0⟩, ⟨16, 16, .ro, .free, 0⟩, ⟨32, 16, .ro, .free, 0⟩, ⟨48, 16, .ro, .free, 0⟩]⟩,
  -- LK_ETH_CLASS
  ⟨0x30020028, 0x100, 4, true, [⟨0, 6, .rw, .free, 0⟩, ⟨6, 6, .rw, .free, 0⟩, ⟨12, 6, .rw, .free, 0⟩, ⟨18, 6, .rw, .free, 0⟩, ⟨32, 3, .rw, .free, 0⟩, ⟨35, 3, .rw, .free, 0⟩, ⟨38, 3, .rw, .free, 0⟩, ⟨41, 3, .rw, .free, 0⟩]⟩,
  -- LK_ETH_MRX
  ⟨0x30020030, 0x100, 4, false, [⟨12, 40, .rw, .free, 0⟩]⟩,
  -- LK_ETH_MTX
  ⟨0x30020038, 0x100, 4, false, [⟨12, 40, .rw, .free, 0⟩]⟩,
  -- LK_ETH_MCFG
  ⟨0x30020040, 0x100, 4, false, [⟨0, 4, .rw, .range 4 12, 4⟩, ⟨4, 4, .rw, .range 4 12, 4⟩, ⟨8, 13, .rw, .free, 0⟩, ⟨21, 1, .rw, .free, 0⟩]⟩,
  -- LK_ETH_MTX_TAIL
  ⟨0x30020048, 0x100, 4, false, [⟨0, 32, .rw, .free, 0⟩]⟩,
  -- LK_EPEER_IP_HI
  ⟨0x30040000, 0x20, 4096, false, [⟨0, 64, .rw, .free, 0⟩]⟩,
  -- LK_EPEER_IP_LO
  ⟨0x30040008, 0x20, 4096, false, [⟨0, 64, .rw, .free, 0⟩]⟩,
  -- LK_EPEER_CFG
  ⟨0x30040010, 0x20, 4096, false, [⟨0, 48, .rw, .free, 0⟩, ⟨48, 2, .rw, .free, 0⟩, ⟨50, 1, .rw, .free, 0⟩, ⟨52, 2, .ro, .free, 0⟩]⟩]

/-! Fields of the DIR block. -/

/-- DIR_S_STATUS.BUSY -/
def DIR_S_STATUS.BUSY : Fld := ⟨0x38000000, 0x40, 0, 9⟩
/-- DIR_S_STATUS.LOST -/
def DIR_S_STATUS.LOST : Fld := ⟨0x38000000, 0x40, 16, 18⟩
/-- DIR_S_STATUS.LOST_TOTAL -/
def DIR_S_STATUS.LOST_TOTAL : Fld := ⟨0x38000000, 0x40, 48, 16⟩
/-- DIR_S_LOOKUPS.COUNT -/
def DIR_S_LOOKUPS.COUNT : Fld := ⟨0x38000008, 0x40, 0, 64⟩
/-- DIR_S_BACKINV.COUNT -/
def DIR_S_BACKINV.COUNT : Fld := ⟨0x38000010, 0x40, 0, 64⟩
/-- DIR_S_BCAST.COUNT -/
def DIR_S_BCAST.COUNT : Fld := ⟨0x38000018, 0x40, 0, 64⟩
/-- DIR_PROBE.LINE -/
def DIR_PROBE.LINE : Fld := ⟨0x38001000, 0x0, 6, 46⟩
/-- DIR_PROBE_DATA.STATE -/
def DIR_PROBE_DATA.STATE : Fld := ⟨0x38001008, 0x0, 0, 3⟩
/-- DIR_PROBE_DATA.BUSY -/
def DIR_PROBE_DATA.BUSY : Fld := ⟨0x38001008, 0x0, 3, 1⟩
/-- DIR_PROBE_DATA.NPTR -/
def DIR_PROBE_DATA.NPTR : Fld := ⟨0x38001008, 0x0, 4, 3⟩
/-- DIR_PROBE_DATA.PTR0 -/
def DIR_PROBE_DATA.PTR0 : Fld := ⟨0x38001008, 0x0, 7, 7⟩
/-- DIR_PROBE_DATA.PTR1 -/
def DIR_PROBE_DATA.PTR1 : Fld := ⟨0x38001008, 0x0, 14, 7⟩
/-- DIR_PROBE_DATA.PTR2 -/
def DIR_PROBE_DATA.PTR2 : Fld := ⟨0x38001008, 0x0, 21, 7⟩
/-- DIR_PROBE_DATA.PTR3 -/
def DIR_PROBE_DATA.PTR3 : Fld := ⟨0x38001008, 0x0, 28, 7⟩
/-- DIR_PROBE_DATA.WAY -/
def DIR_PROBE_DATA.WAY : Fld := ⟨0x38001008, 0x0, 35, 4⟩
/-- DIR_PROBE_DATA.SET -/
def DIR_PROBE_DATA.SET : Fld := ⟨0x38001008, 0x0, 39, 13⟩
/-- DIR_PROBE_DATA.SLICE -/
def DIR_PROBE_DATA.SLICE : Fld := ⟨0x38001008, 0x0, 52, 5⟩
/-- DIR_PROBE_DATA.VALID -/
def DIR_PROBE_DATA.VALID : Fld := ⟨0x38001008, 0x0, 63, 1⟩

/-- The registers of the DIR block. -/
def regsDIR : List Reg := [
  -- DIR_S_STATUS
  ⟨0x38000000, 0x40, 32, false, [⟨0, 9, .ro, .free, 0⟩, ⟨16, 18, .ro, .free, 0⟩, ⟨48, 16, .ro, .free, 0⟩]⟩,
  -- DIR_S_LOOKUPS
  ⟨0x38000008, 0x40, 32, false, [⟨0, 64, .ro, .free, 0⟩]⟩,
  -- DIR_S_BACKINV
  ⟨0x38000010, 0x40, 32, false, [⟨0, 64, .ro, .free, 0⟩]⟩,
  -- DIR_S_BCAST
  ⟨0x38000018, 0x40, 32, false, [⟨0, 64, .ro, .free, 0⟩]⟩,
  -- DIR_PROBE
  ⟨0x38001000, 0x0, 1, false, [⟨6, 46, .wo, .free, 0⟩]⟩,
  -- DIR_PROBE_DATA
  ⟨0x38001008, 0x0, 1, false, [⟨0, 3, .ro, .free, 0⟩, ⟨3, 1, .ro, .free, 0⟩, ⟨4, 3, .ro, .free, 0⟩, ⟨7, 7, .ro, .free, 0⟩, ⟨14, 7, .ro, .free, 0⟩, ⟨21, 7, .ro, .free, 0⟩, ⟨28, 7, .ro, .free, 0⟩, ⟨35, 4, .ro, .free, 0⟩, ⟨39, 13, .ro, .free, 0⟩, ⟨52, 5, .ro, .free, 0⟩, ⟨63, 1, .ro, .free, 0⟩]⟩]

/-! Fields of the TRCDBG block. -/

/-- TRC_CFG.BUDGET_PERMILLE -/
def TRC_CFG.BUDGET_PERMILLE : Fld := ⟨0x40000000, 0x0, 0, 5⟩
/-- TRC_CFG.SAMPLE_EN -/
def TRC_CFG.SAMPLE_EN : Fld := ⟨0x40000000, 0x0, 8, 1⟩
/-- TRC_CFG.SAMPLE_US -/
def TRC_CFG.SAMPLE_US : Fld := ⟨0x40000000, 0x0, 16, 16⟩
/-- TRC_STATUS.OVER -/
def TRC_STATUS.OVER : Fld := ⟨0x40000008, 0x0, 0, 32⟩
/-- TRC_MARK.VALUE -/
def TRC_MARK.VALUE : Fld := ⟨0x40000010, 0x0, 0, 64⟩
/-- TRC_RING_BASE.BASE -/
def TRC_RING_BASE.BASE : Fld := ⟨0x40001000, 0x40, 12, 40⟩
/-- TRC_RING_CFG.ENTRIES -/
def TRC_RING_CFG.ENTRIES : Fld := ⟨0x40001008, 0x40, 0, 17⟩
/-- TRC_RING_CFG.NOTIFY_SYNC -/
def TRC_RING_CFG.NOTIFY_SYNC : Fld := ⟨0x40001008, 0x40, 17, 13⟩
/-- TRC_RING_CFG.NOTIFY -/
def TRC_RING_CFG.NOTIFY : Fld := ⟨0x40001008, 0x40, 30, 1⟩
/-- TRC_RING_CFG.ENABLE -/
def TRC_RING_CFG.ENABLE : Fld := ⟨0x40001008, 0x40, 31, 1⟩
/-- TRC_RING_HEAD.HEAD -/
def TRC_RING_HEAD.HEAD : Fld := ⟨0x40001010, 0x40, 0, 32⟩
/-- TRC_RING_STATUS.TAIL -/
def TRC_RING_STATUS.TAIL : Fld := ⟨0x40001018, 0x40, 0, 32⟩
/-- TRC_RING_STATUS.SPILLS -/
def TRC_RING_STATUS.SPILLS : Fld := ⟨0x40001018, 0x40, 32, 32⟩
/-- TRC_RING_EVENTS.MASK -/
def TRC_RING_EVENTS.MASK : Fld := ⟨0x40001020, 0x40, 0, 64⟩
/-- TRC_RING_FILTER.CONTEXT -/
def TRC_RING_FILTER.CONTEXT : Fld := ⟨0x40001028, 0x40, 0, 12⟩
/-- TRC_RING_FILTER.CTX_EN -/
def TRC_RING_FILTER.CTX_EN : Fld := ⟨0x40001028, 0x40, 12, 1⟩
/-- TRC_RING_FILTER.LAYER -/
def TRC_RING_FILTER.LAYER : Fld := ⟨0x40001028, 0x40, 16, 16⟩
/-- TRC_RING_FILTER.LAYER_EN -/
def TRC_RING_FILTER.LAYER_EN : Fld := ⟨0x40001028, 0x40, 32, 1⟩
/-- TRC_RING_FILTER.SRCKINDS -/
def TRC_RING_FILTER.SRCKINDS : Fld := ⟨0x40001028, 0x40, 40, 6⟩
/-- TRC_HPMC_SEL.SEL -/
def TRC_HPMC_SEL.SEL : Fld := ⟨0x40002000, 0x10, 0, 8⟩
/-- TRC_HPMC_SEL.CONTEXT -/
def TRC_HPMC_SEL.CONTEXT : Fld := ⟨0x40002000, 0x10, 8, 12⟩
/-- TRC_HPMC_SEL.CTX_EN -/
def TRC_HPMC_SEL.CTX_EN : Fld := ⟨0x40002000, 0x10, 20, 1⟩
/-- TRC_HPMC_SEL.LAYER -/
def TRC_HPMC_SEL.LAYER : Fld := ⟨0x40002000, 0x10, 32, 16⟩
/-- TRC_HPMC_SEL.LAYER_EN -/
def TRC_HPMC_SEL.LAYER_EN : Fld := ⟨0x40002000, 0x10, 48, 1⟩
/-- TRC_HPMC.COUNT -/
def TRC_HPMC.COUNT : Fld := ⟨0x40002008, 0x10, 0, 64⟩
/-- DBG_CTXRST.CONTEXT -/
def DBG_CTXRST.CONTEXT : Fld := ⟨0x40800000, 0x0, 0, 12⟩
/-- DBG_CTXRST.SIGNAL -/
def DBG_CTXRST.SIGNAL : Fld := ⟨0x40800000, 0x0, 12, 1⟩
/-- DBG_CTXRST.SYNC -/
def DBG_CTXRST.SYNC : Fld := ⟨0x40800000, 0x0, 13, 13⟩
/-- DBG_CTXRST_STATUS.PENDING -/
def DBG_CTXRST_STATUS.PENDING : Fld := ⟨0x40800008, 0x0, 0, 5⟩
/-- DBG_CTXRST_STATUS.ACTIVE -/
def DBG_CTXRST_STATUS.ACTIVE : Fld := ⟨0x40800008, 0x0, 8, 12⟩
/-- DBG_CTXRST_STATUS.BUSY -/
def DBG_CTXRST_STATUS.BUSY : Fld := ⟨0x40800008, 0x0, 20, 1⟩
/-- DBG_CTXRST_STATUS.REFUSED -/
def DBG_CTXRST_STATUS.REFUSED : Fld := ⟨0x40800008, 0x0, 32, 16⟩
/-- DBG_CTXRST_STATUS.JOINED -/
def DBG_CTXRST_STATUS.JOINED : Fld := ⟨0x40800008, 0x0, 48, 16⟩
/-- DBG_RST_RING.BASE -/
def DBG_RST_RING.BASE : Fld := ⟨0x40800010, 0x0, 12, 40⟩
/-- DBG_RST_CFG.ENTRIES -/
def DBG_RST_CFG.ENTRIES : Fld := ⟨0x40800018, 0x0, 0, 17⟩
/-- DBG_RST_CFG.NOTIFY_SYNC -/
def DBG_RST_CFG.NOTIFY_SYNC : Fld := ⟨0x40800018, 0x0, 17, 13⟩
/-- DBG_RST_CFG.NOTIFY -/
def DBG_RST_CFG.NOTIFY : Fld := ⟨0x40800018, 0x0, 30, 1⟩
/-- DBG_RST_CFG.ENABLE -/
def DBG_RST_CFG.ENABLE : Fld := ⟨0x40800018, 0x0, 31, 1⟩
/-- DBG_RST_HEAD.HEAD -/
def DBG_RST_HEAD.HEAD : Fld := ⟨0x40800020, 0x0, 0, 32⟩
/-- DBG_RST_STATUS.TAIL -/
def DBG_RST_STATUS.TAIL : Fld := ⟨0x40800028, 0x0, 0, 32⟩
/-- DBG_RST_STATUS.LOST -/
def DBG_RST_STATUS.LOST : Fld := ⟨0x40800028, 0x0, 32, 16⟩
/-- DBG_FLT_RING.BASE -/
def DBG_FLT_RING.BASE : Fld := ⟨0x40800030, 0x0, 12, 40⟩
/-- DBG_FLT_CFG.ENTRIES -/
def DBG_FLT_CFG.ENTRIES : Fld := ⟨0x40800038, 0x0, 0, 17⟩
/-- DBG_FLT_CFG.NOTIFY_SYNC -/
def DBG_FLT_CFG.NOTIFY_SYNC : Fld := ⟨0x40800038, 0x0, 17, 13⟩
/-- DBG_FLT_CFG.NOTIFY -/
def DBG_FLT_CFG.NOTIFY : Fld := ⟨0x40800038, 0x0, 30, 1⟩
/-- DBG_FLT_CFG.ENABLE -/
def DBG_FLT_CFG.ENABLE : Fld := ⟨0x40800038, 0x0, 31, 1⟩
/-- DBG_FLT_HEAD.HEAD -/
def DBG_FLT_HEAD.HEAD : Fld := ⟨0x40800040, 0x0, 0, 32⟩
/-- DBG_FLT_STATUS.TAIL -/
def DBG_FLT_STATUS.TAIL : Fld := ⟨0x40800048, 0x0, 0, 32⟩
/-- DBG_FLT_STATUS.LOST -/
def DBG_FLT_STATUS.LOST : Fld := ⟨0x40800048, 0x0, 32, 16⟩
/-- DBG_FENCE_HC_0.FENCE -/
def DBG_FENCE_HC_0.FENCE : Fld := ⟨0x40800100, 0x0, 0, 64⟩
/-- DBG_FENCE_HC_1.FENCE -/
def DBG_FENCE_HC_1.FENCE : Fld := ⟨0x40800108, 0x0, 0, 32⟩
/-- DBG_FENCE_TC.FENCE -/
def DBG_FENCE_TC.FENCE : Fld := ⟨0x40800120, 0x8, 0, 52⟩
/-- DBG_HOSTDIE_RESET.GO -/
def DBG_HOSTDIE_RESET.GO : Fld := ⟨0x40800200, 0x0, 0, 1⟩
/-- DBG_TDIE_CTRL.RESET -/
def DBG_TDIE_CTRL.RESET : Fld := ⟨0x40800300, 0x10, 0, 1⟩
/-- DBG_TDIE_CTRL.READMIT -/
def DBG_TDIE_CTRL.READMIT : Fld := ⟨0x40800300, 0x10, 1, 1⟩
/-- DBG_TDIE_STATUS.STATE -/
def DBG_TDIE_STATUS.STATE : Fld := ⟨0x40800308, 0x10, 0, 3⟩
/-- DBG_TDIE_STATUS.RESETS -/
def DBG_TDIE_STATUS.RESETS : Fld := ⟨0x40800308, 0x10, 8, 8⟩
/-- DBG_TDIE_STATUS.CONTEXTS -/
def DBG_TDIE_STATUS.CONTEXTS : Fld := ⟨0x40800308, 0x10, 16, 16⟩
/-- DBG_CFG.EXT_DEBUG -/
def DBG_CFG.EXT_DEBUG : Fld := ⟨0x40810000, 0x0, 0, 1⟩
/-- DBG_HC_HALT_0.HALT -/
def DBG_HC_HALT_0.HALT : Fld := ⟨0x40810008, 0x0, 0, 64⟩
/-- DBG_HC_HALT_1.HALT -/
def DBG_HC_HALT_1.HALT : Fld := ⟨0x40810010, 0x0, 0, 32⟩
/-- DBG_SP_ADDR.ADDR -/
def DBG_SP_ADDR.ADDR : Fld := ⟨0x40810018, 0x0, 3, 29⟩
/-- DBG_SP_DATA.DATA -/
def DBG_SP_DATA.DATA : Fld := ⟨0x40810020, 0x0, 0, 64⟩
/-- DBG_SP_STAT.POISON -/
def DBG_SP_STAT.POISON : Fld := ⟨0x40810028, 0x0, 0, 1⟩
/-- DBG_SP_STAT.DENIED -/
def DBG_SP_STAT.DENIED : Fld := ⟨0x40810028, 0x0, 1, 1⟩
/-- DBG_SP_STAT.DONE -/
def DBG_SP_STAT.DONE : Fld := ⟨0x40810028, 0x0, 2, 1⟩

/-- The registers of the TRCDBG block. -/
def regsTRCDBG : List Reg := [
  -- TRC_CFG
  ⟨0x40000000, 0x0, 1, true, [⟨0, 5, .rw, .range 1 30, 30⟩, ⟨8, 1, .rw, .free, 0⟩, ⟨16, 16, .rw, .range 1 65535, 1000⟩]⟩,
  -- TRC_STATUS
  ⟨0x40000008, 0x0, 1, false, [⟨0, 32, .ro, .free, 0⟩]⟩,
  -- TRC_MARK
  ⟨0x40000010, 0x0, 1, false, [⟨0, 64, .wo, .free, 0⟩]⟩,
  -- TRC_RING_BASE
  ⟨0x40001000, 0x40, 16, false, [⟨12, 40, .rw, .free, 0⟩]⟩,
  -- TRC_RING_CFG
  ⟨0x40001008, 0x40, 16, false, [⟨0, 17, .rw, .pow2 64 65536, 64⟩, ⟨17, 13, .rw, .free, 0⟩, ⟨30, 1, .rw, .free, 0⟩, ⟨31, 1, .rw, .free, 0⟩]⟩,
  -- TRC_RING_HEAD
  ⟨0x40001010, 0x40, 16, false, [⟨0, 32, .rw, .free, 0⟩]⟩,
  -- TRC_RING_STATUS
  ⟨0x40001018, 0x40, 16, false, [⟨0, 32, .ro, .free, 0⟩, ⟨32, 32, .ro, .free, 0⟩]⟩,
  -- TRC_RING_EVENTS
  ⟨0x40001020, 0x40, 16, true, [⟨0, 64, .rw, .free, 0⟩]⟩,
  -- TRC_RING_FILTER
  ⟨0x40001028, 0x40, 16, true, [⟨0, 12, .rw, .free, 0⟩, ⟨12, 1, .rw, .free, 0⟩, ⟨16, 16, .rw, .free, 0⟩, ⟨32, 1, .rw, .free, 0⟩, ⟨40, 6, .rw, .free, 63⟩]⟩,
  -- TRC_HPMC_SEL
  ⟨0x40002000, 0x10, 32, true, [⟨0, 8, .rw, .codes [(0, 0), (64, 77)], 0⟩, ⟨8, 12, .rw, .free, 0⟩, ⟨20, 1, .rw, .free, 0⟩, ⟨32, 16, .rw, .free, 0⟩, ⟨48, 1, .rw, .free, 0⟩]⟩,
  -- TRC_HPMC
  ⟨0x40002008, 0x10, 32, false, [⟨0, 64, .rw, .free, 0⟩]⟩,
  -- DBG_CTXRST
  ⟨0x40800000, 0x0, 1, false, [⟨0, 12, .wo, .free, 0⟩, ⟨12, 1, .wo, .free, 0⟩, ⟨13, 13, .wo, .free, 0⟩]⟩,
  -- DBG_CTXRST_STATUS
  ⟨0x40800008, 0x0, 1, false, [⟨0, 5, .ro, .free, 0⟩, ⟨8, 12, .ro, .free, 0⟩, ⟨20, 1, .ro, .free, 0⟩, ⟨32, 16, .ro, .free, 0⟩, ⟨48, 16, .ro, .free, 0⟩]⟩,
  -- DBG_RST_RING
  ⟨0x40800010, 0x0, 1, false, [⟨12, 40, .rw, .free, 0⟩]⟩,
  -- DBG_RST_CFG
  ⟨0x40800018, 0x0, 1, false, [⟨0, 17, .rw, .pow2 64 65536, 64⟩, ⟨17, 13, .rw, .free, 0⟩, ⟨30, 1, .rw, .free, 0⟩, ⟨31, 1, .rw, .free, 0⟩]⟩,
  -- DBG_RST_HEAD
  ⟨0x40800020, 0x0, 1, false, [⟨0, 32, .rw, .free, 0⟩]⟩,
  -- DBG_RST_STATUS
  ⟨0x40800028, 0x0, 1, false, [⟨0, 32, .ro, .free, 0⟩, ⟨32, 16, .ro, .free, 0⟩]⟩,
  -- DBG_FLT_RING
  ⟨0x40800030, 0x0, 1, false, [⟨12, 40, .rw, .free, 0⟩]⟩,
  -- DBG_FLT_CFG
  ⟨0x40800038, 0x0, 1, false, [⟨0, 17, .rw, .pow2 64 65536, 64⟩, ⟨17, 13, .rw, .free, 0⟩, ⟨30, 1, .rw, .free, 0⟩, ⟨31, 1, .rw, .free, 0⟩]⟩,
  -- DBG_FLT_HEAD
  ⟨0x40800040, 0x0, 1, false, [⟨0, 32, .rw, .free, 0⟩]⟩,
  -- DBG_FLT_STATUS
  ⟨0x40800048, 0x0, 1, false, [⟨0, 32, .ro, .free, 0⟩, ⟨32, 16, .ro, .free, 0⟩]⟩,
  -- DBG_FENCE_HC_0
  ⟨0x40800100, 0x0, 1, false, [⟨0, 64, .rw, .free, 0⟩]⟩,
  -- DBG_FENCE_HC_1
  ⟨0x40800108, 0x0, 1, false, [⟨0, 32, .rw, .free, 0⟩]⟩,
  -- DBG_FENCE_TC
  ⟨0x40800120, 0x8, 4, false, [⟨0, 52, .rw, .free, 0⟩]⟩,
  -- DBG_HOSTDIE_RESET
  ⟨0x40800200, 0x0, 1, false, [⟨0, 1, .wo, .free, 0⟩]⟩,
  -- DBG_TDIE_CTRL
  ⟨0x40800300, 0x10, 4, false, [⟨0, 1, .wo, .free, 0⟩, ⟨1, 1, .wo, .free, 0⟩]⟩,
  -- DBG_TDIE_STATUS
  ⟨0x40800308, 0x10, 4, false, [⟨0, 3, .ro, .free, 0⟩, ⟨8, 8, .ro, .free, 0⟩, ⟨16, 16, .ro, .free, 0⟩]⟩,
  -- DBG_CFG
  ⟨0x40810000, 0x0, 1, false, [⟨0, 1, .rwl, .free, 0⟩]⟩,
  -- DBG_HC_HALT_0
  ⟨0x40810008, 0x0, 1, false, [⟨0, 64, .rw, .free, 0⟩]⟩,
  -- DBG_HC_HALT_1
  ⟨0x40810010, 0x0, 1, false, [⟨0, 32, .rw, .free, 0⟩]⟩,
  -- DBG_SP_ADDR
  ⟨0x40810018, 0x0, 1, false, [⟨3, 29, .rw, .free, 0⟩]⟩,
  -- DBG_SP_DATA
  ⟨0x40810020, 0x0, 1, false, [⟨0, 64, .ro, .free, 0⟩]⟩,
  -- DBG_SP_STAT
  ⟨0x40810028, 0x0, 1, false, [⟨0, 1, .ro, .free, 0⟩, ⟨1, 1, .ro, .free, 0⟩, ⟨2, 1, .ro, .free, 0⟩]⟩]

/-! Fields of the BOOTSEC block. -/

/-- BOOT_STATUS.STAGE -/
def BOOT_STATUS.STAGE : Fld := ⟨0x70000000, 0x0, 0, 4⟩
/-- BOOT_STATUS.SLOT -/
def BOOT_STATUS.SLOT : Fld := ⟨0x70000000, 0x0, 4, 1⟩
/-- BOOT_STATUS.RESULT_A -/
def BOOT_STATUS.RESULT_A : Fld := ⟨0x70000000, 0x0, 8, 4⟩
/-- BOOT_STATUS.RESULT_B -/
def BOOT_STATUS.RESULT_B : Fld := ⟨0x70000000, 0x0, 12, 4⟩
/-- BOOT_STATUS.KEY_INDEX -/
def BOOT_STATUS.KEY_INDEX : Fld := ⟨0x70000000, 0x0, 16, 2⟩
/-- BOOT_STATUS.IMAGE_ROLLBACK -/
def BOOT_STATUS.IMAGE_ROLLBACK : Fld := ⟨0x70000000, 0x0, 32, 9⟩
/-- BOOT_LOCK_TIME.TICK -/
def BOOT_LOCK_TIME.TICK : Fld := ⟨0x70000008, 0x0, 0, 64⟩
/-- BOOT_SAVE.FOUND -/
def BOOT_SAVE.FOUND : Fld := ⟨0x70000010, 0x0, 0, 1⟩
/-- BOOT_SAVE.COMPLETE -/
def BOOT_SAVE.COMPLETE : Fld := ⟨0x70000010, 0x0, 1, 1⟩
/-- BOOT_SAVE.SEQ -/
def BOOT_SAVE.SEQ : Fld := ⟨0x70000010, 0x0, 32, 32⟩
/-- BOOT_RELEASE.CORE -/
def BOOT_RELEASE.CORE : Fld := ⟨0x70000018, 0x0, 0, 7⟩
/-- BOOT_RELEASE.GO -/
def BOOT_RELEASE.GO : Fld := ⟨0x70000018, 0x0, 7, 1⟩
/-- BOOT_MEASURE.BYTES -/
def BOOT_MEASURE.BYTES : Fld := ⟨0x70000040, 0x8, 0, 64⟩
/-- SEC_ROLLBACK.COUNTER -/
def SEC_ROLLBACK.COUNTER : Fld := ⟨0x70001000, 0x0, 0, 9⟩
/-- SEC_KEYS.PROGRAMMED -/
def SEC_KEYS.PROGRAMMED : Fld := ⟨0x70001008, 0x0, 0, 4⟩
/-- SEC_KEYS.REVOKED -/
def SEC_KEYS.REVOKED : Fld := ⟨0x70001008, 0x0, 4, 4⟩
/-- SEC_DIKE_INDEX.RULE -/
def SEC_DIKE_INDEX.RULE : Fld := ⟨0x70001010, 0x0, 0, 10⟩
/-- SEC_DIKE_RULE_LO.WORD0 -/
def SEC_DIKE_RULE_LO.WORD0 : Fld := ⟨0x70001018, 0x0, 0, 64⟩
/-- SEC_DIKE_RULE_HI.WORD1 -/
def SEC_DIKE_RULE_HI.WORD1 : Fld := ⟨0x70001020, 0x0, 0, 64⟩
/-- SEC_DIKE_COUNT.RULES -/
def SEC_DIKE_COUNT.RULES : Fld := ⟨0x70001028, 0x0, 0, 10⟩
/-- SEC_DIKE_COUNT.NPART -/
def SEC_DIKE_COUNT.NPART : Fld := ⟨0x70001028, 0x0, 16, 5⟩
/-- SEC_PART_QUERY.KIND -/
def SEC_PART_QUERY.KIND : Fld := ⟨0x70001030, 0x0, 0, 2⟩
/-- SEC_PART_QUERY.NUMBER -/
def SEC_PART_QUERY.NUMBER : Fld := ⟨0x70001030, 0x0, 16, 14⟩
/-- SEC_PART_RESULT.PARTITION -/
def SEC_PART_RESULT.PARTITION : Fld := ⟨0x70001038, 0x0, 0, 4⟩
/-- SEC_PART_RESULT.VALID -/
def SEC_PART_RESULT.VALID : Fld := ⟨0x70001038, 0x0, 4, 1⟩

/-- The registers of the BOOTSEC block. -/
def regsBOOTSEC : List Reg := [
  -- BOOT_STATUS
  ⟨0x70000000, 0x0, 1, false, [⟨0, 4, .ro, .free, 0⟩, ⟨4, 1, .ro, .free, 0⟩, ⟨8, 4, .ro, .free, 0⟩, ⟨12, 4, .ro, .free, 0⟩, ⟨16, 2, .ro, .free, 0⟩, ⟨32, 9, .ro, .free, 0⟩]⟩,
  -- BOOT_LOCK_TIME
  ⟨0x70000008, 0x0, 1, false, [⟨0, 64, .ro, .free, 0⟩]⟩,
  -- BOOT_SAVE
  ⟨0x70000010, 0x0, 1, false, [⟨0, 1, .ro, .free, 0⟩, ⟨1, 1, .ro, .free, 0⟩, ⟨32, 32, .ro, .free, 0⟩]⟩,
  -- BOOT_RELEASE
  ⟨0x70000018, 0x0, 1, false, [⟨0, 7, .wo, .range 0 95, 0⟩, ⟨7, 1, .wo, .free, 0⟩]⟩,
  -- BOOT_MEASURE
  ⟨0x70000040, 0x8, 8, false, [⟨0, 64, .ro, .free, 0⟩]⟩,
  -- SEC_ROLLBACK
  ⟨0x70001000, 0x0, 1, false, [⟨0, 9, .ro, .free, 0⟩]⟩,
  -- SEC_KEYS
  ⟨0x70001008, 0x0, 1, false, [⟨0, 4, .ro, .free, 0⟩, ⟨4, 4, .ro, .free, 0⟩]⟩,
  -- SEC_DIKE_INDEX
  ⟨0x70001010, 0x0, 1, false, [⟨0, 10, .rw, .free, 0⟩]⟩,
  -- SEC_DIKE_RULE_LO
  ⟨0x70001018, 0x0, 1, false, [⟨0, 64, .ro, .free, 0⟩]⟩,
  -- SEC_DIKE_RULE_HI
  ⟨0x70001020, 0x0, 1, false, [⟨0, 64, .ro, .free, 0⟩]⟩,
  -- SEC_DIKE_COUNT
  ⟨0x70001028, 0x0, 1, false, [⟨0, 10, .ro, .free, 0⟩, ⟨16, 5, .ro, .free, 0⟩]⟩,
  -- SEC_PART_QUERY
  ⟨0x70001030, 0x0, 1, false, [⟨0, 2, .rw, .free, 0⟩, ⟨16, 14, .rw, .free, 0⟩]⟩,
  -- SEC_PART_RESULT
  ⟨0x70001038, 0x0, 1, false, [⟨0, 4, .ro, .free, 0⟩, ⟨4, 1, .ro, .free, 0⟩]⟩]

/-! Fields of the HC block. -/

/-- HC_L2LOCK.WAYS -/
def HC_L2LOCK.WAYS : Fld := ⟨0x100000000, 0x40, 0, 4⟩
/-- HC_L2LOCK.PRELOAD -/
def HC_L2LOCK.PRELOAD : Fld := ⟨0x100000000, 0x40, 4, 1⟩
/-- HC_L2LOCK.LOCK_LOST -/
def HC_L2LOCK.LOCK_LOST : Fld := ⟨0x100000000, 0x40, 32, 32⟩
/-- HC_PFCTL.NEXTLINE -/
def HC_PFCTL.NEXTLINE : Fld := ⟨0x100000008, 0x40, 0, 1⟩
/-- HC_STRICT.STRICT -/
def HC_STRICT.STRICT : Fld := ⟨0x100000010, 0x40, 0, 1⟩
/-- HC_STRICT.FORCED -/
def HC_STRICT.FORCED : Fld := ⟨0x100000010, 0x40, 1, 2⟩
/-- HC_DEVSYN.KIND -/
def HC_DEVSYN.KIND : Fld := ⟨0x100000018, 0x40, 0, 2⟩
/-- HC_DEVSYN.CAUSE -/
def HC_DEVSYN.CAUSE : Fld := ⟨0x100000018, 0x40, 8, 4⟩
/-- HC_DEVSYN.COUNT -/
def HC_DEVSYN.COUNT : Fld := ⟨0x100000018, 0x40, 32, 16⟩
/-- HC_DEVADDR.PA -/
def HC_DEVADDR.PA : Fld := ⟨0x100000020, 0x40, 0, 52⟩

/-- The registers of the HC block. -/
def regsHC : List Reg := [
  -- HC_L2LOCK
  ⟨0x100000000, 0x40, 96, false, [⟨0, 4, .rw, .range 0 12, 0⟩, ⟨4, 1, .rw, .free, 0⟩, ⟨32, 32, .ro, .free, 0⟩]⟩,
  -- HC_PFCTL
  ⟨0x100000008, 0x40, 96, false, [⟨0, 1, .rw, .free, 1⟩]⟩,
  -- HC_STRICT
  ⟨0x100000010, 0x40, 96, false, [⟨0, 1, .rw, .free, 1⟩, ⟨1, 2, .ro, .free, 1⟩]⟩,
  -- HC_DEVSYN
  ⟨0x100000018, 0x40, 96, false, [⟨0, 2, .ro, .free, 0⟩, ⟨8, 4, .ro, .free, 0⟩, ⟨32, 16, .ro, .free, 0⟩]⟩,
  -- HC_DEVADDR
  ⟨0x100000020, 0x40, 96, false, [⟨0, 52, .ro, .free, 0⟩]⟩]

/-- The blocks of R51: their ends and the registers in them. A doorbell page and the queue table are two entries. -/
def regBlocks : List (Nat × Nat × List Reg) := [
  (0x0, 0x10000, regsSYS),
  (0x10000, 0x20000, regsTXN),
  (0x100000, 0x200000, regsSLU),
  (0x1000000, 0x5000000, regsQEDB),
  (0x5000000, 0x6000000, regsQE),
  (0x8000000, 0x9000000, regsSY),
  (0x9000000, 0xa000000, regsMB),
  (0xa000000, 0xb000000, regsTR),
  (0x10000000, 0x11000000, regsTC),
  (0x20000000, 0x21000000, regsHM),
  (0x21000000, 0x22000000, regsTIER),
  (0x22000000, 0x23000000, regsCE),
  (0x30000000, 0x31000000, regsLK),
  (0x38000000, 0x39000000, regsDIR),
  (0x40000000, 0x41000000, regsTRCDBG),
  (0x70000000, 0x71000000, regsBOOTSEC),
  (0x100000000, 0x100002000, regsHC)]

/-- Whether an offset is one of the registers of a row. -/
def Reg.has (r : Reg) (off : Nat) : Bool :=
  decide (r.base ≤ off) &&
    (if r.stride = 0 then off == r.base
     else (off - r.base) % r.stride == 0 && decide ((off - r.base) / r.stride < r.count))

/-- The registers of the block an offset lies in. -/
def blockRegs : List (Nat × Nat × List Reg) → Nat → Option (List Reg)
  | [], _ => none
  | (lo, hi, rs) :: r, off => if lo ≤ off ∧ off < hi then some rs else blockRegs r off

/-- The register at an offset; none where the block has none there (R59) or there is no block (R51). -/
def regAt (off : Nat) : Option Reg :=
  match blockRegs regBlocks off with
  | none => none
  | some rs => rs.find? (fun r => r.has off)

/-- Whether an offset lies in a block of R51. -/
def inBlock (off : Nat) : Bool := decide (off < 0x100000000) && (blockRegs regBlocks off).isSome

/-- The word a register's fields make at reset. -/
def Reg.resetWord (r : Reg) : Word :=
  r.fields.foldl (fun v f => v ||| (BitVec.ofNat 64 (f.reset <<< f.lo))) 0

/-- What the register at an offset holds after package reset. -/
def regReset (off : Nat) : Word :=
  match regAt off with
  | none => 0
  | some r => r.resetWord

end Sys2Proof.Machine
end

