-- ==== Sys2Proof/Machine/State.lean ====
section
/-! DEFINITION. The state of the block: every register of register space in one table, and the state the manual
gives the engines beside their registers. Plain data throughout. -/

namespace Sys2Proof.Machine

/-- No command of the table stops the block with a fault: the manual gives every row an effect. -/
inductive Fault
  /-- Raised by no meaning; safe. -/
  | none_
  deriving DecidableEq, Repr

/-- No command is refused. -/
inductive Refusal
  /-- A command whose meaning is not written yet, by the mnemonic of its row; safe. Raised by no arm of exec. -/
  | notModelled (mnemonic : String)
  deriving DecidableEq, Repr

/-- What the device answers to the agent that read, wrote or asked last (R56, R57, R281): the value read and the
cause of a refusal, 0 when the access was performed. -/
structure Reply where
  /-- agent number of R66 -/
  agent : Nat
  /-- the data of a read in the low bytes, zero otherwise -/
  value : Line
  /-- cause code of R57, 0 none, 7 a memory-side request refused under R281 (the model's number) -/
  cause : Nat
  /-- the answer is poison, R274, R282 -/
  poison : Bool
  deriving DecidableEq, Repr

/-- What the part's fuses hold (R2, R8, R98, R103, R433, R434); kept over every reset (R484). -/
structure Fuses where
  /-- GRADE code of R2 -/
  grade : Nat
  /-- STEPPING of R7 -/
  stepping : Nat
  /-- the masks EN of R8, one per die -/
  enable : List Nat
  /-- the word TC_COLMAP of each core, R103 -/
  colmap : Tab Word
  /-- TC_RECIRC_COEF.PJ of each core where it differs from 4,900, R103 -/
  coef : Tab Nat
  /-- the OTP rollback counter, R434 -/
  rollback : Nat
  /-- bit k: key slot k programmed, R433 -/
  programmed : Nat
  /-- bit k: key slot k revoked, R433 -/
  revoked : Nat
  /-- ED_HASH of the four key slots, R433 -/
  edHash : List (List Byte)
  /-- ML_HASH of the four key slots, R433 -/
  mlHash : List (List Byte)
  deriving DecidableEq, Repr

/-- One rule of the dike table (R441). -/
structure DikeRule where
  /-- R: reads admitted -/
  r : Bool
  /-- W: writes, memory-side operations and atomics admitted -/
  w : Bool
  /-- SUBJ: 0 AGENT range, 1 PARTITION, 2 CONTEXT range -/
  subj : Nat
  /-- first 4 KiB page -/
  base : Nat
  /-- number of pages -/
  pages : Nat
  /-- first agent or context, or the partition -/
  lo : Nat
  /-- last agent or context -/
  hi : Nat
  deriving DecidableEq, Repr

/-- The dike table and its partition maps (R440-R443). -/
structure Dike where
  /-- whether the ROM has written the table, which adds the standard rules of R444 -/
  written : Bool
  /-- NPART -/
  npart : Nat
  /-- ADMIN partition -/
  admin : Nat
  /-- ADMIN_VALID -/
  adminValid : Bool
  /-- partition of each context -/
  ctx : Tab Nat
  /-- partition of each queue -/
  queue : Tab Nat
  /-- partition of each sync object -/
  sync : Tab Nat
  /-- partition of each host core -/
  host : Tab Nat
  /-- image rules, then those of site 0, then those of site 1 -/
  rules : List DikeRule
  deriving DecidableEq, Repr

/-- The open or sealed setting transaction (R67-R78); STATE, OWNER and RESULT are in TXN_STATUS. -/
structure Txn where
  /-- shadow entries in the order of their first writes, R70, R71 -/
  shadow : List (Nat × Word)
  /-- tick of the winning TXN_BEGIN, R77 -/
  begun : Nat
  /-- LEASE in force at it, in µs, R77 -/
  lease : Nat
  /-- timebase count of the boundary, R73 -/
  boundary : Nat
  /-- SIGNAL of the commit, R78 -/
  signal : Bool
  /-- SYNC of the commit, R78 -/
  sync : Nat
  deriving DecidableEq, Repr

/-- An error that the reads of a command have found, and whose count or record follows its effect (R274, R372). -/
inductive Due
  | ecc (line : Nat) (e : EccFinding) (source agent : Nat)
  | parity (core line : Nat)
  deriving DecidableEq, Repr

/-- A request of a home that a channel or a CXL port holds (R25, R287, R299): a coherent read, a non-caching write, a read
shared, a read for ownership, a conditional one, a write-back, or a memory-side operation. -/
inductive HeldReq
  | read (agent line : Nat) (found : Found)
  | write (agent line : Nat) (mask : Word) (data : Line) (found : Found)
  | shared (core line : Nat) (found : Found)
  | own (core line : Nat) (found : Found)
  | cond (core line : Nat) (found : Found)
  | back (core line : Nat)
  | mop (agent code : Nat) (r : MopReq)
  deriving DecidableEq, Repr

/-- A request of a customer site's agent (R39, R46). -/
structure SiteReq where
  /-- site -/
  site : Nat
  /-- agent number -/
  agent : Nat
  /-- traffic class -/
  cls : Nat
  /-- physical address -/
  pa : Nat
  /-- bytes -/
  size : Nat
  /-- whether it writes -/
  wr : Bool
  /-- data of a write in the low bytes -/
  data : Line
  deriving DecidableEq, Repr

/-- Contributions to cells of which a part is performed (R283). -/
structure CellJob where
  /-- requester -/
  agent : Nat
  /-- operation code -/
  code : Nat
  /-- address of the first cell -/
  pa : Nat
  /-- cells done -/
  done : Nat
  /-- whether one of them was poison -/
  bad : Bool
  deriving DecidableEq, Repr

/-- The reads of the command being carried out, the model's own field: idle between commands (log entries 122, 127). -/
structure Access where
  /-- the reads are watched -/
  on : Bool
  /-- what they find -/
  found : Found
  /-- SOURCE of the records, R276 -/
  source : Nat
  /-- the reader's agent number, R535 -/
  agent : Nat
  /-- the channel, or 384 + the CXL port, that holds requests and that a read has met, R287, R299 -/
  blocked : Option Nat
  /-- errors found -/
  due : List Due
  deriving DecidableEq, Repr

/-- No read is under way. -/
def Access.idle : Access := ⟨false, ⟨[], [], []⟩, 0, 0, none, []⟩

/-- A line in a core's caches (R371-R374, R274). -/
structure CacheLine where
  /-- line number, PA / 64 -/
  line : Nat
  /-- its bytes -/
  data : Line
  /-- written since it was filled -/
  dirty : Bool
  /-- held EXCLUSIVE, with write permission, R394 -/
  excl : Bool
  /-- the poison mark of R274 -/
  poison : Bool
  /-- in a locked way, R374 -/
  locked : Bool
  deriving DecidableEq, Repr

/-- An entry of a store buffer (R378). -/
structure SbEntry where
  /-- physical address -/
  pa : Nat
  /-- bytes -/
  size : Nat
  /-- data in the low bytes -/
  data : Line
  /-- place among the core's accesses in program order -/
  seq : Nat
  /-- a peer store whose message has been sent -/
  sent : Bool
  /-- tag of the entry that translated it, R376 -/
  tag : Nat
  deriving DecidableEq, Repr

/-- A load that has not returned (R379). -/
structure OpenLoad where
  /-- physical address -/
  pa : Nat
  /-- bytes -/
  size : Nat
  /-- place among the core's accesses in program order -/
  seq : Nat
  /-- tag of the entry that translated it, R376 -/
  tag : Nat
  deriving DecidableEq, Repr

/-- A host core (R370-R388). -/
structure HostCore where
  /-- released from reset by BOOT_RELEASE, R446 -/
  released : Bool
  /-- halted by DBG_HC_HALT, R515 -/
  halted : Bool
  /-- address of the first instruction, R432, R446 -/
  entry : Nat
  /-- lines of L2, which includes L1I and L1D, most recently used first, R371 -/
  cache : List CacheLine
  /-- the write-back buffer of R396 -/
  wb : List CacheLine
  /-- the store buffer, oldest first, R378 -/
  sb : List SbEntry
  /-- loads that have not returned, R379 -/
  loads : List OpenLoad
  /-- accesses so far -/
  nextAcc : Nat
  /-- reservation: the 64 B granule of the last load-reserved, R380 -/
  resv : Option Nat
  /-- an outstanding store-conditional: address, size, data, R380 -/
  scPend : Option (Nat × Nat × Word)
  /-- whether the last store-conditional succeeded, R380 -/
  scOk : Bool
  /-- data of the last load that returned, low bytes, R379 -/
  loadData : Line
  /-- tags of which the core's TLBs hold entries, R376 -/
  tlb : List Nat
  /-- TLB invalidations not yet complete for this core: the accesses, by core and place, that entries they dropped had
  translated, R376 -/
  tlbi : List (List (Nat × Nat))
  /-- lines of L1I, most recently used first, R371 -/
  l1i : List Nat
  /-- lines of L1D, most recently used first, R371 -/
  l1d : List Nat
  /-- barrier that has not completed: 1 ACQUIRE 2 RELEASE 3 FULL 4 DEVICE 5 RC, 0 none, R382 -/
  barrier : Nat
  /-- accesses before that barrier -/
  barSeq : Nat
  /-- strict order is forced for start-up, R388 -/
  start : Bool
  /-- strict order is forced for recovery, R388 -/
  recov : Bool
  /-- STRICT as it stood when a halt forced strict order, R388, R515 -/
  soft : Bool
  /-- lost stores that wait for the handler of a precise exception: address, CAUSE and COUNT, R384 -/
  lostQ : List (Nat × Nat × Nat)
  /-- whether HC_DEVSYN has been read since the last recovery exception, R388 -/
  synRead : Bool
  /-- a debug access over JTAG has reached the core since it last left halt, R388, R516 -/
  debugged : Bool
  deriving DecidableEq, Repr

/-- An entry of the directory (R393). -/
structure DirEntry where
  /-- line number -/
  line : Nat
  /-- 1 SHARED, 2 BROADCAST, 3 EXCLUSIVE, 4 LOST -/
  state : Nat
  /-- pointers: sharers, or the owner -/
  ptrs : List Nat
  /-- way in its set -/
  way : Nat
  deriving DecidableEq, Repr

/-- An ownership grant that waits for invalidations (R400); its line is busy (R397). -/
structure Grant where
  /-- requester -/
  core : Nat
  /-- line number -/
  line : Nat
  /-- clusters that have not acknowledged -/
  needs : List Nat
  /-- data of the grant -/
  data : Line
  /-- its poison mark -/
  poison : Bool
  /-- the data is the owner's, written since its fill (R400) -/
  dirty : Bool
  deriving DecidableEq, Repr

/-- A translated extent (R231). -/
structure Extent where
  /-- virtual base -/
  va : Nat
  /-- physical base -/
  pa : Nat
  /-- bytes -/
  len : Nat
  /-- walked with write access -/
  w : Bool
  deriving DecidableEq, Repr

/-- What a launch gives each of its cores (R126, R128). -/
structure LaunchRef where
  /-- queue of the LAUNCH -/
  q : Nat
  /-- index of the LAUNCH -/
  i : Nat
  /-- context -/
  ctx : Nat
  /-- rank of the core, R208 -/
  rank : Nat
  /-- number of cores -/
  ncores : Nat
  /-- PROG_ADDR -/
  progAddr : Nat
  /-- PROG_LEN -/
  progLen : Nat
  /-- PARAM_ADDR -/
  paramAddr : Nat
  /-- STREAM, R119 -/
  stream : Nat
  /-- SEED captured at dispatch, R194 -/
  seed : Word
  /-- SUBNORM is FLUSH, R115 -/
  flush : Bool
  /-- TRAP, R128 -/
  trap : Nat
  /-- LIMIT_LOG2, R128 -/
  limit : Nat
  /-- REUSE, R129 -/
  reuse : Bool
  /-- the descriptor's extents, R232 -/
  exts : List Extent
  deriving DecidableEq, Repr

/-- A pass or drain of the array-operation queue (R88, R136, R141). -/
structure ArrayOp where
  /-- whether it is a drain -/
  drain : Bool
  /-- accumulator bank -/
  bank : Nat
  /-- INIT of a pass: 0 ACCUMULATE, 1 ZERO, 2 LOAD -/
  init : Nat
  /-- FMTA of a pass, FMT of a drain, R135 -/
  fmtA : Nat
  /-- FMTB of a pass -/
  fmtB : Nat
  /-- SCALED -/
  scaled : Bool
  /-- A offset of a pass, destination of a drain -/
  aOff : Nat
  /-- B offset -/
  bOff : Nat
  /-- A scale offset of a pass, scale destination of a drain -/
  saOff : Nat
  /-- B scale offset -/
  sbOff : Nat
  /-- LOAD offset -/
  ldOff : Nat
  /-- K -/
  k : Nat
  /-- RND of a drain is SR -/
  sr : Bool
  /-- AXIS of a drain -/
  axis : Bool
  /-- LAYOUT of a drain -/
  layout : Bool
  /-- CNTEN of a drain -/
  cnten : Bool
  /-- CNT of a drain -/
  cnt : Nat
  /-- SEQ of an SR drain, R119 -/
  seq : Nat
  /-- its PC -/
  pc : Nat
  /-- the pass's fill is complete, or it needs none -/
  filled : Bool
  /-- LAYER at its issue, R156 -/
  layer : Nat
  deriving DecidableEq, Repr

/-- A tile copy in flight (R149, R177). -/
structure CopyOp where
  /-- the model's count of the core's TCOPYs -/
  k : Nat
  /-- DIR: true OUT -/
  out : Bool
  /-- counter -/
  cnt : Nat
  /-- traffic class after R193 -/
  cls : Nat
  /-- scratchpad offset -/
  sx : Nat
  /-- unified virtual address -/
  ux : Nat
  /-- ROW_BYTES -/
  rowBytes : Nat
  /-- rows -/
  rows : Nat
  /-- unified row stride -/
  stride : Nat
  /-- PC of the TCOPY -/
  pc : Nat
  /-- its lines that have moved, by their places in the copy -/
  moved : List Nat
  /-- its bursts that have begun, R177 -/
  begun : Nat
  /-- scratchpad lines that a copy OUT has read: number, bytes, and whether each is poisoned, R183 -/
  buf : List (Nat × Line × Bool)
  /-- LAYER at its issue, R156 -/
  layer : Nat
  /-- OPID at its issue, R156 -/
  opid : Nat
  deriving DecidableEq, Repr

/-- A loop counter (R160). -/
structure LoopCtr where
  /-- active -/
  on : Bool
  /-- first instruction of the body -/
  first : Nat
  /-- last instruction of the body -/
  last : Nat
  /-- remaining iterations, the one under way included -/
  left : Nat
  /-- nesting depth, 1 outermost -/
  depth : Nat
  deriving DecidableEq, Repr

/-- A signal held under REL (R153): object, SET or ADD, value, and the copies it waits for. -/
structure HeldSig where
  /-- object -/
  obj : Nat
  /-- OP is SET -/
  set : Bool
  /-- operand -/
  v : Word
  /-- copies in flight at its issue -/
  after : List Nat
  /-- LAYER at its issue, R156 -/
  layer : Nat
  /-- OPID at its issue, R156 -/
  opid : Nat
  deriving DecidableEq, Repr

/-- An SWAIT that has issued and stalls (R154). -/
structure SwaitRef where
  /-- ONTO -/
  onto : Bool
  /-- result register -/
  dx : Nat
  /-- object -/
  obj : Nat
  /-- issue tick -/
  start : Nat
  deriving DecidableEq, Repr

/-- An exception of a core, recorded while the work under way completes (R165, R166). -/
structure ExcRec where
  /-- code of R164 -/
  code : Nat
  /-- PC of R165 -/
  pc : Nat
  /-- DETAIL -/
  detail : Nat
  /-- virtual address of TC_EXC_UADDR -/
  va : Nat
  /-- elapsed tick at which it arose -/
  seen : Nat
  deriving DecidableEq, Repr

/-- A tensor core (R80, R126-R189). PC, FLAGS, TC_EXC and the counters are in its TC_ registers. -/
structure Core where
  /-- the running launch -/
  launch : Option LaunchRef
  /-- the program and parameters are loaded, R129 -/
  loaded : Bool
  /-- tick of the first issue, R164 -/
  firstIssue : Option Nat
  /-- the core has ended its launch, R130, R165 -/
  ended : Bool
  /-- tick of its exception, R130 -/
  excTick : Nat
  /-- its exception, written to TC_EXC when its end is reported, R165 -/
  exc : ExcRec
  /-- the launch that ended last on the core, until the next one: exceptions of one cycle are compared, R166, R187 -/
  was : Option LaunchRef
  /-- address registers A1-A31, R126 -/
  a : Tab Word
  /-- vector registers: lane l of Vn at n * 256 + l, R126 -/
  v : Tab Word32
  /-- predicate registers M1-M7, R126 -/
  m : Tab (BitVec 256)
  /-- loop counters L0-L3, R126 -/
  loops : Tab LoopCtr
  /-- completion counters C0-C7, R126 -/
  cc : Tab Word32
  /-- LAYER, R126 -/
  layer : Nat
  /-- OPID, R126 -/
  opid : Nat
  /-- SEQ, R119 -/
  seq : Nat
  /-- cells of bank b: (i, j) at b * 16384 + i * 128 + j, R80 -/
  banks : Tab Word32
  /-- bank b holds integers, R140 -/
  bankInt : Tab Bool
  /-- class of bank b in program order, after every issued fill, R140 -/
  issueInt : Tab Bool
  /-- context whose values the banks may hold, R92 -/
  bankCtx : Nat
  /-- array-operation queue, oldest first, R88 -/
  arr : List ArrayOp
  /-- copies in flight, R177 -/
  copies : List CopyOp
  /-- completed copies OUT whose lines into peer windows are not all acknowledged, R155, R187 -/
  acking : List CopyOp
  /-- copies that the core's stop abandoned, R188 -/
  dropped : List CopyOp
  /-- the copy whose fault TC_COPY_FAULT records, and the elapsed tick at which it was observed, R187 -/
  faultOf : Option (Nat × Nat)
  /-- the copy whose burst the copy engine began last, R177 -/
  turn : Nat
  /-- copies issued so far -/
  nextCopy : Nat
  /-- signals held under REL, R153 -/
  held : List HeldSig
  /-- the SWAIT that stalls issue, R154 -/
  swait : Option SwaitRef
  /-- scratchpad bytes, zero where none is listed, R173 -/
  sp : List Host.Cell
  /-- scratchpad lines written since their zero marks were set: the others carry the zero mark, R173 -/
  spUsed : Tab Bool
  /-- scratchpad lines marked poisoned, R175 -/
  spPoison : Tab Bool
  /-- the instruction store, R129 -/
  prog : Tab Word
  /-- lines of the program and the parameters that have come from peers, by line number, R129 -/
  loadBuf : List (Nat × Line)
  /-- the virtual address of the first line of them that failed, R129 -/
  loadBad : Option Nat
  /-- bursts of the program and the parameters in peer windows that have been asked for, R129 -/
  loadAsked : Nat
  /-- 1 + the 1 µs window of the last hint sent, R157 -/
  hintWin : Nat
  /-- tick at which the accumulator port's present operation began, R87 -/
  portAt : Nat
  /-- tick from which the first pass in program order has streamed, R87, R103 -/
  streamAt : Nat
  /-- cycles that the recirculation under way may last, R93, R96 -/
  recircMax : Nat
  /-- it lasts for all of them, R93 -/
  recircAll : Bool
  /-- tick at which it began -/
  recircAt : Nat
  deriving DecidableEq, Repr

/-- A slot the engine has read (R203): its index, its words and the status and DETAIL it completes with when a
check of R214 failed. -/
structure Fetched where
  /-- index of the first slot -/
  i : Nat
  /-- the eight or sixteen words -/
  words : List Word
  /-- status of R218, 0 when the checks passed -/
  status : Nat
  /-- DETAIL of that status -/
  detail : Nat
  deriving DecidableEq, Repr

/-- The fetch and service state of a queue beside its registers (R190-R218). -/
structure QState where
  /-- commands fetched and not started, in ring order, R197 -/
  fetched : List Fetched
  /-- slot under re-read: index, tick of the first read, failed re-reads, R203 -/
  reread : Option (Nat × Nat × Nat)
  /-- an ENABLE 1 that arrived while draining is kept, R192 -/
  enableKept : Bool
  /-- completion entries held under R536, oldest first -/
  heldCq : List (List Word)
  /-- they wait for free entries alone, R198 -/
  cqFull : Bool
  /-- turns spent in the round, R460 -/
  spent : Nat
  /-- the Sluice has chosen the command at HEAD and its walk is due, R226 -/
  chosen : Bool
  /-- tick of the first refusal of the launch at HEAD, R462 -/
  refusedAt : Option Nat
  /-- the launch at HEAD is blocking, R462 -/
  blocking : Bool
  /-- reason and polder of the refusal that stands, R472 -/
  refusedWhy : Option (Nat × Nat)
  /-- the throttle event of the blocking launch that has counted the launch at HEAD, R462 -/
  heldWhy : Option (Nat × Nat)
  /-- bytes of the COPY at HEAD already in descriptors, R233 -/
  copyDone : Nat
  /-- rills that gate the launch at HEAD, with the tick from which each has, R312 -/
  gates : List (Nat × Nat)
  /-- the rill evaluation of the launch at HEAD is done, R311 -/
  evaluated : Bool
  /-- the first failing virtual address of the walk that parked the queue, R218 -/
  faultVa : Nat
  /-- the last walk for the command at HEAD failed, R239 -/
  faulted : Bool
  /-- the ring check of the present ENABLE 1 failed, R191 -/
  refused : Bool
  /-- the object whose completed migration released the launch at HEAD, R312 -/
  released : Option Nat
  deriving DecidableEq, Repr

/-- A core of a launch that has ended: its number, exception code, flags, PC and the tick (R130). -/
structure EndRec where
  /-- logical core -/
  core : Nat
  /-- exception code -/
  code : Nat
  /-- FLAGS -/
  flags : Nat
  /-- PC recorded -/
  pc : Nat
  /-- tick -/
  tick : Nat
  /-- elapsed tick of it -/
  seen : Nat
  deriving DecidableEq, Repr

/-- A descriptor of a COPY that has started (R233): the bytes it covers and its translated extents. -/
structure CopyDesc where
  /-- offset of its first byte in the copy -/
  pos : Nat
  /-- bytes -/
  len : Nat
  /-- source extents, none for a scratchpad -/
  src : List Extent
  /-- destination extents, none for a scratchpad -/
  dst : List Extent
  /-- its bytes have moved, or are asked of a peer -/
  moved : Bool
  deriving DecidableEq, Repr

/-- A command that has started, or has completed and awaits its completion entry (R213-R218). -/
structure InFlight where
  /-- queue -/
  q : Nat
  /-- index of its first slot -/
  i : Nat
  /-- KIND -/
  kind : Nat
  /-- the words of its slots -/
  words : List Word
  /-- status of R218 once complete -/
  status : Option Nat
  /-- EXC of the entry -/
  exc : Nat
  /-- FLAGS of the entry -/
  flags : Nat
  /-- DETAIL -/
  detail : Nat
  /-- start tick -/
  start : Nat
  /-- elapsed tick at which it completed -/
  fin : Nat
  /-- context of its queue when it started -/
  ctx : Nat
  /-- the row of its kind has been carried out -/
  begun : Bool
  /-- translated extents it holds, R232 -/
  exts : List Extent
  /-- descriptors of a COPY that have started and are not complete, R233 -/
  descs : List CopyDesc
  /-- all descriptors of a COPY have started, R233 -/
  whole : Bool
  /-- bytes of a COPY moved so far, or lines confirmed, R499 -/
  done : Nat
  /-- cores of a dispatched launch that have ended -/
  ends : List EndRec
  /-- watts claimed by a launch: reservation number and amount, R459 -/
  claims : List (Nat × Nat)
  /-- need of a launch in 0.1 W, R461 -/
  need : Nat
  /-- lines into or from a peer window that are lost, R354, R360 -/
  lost : Nat
  /-- lines behind a DOWN port that were not written, by line number, R299 -/
  gone : List Nat
  /-- lines delivered as poison, by line number, R176, R218 -/
  poison : List Nat
  /-- scratchpad lines discarded or delivered as poison because a scratchpad's launch ended, by line of R49's space, R174 -/
  aborted : List Nat
  /-- poisoned scratchpad lines that have been sent, by line of R49's space, R176 -/
  spSent : List Nat
  /-- first virtual address that was refused after the start, R64, R358 -/
  denied : Option Nat
  /-- a COPY whose rest was abandoned, R233 -/
  abandoned : Bool
  /-- cores whose scratchpads a COPY names and whose launches have ended since it started, R174 -/
  spGone : List Nat
  deriving DecidableEq, Repr

/-- A leaf of a walk cache (R229). -/
structure WcLeaf where
  /-- tag -/
  tag : Nat
  /-- virtual base -/
  va : Nat
  /-- bytes -/
  size : Nat
  /-- physical base -/
  pa : Nat
  /-- W of the leaf -/
  w : Bool
  /-- D is already set -/
  d : Bool
  /-- address of the leaf's entry -/
  pte : Nat
  deriving DecidableEq, Repr

/-- A table pointer of a walk cache (R229). -/
structure WcPtr where
  /-- tag -/
  tag : Nat
  /-- level of the entry -/
  level : Nat
  /-- virtual base of its span -/
  va : Nat
  /-- physical address of the next table -/
  table : Nat
  deriving DecidableEq, Repr

/-- An open fault (R239). -/
structure OpenFault where
  /-- slot -/
  slot : Nat
  /-- tag -/
  tag : Nat
  /-- virtual base of the failing span -/
  page : Nat
  /-- level -/
  level : Nat
  /-- KINDS -/
  kinds : Nat
  /-- queues listed, in the order they joined -/
  queues : List Nat
  /-- queues not yet in a record, in the order they joined, with the elapsed ticks at which they did, R240 -/
  unlisted : List (Nat × Nat)
  /-- number of this opening -/
  seq : Nat
  /-- tick at which it opened -/
  time : Nat
  deriving DecidableEq, Repr

/-- A pending invalidation (R235). -/
structure Inval where
  /-- the model's number of it -/
  k : Nat
  /-- tag -/
  tag : Nat
  /-- marked descriptors: queue, index, and the offset of a COPY's descriptor -/
  marked : List (Nat × Nat × Nat)
  /-- SIGNAL -/
  signal : Bool
  /-- SYNC -/
  sync : Nat
  /-- agent that wrote the register, R535 -/
  agent : Nat
  deriving DecidableEq, Repr

/-- A registered waiter (R248-R250). -/
structure Waiter where
  /-- who waits -/
  who : WaiterId
  /-- object -/
  obj : Nat
  /-- condition -/
  cond : Nat
  /-- operand -/
  v : Word
  /-- start tick -/
  start : Nat
  /-- TLOG2, 0 no timeout -/
  tlog2 : Nat
  deriving DecidableEq, Repr

/-- A mailbox beside its registers (R261-R265). -/
structure Mbox where
  /-- request queue, oldest first -/
  req : List Word
  /-- response queue, oldest first -/
  rsp : List Word
  /-- command code of the last SEND -/
  cmd : Nat
  /-- tick of the last SEND -/
  sentAt : Nat
  /-- interrupt of the service processor pair raised by the SEND -/
  irq : Bool
  deriving DecidableEq, Repr

/-- An HBM channel beside its registers (R274-R293). -/
structure Chan where
  /-- tick at which the present hold began, R289 -/
  heldAt : Option Nat
  /-- tick at which the last attempt failed, R288 -/
  failedAt : Option Nat
  /-- 1 ms window and the correctable errors in it, R276, R286 -/
  ceWin : Nat × Nat
  /-- 1 s window and the correctable errors in it, R290 -/
  ceSec : Nat × Nat
  /-- 1 + the 1 ms window of the last CE record, R276 -/
  ceRec : Nat
  /-- correctable errors unrecorded since then, R276 -/
  unrec : Nat
  /-- lost, R290 -/
  lost : Bool
  /-- tick at which the present hold met its first request, R287, R294 -/
  reqAt : Option Nat
  deriving DecidableEq, Repr

/-- A repair (R291). -/
structure Repair where
  /-- lost channel -/
  ch : Nat
  /-- granules moved -/
  moved : Nat
  /-- tick at which the migration began -/
  began : Nat
  /-- REPAIR_DONE written -/
  done : Bool
  /-- the channel failed training and does not answer, R293 -/
  dead : Bool
  deriving DecidableEq, Repr

/-- A migration of a residency object (R303-R308). -/
structure Mig where
  /-- object -/
  obj : Nat
  /-- target tier -/
  target : Nat
  /-- its MIGRATE: queue and index -/
  cmd : Option (Nat × Nat)
  /-- its rill and entry -/
  rill : Option (Nat × Nat)
  /-- LAYER of the rill entry when its GATE is set, R312 -/
  gate : Option Nat
  /-- hub of its queue or rill, R304 -/
  hub : Nat
  /-- LAYER and OPID of its command -/
  work : Nat × Nat
  /-- 0 pending, 1 in DRAIN, 2 in COPY -/
  phase : Nat
  /-- the invalidation it started in DRAIN, none while no place was free -/
  inval : Option Nat
  /-- accesses, by core and place, that entries dropped by its TLB invalidation had translated, R377 -/
  tlb : List (Nat × Nat)
  /-- lines of the object copied, by their places in it, R304 -/
  copied : List Nat
  /-- of these, lines that were poison, R304 -/
  bad : Nat
  /-- of these, lines that could not be written, R299 -/
  lost : Nat
  /-- its command has ended with the reset of its context, R308 -/
  ended : Bool
  deriving DecidableEq, Repr

/-- A member of an epoch (R317). -/
structure Member where
  /-- device identifier -/
  device : Nat
  /-- node -/
  node : Nat
  /-- peer window -/
  window : Nat
  deriving DecidableEq, Repr

/-- An active bucket (R314-R341). -/
structure Bucket where
  /-- queue of its COLLECTIVE -/
  q : Nat
  /-- index of its COLLECTIVE -/
  i : Nat
  /-- context -/
  ctx : Nat
  /-- EPOCH -/
  epoch : Nat
  /-- BUCKET tag -/
  bucket : Nat
  /-- epoch slot -/
  slot : Nat
  /-- the sixteen words of the descriptor, R315, R316 -/
  desc : List Word
  /-- translated extents, R323 -/
  exts : List Extent
  /-- start tick -/
  start : Nat
  /-- cascade pass under way, R336; 0 without compression -/
  pass : Nat
  /-- of that pass: 0 to begin, 1 level 1 awaited, 2 level 2 awaited, 3 reduced and gathering, 4 finished -/
  level : Nat
  /-- units received: level (0 for the gather), position of the sender, unit -/
  got : List (Nat × Nat × Nat)
  /-- positions whose DONE is recorded, R331 -/
  dones : List Nat
  /-- positions to which DONE has been sent, R331 -/
  told : List Nat
  /-- devices that refused, lost or poisoned a contribution, R331 -/
  badTo : List Nat
  /-- the gathered node-shard has been sent to the node peers, R334 -/
  spread : Bool
  /-- lines counted lost, R340 -/
  lost : Nat
  /-- gathered units of BF16 parameters that wait for the other half of their line, R342 -/
  halves : List (Nat × Line)
  /-- elements of the factor that the pass gathers, R336 -/
  fac : Tab Word32
  /-- M of R336, by element -/
  m : List Word32
  /-- P of R336, by element -/
  p : List Word32
  /-- Q or this member's Q_local of R336, by element -/
  qf : List Word32
  deriving DecidableEq, Repr

/-- A collective message to be sent again (R339): hub, due tick, window, message. -/
structure Resend where
  /-- hub -/
  hub : Nat
  /-- due tick -/
  due : Nat
  /-- window -/
  win : Nat
  /-- message -/
  msg : Msg
  deriving DecidableEq, Repr

/-- Who waits for the response of a request to a peer (R354); nobody any more, when the core that asked was reset. -/
inductive Requester
  | gone | cmd (q i pos : Nat) | copy (core k : Nat) | load (core : Nat) | hostStore (core pa : Nat) | hostLoad (core size : Nat) | ce (hub q i : Nat)
  | site (agent pa size : Nat)
  deriving DecidableEq, Repr

/-- A request that awaits a response (R360). -/
structure PeerReq where
  /-- the model's number of it -/
  id : Nat
  /-- TAG -/
  tag : Nat
  /-- agent number of the link or Ethernet port it left by -/
  port : Nat
  /-- window -/
  win : Nat
  /-- physical address of its first line in the window -/
  pa : Nat
  /-- lines -/
  lines : Nat
  /-- who waits -/
  who : Requester
  /-- elapsed tick at which the flit that carried it left, none before -/
  sent : Option Nat
  /-- its traffic class -/
  cls : Nat
  /-- the message, for a resend -/
  msg : Msg
  deriving DecidableEq, Repr

/-- A link beside its registers (R344-R354). -/
structure Link where
  /-- SEQ of the next sequenced flit sent -/
  txSeq : Nat
  /-- last SEQ received in order -/
  rxSeq : Nat
  /-- last ACK received -/
  acked : Nat
  /-- tick of the last advance of ACK or of the last replay, R349 -/
  ackAt : Nat
  /-- a NAK is to be sent -/
  nak : Bool
  /-- flits are being discarded until ACK + 1 arrives, R349 -/
  discarding : Bool
  /-- flits kept for replay, oldest first, R344 -/
  replay : List Flit
  /-- flits to be sent again, R347 -/
  again : List Flit
  /-- egress queues, oldest first: requests of class c at 2 c, responses at 2 c + 1 -/
  egress : Tab (List Msg)
  /-- credits used: pool class * 2 + response, R348 -/
  used : Tab Nat
  /-- credits to return: pool and flits -/
  giveBack : List (Nat × Nat)
  /-- class-0 tokens missing from 32, R350 -/
  tokensOut : Nat
  /-- tick up to which the earning of tokens has been counted, and what was left over then, in 1/128 of a token, R350 -/
  earned : Nat × Nat
  /-- tick at which the first message of the two class-0 egress queues came to its head, R351 -/
  headAt : Tab Nat
  /-- turns of classes 1-3 left, R347 -/
  turns : Tab Nat
  /-- 1 ms window and the replays in it, R353 -/
  replayWin : Nat × Nat
  /-- entry tick of TRAINING, RETRAIN or DOWN -/
  since : Nat
  /-- link-layer state of an earlier ACTIVE period is held, R352 -/
  resume : Bool
  /-- 1 + the 1 µs window of the last SUSPENDED event, R510 -/
  suspWin : Nat
  deriving DecidableEq, Repr

/-- A message that a port has delivered and that waits to be handled (R346). -/
structure RxMsg where
  /-- traffic class -/
  cls : Nat
  /-- Ethernet peer entry, 0 for a link -/
  entry : Nat
  /-- the message -/
  msg : Msg
  /-- elapsed tick at which its flit or packet came -/
  tick : Nat
  /-- the timebase count then, R29 -/
  count : Nat
  /-- it came in a class-0 flit, R351 -/
  c0 : Bool
  /-- its link has been DOWN since, so that no response to it is sent, R354 -/
  mute : Bool
  deriving DecidableEq, Repr

/-- An Ethernet peer entry and class (R364). -/
structure EStream where
  /-- next SEQ sent -/
  txSeq : Nat
  /-- next SEQ expected -/
  rxSeq : Nat
  /-- packets sent and not acknowledged, oldest first -/
  unacked : List Packet
  /-- tick of the last progress -/
  progress : Nat
  /-- RESTART on the next packet -/
  restart : Bool
  /-- a NAK is owed, R364 -/
  nak : Bool
  /-- messages that wait while 256 packets are unacknowledged or the class is paused, oldest first -/
  waiting : List Msg
  /-- SEQ and messages of the last RESTART packet taken, R364 -/
  restarted : Option (Nat × List Msg)
  deriving DecidableEq, Repr

/-- A power reservation (R457-R459). -/
structure Reservation where
  /-- the model's number of it -/
  k : Nat
  /-- context -/
  ctx : Nat
  /-- polder -/
  polder : Nat
  /-- LAYER -/
  layer : Nat
  /-- OPID -/
  opid : Nat
  /-- power class -/
  pclass : Nat
  /-- traffic class -/
  cls : Nat
  /-- queue -/
  queue : Nat
  /-- window start, an elapsed tick, R34 -/
  lo : Nat
  /-- window end, an elapsed tick -/
  hi : Nat
  /-- amount asked, in 0.1 W -/
  amount : Nat
  /-- amount granted, in 0.1 W -/
  granted : Nat
  /-- amount claimed by launches, in 0.1 W -/
  claimed : Nat
  /-- tick of the grant, none while it waits -/
  grantAt : Option Nat
  /-- cores that hinted under a tile hint's key -/
  cores : List Nat
  /-- the new request waits for its grant -/
  waiting : Bool
  /-- standing grant's window start -/
  glo : Nat
  /-- standing grant's window end -/
  ghi : Nat
  /-- a try at its grant has failed, or a launch has taken from it, R458, R459 -/
  missed : Bool
  deriving DecidableEq, Repr

/-- An open throttle event (R472). -/
structure ThrEvent where
  /-- reason -/
  reason : Nat
  /-- polder, 15 package -/
  polder : Nat
  /-- tick at which it opened -/
  start : Nat
  /-- KIND is YIELD -/
  yield : Bool
  /-- rank that gave way -/
  rank : Nat
  /-- context -/
  ctx : Nat
  /-- queue -/
  queue : Nat
  /-- LAYER -/
  layer : Nat
  /-- OPID -/
  opid : Nat
  /-- COUNT -/
  count : Nat
  /-- DETAIL -/
  detail : Nat
  /-- next CONT tick -/
  cont : Nat
  /-- a throttle action that it reports is in force, R472 -/
  act : Bool
  deriving DecidableEq, Repr

/-- A launch's need not yet in the measurements (R461): polder, 0.1 W, expiry tick. -/
structure Pend where
  /-- polder -/
  polder : Nat
  /-- 0.1 W -/
  amount : Nat
  /-- expiry tick -/
  till : Nat
  deriving DecidableEq, Repr

/-- A power sample kept for the rolling means (R454). -/
structure SampleRec where
  /-- tick -/
  tick : Nat
  /-- the sample -/
  x : PowerSample
  deriving DecidableEq, Repr

/-- A hold-up save (R477-R481). -/
structure Save where
  /-- 0 none, 1 draining, 2 writing, 3 complete, 4 stopped -/
  phase : Nat
  /-- tick S -/
  start : Nat
  /-- CAUSE -/
  cause : Nat
  /-- stores abandoned -/
  abandoned : Nat
  /-- lowest VIN seen, mV -/
  minVin : Nat
  /-- a package reset is held until the save ends, R481 -/
  held : Bool
  /-- elapsed tick at which it began, from which its drain is bounded, R34, R478 -/
  began : Nat
  deriving DecidableEq, Repr

/-- A context-reset request (R491). -/
structure CtxReq where
  /-- context -/
  ctx : Nat
  /-- requester, 0 for a cofferdam -/
  agent : Nat
  /-- CAUSE of R497 -/
  cause : Nat
  /-- end adds: sync object and agent -/
  adds : List (Nat × Nat)
  /-- dies whose cofferdam waits for it -/
  dies : List Nat
  deriving DecidableEq, Repr

/-- An event offered to the trace rings (R506, R509). -/
structure TraceRec where
  /-- tick of the event -/
  time : Nat
  /-- EVENT -/
  event : Nat
  /-- SRCKIND -/
  srcKind : Nat
  /-- SRC -/
  src : Nat
  /-- CONTEXT, 0xFFF none -/
  ctx : Nat
  /-- LAYER -/
  layer : Nat
  /-- OPID -/
  opid : Nat
  /-- ARG -/
  arg : Word
  /-- hub of the writer -/
  hub : Nat
  deriving DecidableEq, Repr

/-- A source's drop count in a ring (R512). -/
structure Drop where
  /-- ring -/
  ring : Nat
  /-- SRCKIND of the source -/
  srcKind : Nat
  /-- SRC of the source -/
  src : Nat
  /-- drops -/
  count : Nat
  /-- CAUSE -/
  cause : Nat
  /-- tick of the first drop -/
  first : Nat
  /-- tick of the last drop -/
  last : Nat
  /-- LAYER of the last dropped record -/
  layer : Nat
  /-- OPID of it -/
  opid : Nat
  deriving DecidableEq, Repr

/-- An exchange of TIME messages with the parent (R29): its tag, the count at which the request left, and, once the
parent's message has come, the two counts it carries and the count at its arrival. -/
structure TbXchg where
  /-- TAG -/
  tag : Nat
  /-- own count at the request -/
  t1 : Nat
  /-- parent's counts at the request's arrival and at its answer, and own count when that arrived -/
  back : Option (Nat × Nat × Nat)
  deriving DecidableEq, Repr

/-- The state of the block. -/
structure State where
  /-- commands that wait, first in, first out; reset empty -/
  pending : List Instr
  /-- elapsed ticks since package reset was released, R28, R34 -/
  now : Nat
  /-- timebase count minus elapsed ticks, R33 -/
  tbAdj : Int
  /-- slew corrections still to be applied, R33 -/
  slew : Int
  /-- elapsed tick up to which the slew has been applied, R33 -/
  slewAt : Nat
  /-- the rate last measured: whether the parent gains, and the ticks in which it gains or loses one, R29, R33 -/
  tbRate : Option (Bool × Nat)
  /-- elapsed tick up to which corrections of rate have fallen due, R33 -/
  rateAt : Nat
  /-- the steps of the timebase, newest first: elapsed tick and the count before it, R33, R34 -/
  tbSteps : List (Nat × Nat)
  /-- the count at which the last exchange began or the configuration of the alignment last changed, R31, R36 -/
  tbFrom : Nat
  /-- the exchange under way, R29 -/
  tbXchg : Option TbXchg
  /-- elapsed tick and parent's count of the last exchange with the present parent, from which the rate is measured, R29 -/
  tbRef : Option (Nat × Int)
  /-- consecutive exchanges with an offset of at most 2 ticks, R36 -/
  tbGood : Nat
  /-- elapsed tick of the last completed exchange, R36 -/
  tbLast : Nat
  /-- an exchange has completed in the present ACQUIRE, R33 -/
  tbStepped : Bool
  /-- every register of register space, by its offset, and the system registers of R390 by the offsets of
  Machine/Regs.lean, R51; reset as the register tables give -/
  regs : Tab Word
  /-- what the last reader or writer was answered, R56 -/
  reply : Reply
  /-- the fuses, R2; reset log entry 2 -/
  fuses : Fuses
  /-- the dike table, R440 -/
  dike : Dike
  /-- the setting transaction, R67 -/
  txn : Txn
  /-- bytes of HBM, the far tier, the keep store and the customer windows, R45; reset log entry 3 -/
  mem : List Host.Cell
  /-- poisoned lines by line number, R273, R274 -/
  poison : Tab Bool
  /-- the flash, R427, R428 -/
  flash : List Host.Cell
  /-- host cores by number, R370 -/
  hosts : Tab HostCore
  /-- directory entries, most recently used first, R393 -/
  dir : List DirEntry
  /-- grants that wait for acknowledgements, R400 -/
  grants : List Grant
  /-- invalidation queue of each cluster: line and whether for one core, R399 -/
  invq : Tab (List (Nat × Nat))
  /-- tensor cores by logical number, R80 -/
  cores : Tab Core
  /-- queues, R190 -/
  queues : Tab QState
  /-- started commands, R215 -/
  inflight : List InFlight
  /-- walk-cache leaves of each hub, R229 -/
  wcLeaf : Tab (List WcLeaf)
  /-- walk-cache pointers of each hub, R229 -/
  wcPtr : Tab (List WcPtr)
  /-- open faults, R239 -/
  faults : List OpenFault
  /-- fault openings so far, R241 -/
  faultSeq : Nat
  /-- queues parked with XLATE that found no slot, longest waiting first, R243 -/
  unslotted : List Nat
  /-- pending invalidations, R235 -/
  invals : List Inval
  /-- invalidations received so far -/
  nextInval : Nat
  /-- registered waiters, R248 -/
  waiters : List Waiter
  /-- advances on their way: queue and slots, R256 -/
  advances : List (Nat × Nat)
  /-- SY_EVENT_c contents, oldest first, R258 -/
  events : Tab (List Nat)
  /-- LOST of SY_EVENT_c, R258 -/
  eventLost : Tab Bool
  /-- the device event interrupt of each host core is asserted, R385 -/
  eventIrq : Tab Bool
  /-- mailboxes, R261 -/
  mboxes : Tab Mbox
  /-- HBM channels, R268 -/
  chans : Tab Chan
  /-- repairs in order, R291 -/
  repairs : List Repair
  /-- adder line stores: line number and tick of its last operation, R278 -/
  lineStore : List (Nat × Nat)
  /-- HDM decoder ranges of the endpoints of each CXL port: base and size in its local space, R296 -/
  cxlMap : Tab (List (Nat × Nat))
  /-- CXL ports in link recovery, by the tick it began plus 1, R299 -/
  cxlRecover : Tab Nat
  /-- requests held, in the order they arrived: by channel c at c, by CXL port p in recovery at 384 + p, R287, R299 -/
  heldReqs : List (Nat × HeldReq)
  /-- contributions to cells that are performed in parts, R283 -/
  cellJobs : List CellJob
  /-- migrations in arrival order, R303 -/
  migs : List Mig
  /-- rills whose array was refused, R64, R310 -/
  rillBad : Tab Bool
  /-- issued marks of rill n entry e at n * 4096 + e, R311 -/
  rillIssued : Tab Bool
  /-- members of each epoch slot, R317 -/
  members : Tab (List Member)
  /-- active buckets, R314 -/
  buckets : List Bucket
  /-- pairs of epoch and bucket that have ended here, R339 -/
  endedBuckets : List (Nat × Nat)
  /-- refused collective messages, R339 -/
  resends : List Resend
  /-- links, R344 -/
  links : Tab Link
  /-- the flit that each link last sent, as the words on its lanes, R345 -/
  lanes : Tab (List Word)
  /-- messages delivered and not yet handled, by port agent number, R346 -/
  rx : Tab (List RxMsg)
  /-- requests that await a response, R360 -/
  peerReqs : List PeerReq
  /-- tags used so far -/
  nextTag : Nat
  /-- links that wait to rejoin a window: window and link, R357 -/
  rejoin : List (Nat × Nat)
  /-- Ethernet peer streams: entry * 4 + class, R364 -/
  estreams : Tab EStream
  /-- frames of fabric packets that the Ethernet ports have sent, newest first, R363 -/
  ethTx : List (Nat × List Byte)
  /-- management frames sent, newest first: port, priority, bytes, R365 -/
  mtxSent : List (Nat × Nat × List Byte)
  /-- management rings that the check of R64 has refused: port * 2, and 1 for the transmit ring, R369 -/
  mgmtBad : Tab Bool
  /-- next management receive descriptor of each port, R365 -/
  mrxNext : Tab Nat
  /-- next management transmit descriptor of each port, R365 -/
  mtxNext : Tab Nat
  /-- elapsed tick until which a priority of an Ethernet port is paused: port * 8 + priority, R362 -/
  pfcUntil : Tab Nat
  /-- power samples of the last 100 ms, newest first, R454 -/
  samples : List SampleRec
  /-- reservations, R457 -/
  reservs : List Reservation
  /-- reservations made so far -/
  nextReserv : Nat
  /-- needs of admitted launches not yet measured, R461 -/
  pends : List Pend
  /-- open throttle events, R472 -/
  thrEvents : List ThrEvent
  /-- internal throttle records, oldest first, R474 -/
  thrLog : List (List Word)
  /-- throttle records overwritten, R475 -/
  thrOver : Nat
  /-- rotating pointer of each class's arbiter, R247, R460 -/
  sluPtr : Tab Nat
  /-- tick of each cluster's last HCLK step plus 1, R466 -/
  hclkAt : Tab Nat
  /-- eighths of full rate taken from polders P5-P7, R465 -/
  caps : Tab Nat
  /-- dies whose duty ramps after an unannounced step, R464 -/
  ramps : Tab Bool
  /-- tick from which VIN has been at or above 97 % during a sag, R476 -/
  vinOkAt : Option Nat
  /-- THERMTRIP_N is asserted, R469 -/
  thermtrip : Bool
  /-- the hold-up save, R477 -/
  save : Save
  /-- context-reset requests, the one in progress first, R491 -/
  ctxReqs : List CtxReq
  /-- reset records so far, R497 -/
  rstSeq : Nat
  /-- contexts whose reset a walled die waits for, by die, R488 -/
  dieWaits : Tab (List Nat)
  /-- events offered to the trace rings, oldest first, R506 -/
  offers : List TraceRec
  /-- drop counts, R512 -/
  drops : List Drop
  /-- bytes each hub's writer has written in the present window, R511 -/
  budget : Tab Nat
  /-- whether the present window has dropped a record for budget, R517 -/
  overWin : Bool
  /-- agent that last wrote ENABLE 1 of each record ring, R535, and of epoch slot n, at 64 + n, the one that put it into
  use, R318 -/
  ringAgent : Tab Nat
  /-- ring that failed its check is not in use, R285 -/
  ringBad : Tab Bool
  /-- site requests held before the lock, R442 -/
  siteHeld : List SiteReq
  /-- throttle requests sent to each site over sideband, R43 -/
  siteThrottle : Tab Nat
  /-- transfers delivered as poison by each die-to-die port, R500 -/
  d2dPoison : Tab Nat
  /-- a transfer of the port awaits its resend, R21 -/
  d2dWait : Tab Bool
  /-- stacks held for MCLK relock, by the tick it began plus 1, R25 -/
  mclkHeld : Tab Nat
  /-- the ROM has run and halted or finished, R446 -/
  booted : Bool
  /-- steps 1 to 6 of boot are done and step 7 runs, R446: its tick and the CXL ports that have not finished -/
  bringup : Option (Nat × List Nat)
  /-- what the ROM has loaded into each service processor's SRAM, by agent number, R389, R446 -/
  sram : List (Nat × List Byte)
  /-- BOOT_STATUS.STAGE reads NO_IMAGE or HBM_FAIL and the ROM waits -/
  romHalted : Bool
  /-- TEST_MODE is high, R531 -/
  testMode : Bool
  /-- the package is held in reset, R531 -/
  inReset : Bool
  /-- HOLD_VIN in mV, R482; reset log entry 8 -/
  holdVin : Nat
  /-- selected index of the I3C port, R529 -/
  i3cIndex : Nat
  /-- dynamic address of the I3C port, none before it is assigned, R529 -/
  i3cAddr : Option Nat
  /-- the reads of the command being carried out, the model's own field (log entry 127) -/
  access : Access
  /-- counter of the free values, the model's own field (log entry 11) -/
  freeIdx : Nat
  deriving DecidableEq, Repr

/-- The device right after reset: package reset released, boot not yet run (R28, R445, R446). -/
def State.reset : State where
  pending := []
  now := 0
  tbAdj := 0
  slew := 0
  slewAt := 0
  tbRate := none
  rateAt := 0
  tbSteps := []
  tbFrom := 0
  tbXchg := none
  tbRef := none
  tbGood := 0
  tbLast := 0
  tbStepped := false
  regs := []
  reply := ⟨0, 0, 0, false⟩
  fuses := ⟨1, 0x10, [0xFFFFFFFFFFFF, 0xFFFFFFFFFFFF, 0xFFFFFFFFFFFF, 0xFFFFFFFFFFFF], [], [], 0, 0, 0, [], []⟩
  dike := ⟨false, 0, 0, false, [], [], [], [], []⟩
  txn := ⟨[], 0, 0, 0, false, 0⟩
  mem := []
  poison := []
  flash := []
  hosts := []
  dir := []
  grants := []
  invq := []
  cores := []
  queues := []
  inflight := []
  wcLeaf := []
  wcPtr := []
  faults := []
  faultSeq := 0
  unslotted := []
  invals := []
  nextInval := 0
  waiters := []
  advances := []
  events := []
  eventLost := []
  eventIrq := []
  mboxes := []
  chans := []
  repairs := []
  lineStore := []
  cxlMap := []
  cxlRecover := []
  heldReqs := []
  cellJobs := []
  migs := []
  rillBad := []
  rillIssued := []
  members := []
  buckets := []
  endedBuckets := []
  resends := []
  links := []
  lanes := []
  rx := []
  peerReqs := []
  nextTag := 0
  rejoin := []
  estreams := []
  ethTx := []
  mtxSent := []
  mgmtBad := []
  mrxNext := []
  mtxNext := []
  pfcUntil := []
  samples := []
  reservs := []
  nextReserv := 0
  pends := []
  thrEvents := []
  thrLog := []
  thrOver := 0
  sluPtr := []
  hclkAt := []
  caps := []
  ramps := []
  vinOkAt := none
  thermtrip := false
  save := ⟨0, 0, 0, 0, 0, false, 0⟩
  ctxReqs := []
  rstSeq := 0
  dieWaits := []
  offers := []
  drops := []
  budget := []
  overWin := false
  ringAgent := []
  ringBad := []
  siteHeld := []
  siteThrottle := []
  d2dPoison := []
  d2dWait := []
  mclkHeld := []
  booted := false
  bringup := none
  sram := []
  romHalted := false
  testMode := false
  inReset := false
  holdVin := 0
  i3cIndex := 0
  i3cAddr := none
  access := Access.idle
  freeIdx := 0

end Sys2Proof.Machine
end

