-- ==== Sys2Proof/Machine/Ops.lean ====
section
/-! DEFINITION. The named operations over the state that every meaning is built from: the clock, registers and their
fields, bytes and lines of memory, the physical map, the dike table, the counters and the trace sources. -/

namespace Sys2Proof.Machine

/-- What a meaning answers. -/
abbrev Res := Host.Outcome State Fault Refusal

/-! ### The clock -/

/-- The ticks per correction of the rate that was measured to the parent, while the device follows one: alignment runs and
it is no root (R31, R36). Bits 12 and 5 of SYS_TB_CFG are ENABLE and ROOT (R30). -/
def ratePeriod (s : State) : Option (Bool × Nat) :=
  match s.tbRate with
  | none => none
  | some (up, p) =>
    let v := (Tab.get regReset s.regs 0x108).toNat
    if v.testBit 12 && !v.testBit 5 then some (up, max 64 p) else none

/-- The corrections of rate that fall due by elapsed tick n, and the tick up to which they are counted (R33, log entry
17). -/
def rateDue (s : State) (n : Nat) : Int × Nat :=
  match ratePeriod s with
  | none => (0, n)
  | some (up, p) =>
    let k := (n - s.rateAt) / p
    (if up then (k : Int) else -(k : Int), s.rateAt + p * k)

/-- Of corrections that are left, those made by elapsed tick n, at most one in any 64 ticks (R33, log entry 17). -/
def slewDue (s : State) (left : Int) (n : Nat) : Int :=
  let k := min ((n - s.slewAt) / 64) left.natAbs
  if 0 ≤ left then (k : Int) else -(k : Int)

/-- The clock moves to tick t, if t has not passed, and the timebase takes the corrections due (R28, R33, R34; log
entry 4). -/
def State.advance (s : State) (t : Nat) : State :=
  let n := max s.now t
  let r := rateDue s n
  let left := s.slew + r.1
  let d := slewDue s left n
  { s with now := n, tbAdj := s.tbAdj + d, slew := left - d, rateAt := r.2,
           slewAt := if left - d = 0 then n else s.slewAt + 64 * ((n - s.slewAt) / 64) }

/-- The device carries out commands: it is not held in reset (R531), and no save has passed its drain, from which on the
device issues nothing until package reset (R478, R481; log entry 41). -/
def State.awake (s : State) : Bool := decide (s.save.phase < 2) && !s.inReset

/-- What a command does at tick t: the clock moves, and its effect follows while the device carries out commands. -/
def State.live (s : State) (t : Nat) (f : State → State) : Res :=
  let s := s.advance t
  .next (if s.awake then f s else s)

/-- The timebase count (R28, R29); one count stands for the copies of all dies (log entry 141). -/
def State.tb (s : State) : Nat := ((s.now : Int) + s.tbAdj).toNat % 2 ^ 64

/-- A window of fixed length as it runs on the elapsed count (R34): the number of steps before it, its number on the timebase,
and its first and last elapsed ticks, the last not included. -/
structure Win where
  /-- steps of the timebase before it -/
  steps : Nat
  /-- its number: the count divided by its length -/
  num : Nat
  /-- elapsed tick at which it begins -/
  start : Nat
  /-- elapsed tick at which it ends -/
  fin : Nat
  deriving DecidableEq, Repr

/-- The window of a length that runs at an elapsed tick with a count, after steps of the timebase, newest first: one that ran
at a step keeps its end, and later ones follow the stepped count (R34). -/
def winAt (len : Nat) : List (Nat × Nat) → Nat → Nat → Win
  | [], now, tb => ⟨0, tb / len, now - tb % len, now + (len - tb % len)⟩
  | (n, c) :: rest, now, tb =>
    let w := winAt len rest n c
    if now < w.fin then w
    else ⟨rest.length + 1, tb / len, max w.fin (now - tb % len), now + (len - tb % len)⟩

/-- The window of a length that runs now (R34). -/
def State.win (s : State) (len : Nat) : Win := winAt len s.tbSteps s.now s.tb

/-- A number that names the present window of a length. -/
def State.winNum (s : State) (len : Nat) : Nat := (s.win len).steps * 2 ^ 64 + (s.win len).num

/-- A window of a length begins now. -/
def State.edge (s : State) (len : Nat) : Bool := (s.win len).start == s.now

/-- The next free value, an unconstrained word, and the state past it (log entry 11). -/
def State.free (s : State) : Word × State :=
  (Config.freeWord s.freeIdx, { s with freeIdx := s.freeIdx + 1 })

/-! ### Registers -/

/-- The word of the register at an offset. -/
def State.reg (s : State) (off : Nat) : Word := Tab.get regReset s.regs off

/-- The register at an offset takes a word. -/
def State.setReg (s : State) (off : Nat) (v : Word) : State :=
  { s with regs := Tab.put regReset s.regs off v }

/-- The value of a field in a register's word. -/
def Fld.get (f : Fld) (v : Word) : Nat := (v.toNat >>> f.lo) % 2 ^ f.w

/-- The bits of a field. -/
def Fld.mask (f : Fld) : Word := BitVec.ofNat 64 ((2 ^ f.w - 1) <<< f.lo)

/-- A register's word with a field given a value, cut to the field's width. -/
def Fld.put (f : Fld) (v : Word) (x : Nat) : Word :=
  (v &&& ~~~ f.mask) ||| BitVec.ofNat 64 ((x % 2 ^ f.w) <<< f.lo)

/-- A field of the register of number i. -/
def State.rd (s : State) (f : Fld) (i : Nat := 0) : Nat := f.get (s.reg (f.off i))

/-- A field of the register of number i takes a value. -/
def State.wr (s : State) (f : Fld) (i : Nat) (x : Nat) : State :=
  s.setReg (f.off i) (f.put (s.reg (f.off i)) x)

/-- A count of n more, stopping at the field's maximum. -/
def State.bump (s : State) (f : Fld) (i : Nat) (n : Nat := 1) : State :=
  s.wr f i (min (s.rd f i + n) (2 ^ f.w - 1))

/-- A count of n more, modulo the field's width. -/
def State.bumpWrap (s : State) (f : Fld) (i : Nat) (n : Nat := 1) : State :=
  s.wr f i (s.rd f i + n)

/-- A field of one bit, as a Bool. -/
def State.flag (s : State) (f : Fld) (i : Nat := 0) : Bool := s.rd f i == 1

/-- One bit or none, as a field's value. -/
def bit (b : Bool) : Nat := if b then 1 else 0

/-- The bits hi to lo of a number. -/
def bitsOf (x hi lo : Nat) : Nat := (x >>> lo) % 2 ^ (hi + 1 - lo)

/-- Bit k of a number. -/
def bitOf (x k : Nat) : Bool := x.testBit k

/-- The sum of fields placed at their lowest bits. -/
def packBits (l : List (Nat × Nat)) : Nat := l.foldl (fun a e => a ||| (e.2 <<< e.1)) 0

/-- A word of fields placed at their lowest bits. -/
def packWord (l : List (Nat × Nat)) : Word := BitVec.ofNat 64 (packBits l)

/-- Changes a state once for each element of a list, in order. -/
def State.each {α : Type} (s : State) (l : List α) (f : State → α → State) : State := l.foldl f s

/-! ### Bytes and lines (R45, R271) -/

/-- What a byte that nothing has written reads as (log entry 3). -/
def memDefault (_ : Nat) : Byte := 0

/-- One byte of memory. -/
def State.byte (s : State) (pa : Nat) : Byte := Tab.get memDefault s.mem pa

/-- One byte of memory is written. -/
def State.setByte (s : State) (pa : Nat) (b : Byte) : State := { s with mem := Tab.put memDefault s.mem pa b }

/-- The bytes from an address. -/
def State.bytes (s : State) (pa n : Nat) : List Byte := (List.range n).map (fun k => s.byte (pa + k))

/-- Little-endian bytes as a number (R132, log entry 18). -/
def leNat : List Byte → Nat
  | [] => 0
  | b :: r => b.toNat + 256 * leNat r

/-- The n low bytes of a number, lowest first. -/
def natLE : Nat → Nat → List Byte
  | 0, _ => []
  | n + 1, x => BitVec.ofNat 8 x :: natLE n (x / 256)

/-- Bytes are written from an address upwards. -/
def State.setBytes (s : State) (pa : Nat) : List Byte → State
  | [] => s
  | b :: r => (s.setByte pa b).setBytes (pa + 1) r

/-- n bytes as a little-endian number. -/
def State.readLE (s : State) (pa n : Nat) : Nat := leNat (s.bytes pa n)

/-- A 64-bit word of memory. -/
def State.word (s : State) (pa : Nat) : Word := BitVec.ofNat 64 (s.readLE pa 8)

/-- A line of memory by its number. -/
def State.memLine (s : State) (line : Nat) : Line := BitVec.ofNat 512 (s.readLE (64 * line) 64)

/-- Byte k of a line. -/
def Line.byte (l : Line) (k : Nat) : Byte := BitVec.ofNat 8 (l.toNat >>> (8 * k))

/-- A line with byte k replaced. -/
def Line.setByte (l : Line) (k : Nat) (b : Byte) : Line :=
  (l &&& ~~~ BitVec.ofNat 512 (0xFF <<< (8 * k))) ||| BitVec.ofNat 512 (b.toNat <<< (8 * k))

/-- A line with the bytes of a mask taken from another. -/
def Line.merge (old new : Line) (mask : Word) : Line :=
  (List.range 64).foldl (fun l k => if mask.toNat.testBit k then Line.setByte l k (Line.byte new k) else l) old

/-- The mask of every byte of a line. -/
def fullMask : Word := BitVec.allOnes 64

/-- The mask of n bytes from offset o of a line. -/
def maskOf (o n : Nat) : Word := BitVec.ofNat 64 ((2 ^ n - 1) <<< o)

/-- The masked bytes of a line are written to memory. -/
def State.setLine (s : State) (line : Nat) (mask : Word) (d : Line) : State :=
  (List.range 64).foldl
    (fun s k => if mask.toNat.testBit k then s.setByte (64 * line + k) (Line.byte d k) else s) s

/-- Whether a line is poisoned (R273). -/
def State.poisoned (s : State) (line : Nat) : Bool := Tab.get (fun _ => false) s.poison line

/-- A line's poison mark. -/
def State.setPoison (s : State) (line : Nat) (b : Bool) : State :=
  { s with poison := Tab.put (fun _ => false) s.poison line b }

/-! ### Units held in tables -/

/-- A host core at package reset (R445). -/
def hostInit (_ : Nat) : HostCore :=
  ⟨false, false, 0, [], [], [], [], 0, none, none, false, 0, [], [], [], [], 0, 0, false, false, false, [], false, false⟩

/-- Host core c. -/
def State.host (s : State) (c : Nat) : HostCore := Tab.get hostInit s.hosts c

/-- Host core c is replaced. -/
def State.setHost (s : State) (c : Nat) (h : HostCore) : State := { s with hosts := Tab.put hostInit s.hosts c h }

/-- An inactive loop counter. -/
def loopOff (_ : Nat) : LoopCtr := ⟨false, 0, 0, 0, 0⟩

/-- A tensor core at package reset (R80, R126). -/
def coreInit (_ : Nat) : Core where
  launch := none
  loaded := false
  firstIssue := none
  ended := false
  excTick := 0
  exc := ⟨0, 0, 0, 0, 0⟩
  was := none
  a := []
  v := []
  m := []
  loops := []
  cc := []
  layer := 0
  opid := 0
  seq := 0
  banks := []
  bankInt := []
  issueInt := []
  bankCtx := 0
  arr := []
  copies := []
  acking := []
  dropped := []
  faultOf := none
  turn := 0
  nextCopy := 0
  held := []
  swait := none
  sp := []
  spUsed := []
  spPoison := []
  prog := []
  loadBuf := []
  loadBad := none
  loadAsked := 0
  hintWin := 0
  portAt := 0
  streamAt := 0
  recircMax := 0
  recircAll := false
  recircAt := 0

/-- Tensor core c. -/
def State.core (s : State) (c : Nat) : Core := Tab.get coreInit s.cores c

/-- Tensor core c is replaced. -/
def State.setCore (s : State) (c : Nat) (k : Core) : State := { s with cores := Tab.put coreInit s.cores c k }

/-- A queue at package reset. -/
def queueInit (_ : Nat) : QState := ⟨[], none, false, [], false, 0, false, none, false, none, none, 0, [], false, 0, false, false, none⟩

/-- Queue q. -/
def State.queue (s : State) (q : Nat) : QState := Tab.get queueInit s.queues q

/-- Queue q is replaced. -/
def State.setQueue (s : State) (q : Nat) (x : QState) : State :=
  { s with queues := Tab.put queueInit s.queues q x }

/-- A channel at package reset. -/
def chanInit (_ : Nat) : Chan := ⟨none, none, (0, 0), (0, 0), 0, 0, false, none⟩

/-- HBM channel c. -/
def State.chan (s : State) (c : Nat) : Chan := Tab.get chanInit s.chans c

/-- HBM channel c is replaced. -/
def State.setChan (s : State) (c : Nat) (x : Chan) : State := { s with chans := Tab.put chanInit s.chans c x }

/-- A mailbox at package reset. -/
def mboxInit (_ : Nat) : Mbox := ⟨[], [], 0, 0, false⟩

/-- Mailbox m. -/
def State.mbox (s : State) (m : Nat) : Mbox := Tab.get mboxInit s.mboxes m

/-- Mailbox m is replaced. -/
def State.setMbox (s : State) (m : Nat) (x : Mbox) : State := { s with mboxes := Tab.put mboxInit s.mboxes m x }

/-- A link at package reset (R344, R350: all 32 tokens); the first SEQ is 0 (log entry 29). -/
def linkInit (_ : Nat) : Link :=
  ⟨0, 65535, 65535, 0, false, false, [], [], [], [], [], 0, (0, 0), [], [], (0, 0), 0, false, 0⟩

/-- Link l. -/
def State.link (s : State) (l : Nat) : Link := Tab.get linkInit s.links l

/-- Link l is replaced. -/
def State.setLink (s : State) (l : Nat) (x : Link) : State := { s with links := Tab.put linkInit s.links l x }

/-- The answer to the last access (R56, R57). -/
def State.answer (s : State) (agent : Nat) (v : Word) (cause : Nat := 0) (poison : Bool := false) : State :=
  { s with reply := ⟨agent, v.setWidth 512, cause, poison⟩ }

/-- The answer to a read of up to a line. -/
def State.answerLine (s : State) (agent : Nat) (v : Line) (poison : Bool) : State :=
  { s with reply := ⟨agent, v, 0, poison⟩ }

/-! ### Numbers of units (R11, R18) -/

/-- The hub of a queue. -/
def hubOfQueue (q : Nat) : Nat := q / 8192

/-- The hub of a sync object. -/
def hubOfObj (o : Nat) : Nat := o / 4096

/-- The tensor die of a logical core. -/
def dieOf (c : Nat) : Nat := c / 64

/-- Whether a logical number is an enabled core (R8, R11). -/
def State.coreEnabled (s : State) (c : Nat) : Bool :=
  decide (c < 256) && decide (c % 64 < 52) && ((s.fuses.enable.getD (dieOf c) 0).testBit (c % 64))

/-- The enabled cores of a die, in ascending order. -/
def State.dieCores (s : State) (d : Nat) : List Nat :=
  ((List.range 52).map (fun i => d * 64 + i)).filter (fun c => s.coreEnabled c)

/-- PRESENTED_WIDTH of the part's grade (R2, R3). -/
def State.width (s : State) : Nat := if s.fuses.grade = 2 then 126 else 128

/-- The hub whose trace writer serves a tensor core (R508, log entry 16). -/
def hubOfCore (c : Nat) : Nat := dieOf c / 2

/-- Whether a service processor's agent number (R66). -/
def isService (a : Nat) : Bool := decide (1 ≤ a) && decide (a ≤ 4)

/-- Whether a host core's agent number (R66). -/
def isHost (a : Nat) : Bool := decide (0x100 ≤ a) && decide (a < 0x160)

/-- SYS_PROT_LOCK is set (R445). -/
def State.locked (s : State) : Bool := s.flag SYS_PROT_LOCK.LOCK

/-! ### The physical map (R45) -/

/-- The regions of R45. -/
inductive Region
  | hbm | spare | far | peer | keep | site (n : Nat) | regs | hole
  deriving DecidableEq, Repr

/-- The base of register space. -/
def regBase : Nat := 0xFFE0000000000

/-- The base of the keep store. -/
def keepBase : Nat := 0xFFC0000000000

/-- The base of the customer windows. -/
def siteBase : Nat := 0xFFD0000000000

/-- The base of the far tier. -/
def farBase : Nat := 0x0100000000000

/-- The base of the peer windows. -/
def peerBase : Nat := 0x1000000000000

/-- The populated size of a site's window (R40): what its accepted descriptor gives, nothing otherwise. -/
def State.siteSize (s : State) (n : Nat) : Nat :=
  let st := s.rd SYS_CDS_STATUS_n.STATE n
  if st = 4 ∨ st = 5 then 2 ^ bitsOf (s.reg (SYS_CDS_DESC.WORD.off (8 * n + 1))).toNat 15 8 else 0

/-- Whether a peer window takes loads, stores and copies: a VALID window that was not refused, in MODE PEER (R355,
R356); any other is a hole. -/
def State.winOpen (s : State) (w : Nat) : Bool :=
  s.flag LK_WIN.VALID w && !s.flag LK_WIN.REFUSED w && !s.flag LK_WIN.MODE w

/-- Whether an address lies in register space, populated or not (R45). -/
def inRegSpace (pa : Nat) : Bool := decide (regBase ≤ pa) && decide (pa < regBase + 0x100000000)

/-- The region of an address, the unpopulated parts being holes (R45). -/
def State.region (s : State) (pa : Nat) : Region :=
  if pa < 0xBE80000000 then .hbm
  else if pa < 0xC000000000 then .spare
  else if pa < farBase then .hole
  else if pa < 0x0180000000000 then
    if pa - farBase < s.rd TIER_STATUS.FAR_GIB * 2 ^ 30 then .far else .hole
  else if pa < peerBase then .hole
  else if pa < 0x2000000000000 then if s.winOpen ((pa - peerBase) / 2 ^ 40) then .peer else .hole
  else if pa < keepBase then .hole
  else if pa < keepBase + 0x4000000 then .keep
  else if pa < siteBase then .hole
  else if pa < siteBase + 0x200000000 then
    let n := (pa - siteBase) / 0x100000000
    if (pa - siteBase) % 0x100000000 < s.siteSize n then .site n else .hole
  else if pa < regBase then .hole
  else if pa < regBase + 0x100000000 then
    if inBlock (pa - regBase) then .regs else .hole
  else .hole

/-- Whether a region is cacheable memory, HBM or the far tier (R47). -/
def Region.coherent : Region → Bool
  | .hbm => true
  | .far => true
  | _ => false

/-- Whether a range lies whole in one region that is not a hole. -/
def State.inOneRegion (s : State) (pa len : Nat) : Bool :=
  let r := s.region pa
  decide (r ≠ .hole) && decide (s.region (pa + (len - 1)) = r) &&
    (match r with
     | .regs => decide (pa / 8 = (pa + (len - 1)) / 8) || decide (pa / 4096 = (pa + (len - 1)) / 4096)
     | _ => true)

/-! ### The dike table (R440–R445) -/

/-- Whom the dike table matches a requester as (R443). -/
inductive Subject
  | service | host (c : Nat) | context (c : Nat) | port (agent : Nat) | nobody
  deriving DecidableEq, Repr

/-- The subject of an agent number (R443, R535). -/
def State.subject (s : State) (agent : Nat) : Subject :=
  if isService agent then .service
  else if isHost agent then .host (agent - 0x100)
  else if 0x1000 ≤ agent ∧ agent < 0x1100 then
    match (s.core (agent - 0x1000)).launch with
    | some l => .context l.ctx
    | none => .nobody
  else if 0x4000 ≤ agent ∧ agent < 0x8000 then .context (s.rd QE_Q_CFG.CONTEXT (agent - 0x4000))
  else if 0x8000 ≤ agent ∧ agent < 0x9104 then .port agent
  else .nobody

/-- The partition of a context. -/
def State.partOfCtx (s : State) (c : Nat) : Nat := Tab.get (fun _ => 0) s.dike.ctx c

/-- The partition of a queue. -/
def State.partOfQueue (s : State) (q : Nat) : Nat := Tab.get (fun _ => 0) s.dike.queue q

/-- The partition of a sync object. -/
def State.partOfObj (s : State) (o : Nat) : Nat := Tab.get (fun _ => 0) s.dike.sync o

/-- The partition of a host core. -/
def State.partOfHost (s : State) (c : Nat) : Nat := Tab.get (fun _ => 0) s.dike.host c

/-- Whether a rule names a subject (R441, R443). -/
def State.ruleNames (s : State) (r : DikeRule) : Subject → Bool
  | .service => false
  | .nobody => false
  | .host c =>
    (r.subj == 0 && decide (r.lo ≤ 0x100 + c) && decide (0x100 + c ≤ r.hi)) ||
      (r.subj == 1 && r.lo == s.partOfHost c)
  | .context c =>
    (r.subj == 2 && decide (r.lo ≤ c) && decide (c ≤ r.hi)) || (r.subj == 1 && r.lo == s.partOfCtx c)
  | .port a => r.subj == 0 && decide (r.lo ≤ a) && decide (a ≤ r.hi)

/-- The end of the longest rule that covers a page; the page itself where none does. -/
def reachOf (wr : Bool) (page : Nat) : List DikeRule → Nat
  | [] => page
  | r :: l =>
    let e := reachOf wr page l
    if (if wr then r.w else r.r) && decide (r.base ≤ page) && decide (page < r.base + r.pages)
    then max e (r.base + r.pages) else e

/-- Whether every page from one to another is covered, each by some rule. -/
def covered (wr : Bool) (rs : List DikeRule) : Nat → Nat → Nat → Bool
  | 0, _, _ => false
  | n + 1, page, last =>
    let e := reachOf wr page rs
    if e ≤ page then false else if last < e then true else covered wr rs n e last

/-- Whether the range lies in the boot area, which only service processors reach (R444). -/
def inBootArea (pa len : Nat) : Bool :=
  decide (keepBase + 0x3FF0000 < pa + len) && decide (pa < keepBase + 0x4000000)

/-- A register that only service processors write (R444). -/
def serviceOnly (off : Nat) : Bool :=
  off == 0x300 || off == 0x10038 ||
    (decide (0x70000000 ≤ off) && decide (off < 0x71000000) &&
      !(off == 0x70000018 || off == 0x70001010 || off == 0x70001030))

/-- Whether the dike table admits a subject to a range, for reading or for writing (R443, R444, R46, R48). -/
def State.admitsSub (s : State) (sub : Subject) (wr : Bool) (pa len : Nat) : Bool :=
  let l := max len 1
  s.inOneRegion pa l && decide (s.region pa ≠ .spare) &&
    (match sub with
     | .service => true
     | .nobody => false
     | _ =>
       let rs := s.dike.rules.filter (fun r => s.ruleNames r sub)
       covered wr rs (rs.length + 1) (pa / 4096) ((pa + l - 1) / 4096) && !inBootArea pa l &&
         !(wr && decide (s.region pa = .regs) && serviceOnly (pa - regBase)))

/-- Whether the dike table admits an agent to a range. -/
def State.admits (s : State) (agent : Nat) (wr : Bool) (pa len : Nat) : Bool :=
  s.admitsSub (s.subject agent) wr pa len

/-- Whether a range that the dike table admits holds lines that an engine reads or writes for itself: rings, tables and
lists. Register space takes no line access (R56), and the manual names no such structure behind a peer window (log
entry 34). -/
def State.plainOk (s : State) (sub : Subject) (wr : Bool) (pa len : Nat) : Bool :=
  s.admitsSub sub wr pa len && decide (s.region pa ≠ .regs) && decide (s.region pa ≠ .peer)

/-- Whether the dike table admits a context to a sync object (R443). -/
def State.objAdmits (s : State) (ctx obj : Nat) : Bool :=
  decide (obj < 8192) && s.partOfObj obj == s.partOfCtx ctx

/-- Whether a queue's context may write QE rules of its queue: the partition match of R443. -/
def State.queuePartOk (s : State) (q : Nat) : Bool :=
  s.partOfQueue q == s.partOfCtx (s.rd QE_Q_CFG.CONTEXT q)

/-! ### HBM channels and far-tier ports (R270, R291, R297) -/

/-- The channel and local granule of a granule before any repair (R270). -/
def channelOf (g : Nat) : Nat × Nat := ((g % 384 + 97 * (g / 384)) % 384, g / 384)

/-- Survivor number n: the n-th channel in ascending order that is not in an ascending list. -/
def survivor (lost : List Nat) (n : Nat) : Nat := lost.foldl (fun n l => if l ≤ n then n + 1 else n) n

/-- The lost channels of the repairs, in ascending order. -/
def lostSorted : List Repair → List Nat
  | [] => []
  | [a] => [a.ch]
  | a :: b :: _ => if a.ch < b.ch then [a.ch, b.ch] else [b.ch, a.ch]

/-- The spare slots of a channel that earlier repairs have filled: granule r of a lost channel's list lies on survivor
r mod 383 (R291). -/
def slotsUsed (done : List Repair) (c : Nat) : Nat :=
  match done with
  | [] => 0
  | a :: _ => if c = a.ch then 0 else (520192 + 382 - (if a.ch < c then c - 1 else c)) / 383

/-- Where a granule lies after one repair: granule r of the lost channel's list has moved to survivor r mod N, to the
lowest spare slot free (R291). A spare slot's own number is its place in that list. -/
def repairStep (done : List Repair) (rep : Repair) (loc : Nat × Nat) : Nat × Nat :=
  if loc.1 = rep.ch ∧ loc.2 < rep.moved then
    let lost := lostSorted (done ++ [rep])
    let n := 384 - lost.length
    let c := survivor lost (loc.2 % n)
    (c, 520192 + slotsUsed done c + loc.2 / n)
  else loc

/-- The channel that serves an HBM address now (R270, R291). -/
def State.chanOf (s : State) (pa : Nat) : Nat :=
  let loc := channelOf (pa / 4096)
  match s.repairs with
  | [] => loc.1
  | [a] => (repairStep [] a loc).1
  | a :: b :: _ => (repairStep [a] b (repairStep [] a loc)).1

/-- The hub of a channel (R11). -/
def hubOfChan (c : Nat) : Nat := c / 192

/-- The port and local address of a far-tier address (R297). -/
def State.portOf (s : State) (pa : Nat) : Nat × Nat :=
  let w := s.rd TIER_CFG.WAYS_LOG2
  let fa := pa - farBase
  let g := fa / 4096
  ((g + g / 2 ^ w) % 2 ^ w, g / 2 ^ w * 4096 + fa % 4096)

/-! ### Programmable counters (R513) -/

/-- Whether a counter's selection counts an event of a context and a LAYER: an enabled filter needs the event to
carry a matching one. -/
def pmcMatches (v : Word) (sel : Nat) (ctx layer : Option Nat) : Bool :=
  TRC_HPMC_SEL.SEL.get v == sel &&
    (TRC_HPMC_SEL.CTX_EN.get v == 0 || ctx == some (TRC_HPMC_SEL.CONTEXT.get v)) &&
    (TRC_HPMC_SEL.LAYER_EN.get v == 0 || layer == some (TRC_HPMC_SEL.LAYER.get v))

/-- The counters whose selections lie from an offset and match count n more, modulo 2^64. -/
def State.pmcRow (s : State) (base num sel : Nat) (ctx layer : Option Nat) (n : Nat) : State :=
  (s.regs.filter (fun e => decide (base ≤ e.1) && decide (e.1 < base + 16 * num) && (e.1 - base) % 16 == 0
      && pmcMatches e.2 sel ctx layer)).foldl
    (fun s e => s.setReg (e.1 + 8) (s.reg (e.1 + 8) + BitVec.ofNat 64 n)) s

/-- An event of a hub's counters. -/
def State.pmcHub (s : State) (h sel : Nat) (ctx layer : Option Nat := none) (n : Nat := 1) : State :=
  s.pmcRow (0x40002000 + 0x100 * h) 16 sel ctx layer n

/-- An event of a tensor core's counters; it carries the launch's context and the LAYER of its work (R156). -/
def State.pmcCore (s : State) (c sel : Nat) (n : Nat := 1) (layer : Nat := (s.core c).layer) : State :=
  s.pmcRow (0x10000300 + 0x10000 * c) 4 sel ((s.core c).launch.map (·.ctx)) (some layer) n

/-! ### Lines of HBM and the far tier, below the home (R277, R284, R294, R313) -/

/-- Whether a far-tier address's port is DOWN (R299). -/
def State.farDown (s : State) (pa : Nat) : Bool := s.rd TIER_PORT_STATUS.STATE (s.portOf pa).1 == 3

/-- Whether an HBM line can no longer be reached at its channel: a third loss (R291), or a lost channel that does not
answer, until the move (R293). -/
def State.hbmDead (s : State) (pa : Nat) : Bool :=
  let c := s.chanOf pa
  (s.chan c).lost &&
    (match s.repairs.find? (fun r => r.ch == c) with
     | some r => r.dead
     | none => true)

/-- Whether a line is in an adder's line store (R278). -/
def State.inStore (s : State) (line : Nat) : Bool := s.lineStore.any (fun e => e.1 == line)

/-- Bytes read from a channel's DRAM are counted. -/
def State.countRead (s : State) (c : Nat) : State :=
  (s.bump HM_CH_RD_BYTES.BYTES c 64).pmcHub (hubOfChan c) 68

/-- Bytes written to a channel's DRAM are counted. -/
def State.countWrite (s : State) (c : Nat) : State :=
  (s.bump HM_CH_WR_BYTES.BYTES c 64).pmcHub (hubOfChan c) 69

/-- Whether a channel holds its requests: it retrains, or waits for its stack's clock (R25, R287). -/
def State.chanHeld (s : State) (c : Nat) : Bool := s.rd HM_CH_STATUS.STATE c == 1 || s.rd HM_CH_STATUS.STATE c == 2

/-- Where requests for a line are held: at its channel, or at its CXL port from 384 on; lines in a line store are not (R25,
R287, R299, log entry 85). -/
def State.holdKey (s : State) (line : Nat) : Option Nat :=
  match s.region (64 * line) with
  | .hbm =>
    let c := s.chanOf (64 * line)
    if s.chanHeld c && !s.hbmDead (64 * line) && !s.inStore line then some c else none
  | .far =>
    let p := (s.portOf (64 * line)).1
    if Tab.get (fun _ => 0) s.cxlRecover p != 0 then some (384 + p) else none
  | _ => none

/-- A watched access that meets a channel or port that holds requests is noted. -/
def State.noteHeld (s : State) (line : Nat) : State :=
  match (if s.access.on then s.holdKey line else none) with
  | some k => { s with access := { s.access with blocked := some k } }
  | none => s

/-- What the ECC finds in a line that a watched read takes from DRAM (R274). -/
def State.finding (s : State) (line : Nat) : EccFinding :=
  if s.access.on then ((s.access.found.ecc.find? fun e => e.1 == line).map Prod.snd).getD .clean else .clean

/-- An error of a line is found: the line is written back, so that it is found once (R274). -/
def State.noteErr (s : State) (line : Nat) (e : EccFinding) : State :=
  let a := s.access
  { s with access := { a with
      found := { a.found with ecc := a.found.ecc.filter fun (x : Nat × EccFinding) => x.1 != line }
      due := a.due ++ [.ecc line e a.source a.agent] } }

/-- A line is read from DRAM: corrected, delivered and kept as poison, or as it is stored (R273, R274). -/
def State.dramLine (s : State) (line : Nat) : Line × Bool × State :=
  let c := s.chanOf (64 * line)
  let s := s.countRead c
  if s.poisoned line then (s.memLine line, true, s)
  else match s.finding line with
    | .clean => (s.memLine line, false, s)
    | .ce k => (s.memLine line, false, (s.countWrite c).noteErr line (.ce k))
    | .ue => (s.memLine line, true, ((s.setPoison line true).countWrite c).noteErr line .ue)

/-- A line is read at its channel or its CXL port: its bytes and whether they are poison. A line in a line store is
served from there (R278). -/
def State.fetchLine (s : State) (line : Nat) : Line × Bool × State :=
  let pa := 64 * line
  let s := s.noteHeld line
  match s.region pa with
  | .far =>
    let p := (s.portOf pa).1
    if s.farDown pa then (0, true, s.bump TIER_PORT_STATUS.POISON_RD p)
    else (s.memLine line, s.poisoned line, s.bump TIER_PORT_RD_BYTES.BYTES p 64)
  | _ =>
    if s.inStore line then (s.memLine line, s.poisoned line, s)
    else if s.hbmDead pa then (0, true, s)
    else s.dramLine line

/-- Masked bytes of a line and its poison mark: a whole line becomes clean unless it is written as poison; a partial
write leaves a poisoned line poisoned (R274). -/
def State.putLine (s : State) (line : Nat) (mask : Word) (d : Line) (poison : Bool) : State :=
  (s.setLine line mask d).setPoison line (poison || (s.poisoned line && mask != fullMask))

/-- Masked bytes of a line are written at its channel or its CXL port. -/
def State.storeLine (s : State) (line : Nat) (mask : Word) (d : Line) (poison : Bool := false) : State :=
  let pa := 64 * line
  let s := s.noteHeld line
  match s.region pa with
  | .far =>
    let p := (s.portOf pa).1
    if s.farDown pa then s.bump TIER_PORT_STATUS.LOST_WR p
    else (s.putLine line mask d poison).bump TIER_PORT_WR_BYTES.BYTES p 64
  | _ =>
    if s.inStore line then s.putLine line mask d poison
    else if s.hbmDead pa then s
    else (s.putLine line mask d poison).countWrite (s.chanOf pa)

/-! ### Trace sources (R506, R509) -/

/-- A source offers an event to the trace rings; the TRACE_EVENT command writes the oldest one offered. -/
def State.offer (s : State) (event kind src hub : Nat) (arg : Nat) (ctx : Nat := 0xFFF) (layer opid : Nat := 0) :
    State :=
  { s with offers := s.offers ++
      [⟨s.tb, event, kind, src, ctx, layer, opid, BitVec.ofNat 64 arg, hub⟩] }

/-- An event of a tensor core, with its launch's context and the LAYER and OPID of its work (R156). -/
def State.offerAs (s : State) (event c arg layer opid : Nat) : State :=
  s.offer event 0 (0x1000 + c) (hubOfCore c) arg (((s.core c).launch.map (·.ctx)).getD 0xFFF) layer opid

/-- An event of a tensor core, with its launch's context and its LAYER and OPID. -/
def State.offerCore (s : State) (event c arg : Nat) : State := s.offerAs event c arg (s.core c).layer (s.core c).opid

/-- An event of a queue engine acting for queue q. -/
def State.offerQueue (s : State) (event q arg layer opid : Nat) : State :=
  s.offer event 0 (0x4000 + q) (hubOfQueue q) arg (s.rd QE_Q_CFG.CONTEXT q) layer opid

end Sys2Proof.Machine
end

