-- ==== Sys2Proof/Machine/Home.lean ====
section
/-! DEFINITION. The home of a line: the directory, the copies in host cores, and the accesses that every engine,
link and host core makes through it (R391–R407, R274). -/

namespace Sys2Proof.Machine

/-- The home slice of a line number (R391): the XOR of its ten groups of five bits. -/
def sliceOf (line : Nat) : Nat :=
  (List.range 10).foldl (fun a k => a ^^^ (line >>> (5 * k)) % 32) 0

/-- The set of a line number (R391). -/
def setOf (line : Nat) : Nat := (line >>> 5) % 8192

/-- The directory entry of a line. -/
def State.dirEntry (s : State) (line : Nat) : Option DirEntry := s.dir.find? (fun e => e.line == line)

/-- The directory without a line's entry. -/
def State.dirFree (s : State) (line : Nat) : State := { s with dir := s.dir.filter (fun e => e.line != line) }

/-- The entry of a line is replaced and becomes the most recently used. -/
def State.dirSet (s : State) (e : DirEntry) : State :=
  { s with dir := e :: s.dir.filter (fun x => x.line != e.line) }

/-- A line is busy while a grant of it waits (R397, R400). A grant waits for a cluster, and each of the 12 clusters owes a slice
at most 4 acknowledgements (R399), so a slice has at most 48 busy lines and its limit of 256 holds nothing back. -/
def State.busy (s : State) (line : Nat) : Bool := s.grants.any (fun g => g.line == line)

/-- A core's copy of a line: in its caches, or a dirty one in its write-back buffer (R396). -/
def HostCore.copy (h : HostCore) (line : Nat) : Option CacheLine :=
  match h.cache.find? (fun x => x.line == line) with
  | some x => some x
  | none => h.wb.find? (fun x => x.line == line && x.dirty)

/-- Lines of an L1 cache with one used now: of the 4 lines of its set the least recently used makes room (R371, log entry
71). -/
def l1Touch (l : List Nat) (line : Nat) : List Nat :=
  let l := line :: l.filter (· != line)
  match (l.filter fun x => x % 256 == line % 256)[4]? with
  | some old => l.filter (· != old)
  | none => l

/-- Lines of an L1 cache with one that enters at the least recently used place (R375). -/
def l1Low (l : List Nat) (line : Nat) : List Nat :=
  if l.contains line then l
  else match (l.filter fun x => x % 256 == line % 256)[3]? with
    | some old => l.filter (· != old) ++ [line]
    | none => l ++ [line]

/-- A core uses a line that its L2 holds: it enters L1I for a fetch, L1D for any other access (R371). -/
def State.touchL1 (s : State) (c line : Nat) (fetch : Bool) : State :=
  let h := s.host c
  if h.cache.any (fun x => x.line == line) then
    s.setHost c (if fetch then { h with l1i := l1Touch h.l1i line } else { h with l1d := l1Touch h.l1d line })
  else s

/-- A core without a line in its three caches and without a reservation on it (R373, R380). -/
def HostCore.without (h : HostCore) (line : Nat) : HostCore :=
  { h with cache := h.cache.filter (fun x => x.line != line),
           l1i := h.l1i.filter (· != line), l1d := h.l1d.filter (· != line),
           resv := if h.resv = some line then none else h.resv }

/-- A watched access to a core's copy whose parity check fails: a dirty line is poison from now on, and its record is due; a
clean one is discarded and fetched again, which nothing shows (R372). -/
def State.checkCopy (s : State) (c line : Nat) : State :=
  let a := s.access
  if a.on && a.found.cache.contains (c, line) then
    let h := s.host c
    let hit := fun (x : CacheLine) => x.line == line && x.dirty
    if h.cache.any hit || h.wb.any hit then
      let mark := fun (x : CacheLine) => if hit x then { x with poison := true } else x
      { s.setHost c { h with cache := h.cache.map mark, wb := h.wb.map mark } with
        access := { a with found := { a.found with cache := a.found.cache.filter (· != (c, line)) },
                           due := a.due ++ [.parity c line] } }
    else s
  else s

/-- A line leaves a core's caches for a reason other than a fill in preload mode; a locked one is counted (R374). -/
def State.dropCopy (s : State) (c line : Nat) : State :=
  let h := s.host c
  let locked := h.cache.any (fun x => x.line == line && x.locked)
  let s := s.setHost c (h.without line)
  if locked then s.bump HC_L2LOCK.LOCK_LOST c else s

/-- Every copy of a LOST line, which the directory names no holder of, leaves the cores that filled it as poison. -/
def State.dropStray (s : State) (line : Nat) : State :=
  s.each (Tab.keys s.hosts) fun s c =>
    if (s.host c).cache.any (fun x => x.line == line) then s.dropCopy c line else s

/-- Every reservation on a line is lost, but for one core's (R380). -/
def State.dropResv (s : State) (line : Nat) (except : Option Nat := none) : State :=
  s.each (Tab.keys s.hosts) fun s c =>
    if some c = except then s
    else
      let h := s.host c
      if h.resv = some line then s.setHost c { h with resv := none } else s

/-- An invalidation enters the queue of a core's cluster (R399): a core's number, or 96 for all eight. -/
def State.sendInval (s : State) (cluster line core : Nat) : State :=
  { s with invq := Tab.put (fun _ => []) s.invq cluster
             (Tab.get (fun _ => []) s.invq cluster ++ [(line, core)]) }

/-- The cores of a cluster that a queued invalidation names. -/
def invalCores (cluster core : Nat) : List Nat :=
  if core < 96 then [core] else (List.range 8).map (fun i => 8 * cluster + i)

/-- A queued invalidation is applied (R399). -/
def State.applyInval (s : State) (cluster : Nat) (e : Nat × Nat) : State :=
  s.each (invalCores cluster e.2) fun s c => s.dropCopy c e.1

/-- A line enters a core's caches at the most recently used place. -/
def State.placeLine (s : State) (c : Nat) (x : CacheLine) : State :=
  let h := s.host c
  s.setHost c { h with cache := x :: h.cache.filter (fun y => y.line != x.line) }

/-- Whether a core waits for an answer that needs its copy of a line: it does not evict the line before (R380; R400, log
entry 144). -/
def State.awaits (s : State) (c line : Nat) : Bool :=
  (s.host c).scPend.any (fun p => p.1 / 64 == line) || s.grants.any (fun g => g.core == c && g.line == line)

/-- The line that a fill of a line displaces from its L2 set, if the ways it may use are full: the least recently
used of the unlocked ways, or in preload mode of the locked ones (R371, R374). -/
def State.victim (s : State) (c line : Nat) : Option CacheLine :=
  let h := s.host c
  let ways := s.rd HC_L2LOCK.WAYS c
  let pre := s.flag HC_L2LOCK.PRELOAD c && decide (0 < ways)
  let kept := fun (l : Nat) => s.awaits c l
  let same := h.cache.filter (fun x => x.line % 2048 == line % 2048 && x.locked == pre && x.line != line)
  if same.length < (if pre then ways else 16 - ways) then none else (same.filter fun x => !kept x.line).getLast?

/-- A core evicts a line: it keeps a dirty one in the write-back buffer, a clean one as the notice it sends, until
the home has it (R396). A locked one is counted unless a fill in preload mode displaces it (R374). -/
def State.evictLine (s : State) (c : Nat) (x : CacheLine) (preload : Bool := false) : State :=
  let s := if x.locked && !preload then s.bump HC_L2LOCK.LOCK_LOST c else s
  let h := s.host c
  let h' := h.without x.line
  s.setHost c { h' with wb := h'.wb ++ [x] }

/-- A line is filled into a core's L2, displacing a victim where its ways are full; one that the core holds already stays in
its way (R371, R374). -/
def State.fillLine (s : State) (c line : Nat) (d : Line) (excl poison dirty : Bool) : State :=
  match (s.host c).cache.find? (fun x => x.line == line) with
  | some x => s.placeLine c ⟨line, d, dirty, excl, poison, x.locked⟩
  | none =>
    let pre := s.flag HC_L2LOCK.PRELOAD c && decide (0 < s.rd HC_L2LOCK.WAYS c)
    let s := match s.victim c line with
      | some v => s.evictLine c v pre
      | none => s
    s.placeLine c ⟨line, d, dirty, excl, poison, pre⟩

/-- A core performs its store into a line that it holds with write permission. A store of all 64 bytes clears the
poison mark (R274). -/
def State.storeCached (s : State) (c line : Nat) (mask : Word) (d : Line) : State :=
  let h := s.host c
  match h.cache.find? (fun x => x.line == line) with
  | none => s
  | some x =>
    s.setHost c { h with cache := { x with data := Line.merge x.data d mask, dirty := true,
                                           poison := x.poison && mask != fullMask } ::
                                    h.cache.filter (fun y => y.line != line),
                         resv := if h.resv = some line then none else h.resv }

/-- A store-conditional that asked for ownership of a line performs its store (R402). -/
def State.scStore (s : State) (c line : Nat) : State :=
  let h := s.host c
  match h.scPend with
  | some (pa, size, d) =>
    if pa / 64 = line then
      (s.setHost c { h with scPend := none, scOk := true, resv := none }).storeCached c line (maskOf (pa % 64) size)
        (BitVec.ofNat 512 (d.toNat <<< (8 * (pa % 64))))
    else s
  | none => s

/-- A grant is sent: the requester holds the line with write permission (R400, R402). -/
def State.sendGrant (s : State) (g : Grant) : State :=
  (s.fillLine g.core g.line g.data true g.poison g.dirty).scStore g.core g.line

/-- A cluster has acknowledged an invalidation of a line: its grants need it no longer, and those that need none are
sent (R400). -/
def State.ackInval (s : State) (cluster line : Nat) : State :=
  let upd := s.grants.map fun g => if g.line = line then { g with needs := g.needs.filter (· != cluster) } else g
  let ready := upd.filter (fun g => g.needs.isEmpty)
  let s := { s with grants := upd.filter (fun g => !g.needs.isEmpty) }
  s.each ready State.sendGrant

/-- Every queued invalidation of a line is applied and acknowledged, so that the line is busy no longer: a later
request waits for this (R397, R399). -/
def State.settle (s : State) (line : Nat) : State :=
  s.each (List.range 12) fun s k =>
    let q := Tab.get (fun _ => []) s.invq k
    let mine := q.filter (fun e => e.1 == line)
    if mine.isEmpty then s
    else
      let s := { s with invq := Tab.put (fun _ => []) s.invq k (q.filter (fun e => e.1 != line)) }
      (s.each mine fun s e => s.applyInval k e).ackInval k line

/-- An entry that a request of its line finds becomes the most recently used (R403, log entry 144). -/
def State.dirTouch (s : State) (line : Nat) : State :=
  match s.dirEntry line with
  | some e => s.dirSet e
  | none => s

/-- A request finds its line busy: the cycles for which it waits are counted (R397, R513); how many they are is free (log
entry 145). -/
def State.waitBusy (s : State) (line : Nat) : State :=
  if s.busy line then
    let (v, s) := s.free
    s.pmcHub (sliceOf line / 16) 67 none none v.toNat
  else s

/-- A request is ordered at its home (R397, R407). -/
def State.lookup (s : State) (line : Nat) : State :=
  let s := s.waitBusy line
  ((s.settle line).dirTouch line).bump DIR_S_LOOKUPS.COUNT (sliceOf line)

/-- The oldest invalidation that a line's slice has sent to a cluster, when the cluster owes it four acknowledgements
(R399). -/
def State.invalFull (s : State) (cluster line : Nat) : Option Nat :=
  let mine := (Tab.get (fun _ => []) s.invq cluster).filter fun e => sliceOf e.1 == sliceOf line
  if mine.length < 4 then none else mine.head?.map Prod.fst

/-- A slice sends an invalidation to a cluster: a fifth waits until the oldest of the four that the cluster owes it is
acknowledged (R399). -/
def State.invalTo (s : State) (cluster line core : Nat) : State :=
  (match s.invalFull cluster line with
   | some old => s.settle old
   | none => s).sendInval cluster line core

/-- Invalidations go to every copy that an entry names or may name, but for a core that keeps its own; the clusters
they went to (R398, R399, R400). -/
def State.invalidateAll (s : State) (e : DirEntry) (keep : Option Nat := none) : State × List Nat :=
  match e.state with
  | 1 =>
    let l := e.ptrs.filter (fun p => some p ≠ keep)
    (s.each l fun s p => s.invalTo (p / 8) e.line p, (l.map (· / 8)).eraseDups)
  | 2 =>
    ((s.each (List.range 12) fun s k => s.invalTo k e.line 96).bump DIR_S_BCAST.COUNT (sliceOf e.line),
      List.range 12)
  | _ => (s, [])

/-- An owner returns its line and drops it: its bytes, its poison mark and whether it was dirty; memory's where the
owner holds nothing. -/
def State.takeOwner (s : State) (o line : Nat) : Line × Bool × Bool × State :=
  let s := s.checkCopy o line
  match (s.host o).copy line with
  | some x => (x.data, x.poison, x.dirty, s.dropCopy o line)
  | none => let (d, p, s) := s.fetchLine line; (d, p, false, s)

/-- An owner gives up its line and writes it back where it is dirty or poison (R401, R403). -/
def State.ownerBack (s : State) (o line : Nat) : State :=
  let s := s.checkCopy o line
  match (s.host o).copy line with
  | some x =>
    let s := s.dropCopy o line
    if x.dirty || x.poison then s.storeLine line fullMask x.data x.poison else s
  | none => s

/-- A coherent read of a line by an agent that does not cache (R401, R406): bytes, poison, and the state. -/
def State.coRead (s : State) (line : Nat) : Line × Bool × State :=
  let s := s.lookup line
  match s.dirEntry line with
  | some e =>
    if e.state = 4 then (0, true, s)
    else if e.state = 3 then
      let s := s.checkCopy (e.ptrs.headD 0) line
      match (s.host (e.ptrs.headD 0)).copy line with
      | some x => (x.data, x.poison, s)
      | none => s.fetchLine line
    else s.fetchLine line
  | none => s.fetchLine line

/-- A write of masked bytes of a line by an agent that does not cache (R401, R406, R274). -/
def State.coWrite (s : State) (line : Nat) (mask : Word) (d : Line) : State :=
  let s := (s.lookup line).dropResv line
  match s.dirEntry line with
  | none => s.storeLine line mask d
  | some e =>
    let s := s.dirFree line
    if e.state = 3 then
      let (old, p, _, s) := s.takeOwner (e.ptrs.headD 0) line
      s.storeLine line fullMask (Line.merge old d mask) (p && mask != fullMask)
    else if e.state = 4 then (s.dropStray line).storeLine line mask d (mask != fullMask)
    else (s.invalidateAll e).1.storeLine line mask d

/-- Every copy of a line is removed before an adder or the home works on it: an owner's dirty line is written back;
a LOST line becomes poison (R401, R402, R406). -/
def State.coTake (s : State) (line : Nat) : State :=
  let s := (s.lookup line).dropResv line
  match s.dirEntry line with
  | none => s
  | some e =>
    let s := s.dirFree line
    if e.state = 3 then s.ownerBack (e.ptrs.headD 0) line
    else if e.state = 4 then (s.dropStray line).setPoison line true
    else (s.invalidateAll e).1

/-- A line whose entry is freed by back-invalidation (R403). -/
def State.backInvalidate (s : State) (e : DirEntry) : State :=
  let s := ((s.dirFree e.line).dropResv e.line).bump DIR_S_BACKINV.COUNT (sliceOf e.line)
  if e.state = 3 then s.ownerBack (e.ptrs.headD 0) e.line
  else if e.state = 4 then (s.dropStray e.line).setPoison e.line true
  else (s.invalidateAll e).1

/-- Whether two lines share a set of one slice. -/
def sameSet (a b : Nat) : Bool := sliceOf a == sliceOf b && setOf a == setOf b

/-- A free way for a line's entry, made by a back-invalidation of the least recently used entry whose line is not
busy; none while all 16 ways are busy (R403). -/
def State.dirRoom (s : State) (line : Nat) : Option (Nat × State) :=
  match s.dirEntry line with
  | some e => some (e.way, s)
  | none =>
    let set := s.dir.filter (fun e => sameSet e.line line)
    match (List.range 16).find? (fun w => !set.any (fun e => e.way == w)) with
    | some w => some (w, s)
    | none =>
      match (set.filter (fun e => !s.busy e.line)).getLast? with
      | some v => some (v.way, s.backInvalidate v)
      | none => none

/-! ### Reads and writes of memory by engines, of any length and in any region of plain memory -/

/-- The lines that a range touches. -/
def linesOf (pa len : Nat) : List Nat :=
  if len = 0 then [] else (List.range ((pa + len - 1) / 64 - pa / 64 + 1)).map (fun k => pa / 64 + k)

/-- The bytes of a line that a range covers. -/
def lineMask (line pa len : Nat) : Word :=
  let lo := max pa (64 * line)
  let hi := min (pa + len) (64 * line + 64)
  maskOf (lo - 64 * line) (hi - lo)

/-- Whether a write of a line is refused with poison: a customer window that is not ACTIVE (R44), or a channel that no repair
can serve (R291). -/
def State.deadLine (s : State) (line : Nat) : Bool :=
  match s.region (64 * line) with
  | .hbm => s.hbmDead (64 * line)
  | .site n => s.rd SYS_CDS_STATUS_n.STATE n != 4
  | _ => false

/-- Whether a line lies behind a DOWN port, which discards what is written there (R299). -/
def State.lostLine (s : State) (line : Nat) : Bool := s.region (64 * line) == .far && s.farDown (64 * line)

/-- Whether a write of a line is not performed: its requester learns it as its path defines (R44, R291, R299; log entry 136). -/
def State.failedLine (s : State) (line : Nat) : Bool := s.deadLine line || s.lostLine line

/-- One line read by an engine in whatever region of plain memory it lies: a customer window that is not ACTIVE gives
poison (R44). -/
def State.engLine (s : State) (line : Nat) : Line × Bool × State :=
  match s.region (64 * line) with
  | .hbm => s.coRead line
  | .far => s.coRead line
  | .site n => if s.rd SYS_CDS_STATUS_n.STATE n = 4 then (s.memLine line, s.poisoned line, s) else (0, true, s)
  | _ => (s.memLine line, s.poisoned line, s)

/-- Masked bytes of one line written by an engine in whatever region of plain memory it lies. -/
def State.engStore (s : State) (line : Nat) (mask : Word) (d : Line) : State :=
  match s.region (64 * line) with
  | .hbm => s.coWrite line mask d
  | .far => s.coWrite line mask d
  | .site n => if s.rd SYS_CDS_STATUS_n.STATE n = 4 then s.setLine line mask d else s
  | _ => (s.setLine line mask d).setPoison line (s.poisoned line && mask != fullMask)

/-- A line whose bytes are known to be poison is written so (R273). -/
def State.engPoison (s : State) (line : Nat) : State :=
  match s.region (64 * line) with
  | .hbm => (s.coWrite line fullMask 0).setPoison line true
  | .far => (s.coWrite line fullMask 0).setPoison line true
  | _ => s.setPoison line true

/-- The bytes of a range as engines read them, lowest first, and whether any line of it was poison. -/
def State.engRead (s : State) (pa len : Nat) : List Byte × Bool × State :=
  (linesOf pa len).foldl
    (fun a line =>
      let (d, p, s') := a.2.2.engLine line
      let m := (lineMask line pa len).toNat
      (a.1 ++ ((List.range 64).filter (fun k => m.testBit k)).map (fun k => Line.byte d k), a.2.1 || p, s'))
    ([], false, s)

/-- Bytes written by an engine from an address upwards, each line in one step (R410). -/
def State.engWrite (s : State) (pa : Nat) (b : List Byte) : State :=
  s.each (linesOf pa b.length) fun s line =>
    let lo := max pa (64 * line)
    s.engStore line (lineMask line pa b.length)
      (BitVec.ofNat 512 (leNat ((b.drop (lo - pa)).take 64) <<< (8 * (lo - 64 * line))))

/-- Words read by an engine. -/
def State.engWords (s : State) (pa n : Nat) : List Word × Bool × State :=
  let (b, p, s) := s.engRead pa (8 * n)
  ((List.range n).map (fun k => BitVec.ofNat 64 (leNat ((b.drop (8 * k)).take 8))), p, s)

/-- The bytes of words, lowest first. -/
def wordBytes (l : List Word) : List Byte := l.flatMap (fun w => natLE 8 w.toNat)

end Sys2Proof.Machine
end

