-- ==== Sys2Proof/Machine/HostExc.lean ====
section
/-! DEFINITION. Exceptions that a host core takes and the forces of strict order that follow them (R384, R388), and the
refusal of an access (R56, R57). -/

namespace Sys2Proof.Machine

/-- The FORCED code in effect: debug, then recovery, then start-up (R388; the priority log entry 33). -/
def HostCore.force (h : HostCore) : Nat :=
  if h.halted || h.debugged then 2 else if h.recov then 3 else if h.start then 1 else 0

/-- Strict order as software and the forces leave it; a change of mode loses the reservation (R380, R388). -/
def State.setStrict (s : State) (c want : Nat) : State :=
  let h := s.host c
  let new := if h.force = 0 then want else 1
  let old := s.rd HC_STRICT.STRICT c
  let s := (s.wr HC_STRICT.FORCED c h.force).wr HC_STRICT.STRICT c new
  if new = old then s else s.setHost c { h with resv := none }

/-- A lost store whose syndrome software has not read waits again while a precise exception takes HC_DEVSYN (R384, log entry
128). -/
def State.shelveLost (s : State) (c : Nat) : State :=
  if s.rd HC_DEVSYN.KIND c = 3 then
    let h := s.host c
    (s.setHost c { h with
      lostQ := (s.rd HC_DEVADDR.PA c, s.rd HC_DEVSYN.CAUSE c, s.rd HC_DEVSYN.COUNT c) :: h.lostQ }).wr HC_DEVSYN.COUNT c 0
  else s

/-- A core takes an exception that R384 adds (R380, R384, R388): a device-access fault starts no recovery. -/
def State.hostExc (s : State) (c kind cause addr : Nat) : State :=
  let s := if kind = 3 then s else s.shelveLost c
  let s := ((s.wr HC_DEVSYN.KIND c kind).wr HC_DEVSYN.CAUSE c cause).wr HC_DEVADDR.PA c addr
  let h := s.host c
  let s := s.setHost c { h with resv := none, recov := h.recov || kind != 1, synRead := h.synRead && kind == 1 }
  s.setStrict c (s.rd HC_STRICT.STRICT c)

/-- A buffered store of a core is lost (1) or refused (2): the exception; counted while an earlier lost store is unread;
pending while a precise exception, or a lost store behind one, is (R384). -/
def State.lostStore (s : State) (c cause addr : Nat) : State :=
  let h := s.host c
  if s.rd HC_DEVSYN.KIND c = 3 then s.bump HC_DEVSYN.COUNT c
  else if s.rd HC_DEVSYN.KIND c = 0 ∧ h.lostQ = [] then s.hostExc c 3 cause addr
  else s.setHost c { h with lostQ := h.lostQ ++ [(addr, cause, 0)] }

/-- An access of an agent is refused with a cause of R57: a host core takes the device-access fault (R46, R56, R384). -/
def State.refuse (s : State) (agent cause pa : Nat) : State :=
  (if isHost agent then s.hostExc (agent - 0x100) 1 cause pa else s).answer agent 0 cause

end Sys2Proof.Machine
end

