-- ==== Sys2Proof/Machine/CoreBase.lean ====
section
/-! DEFINITION. What tensor cores and started commands share below the sync objects: registers of a launch, where issue
goes next, the end of a launch and the exceptions (R126–R131, R160–R166), and the array-operation queue (R87–R89). -/

namespace Sys2Proof.Machine

/-! ### Address registers and loop counters (R126) -/

/-- An address register, A0 reading as zero (R126). -/
def Core.ar (k : Core) (n : Nat) : Word := if n = 0 then 0 else Tab.get (fun _ => 0) k.a n

/-- An address register is written; a write of A0 is discarded (R126). -/
def Core.setA (k : Core) (n : Nat) (v : Word) : Core :=
  if n = 0 then k else { k with a := Tab.put (fun _ => 0) k.a n v }

/-- Loop counter n. -/
def Core.loop (k : Core) (n : Nat) : LoopCtr := Tab.get loopOff k.loops n

/-- Loop counter n is replaced. -/
def Core.setLoop (k : Core) (n : Nat) (l : LoopCtr) : Core := { k with loops := Tab.put loopOff k.loops n l }

/-! ### Commands in flight -/

/-- The started command of a queue with an index. -/
def State.flight (s : State) (q i : Nat) : Option InFlight := s.inflight.find? (fun f => f.q == q && f.i == i)

/-- A started command is replaced. -/
def State.setFlight (s : State) (x : InFlight) : State :=
  { s with inflight := s.inflight.map (fun f => if f.q = x.q ∧ f.i = x.i then x else f) }

/-- Every started command is changed. -/
def State.mapFlights (s : State) (f : InFlight → InFlight) : State := { s with inflight := s.inflight.map f }

/-- A started command completes with a status: it takes its place in the order of completions (R205, R217). -/
def State.finish (s : State) (q i status : Nat) (detail : Nat := 0) (exc flags : Nat := 0) : State :=
  match s.flight q i with
  | none => s
  | some x =>
    if x.status.isSome then s
    else { s with inflight := s.inflight.filter (fun f => !(f.q == q && f.i == i)) ++
                    [{ x with status := some status, detail := detail, exc := exc, flags := flags, fin := s.tb }] }

/-- LAYER of a command's header word (R200). -/
def hdrLayer (w : List Word) : Nat := bitsOf (w.headD 0).toNat 47 32

/-- OPID of a command's header word (R200). -/
def hdrOpid (w : List Word) : Nat := bitsOf (w.headD 0).toNat 63 48

/-! ### Requests that are taken back -/

/-- Whether a KIND is a response (R346). -/
def isResponse (kind : Nat) : Bool := decide (0x41 ≤ kind) && decide (kind ≤ 0x44)

/-- The requests of some askers that have not left the device are discarded: they leave the queue they wait in (R44, R188). -/
def State.dropUnsent (s : State) (whose : Requester → Bool) : State :=
  let mine := s.peerReqs.filter (fun r => whose r.who && r.sent.isNone)
  let stay := fun (port : Nat) (m : Msg) =>
    isResponse m.kind || !mine.any (fun r => r.port == port && r.msg == m)
  { s with
    peerReqs := s.peerReqs.filter (fun r => !(whose r.who && r.sent.isNone))
    links := s.links.map fun (e : Nat × Link) =>
      (e.1, { e.2 with egress := e.2.egress.map fun (q : Nat × List Msg) => (q.1, q.2.filter (stay (0x9000 + e.1))) })
    estreams := s.estreams.map fun (e : Nat × EStream) =>
      (e.1, { e.2 with waiting := e.2.waiting.filter (stay (0x9100 + s.rd LK_EPEER_CFG.PORT (e.1 / 4))) }) }

/-- The requests of some askers are discarded, and the answers of those that have left go to nobody (R44). -/
def State.recallReqs (s : State) (whose : Requester → Bool) : State :=
  let s := s.dropUnsent whose
  { s with peerReqs := s.peerReqs.map fun (r : PeerReq) => if whose r.who then { r with who := .gone } else r }

/-! ### Array operations (R87–R89, R135, R138, R142, R162) -/

/-- ACLK cycles of so many ticks at 1.7 GHz (R23). -/
def aclkOf (ticks : Nat) : Nat := ticks * 17 / 10

/-- The counter selection of a streaming format (R513). -/
def streamSel (fmt : Nat) : Nat :=
  match fmt with
  | 1 => 1 | 2 => 1 | 5 => 3 | 6 => 3 | 7 => 4
  | _ => 2

/-- Bits of an element of a format code of R135. -/
def codeBits (fmt : Nat) : Nat :=
  match fmt with
  | 0 => 32 | 1 => 16 | 2 => 16 | 3 => 8 | 4 => 8 | 5 => 6 | 6 => 6 | 7 => 4 | 8 => 8 | 9 => 32
  | _ => 8

/-- The bytes of n packed elements (R107). -/
def codeBytes (fmt n : Nat) : Nat := (n * codeBits fmt + 7) / 8

/-- K-steps per cycle of a format (R83). -/
def stepsOf (fmt : Nat) : Nat :=
  match fmt with
  | 1 => 1 | 2 => 1 | 7 => 4
  | _ => 2

/-- Cycles that a pass streams (R87, R139). -/
def ArrayOp.cycles (o : ArrayOp) : Nat := (o.k + stepsOf o.fmtA - 1) / stepsOf o.fmtA

/-- The scratchpad ranges that an array operation reads: offset and bytes (R138, R162). -/
def ArrayOp.reads (o : ArrayOp) : List (Nat × Nat) :=
  if o.drain then []
  else
    [(o.aOff, codeBytes o.fmtA (o.k * 128)), (o.bOff, codeBytes o.fmtB (o.k * 128))] ++
    (if o.scaled then [(o.saOff, (o.k + 31) / 32 * 128), (o.sbOff, (o.k + 31) / 32 * 128)] else []) ++
    (if o.init = 2 ∧ !o.filled then [(o.ldOff, 65536)] else [])

/-- The scratchpad ranges that an array operation writes (R142). -/
def ArrayOp.writes (o : ArrayOp) : List (Nat × Nat) :=
  if o.drain then
    (o.aOff, codeBytes o.fmtA 16384) :: (if o.scaled then [(o.saOff, 512)] else [])
  else []

/-- Whether two ranges share a byte. -/
def rangesMeet (a b : Nat × Nat) : Bool := decide (a.1 < b.1 + b.2) && decide (b.1 < a.1 + a.2)

/-- Whether two lists of ranges share a byte. -/
def listsMeet (a b : List (Nat × Nat)) : Bool := a.any (fun x => b.any (rangesMeet x))

/-- The operation that the accumulator port has or takes next, the first in program order that still needs it, and
its place in the queue (R89). -/
def Core.portOp (k : Core) : Option (ArrayOp × Nat) := k.arr.zipIdx.find? (fun e => e.1.drain || !e.1.filled)

/-- Whether the port works on its operation: no earlier pass into the bank is unfinished, and none reads what a drain
writes (R89, R162). -/
def Core.portRuns (k : Core) : Option ArrayOp :=
  match k.portOp with
  | none => none
  | some (o, i) =>
    if (k.arr.take i).any (fun p => !p.drain && (p.bank == o.bank || listsMeet p.reads o.writes)) then none else some o

/-- The pass that streams: the first in program order, its fill complete, no earlier drain of its bank unfinished, and
its operands not still to be written (R89, R162). -/
def Core.streams (k : Core) : Option ArrayOp :=
  match k.arr.zipIdx.find? (fun e => !e.1.drain) with
  | none => none
  | some (o, i) =>
    if o.filled && !(k.arr.take i).any (fun p => p.drain && (p.bank == o.bank || listsMeet p.writes o.reads))
    then some o else none

/-- The operations under way (R165): those whose fill has begun or is complete, the one that streams and the one that
drains. -/
def Core.begun (k : Core) : List ArrayOp :=
  let port := (k.portOp.map Prod.snd).filter (fun _ => k.portRuns.isSome)
  let stream := ((k.arr.zipIdx.find? (fun e => !e.1.drain)).map Prod.snd).filter (fun _ => k.streams.isSome)
  (k.arr.zipIdx.filter (fun e =>
    (!e.1.drain && e.1.filled && e.1.init != 0) || port == some e.2 || stream == some e.2)).map Prod.fst

/-- A list with the first occurrence of an element replaced. -/
def replaceFirst (o o' : ArrayOp) : List ArrayOp → List ArrayOp
  | [] => []
  | x :: r => if x = o then o' :: r else x :: replaceFirst o o' r

/-! ### The end of a launch (R130, R165, R166) -/

/-- Whether an exception code is precise (R164). -/
def preciseCode (code : Nat) : Bool := decide (1 ≤ code) && decide (code ≤ 9)

/-- TC_EXC and TC_EXC_UADDR of a core (R167). -/
def State.writeExc (s : State) (c code pc detail va : Nat) : State :=
  (s.setReg (TC_EXC.CODE.off c)
    (packWord [(0, code), (5, bit (preciseCode code)), (8, pc % 16384), (32, detail % 65536)])).setReg
    (TC_EXC_UADDR.VA.off c) (BitVec.ofNat 64 (va % 2 ^ 48))

/-- The tensor cores whose scratchpads a COPY names (R209). -/
def copyCores (w : List Word) : List Nat :=
  let l := (w.getD 3 0).toNat
  (if l.testBit 40 then [bitsOf (w.getD 1 0).toNat 29 22] else []) ++
  (if l.testBit 41 then [bitsOf (w.getD 2 0).toNat 29 22] else [])

/-- A core has ended its launch (R130, R165, R174): TC_EXC is written, the launch learns its code, FLAGS and PC, the core is
IDLE again unless it is fenced or walled off, and COPY commands in its scratchpad will find the launch gone. The array may
recirculate on (R93). -/
def State.endLaunch (s : State) (c : Nat) (x : ExcRec) (tick : Nat) : State :=
  let k := s.core c
  match k.launch with
  | none => s
  | some l =>
    let flags := s.rd TC_FLAGS.FLAGS c
    let s := s.writeExc c x.code x.pc x.detail x.va
    let s := s.offerCore 2 c (packBits [(0, x.code), (8, flags), (16, x.pc % 16384)])
    let s := s.mapFlights fun f =>
      if f.q = l.q ∧ f.i = l.i ∧ f.status.isNone then
        { f with ends := f.ends ++ [⟨c, x.code, flags, x.pc, tick, x.seen⟩] }
      else if f.kind = 2 ∧ f.status.isNone ∧ (copyCores f.words).contains c then
        { f with spGone := c :: f.spGone }
      else f
    let s := s.setCore c { k with launch := none, loaded := false, ended := false, copies := [], acking := [], held := [],
                                  swait := none, was := some l }
    let s := s.wr TC_COPY_STATUS.INFLIGHT c 0
    if s.rd TC_STATUS.STATE c = 2 then s.wr TC_STATUS.STATE c 1 else s

/-- A core that has stopped reports its end once no array operation is left under way (R165). -/
def State.tryEnd (s : State) (c : Nat) : State :=
  let k := s.core c
  if k.ended && k.arr.isEmpty then s.endLaunch c k.exc k.excTick else s

/-- Of two exceptions of one tick: whether the second takes the place of the first (R166; one cycle is taken as one
tick, log entry 21). -/
def excPrevails (new cur : Nat) : Bool := cur != 0 && cur != 16 && (new == 16 || decide (new < cur))

/-- The copies of a core that an exception abandons: those in flight (R188). -/
def Core.flies (k : Core) (c : Nat) : Requester → Bool
  | .copy c' n => c' == c && k.copies.any (fun o => o.k == n)
  | .load c' => c' == c
  | _ => false

/-- A core raises an exception (R165, R166): issue stops; array operations that have not begun, copies in flight with the
lines they have not sent, and held signals are dropped; the end is reported, and TC_EXC written, once the work under way is
complete. In the cycle of an earlier exception the one that prevails is recorded, or, of two COPY_FAULTs, the one that the
flag says is of the copy issued earlier (R187). -/
def State.raise (s : State) (c code pc detail : Nat) (va : Nat := 0) (earlier : Bool := false) : State :=
  let k := s.core c
  let x : ExcRec := ⟨code, pc, detail, va, s.now⟩
  let wins := fun (cur : Nat) => excPrevails code cur || (earlier && cur == code)
  match k.launch with
  | some _ =>
    if k.ended then
      if k.exc.seen = s.now ∧ wins k.exc.code then s.setCore c { k with exc := x } else s
    else
      let s := (s.dropUnsent (k.flies c)).wr TC_COPY_STATUS.INFLIGHT c 0
      let s := { s with waiters := s.waiters.filter (fun (w : Waiter) => decide (w.who ≠ WaiterId.core c)) }
      (s.setCore c { k with ended := true, excTick := s.tb, exc := x, arr := k.begun, dropped := k.copies, copies := [],
                            held := [], swait := none }).tryEnd c
  | none =>
    let late := fun (e : EndRec) => e.core == c && e.seen == s.now && wins e.code
    if s.inflight.any (fun f => f.status.isNone && f.ends.any late) then
      (s.writeExc c code pc detail va).mapFlights fun f =>
        { f with ends := f.ends.map fun e => if late e then { e with code := code, pc := pc } else e }
    else s

/-- The array operations of a core are discarded; a pass that streams is abandoned after the cycles it has streamed (R91,
R102, R103; nominal ACLK, log entry 26). -/
def State.dropArr (s : State) (c : Nat) : State :=
  let k := s.core c
  let s := s.setCore c { k with arr := [] }
  match if s.flag TC_STATUS.RECIRC c then none else k.streams with
  | some o =>
    let n := min o.cycles (aclkOf (s.now - k.streamAt))
    (s.bumpWrap TC_CYC_STREAM.COUNT c n).pmcCore c (streamSel o.fmtA) n o.layer
  | none => s

/-- Recirculation stops, its cycles so far counted (R91, R95; nominal ACLK, log entry 26). -/
def State.stopRecirc (s : State) (c : Nat) : State :=
  let k := s.core c
  if s.flag TC_STATUS.RECIRC c then
    ((s.bumpWrap TC_CYC_RECIRC.COUNT c (min k.recircMax (aclkOf (s.now - k.recircAt)))).setCore c
      { k with streamAt := s.now }).wr TC_STATUS.RECIRC c 0
  else s

/-! ### Where issue goes next (R159, R160) -/

/-- The next PC after the instruction at one, through the back edges of the loops of the depths given that end
there: a loop with iterations left goes round, another ends (R160). -/
def Core.nextPc (k : Core) (pc : Nat) : List Nat → Core × Nat
  | [] => (k, pc + 1)
  | d :: r =>
    match (List.range 4).find? (fun n => (k.loop n).on && (k.loop n).depth == d && (k.loop n).last == pc) with
    | none => k.nextPc pc r
    | some n =>
      let l := k.loop n
      if 1 < l.left then (k.setLoop n { l with left := l.left - 1 }, l.first)
      else (k.setLoop n (loopOff n)).nextPc pc r

/-- PROG_LEN of a core's launch. -/
def Core.progLen (k : Core) : Nat := (k.launch.map (·.progLen)).getD 0

/-- Issue goes to a PC; past the program's end it raises PC_BOUNDS at the last instruction (R159; the PC log entry
22). -/
def State.goPc (s : State) (c pc : Nat) : State :=
  let len := (s.core c).progLen
  if pc < len then s.wr TC_PC.PC c pc else s.raise c 2 (len - 1) 0

/-- Issue passes the instruction at a PC. -/
def State.passPc (s : State) (c pc : Nat) : State :=
  let r := (s.core c).nextPc pc [4, 3, 2, 1]
  (s.setCore c r.1).goPc c r.2

end Sys2Proof.Machine
end

