-- ==== Sys2Proof/Machine/SyncOps.lean ====
section
/-! DEFINITION. The operations on sync objects with their waiters and triggers (R245–R258), and the writing of
record rings (R285, R500). -/

namespace Sys2Proof.Machine

/-- One of the four conditions of R248, unsigned. -/
def condHolds (cond : Nat) (val v : Word) : Bool :=
  match cond with
  | 0 => decide (v.toNat ≤ val.toNat)
  | 1 => val == v
  | 2 => val != v
  | _ => decide (val.toNat < v.toNat)

/-! ### Sync objects -/

/-- The ticks a wait took, as its trace event gives them (R509). -/
def waitArg (obj : Nat) (timedOut : Bool) (ticks : Nat) : Nat :=
  packBits [(0, obj), (16, bit timedOut), (32, min ticks (2 ^ 32 - 1))]

/-- A satisfied waiter is released: the core's SWAIT ends and the core issues again, or the queue's WAIT completes
(R154, R211, R248). -/
def State.release (s : State) (w : Waiter) : State :=
  match w.who with
  | .core c =>
    let k := s.core c
    let k' := { (match k.swait with
      | some r => if r.onto then k.setA r.dx 0 else k
      | none => k) with swait := none }
    ((s.setCore c k').offerCore 7 c (waitArg w.obj false (s.now - w.start))).passPc c (s.rd TC_PC.PC c)
  | .queue q =>
    match s.inflight.find? (fun f => f.q == q && f.kind == 5 && f.status.isNone) with
    | none => s
    | some f =>
      (s.finish q f.i 0).offerQueue 7 q (waitArg w.obj false (s.now - w.start)) (hdrLayer f.words) (hdrOpid f.words)

/-- Whether a wait's window still runs (R250). -/
def Waiter.open (w : Waiter) (now : Nat) : Bool := w.tlog2 == 0 || decide (now < w.start + 2 ^ w.tlog2)

/-- The waiters of an object that a value satisfies are removed and released, in the order they registered. -/
def State.wake (s : State) (obj : Nat) (val : Word) : State :=
  let hit := fun (w : Waiter) => w.obj == obj && condHolds w.cond val w.v && w.open s.now
  let s' := { s with waiters := s.waiters.filter (fun w => !hit w) }
  s'.each (s.waiters.filter hit) State.release

/-- An object number is pushed to a host core's events; a push into 16 is dropped and sets LOST (R258). -/
def State.pushEvent (s : State) (c obj : Nat) : State :=
  let l := Tab.get (fun _ => []) s.events c
  if l.length < 16 then
    { s with events := Tab.put (fun _ => []) s.events c (l ++ [obj]), eventIrq := Tab.put (fun _ => false) s.eventIrq c true }
  else { s with eventLost := Tab.put (fun _ => false) s.eventLost c true }

/-- An object's trigger fires (R254, R256): an advance is on its way to its queue, or the event is pushed. -/
def State.fire (s : State) (obj : Nat) : State :=
  let s := (s.wr SY_TRIG_CFG.FIRED obj 1).bump SY_STAT.FIRES obj
  let step := s.reg (SY_TRIG_STEP.STEP.off obj)
  let s := if step = 0 then s.wr SY_TRIG_CFG.ARM obj 0
    else s.setReg (SY_TRIG_VALUE.VALUE.off obj) (s.reg (SY_TRIG_VALUE.VALUE.off obj) + step)
  let target := s.rd SY_TRIG_CFG.TARGET obj
  if s.flag SY_TRIG_CFG.ACTION obj then s.pushEvent target obj
  else { s with advances := s.advances ++ [(target, s.rd SY_TRIG_CFG.ADVANCE obj)] }

/-- The trigger of an object is evaluated once (R254, R255). -/
def State.evalTrigger (s : State) (obj : Nat) : State :=
  if s.flag SY_TRIG_CFG.ARM obj && !s.flag SY_TRIG_CFG.REFUSED obj &&
      condHolds (s.rd SY_TRIG_CFG.COND obj) (s.reg (SY_VAL.VALUE.off obj)) (s.reg (SY_TRIG_VALUE.VALUE.off obj))
  then s.fire obj else s

/-- The value an operation gives an object (R246). -/
def syNew (set : Bool) (old v : Word) : Word := if set then v else old + v

/-- One operation performed on an object: its new VALUE, then its waiters, then its trigger (R246, R248, R254). -/
def State.syPerform (s : State) (obj : Nat) (set : Bool) (v : Word) : State :=
  let val := syNew set (s.reg (SY_VAL.VALUE.off obj)) v
  ((s.setReg (SY_VAL.VALUE.off obj) val).wake obj val).evalTrigger obj

/-- An add of 1, as notifications make it. -/
def State.syAddOne (s : State) (obj : Nat) : State := s.syPerform obj false 1

/-- Whether an agent may operate on an object: a context's by the partition match, another by a write of the object's
SY_ADD (R245, R443). -/
def State.mayOperate (s : State) (agent obj : Nat) : Bool :=
  match s.subject agent with
  | .context c => s.objAdmits c obj
  | _ => s.admits agent true (regBase + SY_ADD.V.off obj) 8

/-- An add of 1 that the device makes for an agent, when the agent is admitted to the object (R245, R535). -/
def State.notify (s : State) (agent obj : Nat) : State := if s.mayOperate agent obj then s.syAddOne obj else s

/-- The SIGNAL event's ARG (R509). -/
def signalArg (obj : Nat) (val : Word) : Nat := packBits [(0, obj), (16, val.toNat % 2 ^ 48)]

/-! ### Record rings (R285, R535) -/

/-- A record ring: where its registers lie, the number it has in the model (0 translation faults, 1 HBM errors,
2 throttle log, 3 resets, 4 faults, 5 + n trace ring n) and the bytes of one entry. -/
structure Ring where
  /-- number -/
  num : Nat
  /-- index of its registers -/
  idx : Nat
  /-- base page -/
  base : Fld
  /-- entries -/
  entries : Fld
  /-- object raised -/
  sync : Fld
  /-- whether it is raised -/
  notify : Fld
  /-- enable -/
  enable : Fld
  /-- head index -/
  head : Fld
  /-- tail index -/
  tail : Fld
  /-- lost count -/
  lost : Fld
  /-- bytes of an entry -/
  size : Nat
  deriving DecidableEq, Repr

/-- The record ring of a number. -/
def ringOf (n : Nat) : Ring :=
  match n with
  | 0 => ⟨0, 0, TR_FAULT_RING.BASE, TR_FAULT_CFG.ENTRIES, TR_FAULT_CFG.NOTIFY_SYNC, TR_FAULT_CFG.NOTIFY,
          TR_FAULT_CFG.ENABLE, TR_FAULT_HEAD.HEAD, TR_FAULT_STATUS.TAIL, TR_FAULT_STATUS.LOST, 64⟩
  | 1 => ⟨1, 0, HM_ERR_RING.BASE, HM_ERR_CFG.ENTRIES, HM_ERR_CFG.NOTIFY_SYNC, HM_ERR_CFG.NOTIFY,
          HM_ERR_CFG.ENABLE, HM_ERR_HEAD.HEAD, HM_ERR_STATUS.TAIL, HM_ERR_STATUS.LOST, 32⟩
  | 2 => ⟨2, 0, SLU_LOG_RING.BASE, SLU_LOG_CFG.ENTRIES, SLU_LOG_CFG.NOTIFY_SYNC, SLU_LOG_CFG.NOTIFY,
          SLU_LOG_CFG.ENABLE, SLU_LOG_HEAD.HEAD, SLU_LOG_STATUS.TAIL, SLU_LOG_STATUS.LOST, 32⟩
  | 3 => ⟨3, 0, DBG_RST_RING.BASE, DBG_RST_CFG.ENTRIES, DBG_RST_CFG.NOTIFY_SYNC, DBG_RST_CFG.NOTIFY,
          DBG_RST_CFG.ENABLE, DBG_RST_HEAD.HEAD, DBG_RST_STATUS.TAIL, DBG_RST_STATUS.LOST, 1024⟩
  | 4 => ⟨4, 0, DBG_FLT_RING.BASE, DBG_FLT_CFG.ENTRIES, DBG_FLT_CFG.NOTIFY_SYNC, DBG_FLT_CFG.NOTIFY,
          DBG_FLT_CFG.ENABLE, DBG_FLT_HEAD.HEAD, DBG_FLT_STATUS.TAIL, DBG_FLT_STATUS.LOST, 32⟩
  | k => ⟨k, k - 5, TRC_RING_BASE.BASE, TRC_RING_CFG.ENTRIES, TRC_RING_CFG.NOTIFY_SYNC, TRC_RING_CFG.NOTIFY,
          TRC_RING_CFG.ENABLE, TRC_RING_HEAD.HEAD, TRC_RING_STATUS.TAIL, TRC_RING_STATUS.SPILLS, 32⟩

/-- A difference of two free-running indices (R196). -/
def idxDiff (a b : Nat) : Nat := (a + 2 ^ 32 - b % 2 ^ 32) % 2 ^ 32

/-- Whether a ring is in use: enabled, and its check passed (R285). -/
def State.ringInUse (s : State) (r : Ring) : Bool :=
  s.flag r.enable r.idx && !Tab.get (fun _ => false) s.ringBad r.num

/-- Free entries of a ring. -/
def State.ringFree (s : State) (r : Ring) : Nat :=
  s.rd r.entries r.idx - idxDiff (s.rd r.tail r.idx) (s.rd r.head r.idx)

/-- The address of the entry that a ring writes next. -/
def State.ringSlot (s : State) (r : Ring) : Nat :=
  s.rd r.base r.idx * 4096 + s.rd r.tail r.idx % max (s.rd r.entries r.idx) 1 * r.size

/-- One entry is written at a ring's tail, followed by its NOTIFY add; whether the write was admitted to the agent
that the ring latched (R285, R535). -/
def State.ringPut (s : State) (r : Ring) (w : List Word) : Bool × State :=
  let a := s.ringSlot r
  if s.plainOk (s.subject (Tab.get (fun _ => 0) s.ringAgent r.num)) true a r.size then
    let s := (s.engWrite a (wordBytes w)).bumpWrap r.tail r.idx
    (true, if s.flag r.notify r.idx then s.notify (Tab.get (fun _ => 0) s.ringAgent r.num) (s.rd r.sync r.idx) else s)
  else (false, s)

/-- A record reaches a ring: written, or counted as lost when the ring is full, not enabled, not in use or refused
(R285; a refused write log entry 19). -/
def State.ringRecord (s : State) (n : Nat) (w : List Word) : State :=
  let r := ringOf n
  if s.ringInUse r && decide (0 < s.ringFree r) then
    match s.ringPut r w with
    | (true, s) => s
    | (false, s) => s.bump r.lost r.idx
  else s.bump r.lost r.idx

/-- A fault record (R500), with the FAULT trace event of its agent (log entry 15). -/
def State.faultRecord (s : State) (kind unit : Nat) (ctx agent addr detail : Nat) : State :=
  (s.ringRecord 4 [BitVec.ofNat 64 s.tb, packWord [(0, kind), (8, unit), (24, ctx), (48, agent)],
      BitVec.ofNat 64 addr, BitVec.ofNat 64 detail]).offer 21 0 agent 0
    (packBits [(0, kind), (32, detail % 2 ^ 32)]) ctx

/-- An HBM error record (R285). -/
def State.hbmRecord (s : State) (kind pa chan source symbol agent count detail : Nat) : State :=
  s.ringRecord 1 [BitVec.ofNat 64 s.tb, packWord [(0, pa), (52, chan)],
    packWord [(0, kind), (4, source), (8, symbol), (16, agent), (32, count)], BitVec.ofNat 64 detail]

end Sys2Proof.Machine
end

