-- ==== Sys2Proof/Machine/QueueOps.lean ====
section
/-! DEFINITION. The shared operations of queues and of translation: completion entries, parking, the walk and its
cache, open faults (R190–R244, R536). -/

namespace Sys2Proof.Machine

/-! ### Indices, states and completion entries -/

/-- HEAD of a queue. -/
def State.qHead (s : State) (q : Nat) : Nat := s.rd QE_Q_STATUS.HEAD q

/-- TAIL − HEAD (R196). -/
def State.qAvail (s : State) (q : Nat) : Nat := idxDiff (s.rd QE_DB_TAIL.TAIL q) (s.qHead q)

/-- CLASS of a queue as it stands (R193). -/
def State.qClass (s : State) (q : Nat) : Nat := s.rd QE_Q_SCHED.CLASS q

/-- The class of the queue whose command a core's launch is (R193). -/
def State.coreCls (s : State) (c : Nat) : Nat := ((s.core c).launch.map fun l => s.qClass l.q).getD 0

/-- The queue is ACTIVE (R190). -/
def State.qActive (s : State) (q : Nat) : Bool := s.rd QE_Q_STATUS.STATE q == 1

/-- The queue is PARKED (R199). -/
def State.qParked (s : State) (q : Nat) : Bool := s.rd QE_Q_STATUS.STATE q == 2

/-- Commands of a queue started and not complete (R190). -/
def State.qInflight (s : State) (q : Nat) : Nat :=
  (s.inflight.filter (fun f => f.q == q && f.status.isNone)).length

/-- Whether every started command of a queue is complete (R213). -/
def State.qQuiet (s : State) (q : Nat) : Bool := s.qInflight q == 0

/-- Completion entries of a queue that its consumer has freed (R198). -/
def State.cqRoom (s : State) (q : Nat) : Nat :=
  s.rd QE_Q_CQ_CFG.ENTRIES q - idxDiff (s.rd QE_DB_STATUS.CQ_TAIL q) (s.rd QE_DB_CQ_HEAD.CQ_HEAD q)

/-- Free completion entries of a queue, its reserved ones not counted (R215). -/
def State.cqFree (s : State) (q : Nat) : Nat :=
  s.cqRoom q - (s.inflight.filter (fun f => f.q == q)).length - (s.queue q).heldCq.length

/-- The words of a completion entry but for PHASE (R217). -/
def entryWords (kind status exc layer opid index flags time detail : Nat) : List Word :=
  [packWord [(8, kind), (16, status), (24, exc), (32, layer), (48, opid)],
   packWord [(0, index), (32, flags)], BitVec.ofNat 64 time, BitVec.ofNat 64 detail]

/-- The address of a queue's next completion entry. -/
def State.cqSlot (s : State) (q : Nat) : Nat :=
  s.rd QE_Q_CQ_BASE.BASE q * 4096 +
    s.rd QE_DB_STATUS.CQ_TAIL q % s.rd QE_Q_CQ_CFG.ENTRIES q * 32

/-- PHASE of the entry a queue writes next (R217). -/
def State.cqPhase (s : State) (q : Nat) : Nat :=
  (s.rd QE_DB_STATUS.CQ_TAIL q / s.rd QE_Q_CQ_CFG.ENTRIES q + 1) % 2

/-- One entry is written at CQ_TAIL, followed by its NOTIFY add; whether the write was neither refused nor poisoned
(R217, R536). -/
def State.cqTry (s : State) (q : Nat) (w : List Word) : Bool × State :=
  let a := s.cqSlot q
  if s.plainOk (s.subject (0x4000 + q)) true a 32 && !s.poisoned (a / 64) then
    let w' := match w with
      | [] => []
      | h :: r => (h ||| BitVec.ofNat 64 (s.cqPhase q)) :: r
    let s := (s.engWrite a (wordBytes w')).bumpWrap QE_DB_STATUS.CQ_TAIL q
    (true, if s.flag QE_Q_CQ_CFG.NOTIFY q then s.notify (0x4000 + q) (s.rd QE_Q_CQ_CFG.NOTIFY_SYNC q) else s)
  else (false, s)

/-- The queue event record of a park (R217); its LAYER, OPID and DETAIL are 0 and its TIME the tick of the park, which the
manual leaves open (log entry 132). -/
def State.eventWords (s : State) (q reason : Nat) : List Word :=
  entryWords 0 reason 0 0 0 (s.qHead q) 0 s.tb 0

/-- STATE and REASON of a queue. -/
def State.qSet (s : State) (q st reason : Nat) : State :=
  (s.wr QE_Q_STATUS.STATE q st).wr QE_Q_STATUS.REASON q reason

/-- An entry reaches the completion ring: written; or held behind earlier ones that are held, or while no entry is free (R198,
R215, log entry 130); or held because its write fails, and then the queue parks with CQ_DENIED and the record of that park is
held too (R536). -/
def State.cqPut (s : State) (q : Nat) (w : List Word) : State :=
  let x := s.queue q
  if !x.heldCq.isEmpty then s.setQueue q { x with heldCq := x.heldCq ++ [w] }
  else if s.cqRoom q = 0 then s.setQueue q { x with heldCq := [w], cqFull := true }
  else
    match s.cqTry q w with
    | (true, s) => s
    | (false, s) =>
      if s.qParked q then s.setQueue q { x with heldCq := [w], cqFull := false }
      else (s.setQueue q { x with heldCq := [w, s.eventWords q 8], cqFull := false }).qSet q 2 8

/-- The command at HEAD of a queue has started and is still at HEAD: a COPY with descriptors left (R233). -/
def State.headBusy (s : State) (q : Nat) : Bool :=
  match (s.queue q).fetched with
  | [] => false
  | f :: _ => (s.flight q f.i).isSome

/-- The context that the command at HEAD of a queue is walked for. -/
def State.headTag (s : State) (q : Nat) : Nat :=
  match (s.queue q).fetched with
  | [] => s.rd QE_Q_CFG.CONTEXT q
  | f :: _ => ((s.flight q f.i).map (·.ctx)).getD (s.rd QE_Q_CFG.CONTEXT q)

/-- A queue parks: STATE, REASON and a queue event record. A queue already PARKED keeps its first REASON, but a
context reset replaces it; a COPY that has started goes on (R199, log entry 119). -/
def State.park (s : State) (q reason : Nat) : State :=
  if s.qParked q && reason != 7 then s
  else
    let s := s.setQueue q { s.queue q with
      chosen := (s.queue q).chosen && s.headBusy q, reread := none, released := none }
    (s.qSet q 2 reason).cqPut q (s.eventWords q reason)

/-- Held entries are written again, in order, as far as the ring takes them (R198, R536). -/
def State.cqFlush (s : State) (q : Nat) : List (List Word) → State
  | [] => s.setQueue q { s.queue q with heldCq := [] }
  | w :: r =>
    if s.cqRoom q = 0 then s.setQueue q { s.queue q with heldCq := w :: r, cqFull := true }
    else
      match s.cqTry q w with
      | (true, s) => s.cqFlush q r
      | (false, s) => s.setQueue q { s.queue q with heldCq := w :: r, cqFull := false }

/-! ### Fetching -/

/-- GEN that a command of index i must carry (R202). -/
def genOf (i slots : Nat) : Nat := (i / slots + 1) % 65536

/-- The slots that a header word occupies (R205, R206). -/
def slotsOf (h : Word) : Nat :=
  match bitsOf h.toNat 23 16 with
  | 1 => 2
  | 3 => 1 + bitsOf h.toNat 24 24
  | _ => 1

/-- The index of the next command to fetch: HEAD and the slots of the commands fetched. -/
def State.nextFetch (s : State) (q : Nat) : Nat :=
  (s.qHead q + ((s.queue q).fetched.map (fun f => slotsOf (f.words.headD 0))).sum) % 2 ^ 32

/-- A queue at whose HEAD the GEN value has failed the first read and eight re-reads parks with DOORBELL_AHEAD
(R203). -/
def State.parkAhead (s : State) (q : Nat) : State :=
  match (s.queue q).reread with
  | some (i, _, n) => if 8 ≤ n ∧ s.qHead q = i then s.park q 1 else s
  | none => s

/-- A queue without its command at HEAD and without what was noted of it. -/
def QState.dropHead (x : QState) : QState :=
  { x with fetched := x.fetched.tail, chosen := false, copyDone := 0, refusedAt := none, blocking := false,
           refusedWhy := none, heldWhy := none, gates := [], evaluated := false, released := none }

/-- The hold of the launch at HEAD by some rills ends, and its ticks are counted (R312). -/
def State.ungate (s : State) (q : Nat) (rills : List Nat) : State :=
  let x := s.queue q
  let s := s.each (x.gates.filter fun g => rills.contains g.1) fun s g =>
    s.bumpWrap TIER_RILL_GATED.GATED_TICKS g.1 (s.now - g.2)
  s.setQueue q { s.queue q with gates := x.gates.filter fun g => !rills.contains g.1 }

/-- HEAD passes the command at it (R214). -/
def State.passHead (s : State) (q : Nat) : State :=
  match (s.queue q).fetched with
  | [] => s
  | f :: _ =>
    let s := s.ungate q ((s.queue q).gates.map Prod.fst)
    ((s.setQueue q (s.queue q).dropHead).wr QE_Q_STATUS.HEAD q
      (s.qHead q + slotsOf (f.words.headD 0))).parkAhead q

/-- A list with the numbers of another that it lacks. -/
def addNew (l new : List Nat) : List Nat := new.foldl (fun l n => if l.contains n then l else l ++ [n]) l

/-- A command of a queue starts, or is complete from the start when it has a status (R213, R214). -/
def State.start (s : State) (q : Nat) (f : Fetched) (status : Option Nat) (detail : Nat)
    (exts : List Extent := []) : State :=
  let x : InFlight :=
    { q := q, i := f.i, kind := bitsOf (f.words.headD 0).toNat 23 16, words := f.words, status := status, exc := 0,
      flags := 0, detail := detail, start := s.now, fin := s.tb, ctx := s.rd QE_Q_CFG.CONTEXT q,
      begun := false, exts := exts, descs := [],
      whole := false, done := 0, ends := [], claims := [], need := 0, lost := 0, gone := [], poison := [], aborted := [], spSent := [],
      denied := none, abandoned := false, spGone := [] }
  { s with inflight := s.inflight ++ [x] }

/-- The event of a command's start (R509). -/
def State.traceStart (s : State) (q : Nat) (f : Fetched) : State :=
  (s.offerQueue 3 q (packBits [(0, bitsOf (f.words.headD 0).toNat 23 16), (32, f.i)])
    (hdrLayer f.words) (hdrOpid f.words)).pmcHub (hubOfQueue q) 64 (some (s.rd QE_Q_CFG.CONTEXT q))
    (some (hdrLayer f.words))

/-- The command at HEAD completes without starting: with an error status its entry follows (R214). -/
def State.failHead (s : State) (q : Nat) (status detail : Nat) : State :=
  match (s.queue q).fetched with
  | [] => s
  | f :: _ => (s.start q f (some status) detail).passHead q

/-! ### The walk (R220–R229) -/

/-- What a walk answers: a leaf's physical address for the virtual one, its size and W; or a failure's kind, level. -/
inductive WalkRes
  | leaf (pa size : Nat) (w : Bool) | fault (kind level : Nat)
  deriving DecidableEq, Repr

/-- Whether an entry breaks the format at a level (R222). -/
def badFormat (pte : Nat) (level : Nat) : Bool :=
  bitsOf pte 11 10 != 0 || bitsOf pte 63 59 != 0 || (level == 0 && !bitOf pte 1) || (level == 3 && !bitOf pte 1) ||
    (level == 1 && !bitOf pte 1 && bitsOf pte 29 12 != 0) || (level == 2 && !bitOf pte 1 && bitsOf pte 20 12 != 0)

/-- The span of an entry of a level (R220). -/
def spanOf (level : Nat) : Nat := 2 ^ (39 - 9 * level)

/-- The level of a leaf of a size. -/
def levelOf (size : Nat) : Nat := (39 - size.log2) / 9

/-- A hub's cached leaves. -/
def State.leaves (s : State) (h : Nat) : List WcLeaf := Tab.get (fun _ => []) s.wcLeaf h

/-- A hub's cached pointers. -/
def State.ptrs (s : State) (h : Nat) : List WcPtr := Tab.get (fun _ => []) s.wcPtr h

/-- A leaf enters a hub's cache, the oldest leaving when it is full (R229, log entry 20). -/
def State.addLeaf (s : State) (h : Nat) (x : WcLeaf) : State :=
  { s with wcLeaf := Tab.put (fun _ => []) s.wcLeaf h
             ((x :: (s.leaves h).filter (fun y => !(y.tag == x.tag && y.va == x.va && y.size == x.size))).take 16384) }

/-- A pointer enters a hub's cache. -/
def State.addPtr (s : State) (h : Nat) (x : WcPtr) : State :=
  { s with wcPtr := Tab.put (fun _ => []) s.wcPtr h ((x :: s.ptrs h).take 2048) }

/-- A and, for a write, D are set in a leaf's entry by an atomic OR at its home, if they are not set (R223). -/
def State.setAD (s : State) (pte : Nat) (write : Bool) : State :=
  let m := if write then 0x60 else 0x20
  let (d, _, _) := s.coRead (pte / 64)
  let b := (Line.byte d (pte % 64)).toNat
  if b &&& m = m then s
  else
    let s := s.coTake (pte / 64)
    if s.poisoned (pte / 64) then s
    else s.storeLine (pte / 64) (maskOf (pte % 64) 1) (BitVec.ofNat 512 ((b ||| m) <<< (8 * (pte % 64))))

/-- The line of a table that holds an entry, read by a walk of a tag: none on a refusal or poison (R222, R228, R230). -/
def State.readTable (s : State) (tag a : Nat) : Option Line × State :=
  if s.plainOk (.context tag) false a 8 then
    let (d, p, s) := s.engLine (a / 64)
    (if p then none else some d, s)
  else (none, s)

/-- The entry of number j of a line of a table. -/
def entryOf (d : Line) (j : Nat) : Nat := (d.toNat >>> (64 * j)) % 2 ^ 64

/-- One table entry read by a walk of a tag: its value, none on a refusal or poison (R222, R228). -/
def State.readPte (s : State) (tag a : Nat) : Option Nat × State :=
  match s.readTable tag a with
  | (some d, s) => (some (entryOf d (a % 64 / 8)), s)
  | (none, s) => (none, s)

/-- Whether an entry of a level is a valid leaf that engines may use (R221, R222). -/
def goodLeaf (pte level : Nat) : Bool :=
  bitOf pte 0 && !badFormat pte level && !(bitOf pte 1 && decide (level < 3)) && bitOf pte 7

/-- The other leaves of the line that a walk has read enter its hub's cache: a read yields up to 8 (R230). -/
def State.addLine (s : State) (hub tag va level a : Nat) (d : Line) : State :=
  let span := spanOf level
  let at_ := a % 64 / 8
  s.each ((List.range 8).filter fun j => j != at_ && goodLeaf (entryOf d j) level) fun s j =>
    let pte := entryOf d j
    s.addLeaf hub ⟨tag, (va / span - at_ + j) * span, span, bitsOf pte 51 12 * 4096, bitOf pte 2, bitOf pte 6,
      a - 8 * at_ + 8 * j⟩

/-- The walk from a level down: `look` is a walk ahead or a look at a next page, which neither sets A or D nor faults
(R227, R228, R233). -/
def State.walkFrom (s : State) (hub tag va : Nat) (write look : Bool) : List Nat → Nat → WalkRes × State
  | [], _ => (.fault 3 3, s)
  | level :: rest, table =>
    let span := spanOf level
    match (s.ptrs hub).find? (fun p => p.tag == tag && p.level == level && p.va == va / span * span) with
    | some p => (s.bump TR_WALK_HIT.COUNT 0).walkFrom hub tag va write look rest p.table
    | none =>
      let a := table + 8 * (va / span % 512)
      let s := (s.bump TR_WALK_MISS.COUNT 0).pmcHub hub 65 (some tag)
      match s.readTable tag a with
      | (none, s) => (.fault 4 level, s)
      | (some d, s) =>
        let pte := entryOf d (a % 64 / 8)
        if !bitOf pte 0 then (.fault 0 level, s)
        else if badFormat pte level then (.fault 3 level, s)
        else
          let next := bitsOf pte 51 12 * 4096
          if bitOf pte 1 && decide (level < 3) then
            (s.addPtr hub ⟨tag, level, va / span * span, next⟩).walkFrom hub tag va write look rest next
          else if !bitOf pte 7 then (.fault 1 level, s)
          else if write && !bitOf pte 2 then (.fault 2 level, s)
          else
            let s := (s.addLine hub tag va level a d).addLeaf hub ⟨tag, va / span * span, span, next, bitOf pte 2,
              bitOf pte 6 || (write && !look), a⟩
            (.leaf (next + va % span) span (bitOf pte 2), if look then s else s.setAD a write)

/-- The walk of one virtual address for a tag, in a hub's walk cache (R228, R229). -/
def State.walk1 (s : State) (hub tag va : Nat) (write look : Bool) : WalkRes × State :=
  if !s.flag TR_CTX.VALID tag || s.flag TR_CTX.REFUSED tag then (.fault 5 0, s)
  else
    match (s.leaves hub).find? (fun x => x.tag == tag && decide (x.va ≤ va) && decide (va < x.va + x.size)) with
    | some x =>
      let s := s.bump TR_WALK_HIT.COUNT 0
      if write && !x.w then (.fault 2 (levelOf x.size), s)
      else
        let s := if look then s else s.setAD x.pte write
        (.leaf (x.pa + (va - x.va)) x.size x.w,
          if write && !look && !x.d then s.addLeaf hub { x with d := true } else s)
    | none => s.walkFrom hub tag va write look [0, 1, 2, 3] (s.rd TR_CTX.ROOT tag * 4096)

/-- What a translation answers: extents; a failed walk's kind, level and address; or the first denied address. -/
inductive XlateRes
  | ok (exts : List Extent) | fault (kind level va : Nat) | denied (va : Nat)
  deriving DecidableEq, Repr

/-- The end of the region that holds an address. -/
def State.regionEnd (s : State) (pa : Nat) : Nat :=
  match s.region pa with
  | .hbm => 0xBE80000000
  | .far => farBase + s.rd TIER_STATUS.FAR_GIB * 2 ^ 30
  | .peer => 0x2000000000000
  | .keep => keepBase + 0x4000000
  | .site n => siteBase + n * 0x100000000 + s.siteSize n
  | .regs => (pa / 4096 + 1) * 4096
  | _ => pa

/-- The first page from one that no rule covers. -/
def firstUncovered (wr : Bool) (rs : List DikeRule) : Nat → Nat → Nat
  | 0, page => page
  | n + 1, page => let e := reachOf wr page rs; if e ≤ page then page else firstUncovered wr rs n e

/-- The first physical address from one that the dike table denies to a context; beyond the range when none is. -/
def State.firstDenied (s : State) (tag : Nat) (wr : Bool) (pa : Nat) : Nat :=
  let rs := s.dike.rules.filter (fun r => s.ruleNames r (.context tag))
  max pa (min (s.regionEnd pa) (firstUncovered wr rs (rs.length + 1) (pa / 4096) * 4096))

/-- A run of a leaf joins the last extent when it continues it, and otherwise opens one (R231). -/
def addRun (exts : List Extent) (va pa len : Nat) (w : Bool) : List Extent :=
  match exts.getLast? with
  | some e =>
    if e.va + e.len = va ∧ e.pa + e.len = pa ∧ e.w = w then exts.dropLast ++ [{ e with len := e.len + len }]
    else exts ++ [⟨va, pa, len, w⟩]
  | none => [⟨va, pa, len, w⟩]

/-- The translation of a range for a tag (R228, R231): fuel bounds the leaves. -/
def State.translateFrom (s : State) (hub tag : Nat) (write : Bool) (stop : Nat) :
    Nat → Nat → List Extent → XlateRes × State
  | 0, _, exts => (.ok exts, s)
  | n + 1, va, exts =>
    if stop ≤ va then (.ok exts, s)
    else
      match s.walk1 hub tag va write false with
      | (.fault k l, s) => (.fault k l va, s)
      | (.leaf pa size w, s) =>
        let run := min (size - va % size) (stop - va)
        if s.admitsSub (.context tag) write pa run then
          s.translateFrom hub tag write stop n (va + run) (addRun exts va pa run (w && write))
        else (.denied (va + (s.firstDenied tag write pa - pa)), s)

/-- The translation of a range for a tag (R228). -/
def State.translate (s : State) (hub tag start len : Nat) (write : Bool) : XlateRes × State :=
  s.translateFrom hub tag write (start + len) (len / 4096 + 2) start []

/-- The physical address of a virtual one in a list of extents that hold the whole range, written ones if asked
(R150, R232). -/
def physIn (exts : List Extent) (va len : Nat) (write : Bool) : Option Nat :=
  match exts.find? (fun e => decide (e.va ≤ va) && decide (va + len ≤ e.va + e.len) && (!write || e.w)) with
  | some e => some (e.pa + (va - e.va))
  | none => none

/-! ### Open faults (R239–R243) -/

/-- The words of a fault record (R241). -/
def faultWords (f : OpenFault) (cont : Bool) (qs : List Nat) : List Word :=
  [packWord [(0, f.page), (48, f.level), (50, f.kinds), (56, bit cont)],
   packWord [(0, f.tag), (16, f.slot), (32, qs.length)], BitVec.ofNat 64 f.time, BitVec.ofNat 64 (f.seq % 2 ^ 32)] ++
  (List.range 4).map fun w =>
    packWord ((List.range 4).map fun k => (16 * k, qs.getD (4 * w + k) 0xFFFF))

/-- The first slot of the table of open faults that is free. -/
def freeSlot (fs : List OpenFault) : Option Nat :=
  (List.range 1024).find? (fun n => !fs.any (fun f => f.slot == n))

/-- A failed walk of queue q opens a fault or joins the one with its key; with no slot free the queue waits (R239,
R240, R243). -/
def State.joinFault (s : State) (q tag va level kind : Nat) : State :=
  let page := va / spanOf level * spanOf level
  match s.faults.find? (fun f => f.tag == tag && f.page == page) with
  | some f =>
    let f' := { f with kinds := f.kinds ||| 2 ^ kind,
                       queues := if f.queues.contains q then f.queues else f.queues ++ [q],
                       unlisted := if f.queues.contains q then f.unlisted else f.unlisted ++ [(q, s.now)] }
    { s with faults := s.faults.map (fun x => if x.slot = f.slot then f' else x) }
  | none =>
    match freeSlot s.faults with
    | none => if s.unslotted.contains q then s else { s with unslotted := s.unslotted ++ [q] }
    | some n =>
      let f : OpenFault := ⟨n, tag, page, level, 2 ^ kind, [q], [], s.faultSeq + 1, s.tb⟩
      ({ s with faults := s.faults ++ [f], faultSeq := s.faultSeq + 1 }).ringRecord 0 (faultWords f false [q])

/-- A queue leaves its faults that satisfy a test; a fault with no queue left closes, and the longest-waiting queue
without a slot walks again (R242, R243). -/
def State.leaveIf (s : State) (q : Nat) (test : OpenFault → Bool) : State :=
  let upd := s.faults.map fun (f : OpenFault) =>
    if test f then { f with queues := f.queues.filter (· != q), unlisted := f.unlisted.filter fun (e : Nat × Nat) => e.1 != q } else f
  let left := upd.filter (fun f => !f.queues.isEmpty)
  let s' := { s with faults := left }
  if left.length < upd.length then
    match s'.unslotted with
    | [] => s'
    | u :: r => ({ s' with unslotted := r }).setQueue u { s'.queue u with chosen := true }
  else s'

/-- A queue leaves its fault (R242), and waits for a slot no longer. -/
def State.leaveFault (s : State) (q : Nat) : State :=
  ({ s with unslotted := s.unslotted.filter (· != q) }).leaveIf q fun _ => true

/-- A walk of the command of queue q fails: it opens or joins a fault, leaving an earlier one with another key, and the queue
parks with XLATE (R219, R239). -/
def State.parkXlate (s : State) (q tag va level kind : Nat) : State :=
  let page := va / spanOf level * spanOf level
  let s := (s.joinFault q tag va level kind).leaveIf q fun f => !(f.tag == tag && f.page == page)
  (s.setQueue q { s.queue q with chosen := false, faultVa := va, faulted := true }).park q 3

/-- A walk for the command at HEAD of a queue: unless it fails, the queue leaves its fault (R239, R242). -/
def State.headWalk (s : State) (q : Nat) (f : State → State) : State :=
  let s := f (s.setQueue q { s.queue q with faulted := false })
  if (s.queue q).faulted then s else s.leaveFault q

end Sys2Proof.Machine
end

