-- ==== Sys2Proof/Machine/CopyShape.lean ====
section
/-! DEFINITION. The shape of a tile copy: its bursts and lines, and the lines that a core's copy engine has outstanding
(R149, R150, R177–R180). -/

namespace Sys2Proof.Machine

/-- A piece of a copy inside one 4 KiB granule: virtual address, bytes, scratchpad offset (R178). -/
structure Burst where
  /-- virtual address -/
  va : Nat
  /-- bytes -/
  len : Nat
  /-- scratchpad offset -/
  sp : Nat
  deriving DecidableEq, Repr

/-- A run cut at every multiple of a size of its virtual addresses. -/
def cutRun (size : Nat) : Nat → Nat → Nat → Nat → List Burst
  | 0, _, _, _ => []
  | n + 1, va, len, sp =>
    if len = 0 then []
    else
      let k := min len (size - va % size)
      ⟨va, k, sp⟩ :: cutRun size n (va + k) (len - k) (sp + k)

/-- The bursts of a run: cut at every 4 KiB boundary (R178). -/
def runBursts (va len sp : Nat) : List Burst := cutRun 4096 (len / 4096 + 2) va len sp

/-- The unified address of a row, modulo 2^64 (R149). -/
def rowAddr (ux stride r : Nat) : Nat := (ux + r * stride) % 2 ^ 64

/-- The bursts of a copy: one run when the rows follow each other, otherwise a run a row (R178). -/
def CopyOp.bursts (o : CopyOp) : List Burst :=
  if o.stride = o.rowBytes then runBursts o.ux (o.rows * o.rowBytes) o.sx
  else (List.range o.rows).flatMap fun r =>
    runBursts (rowAddr o.ux o.stride r) o.rowBytes (o.sx + r * o.rowBytes)

/-- The lines that a burst touches, each with the bytes that it covers of it (R179). -/
def Burst.lines (b : Burst) : List Burst := cutRun 64 (b.len / 64 + 2) b.va b.len b.sp

/-- The lines of a copy, in the order of its bursts. -/
def CopyOp.pieces (o : CopyOp) : List Burst := o.bursts.flatMap Burst.lines

/-- The lines of the bursts of a copy that have begun: their places in the copy. -/
def CopyOp.asked (o : CopyOp) : Nat := ((o.bursts.take o.begun).map fun b => b.lines.length).sum

/-- The extents of a core's launch. -/
def Core.exts (k : Core) : List Extent := ((k.launch.or k.was).map (·.exts)).getD []

/-- The context of a core's launch. -/
def Core.ctx (k : Core) : Nat := ((k.launch.or k.was).map (·.ctx)).getD 0

/-- The physical address of a burst in a launch's extents. -/
def Burst.pa (b : Burst) (exts : List Extent) (write : Bool) : Nat := (physIn exts b.va 1 write).getD 0

/-- Whether an address lies in a peer window. -/
def State.isPeer (s : State) (pa : Nat) : Bool := s.region pa == .peer

/-- Whether a burst of a copy lies in a peer window. -/
def State.peerBurst (s : State) (exts : List Extent) (o : CopyOp) (b : Burst) : Bool := s.isPeer (b.pa exts o.out)

/-- The lines of a copy that its bursts have asked for and that have not moved, those in peer windows apart. -/
def State.openLines (s : State) (exts : List Extent) (o : CopyOp) : List (Burst × Nat) :=
  ((o.pieces.take o.asked).zipIdx).filter fun e => !o.moved.contains e.2 && !s.peerBurst exts o e.1

/-- The lines of a core's copies that await responses from peers. -/
def State.peerLines (s : State) (c : Nat) (ks : List Nat) : Nat :=
  ((s.peerReqs.filter (fun r => match r.who with
    | .copy c' k => c' == c && ks.contains k
    | _ => false)).map (·.lines)).sum

/-- The line reads or line writes that a core's copy engine has outstanding; of a completed copy into a peer window too, until
they are acknowledged (R180, R189). -/
def State.copyLines (s : State) (c : Nat) (out : Bool) : Nat :=
  let k := s.core c
  let l := (k.copies ++ k.acking).filter (fun o => o.out == out)
  (l.map fun o => (s.openLines k.exts o).length).sum + s.peerLines c (l.map (·.k))

end Sys2Proof.Machine
end

