-- ==== Sys2Proof/Machine/Views.lean ====
section
/-! DEFINITION. What registers read as: the word they hold, with the fields that show the state of a unit put in. -/

namespace Sys2Proof.Machine

/-! ### Reservations in force (R457–R461) -/

/-- What no launch has claimed of a reservation's grant, in 0.1 W. -/
def Reservation.unclaimed (r : Reservation) : Nat := r.granted - r.claimed

/-- Whether a reservation is granted and its standing window meets [lo, hi). -/
def Reservation.meets (r : Reservation) (lo hi : Nat) : Bool :=
  r.grantAt.isSome && decide (r.glo < hi) && decide (lo < r.ghi)

/-- The unclaimed reservations of a polder in force now, in 0.1 W (R483). -/
def State.reservedOn (s : State) (p : Nat) : Nat :=
  ((s.reservs.filter (fun r => r.polder == p && r.meets s.now (s.now + 1))).map Reservation.unclaimed).sum

/-- The needs of launches admitted in the last 10 µs that satisfy a test, in 0.1 W (R461). -/
def State.pendingOf (s : State) (f : Nat → Bool) : Nat :=
  ((s.pends.filter (fun p => f p.polder && decide (s.now < p.till))).map (·.amount)).sum

/-! ### Measurements (R454, R455) -/

/-- The power samples of the last w ticks, the present tick not included (R454). -/
def State.recent (s : State) (w : Nat) : List PowerSample :=
  (s.samples.filter (fun r => decide (r.tick < s.now) && decide (s.now ≤ r.tick + w))).map (·.x)

/-- The mean of some numbers, zero of none. -/
def meanOf (l : List Nat) : Rat := if l.isEmpty then 0 else (l.sum : Rat) / (l.length : Rat)

/-- Watts of a polder in a sample, or of the package (15). -/
def wattsOf (x : PowerSample) (p : Nat) : Nat := if p < 8 then x.watts.getD p 0 else x.watts.sum

/-- The mean power of a polder, or of the package, over w ticks, in W. -/
def State.meanW (s : State) (w p : Nat) : Rat := meanOf ((s.recent w).map fun x => wattsOf x p)

/-- The three windows of R454. -/
def us10 : Nat := 10000

/-- One millisecond. -/
def ms1 : Nat := 1000000

/-- A hundred milliseconds. -/
def ms100 : Nat := 100000000

/-- VIN_A10: the package's mean VIN current over 10 µs, in A. -/
def State.vinA10 (s : State) : Rat := meanOf ((s.recent us10).map (·.vinA))

/-- EXC_US: the samples above SUSTAIN_W in the last 100 ms (R455). -/
def State.excUs (s : State) : Nat :=
  ((s.recent ms100).filter (fun x => decide (s.rd SLU_PKG_CFG.SUSTAIN_W < wattsOf x 15))).length

/-- A mean as a register of whole watts shows it, rounded down (log entry 35). -/
def wholeOf (x : Rat) : Nat := x.floor.toNat

/-- NEXT_1MS (R483): the package's 10 µs mean, the pending needs and the granted reservations starting within 1 ms. -/
def State.forecast (s : State) : Nat :=
  wholeOf (s.meanW us10 15 + ((s.pendingOf (fun _ => true) +
    ((s.reservs.filter (fun r => r.grantAt.isSome && decide (s.now ≤ r.glo) && decide (r.glo < s.now + ms1))).map
      (·.granted)).sum : Nat) : Rat) / 10)

/-! ### The dike table's registers (R441, R452) -/

/-- The words of a rule (R441). -/
def ruleWord (r : DikeRule) (w : Nat) : Word :=
  if w = 0 then packWord [(0, bit r.r), (1, bit r.w), (2, r.subj), (12, r.base)]
  else packWord [(0, r.pages), (32, r.lo), (48, r.hi)]

/-- SEC_DIKE_RULE_LO and _HI: the rule of SEC_DIKE_INDEX, three standard ones first; zero past the count. -/
def State.shownRule (s : State) (w : Nat) : Word :=
  let n := s.rd SEC_DIKE_INDEX.RULE
  if !s.dike.written then 0
  else if n < 3 then Config.standardRule (2 * n + w)
  else
    match s.dike.rules[n - 3]? with
    | some r => ruleWord r w
    | none => 0

/-- SEC_PART_RESULT: the partition of the item that SEC_PART_QUERY names. -/
def State.partResult (s : State) : Word :=
  let n := s.rd SEC_PART_QUERY.NUMBER
  let show_ := fun (items part : Nat) => if n < items then packWord [(0, part), (4, 1)] else 0
  match s.rd SEC_PART_QUERY.KIND with
  | 0 => show_ 4096 (s.partOfCtx n)
  | 1 => show_ 16384 (s.partOfQueue n)
  | 2 => show_ 8192 (s.partOfObj n)
  | _ => show_ 96 (s.partOfHost n)

/-! ### Tensor cores (R95, R103, R189, R488) -/

/-- A die is walled off, from the cofferdam to its readmission (R488, R489). -/
def State.walled (s : State) (die : Nat) : Bool := (s.rd SYS_CLK_STATUS.TDIE_WALLED).testBit die

/-- A register of a tensor core's block: zero for a disabled core; only TC_STATUS for one walled off (R5, R488). -/
def State.tcView (s : State) (c r : Nat) (v : Word) : Word :=
  if !s.coreEnabled c then 0
  else if s.walled (dieOf c) then
    if r = 0 then packWord [(0, 4), (16, s.rd TC_STATUS.CONTEXT c)] else 0
  else
    match r with
    | 0x08 => Tab.get (fun _ => 0) s.fuses.colmap c
    | 0x18 => BitVec.ofNat 64 (Tab.get (fun _ => 4900) s.fuses.coef c)
    | 0x30 => BitVec.ofNat 64 (aclkOf s.now - v.toNat - s.rd TC_CYC_STREAM.COUNT c - s.rd TC_CYC_RECIRC.COUNT c)
    | 0x38 => BitVec.ofNat 64
        (s.rd TC_CYC_RECIRC.COUNT c * Tab.get (fun _ => 4900) s.fuses.coef c / 1000)
    | 0x208 => TC_COPY_STATUS.WR_LINES.put
        (TC_COPY_STATUS.RD_LINES.put v (min (s.copyLines c false) 1024)) (min (s.copyLines c true) 1024)
    | _ => v

/-! ### The reading of a register -/

/-- Bit r − 1 for each reason of which a polder's throttle event is open (R472, R483). -/
def State.openReasons (s : State) (p : Nat) : Nat :=
  packBits ((s.thrEvents.filter (fun e => e.polder == p)).map (fun e => (e.reason - 1, 1)))

/-- The slice's lines that are busy and its entries that are LOST (R407). -/
def State.sliceView (s : State) (k : Nat) (v : Word) : Word :=
  DIR_S_STATUS.LOST.put
    (DIR_S_STATUS.BUSY.put v ((s.grants.map (·.line)).eraseDups.filter (fun l => sliceOf l == k)).length)
    (s.dir.filter (fun e => e.state == 4 && sliceOf e.line == k)).length

/-- A register of the SYS and TXN blocks. -/
def State.sysView (s : State) (off : Nat) (v : Word) : Word :=
  match off with
  | 0x8 => packWord [(0, s.width), (16, (s.fuses.enable.map fun w =>
      ((List.range 52).filter w.testBit).length).sum), (32, s.fuses.grade), (40, s.fuses.stepping)]
  | 0x20 => BitVec.ofNat 64 (s.fuses.enable.getD 0 0)
  | 0x28 => BitVec.ofNat 64 (s.fuses.enable.getD 1 0)
  | 0x30 => BitVec.ofNat 64 (s.fuses.enable.getD 2 0)
  | 0x38 => BitVec.ofNat 64 (s.fuses.enable.getD 3 0)
  | 0x100 => BitVec.ofNat 64 s.tb
  | 0x10018 => TXN_STATUS.ENTRIES.put v s.txn.shadow.length
  | _ => v

/-- A register of the SLU block. -/
def State.sluView (s : State) (off : Nat) (v : Word) : Word :=
  if off = 0x100008 then
    SLU_PKG_STATUS.PM100.put (SLU_PKG_STATUS.PM1.put (SLU_PKG_STATUS.PM10.put
      (SLU_PKG_STATUS.HOLD_OK.put v (bit (decide (11400 ≤ s.holdVin)))) (wholeOf (s.meanW us10 15)))
      (wholeOf (s.meanW ms1 15))) (wholeOf (s.meanW ms100 15))
  else if off = 0x100010 then
    SLU_PKG_EXC.VIN_A10.put (SLU_PKG_EXC.EXC_US.put v (min s.excUs 100000)) (min (wholeOf s.vinA10) 4095)
  else if off = 0x100018 then
    packWord [(0, min s.forecast 8191), (16, min (((List.range 8).map s.reservedOn).sum / 10) 8191)]
  else if off = 0x102000 then SLU_HINT_STATUS.HELD.put v s.reservs.length
  else if 0x100100 ≤ off ∧ off < 0x100200 then
    let p := (off - 0x100100) / 0x20
    match off % 0x20 with
    | 0x08 => packWord [(0, min (wholeOf (s.meanW us10 p)) 4095), (16, min (wholeOf (s.meanW ms1 p)) 4095),
        (32, min (wholeOf (s.meanW ms100 p)) 4095), (48, min (s.reservedOn p / 10) 4095)]
    | 0x10 => SLU_POLDER_THR.OPEN.put v (s.openReasons p)
    | _ => v
  else v

/-- A register of a doorbell page. -/
def State.dbView (s : State) (q r : Nat) (v : Word) : Word :=
  match r with
  | 0x08 => BitVec.ofNat 64 (s.qHead q)
  | 0x18 => QE_DB_STATUS.REASON.put (QE_DB_STATUS.STATE.put v (s.rd QE_Q_STATUS.STATE q)) (s.rd QE_Q_STATUS.REASON q)
  | _ => v

/-- A register of the translation block. -/
def State.trView (s : State) (off : Nat) (v : Word) : Word :=
  match off with
  | 0xA010008 => TR_INVAL_STATUS.PENDING.put v s.invals.length
  | 0xA010028 => TR_FAULT_STATUS.OPEN.put v s.faults.length
  | _ => v

/-- A register of a mailbox. -/
def State.mbView (s : State) (m r : Nat) (v : Word) : Word :=
  if r = 0x30 then
    MB_STATUS.RSP_COUNT.put (MB_STATUS.REQ_COUNT.put v (s.mbox m).req.length) (s.mbox m).rsp.length
  else v

/-- The register SY_EVENT_c, its oldest event and LOST (R258). -/
def State.eventView (s : State) (c : Nat) : Word :=
  let lost := bit (Tab.get (fun _ => false) s.eventLost c)
  match Tab.get (fun _ => []) s.events c with
  | [] => packWord [(14, lost)]
  | o :: _ => packWord [(0, o), (13, 1), (14, lost)]

/-- A register of the boot and security block. -/
def State.secView (s : State) (off : Nat) (v : Word) : Word :=
  match off with
  | 0x70001000 => BitVec.ofNat 64 s.fuses.rollback
  | 0x70001008 => packWord [(0, s.fuses.programmed), (4, s.fuses.revoked)]
  | 0x70001018 => s.shownRule 0
  | 0x70001020 => s.shownRule 1
  | 0x70001028 => packWord [(0, if s.dike.written then 3 + s.dike.rules.length else 0), (16, s.dike.npart)]
  | 0x70001038 => s.partResult
  | _ => v

/-- The COLLECTIVEs of a hub's queues that are next and held because 128 buckets are active (R314, R343). -/
def State.collWaiting (s : State) (hub : Nat) : Nat :=
  if (s.buckets.filter (fun b => hubOfQueue b.q == hub)).length < 128 then 0
  else (s.queues.filter fun e => hubOfQueue e.1 == hub &&
    (match e.2.fetched with
     | [] => false
     | f :: _ => bitsOf (f.words.headD 0).toNat 23 16 == 6 && f.status == 0)).length

/-- What a register reads as at an offset, with no side effect: the word it holds, and the fields that show a unit's
state. A reserved offset reads 0 (R59). -/
def State.view (s : State) (off : Nat) : Word :=
  let v := s.reg off
  if off < 0x20000 then s.sysView off v
  else if off < 0x200000 then s.sluView off v
  else if 0x1000000 ≤ off ∧ off < 0x5000000 then s.dbView ((off - 0x1000000) / 4096) (off % 4096) v
  else if 0x5000000 ≤ off ∧ off < 0x5100000 then
    if off % 0x40 = 0x28 then QE_Q_STATUS.INFLIGHT.put v (s.qInflight ((off - 0x5000000) / 0x40)) else v
  else if 0x8000000 ≤ off ∧ off < 0x8080000 then
    if off % 0x40 = 0x30 then
      SY_STAT.WAITERS.put v (s.waiters.filter (fun w => w.obj == (off - 0x8000000) / 0x40)).length
    else v
  else if 0x8100000 ≤ off ∧ off < 0x8100000 + 8 * 96 then s.eventView ((off - 0x8100000) / 8)
  else if 0x9000000 ≤ off ∧ off < 0x9004000 then s.mbView ((off - 0x9000000) / 0x100) (off % 0x100) v
  else if 0xA000000 ≤ off ∧ off < 0xB000000 then s.trView off v
  else if 0x10000000 ≤ off ∧ off < 0x11000000 then s.tcView ((off - 0x10000000) / 0x10000) (off % 0x10000) v
  else if 0x20000000 ≤ off ∧ off < 0x20006000 then
    if off % 0x40 = 0x30 then
      match (s.chan ((off - 0x20000000) / 0x40)).reqAt with
      | some t => v + BitVec.ofNat 64 (s.now - t)
      | none => v
    else v
  else if off = 0x21000008 then
    TIER_STATUS.WAITING.put (TIER_STATUS.MOVING.put v (s.migs.filter (fun m => m.phase != 0)).length)
      (min (s.migs.filter (fun m => m.phase == 0)).length 65535)
  else if off = 0x22000010 ∨ off = 0x22000030 then
    CE_STATUS.WAITING.put (CE_STATUS.ACTIVE.put v
      (s.buckets.filter (fun b => hubOfQueue b.q == (off - 0x22000010) / 0x20)).length)
      (s.collWaiting ((off - 0x22000010) / 0x20))
  else if 0x22001000 ≤ off ∧ off < 0x22001200 then
    if off % 0x20 = 0x10 then
      CE_EPOCH_STATUS.BUCKETS.put v (s.buckets.filter (fun b => b.slot == (off - 0x22001000) / 0x20)).length
    else v
  else if 0x30010000 ≤ off ∧ off < 0x30011000 then
    if off % 0x10 = 0 then
      LK_WIN.OUTSTANDING.put v (s.peerReqs.filter (fun r => r.win == (off - 0x30010000) / 0x10)).length
    else v
  else if 0x38000000 ≤ off ∧ off < 0x38000800 then
    if off % 0x40 = 0 then s.sliceView ((off - 0x38000000) / 0x40) v else v
  else if off = 0x40800008 then DBG_CTXRST_STATUS.PENDING.put v s.ctxReqs.length
  else if 0x70000000 ≤ off then s.secView off v
  else v

end Sys2Proof.Machine
end

