-- ==== Sys2Proof/Machine/RegOps.lean ====
section
/-! DEFINITION. Writes of registers: clamping, codes, ignored fields and their report, the gate of the dike table and
the shadow of the open transaction (R56–R78). -/

namespace Sys2Proof.Machine

/-! ### One field (R60, R62, R63) -/

/-- What a field takes of a value: the nearest legal value, or none for an undefined code. -/
def Clamp.apply (c : Clamp) (x : Nat) : Option Nat :=
  match c with
  | .free => some x
  | .range lo hi => some (max lo (min hi x))
  | .pow2 lo hi => some (max lo (min hi (2 ^ x.log2)))
  | .codes rs => if rs.any (fun r => decide (r.1 ≤ x) && decide (x ≤ r.2)) then some x else none

/-- The value of a field in a word. -/
def RField.get (f : RField) (v : Word) : Nat := (v.toNat >>> f.lo) % 2 ^ f.w

/-- The bits of a field. -/
def RField.mask (f : RField) : Word := BitVec.ofNat 64 ((2 ^ f.w - 1) <<< f.lo)

/-- A word with a field given a value. -/
def RField.put (f : RField) (v : Word) (x : Nat) : Word :=
  (v &&& ~~~ f.mask) ||| BitVec.ofNat 64 ((x % 2 ^ f.w) <<< f.lo)

/-- A register's word after a write, whether R60 reports it and whether it carried an undefined code. -/
structure Written where
  /-- the word -/
  word : Word
  /-- a part of the write was ignored that would have changed a value -/
  ignored : Bool
  /-- an undefined code -/
  bad : Bool
  deriving DecidableEq, Repr

/-- One field of a written register: `seen` is what the register reads as, `frozen` marks bits whose writes another
rule has the device ignore. -/
def RField.write (locked : Bool) (frozen seen new : Word) (a : Written) (f : RField) : Written :=
  let o := f.get seen
  let x := f.get new
  match f.acc with
  | .ro => { a with ignored := a.ignored || (x != 0 && x != o) }
  | .w1c => { a with word := f.put a.word (o - (o &&& x)) }
  | .wo => a
  | .ones => if x = 2 ^ f.w - 1 then { a with word := f.put a.word 0 } else a
  | _ =>
    if (f.acc == .rwl && locked) || f.get frozen != 0 then { a with ignored := a.ignored || x != o }
    else
      match f.clamp.apply x with
      | none => { a with bad := true }
      | some y => { a with word := f.put a.word y }

/-- The bits of a register's fields; the others are reserved. -/
def Reg.covered (r : Reg) : Word := r.fields.foldl (fun m f => m ||| f.mask) 0

/-- A register written: its fields one by one, and its reserved bits, a 1 written to which is reported (R15, R60). -/
def Reg.write (r : Reg) (locked : Bool) (frozen stored seen new : Word) : Written :=
  r.fields.foldl (RField.write locked frozen seen new)
    ⟨stored, new &&& ~~~ r.covered != 0, false⟩

/-! ### Reports (R60, R61) -/

/-- A write that was ignored in part, or that carried an undefined code, is reported. -/
def State.report (s : State) (agent off : Nat) (ignored bad : Bool) : State :=
  if ignored || bad then
    let s := if ignored then s.wr SYS_REG_STATUS.IGNORED_WRITE 0 1 else s
    let s := if bad then s.wr SYS_REG_STATUS.BAD_CODE 0 1 else s
    (s.bump SYS_REG_STATUS.COUNT 0).setReg 0x128 (packWord [(0, off), (32, agent)])
  else s

/-! ### Writes that another rule ignores -/

/-- BASE and ENTRIES of a record ring while it is enabled (R285). -/
def ringFrozen (s : State) (off : Nat) : Word :=
  let look := fun (r : Ring) =>
    if s.flag r.enable r.idx then
      if off = r.base.off r.idx then some (r.base.mask) else if off = r.entries.off r.idx then some r.entries.mask
      else none
    else (none : Option Word)
  ((List.range 21).findSome? (fun n => look (ringOf n))).getD 0

/-- The bits of a register whose writes are ignored as the unit stands (R190, R285, R301, R320, R356); a transaction's
commit replaces a whole window. -/
def State.frozen (s : State) (off : Nat) (inTxn : Bool) : Word :=
  if 0x5000000 ≤ off ∧ off < 0x5100000 then
    let q := (off - 0x5000000) / 0x40
    if s.flag QE_Q_CFG.ENABLE q then
      match off % 0x40 with
      | 0x00 => fullMask
      | 0x08 => ~~~ (QE_Q_CFG.ENABLE.mask ||| QE_Q_CFG.STOP_ON_ERR.mask)
      | 0x18 => fullMask
      | 0x20 => fullMask
      | _ => 0
    else 0
  else if 0x21100000 ≤ off ∧ off < 0x21300000 then
    let n := (off - 0x21100000) / 0x20
    if s.flag TIER_OBJ_CFG.VALID n then
      if off % 0x20 = 0 then
        if s.rd TIER_OBJ_CFG.STATE n = 0 then ~~~ TIER_OBJ_CFG.VALID.mask else fullMask
      else fullMask
    else 0
  else if 0x22001000 ≤ off ∧ off < 0x22001200 then
    let n := (off - 0x22001000) / 0x20
    if s.buckets.any (fun b => b.slot == n) then fullMask else 0
  else if 0x30010000 ≤ off ∧ off < 0x30011000 then
    let w := (off - 0x30010000) / 0x10
    if s.flag LK_WIN.VALID w && !inTxn then
      if off % 0x10 = 0 then ~~~ LK_WIN.VALID.mask else fullMask
    else 0
  else ringFrozen s off

/-! ### A register written, and whom the gate admits -/

/-- A value before its fields are held to their ranges: TARGET of a trigger clamps to a host core when the ACTION of
the same store is 1 (R260). -/
def preClamp (off : Nat) (v : Word) : Word :=
  if 0x8000000 ≤ off ∧ off < 0x8080000 ∧ off % 0x40 = 0x18 ∧ SY_TRIG_CFG.ACTION.get v = 1 then
    SY_TRIG_CFG.TARGET.put v (min (SY_TRIG_CFG.TARGET.get v) 95)
  else v

/-- What a store gives a register. -/
def State.written (s : State) (off : Nat) (v : Word) (inTxn : Bool) : Written :=
  match regAt off with
  | none => ⟨s.reg off, false, false⟩
  | some r => r.write s.locked (s.frozen off inTxn) (s.reg off) (s.view off) (preClamp off v)

/-- A store reaches a register: its fields change and what was ignored is reported. Writes at reserved offsets are
ignored unreported (R59). -/
def State.storeReg (s : State) (agent off : Nat) (v : Word) (inTxn : Bool := false) : State :=
  let w := s.written off v inTxn
  (s.setReg off w.word).report agent off w.ignored w.bad

/-- Whether an agent issues requests: before SYS_PROT_LOCK is set only agent 0x0001 does, and a host core held in reset does
not (R445, R446). -/
def State.issues (s : State) (agent : Nat) : Bool :=
  (s.locked || agent == 1) && (!isHost agent || (s.host (agent - 0x100)).released)

/-- A register access by an agent: performed when the dike table admits it, else refused as DENIED (R57, R443). -/
def State.gate (s : State) (agent off : Nat) (wr : Bool) (f : State → State) : State :=
  if !s.issues agent then s
  else if s.admits agent wr (regBase + off) 8 then f (s.answer agent 0) else s.refuse agent 5 (regBase + off)

/-- A read of a register that has no side effect. -/
def State.answerReg (s : State) (agent off : Nat) : State := s.answer agent (s.view off)

/-! ### Transactional registers (R67–R75) -/

/-- Whether a register is transactional (R67). -/
def isTxn (off : Nat) : Bool :=
  match regAt off with
  | some r => r.txn
  | none => false

/-- The shadow value of a register, if it has an entry. -/
def State.shadowOf (s : State) (off : Nat) : Option Word := (s.txn.shadow.find? (fun e => e.1 == off)).map Prod.snd

/-- A shadow entry is written or replaced; a 257th marks the transaction OVERFLOW (R71). -/
def State.putShadow (s : State) (off : Nat) (v : Word) : State :=
  if (s.shadowOf off).isSome then
    { s with txn := { s.txn with shadow := s.txn.shadow.map (fun e => if e.1 = off then (off, v) else e) } }
  else if s.txn.shadow.length < 256 then
    { s with txn := { s.txn with shadow := s.txn.shadow ++ [(off, v)] } }
  else s.wr TXN_STATUS.OVERFLOW 0 1

/-- What a shadow entry holds: the writable fields as the register would take them, the write-1-to-clear fields as
written (R70). -/
def Reg.shadowWord (r : Reg) (old v : Word) : Word × Bool :=
  r.fields.foldl
    (fun (a : Word × Bool) f =>
      match f.acc with
      | .rw =>
        match f.clamp.apply (f.get v) with
        | some y => (f.put a.1 y, a.2)
        | none => (f.put a.1 (f.get old), true)
      | .w1c => (f.put a.1 (f.get v), a.2)
      | _ => a)
    (0, false)

/-- The owner's write of a transactional register while OPEN (R70, R71). -/
def State.shadowWrite (s : State) (agent off : Nat) (v : Word) : State :=
  match regAt off with
  | none => s
  | some r =>
    let old := (s.shadowOf off).getD (s.reg off)
    let w := r.shadowWord old (preClamp off v)
    let seen := r.write s.locked 0 (s.reg off) (s.view off) (preClamp off v)
    (s.putShadow off w.1).report agent off seen.ignored w.2

/-- A write that an open transaction has the device discard is counted; a 1 written to a reserved bit is reported as always
(R15, R72, R75). -/
def State.txnDiscard (s : State) (agent off : Nat) (v : Word) : State :=
  let reserved := match regAt off with
    | some r => (v &&& ~~~ r.covered) != 0
    | none => false
  (s.bump TXN_STATUS.FOREIGN 0).report agent off reserved false

/-- A write of a register that may be transactional: to the shadow, discarded and counted, or live (R70, R72, R75). -/
def State.txnWrite (s : State) (agent off : Nat) (v : Word) (live : State → State) : State :=
  let st := s.rd TXN_STATUS.STATE
  if !isTxn off || st == 0 then live s
  else if s.rd TXN_STATUS.OWNER = agent then
    if st = 1 then s.shadowWrite agent off v else s.txnDiscard agent off v
  else if (s.shadowOf off).isSome then s.txnDiscard agent off v
  else live s

/-- What the owner of a transaction reads of a register with a shadow entry: its writable fields from the shadow
(R70). -/
def State.ownerView (s : State) (agent off : Nat) : Word :=
  let v := s.view off
  if s.rd TXN_STATUS.STATE = 0 ∨ s.rd TXN_STATUS.OWNER ≠ agent then v
  else
    match s.shadowOf off, regAt off with
    | some x, some r => r.fields.foldl (fun a f => if f.acc = .rw then f.put a (f.get x) else a) v
    | _, _ => v

end Sys2Proof.Machine
end

