-- ==== Sys2Proof/Machine/Hbm.lean ====
section
/-! DEFINITION. HBM channels: errors of a read, scrubbing, retraining, loss and repair (R268–R294). -/

namespace Sys2Proof.Machine

/-! ### Errors (R274–R276) -/

/-- A correctable error of a channel is counted, in its windows too; the first of a 1 ms window is recorded with the
number unrecorded since the last record (R274, R276). -/
def State.countCe (s : State) (line symbol source agent : Nat) : State :=
  let c := s.chanOf (64 * line)
  let x := s.chan c
  let ms := s.winNum 1000000
  let sec := s.winNum 1000000000
  let next := fun (w : Nat × Nat) (n : Nat) => if w.1 = n then (n, w.2 + 1) else (n, 1)
  let s := s.bump HM_CH_ERR.CE c
  let x := { x with ceWin := next x.ceWin ms, ceSec := next x.ceSec sec }
  if x.ceRec = ms + 1 then s.setChan c { x with unrec := x.unrec + 1 }
  else (s.setChan c { x with ceRec := ms + 1, unrec := 0 }).hbmRecord 0 (64 * line) c source symbol agent x.unrec 0

/-- Whether a region lies in the channels: usable HBM or the repair spare (R269). -/
def onDram (r : Region) : Bool := decide (r = .hbm ∨ r = .spare)

/-- What the ECC finds when a line is read from DRAM: a corrected line is written back and counted; an uncorrectable one
is written back as poison, counted and recorded; a poisoned line stays so, uncounted (R273, R274). -/
def State.ecc (s : State) (line : Nat) (e : EccFinding) (source agent : Nat) : State :=
  let pa := 64 * line
  let c := s.chanOf pa
  if !onDram (s.region pa) ∨ s.poisoned line ∨ s.hbmDead pa ∨ s.inStore line then s
  else
    match e with
    | .clean => s
    | .ce symbol => (s.countWrite c).countCe line symbol source agent
    | .ue =>
      (((s.setPoison line true).countWrite c).bump HM_CH_ERR.UE c).hbmRecord 1 pa c source 127 agent 0 0

/-- The ECC's findings in some lines that are read, for a source and an agent (R274). -/
def State.findErrors (s : State) (ecc : List (Nat × EccFinding)) (lines : List Nat) (source agent : Nat) : State :=
  s.each (ecc.filter fun e => lines.contains e.1) fun s e => s.ecc e.1 e.2 source agent

/-- SCRUB (R275): the scrubber reads a line of a channel, the repair spare included. -/
def execScrub (t line : Nat) (ecc : EccFinding) (s : State) : Res :=
  s.live t fun s =>
    if onDram (s.region (64 * line)) ∧ !s.hbmDead (64 * line) ∧ !s.chanHeld (s.chanOf (64 * line)) then
      (s.countRead (s.chanOf (64 * line))).ecc line ecc 1 0
    else s

/-! ### The reads of a command (R274, R287, R372) -/

/-- An error that a command's reads have found is counted and recorded (R274, R372, R500). -/
def State.settleDue (s : State) : Due → State
  | .ecc line e source agent =>
    match e with
    | .clean => s
    | .ce k => s.countCe line k source agent
    | .ue =>
      let c := s.chanOf (64 * line)
      (s.bump HM_CH_ERR.UE c).hbmRecord 1 (64 * line) c source 127 agent 0 0
  | .parity core line => s.faultRecord 4 core 0xFFF (0x100 + core) (64 * line) 0

/-- A channel has a request to hold: the ticks of HM_CH_HELD run from the first one (R287, R294). -/
def State.noteWait (s : State) (k : Nat) : State :=
  let x := s.chan k
  if k < 384 ∧ x.reqAt = none then s.setChan k { x with reqAt := some s.now } else s

/-- A command begins to read, for a SOURCE of R276 and an agent; its reads will find what it carries (log entry 127). -/
def State.reading (s : State) (found : Found) (source agent : Nat) : State :=
  { s with access := ⟨true, found, source, agent, none, []⟩ }

/-- The command has read: the counts and records of the errors that its reads found follow (R274). -/
def State.readsDone (s : State) : State := ({ s with access := .idle }).each s.access.due State.settleDue

/-- What a command does whose reads find errors: nothing yet when one of its reads meets a channel or a port that holds
requests; otherwise its effect, and then what its reads found (R274, R287, R299; log entries 85, 127). -/
def State.reads (s : State) (found : Found) (source agent : Nat) (f : State → State) : State :=
  let t := f (s.reading found source agent)
  match t.access.blocked with
  | some k => s.noteWait k
  | none => t.readsDone

/-- The reads that follow in a command are another agent's. -/
def State.readAs (s : State) (agent : Nat) : State :=
  if s.access.on then { s with access := { s.access with agent := agent } } else s

/-- The reads that follow in a command carry another SOURCE of R276. -/
def State.readFor (s : State) (source : Nat) : State :=
  if s.access.on then { s with access := { s.access with source := source } } else s

/-- A request of a home for a line: held, or performed now. -/
def State.orHold (s : State) (line : Nat) (r : HeldReq) (f : State → State) : State :=
  match s.holdKey line with
  | some k => { s with heldReqs := s.heldReqs ++ [(k, r)] }.noteWait k
  | none => f s

/-! ### The line store (R278) -/

/-- A line leaves its channel's line store and is written back. -/
def State.leaveStore (s : State) (line : Nat) : State :=
  ({ s with lineStore := s.lineStore.filter (fun e => e.1 != line) }).countWrite (s.chanOf (64 * line))

/-- LINE_STORE_WRITEBACK (R278): 1 µs has passed with no operation on the line. -/
def execLineStoreWriteback (t line : Nat) (s : State) : Res :=
  s.live t fun s =>
    if s.lineStore.any (fun e => e.1 == line && decide (e.2 + 1000 ≤ s.now)) then s.leaveStore line else s

/-! ### Retraining (R286–R289) -/

/-- A hold of a channel's requests begins: RETRAIN (1) or HELD (2), with LAT_SUSPEND (R287, R289). -/
def State.holdChan (s : State) (c st : Nat) : State :=
  let s := (s.wr HM_CH_STATUS.STATE c st).wr HM_CH_STATUS.SUSPENDED c 1
  let x := s.chan c
  match x.heldAt with
  | some _ => s
  | none => (s.setChan c { x with heldAt := some s.now }).hbmRecord 6 0 c 0 127 0 0 0

/-- The STATE that a channel has beside its holds: ACTIVE; REPAIR_SOURCE and then LOST once it is lost (R292, R294). -/
def State.chanRest (s : State) (c : Nat) : Nat :=
  if (s.chan c).lost then
    match s.repairs.find? (fun r => r.ch == c) with
    | some r => if r.done then 4 else 3
    | none => 4
  else 0

/-- Whether a channel answers, so that it can retrain: it is ACTIVE, or the source of a repair that it still serves (R286,
R293). -/
def State.canRetrain (s : State) (c : Nat) : Bool :=
  s.rd HM_CH_STATUS.STATE c == 0 ||
    (s.rd HM_CH_STATUS.STATE c == 3 && !s.repairs.any (fun r => r.ch == c && r.dead))

/-- The ticks for which requests have been held end: they enter HM_CH_HELD (R294). -/
def State.endWait (s : State) (c : Nat) : State :=
  let x := s.chan c
  match x.reqAt with
  | some n => (s.setChan c { x with reqAt := none }).bump HM_CH_HELD.TICKS c (s.now - n)
  | none => s

/-- The ticks of a channel's present hold. -/
def State.holdTicks (s : State) (c : Nat) : Nat := s.now - ((s.chan c).heldAt.getD s.now)

/-- A hold ends: the channel's state, the ticks held and LAT_RESUME, after the record that says how it ended. -/
def State.resumeChan (s : State) (c kind count detail : Nat) : State :=
  let d := s.holdTicks c
  let s := ((s.wr HM_CH_STATUS.STATE c (s.chanRest c)).wr HM_CH_STATUS.SUSPENDED c 0).endWait c
  let s := s.setChan c { s.chan c with heldAt := none }
  (s.hbmRecord kind 0 c 0 127 0 count detail).hbmRecord 7 0 c 0 127 0 0 d

/-- A write of HM_CH_CTRL.RETRAIN (R286). -/
def State.retrainWrite (s : State) (c : Nat) : State := if s.canRetrain c then s.holdChan c 1 else s

/-- RETRAIN (R286, R287): a channel that answers retrains for its correctable errors in one 1 ms window (0), an interface
error (1), a temperature change (2), a write of HM_CH_CTRL.RETRAIN (3), or a HELD one after its relock (4). -/
def execRetrain (t ch cause agent : Nat) (s : State) : Res :=
  s.live t fun s =>
    let st := s.rd HM_CH_STATUS.STATE ch
    let x := s.chan ch
    if 384 ≤ ch then s
    else if cause = 3 then
      s.gate agent (HM_CH_CTRL.RETRAIN.off ch) true fun s => s.retrainWrite ch
    else if cause = 4 then if st = 2 then s.holdChan ch 1 else s
    else if !s.canRetrain ch then s
    else if cause = 0 then
      if x.ceWin.1 = s.winNum 1000000 ∧ s.rd HM_CFG.CE_RETRAIN < x.ceWin.2 then s.holdChan ch 1 else s
    else s.holdChan ch 1

/-! ### Loss and repair (R290–R293) -/

/-- Repair number n is changed. -/
def State.mapRepair (s : State) (n : Nat) (f : Repair → Repair) : State :=
  { s with repairs := s.repairs.zipIdx.map (fun (e : Repair × Nat) => if e.2 = n then f e.1 else e.1) }

/-- A repair's migration begins. -/
def State.beginRepair (s : State) (n : Nat) : State :=
  let s := s.mapRepair n fun r => { r with began := s.now }
  (s.wr HM_STATUS.REPAIR_ACTIVE 0 1).wr HM_STATUS.MOVED 0 0

/-- A hold that a loss ends: the ticks held and LAT_RESUME (R289). -/
def State.endHold (s : State) (c : Nat) : State :=
  match (s.chan c).heldAt with
  | none => s
  | some _ =>
    let d := s.holdTicks c
    let s := (s.wr HM_CH_STATUS.SUSPENDED c 0).endWait c
    (s.setChan c { s.chan c with heldAt := none }).hbmRecord 7 0 c 0 127 0 0 d

/-- A channel is declared lost: CH_LOST, and its repair begins or waits for the one that runs; a third loss is not
repaired (R290, R291, R292). A hold under way ends (R289). -/
def State.declareLost (s : State) (c cause : Nat) : State :=
  let s := s.endHold c
  let s := (s.setChan c { s.chan c with lost := true, failedAt := none }).hbmRecord 4 0 c 0 127 0 0 cause
  let n := s.repairs.length
  if 2 ≤ n then
    ((s.wr HM_CH_STATUS.STATE c 4).wr HM_STATUS.UNREPAIRED 0 1).hbmRecord 8 0 c 0 127 0 0 0
  else
    let waits := s.repairs.any (fun r => !r.done)
    let r : Repair := ⟨c, 0, s.now, false, cause == 0⟩
    let s := { s with repairs := s.repairs ++ [r] }
    let s := (s.wr HM_CH_STATUS.STATE c 3).wr HM_STATUS.LOSSES 0 (n + 1)
    let s := if n = 0 then (s.wr HM_STATUS.LOST0 0 c).wr HM_STATUS.LOST0_VALID 0 1
      else (s.wr HM_STATUS.LOST1 0 c).wr HM_STATUS.LOST1_VALID 0 1
    if waits then s else s.beginRepair n

/-- RETRAIN_RETRY (R288): 1 ms after the failure the controller tries again. -/
def execRetrainRetry (t ch : Nat) (s : State) : Res :=
  s.live t fun s =>
    match (s.chan ch).failedAt with
    | some f =>
      if ch < 384 ∧ f + 1000000 ≤ s.now ∧ s.canRetrain ch then
        (s.setChan ch { s.chan ch with failedAt := none }).holdChan ch 1
      else s
    | none => s

/-- Granules that a repair moves: the usable ones and the spare ones in use (R291). -/
def State.toMove (s : State) (n : Nat) : Nat :=
  match s.repairs[n]? with
  | some r => 520192 + slotsUsed (s.repairs.take n) r.ch
  | none => 0

/-- The physical granule that lies in a local granule of a channel before its repair (R270, R291). -/
def State.granuleAt (s : State) (n ch loc : Nat) : Nat :=
  let at0 := fun (c l : Nat) => l * 384 + (c + 384 * 97 - 97 * l % 384) % 384
  if loc < 520192 then at0 ch loc
  else
    match (s.repairs.take n).head? with
    | some a => at0 a.ch ((loc - 520192) * 383 + (if a.ch < ch then ch - 1 else ch))
    | none => at0 ch loc

/-- GRANULE_MOVE (R292, R293): the next granule of the running repair moves, its lines read under R274; of a channel that
does not answer, as poison, but for lines held in the line store. After the last one the repair is done. -/
def execGranuleMove (t : Nat) (answers : Bool) (ecc : List (Nat × EccFinding)) (s : State) : Res :=
  s.live t fun s =>
    match s.repairs.zipIdx.find? (fun e => !e.1.done && !s.chanHeld e.1.ch) with
    | none => s
    | some (r, n) =>
      let g := s.granuleAt n r.ch r.moved
      let lines := (List.range 64).map (fun k => g * 64 + k)
      let s := s.each lines fun s l =>
        if answers && !r.dead then (s.countRead r.ch).findErrors ecc [l] 3 0 else if s.inStore l then s else s.setPoison l true
      let s := { s with lineStore := s.lineStore.filter (fun e => e.1 / 64 != g) }
      let moved := r.moved + 1
      let last := decide (s.toMove n ≤ moved)
      let s := s.mapRepair n fun r => { r with moved := moved, done := last }
      let s := s.each lines fun s l => s.countWrite (s.chanOf (64 * l))
      let s := s.wr HM_STATUS.MOVED 0 moved
      if last then
        let s := ((s.wr HM_CH_STATUS.STATE r.ch 4).wr HM_STATUS.REPAIR_ACTIVE 0 0).hbmRecord 5 0 r.ch 0 127 0 0
          (s.now - r.began)
        if n + 1 < s.repairs.length then s.beginRepair (n + 1) else s
      else s

end Sys2Proof.Machine
end

