-- ==== Sys2Proof/Machine/Num.lean ====
section
/-! DEFINITION. Number formats, exact values, rounding and conversion (R104–R121), the vector unit's arithmetic (R115,
R101) and the exact accumulator cell (R122–R125). A value is a NaN, an infinity, or a sign and m × 2^e. -/

namespace Sys2Proof.Machine

/-- The floating-point formats of R104. -/
inductive Fmt
  | fp32 | bf16 | fp16 | e4m3 | e5m2 | e3m2 | e2m3 | e2m1
  deriving DecidableEq, Repr

/-- Exponent bits. -/
def Fmt.ew : Fmt → Nat
  | .fp32 => 8 | .bf16 => 8 | .fp16 => 5 | .e4m3 => 4 | .e5m2 => 5 | .e3m2 => 3 | .e2m3 => 2 | .e2m1 => 2

/-- Mantissa bits. -/
def Fmt.mw : Fmt → Nat
  | .fp32 => 23 | .bf16 => 7 | .fp16 => 10 | .e4m3 => 3 | .e5m2 => 2 | .e3m2 => 2 | .e2m3 => 3 | .e2m1 => 1

/-- Exponent bias. -/
def Fmt.bias : Fmt → Nat
  | .fp32 => 127 | .bf16 => 127 | .fp16 => 15 | .e4m3 => 7 | .e5m2 => 15 | .e3m2 => 3 | .e2m3 => 1 | .e2m1 => 1

/-- Bits of an element. -/
def Fmt.width (f : Fmt) : Nat := 1 + f.ew + f.mw

/-- Whether the format has infinities. -/
def Fmt.hasInf : Fmt → Bool
  | .fp32 => true | .bf16 => true | .fp16 => true | .e5m2 => true
  | _ => false

/-- Whether a finite value beyond the maximum becomes an infinity (R117). -/
def Fmt.overflows : Fmt → Bool
  | .fp32 => true | .bf16 => true | .fp16 => true
  | _ => false

/-- A value: a NaN, an infinity, or (−1)^neg × m × 2^e. -/
inductive Val
  | nan | inf (neg : Bool) | fin (neg : Bool) (m : Nat) (e : Int)
  deriving DecidableEq, Repr

/-- The value of a code (R104). -/
def Fmt.decode (f : Fmt) (code : Nat) : Val :=
  let neg := code.testBit (f.width - 1)
  let ex := (code >>> f.mw) % 2 ^ f.ew
  let man := code % 2 ^ f.mw
  let top := 2 ^ f.ew - 1
  if f.hasInf && ex == top then (if man = 0 then .inf neg else .nan)
  else if f = .e4m3 ∧ ex = top ∧ man = 7 then .nan
  else if ex = 0 then .fin neg man (1 - f.bias - f.mw)
  else .fin neg (man + 2 ^ f.mw) ((ex : Int) - f.bias - f.mw)

/-- The canonical NaN (R105, R117): the formats without one write +0. -/
def Fmt.nanCode : Fmt → Nat
  | .fp32 => 0x7FC00000 | .bf16 => 0x7FC0 | .fp16 => 0x7E00 | .e4m3 => 0x7F | .e5m2 => 0x7E
  | _ => 0

/-- The code of a sign. -/
def Fmt.signCode (f : Fmt) (neg : Bool) : Nat := if neg then 2 ^ (f.width - 1) else 0

/-- The largest finite code, without sign. -/
def Fmt.maxCode : Fmt → Nat
  | .fp32 => 0x7F7FFFFF | .bf16 => 0x7F7F | .fp16 => 0x7BFF | .e4m3 => 0x7E | .e5m2 => 0x7B
  | .e3m2 => 0x1F | .e2m3 => 0x1F | .e2m1 => 0x7

/-- The code of an infinity, where there is one. -/
def Fmt.infCode (f : Fmt) (neg : Bool) : Nat := f.signCode neg + (2 ^ f.ew - 1) * 2 ^ f.mw

/-- The conditions of R121. -/
structure Conds where
  /-- NAN_OUT -/
  nanOut : Bool
  /-- OVERFLOW -/
  overflow : Bool
  /-- SATURATE -/
  saturate : Bool
  /-- INEXACT -/
  inexact : Bool
  deriving DecidableEq, Repr

/-- No condition. -/
def Conds.none : Conds := ⟨false, false, false, false⟩

/-- Any of two sets of conditions. -/
def Conds.or (a b : Conds) : Conds :=
  ⟨a.nanOut || b.nanOut, a.overflow || b.overflow, a.saturate || b.saturate, a.inexact || b.inexact⟩

/-- The exponent of the last place of a non-zero value m × 2^e in a format: its binade's, or the subnormals'. -/
def Fmt.quantum (f : Fmt) (m : Nat) (e : Int) : Int :=
  max (e + (m.log2 : Int) - f.mw) (1 - f.bias - f.mw)

/-- m × 2^e in units of 2^q: the whole units, and the fraction as a numerator over a power of two (its exponent). -/
def toUnits (m : Nat) (e q : Int) : Nat × Nat × Nat :=
  if q ≤ e then (m <<< (e - q).toNat, 0, 0)
  else let k := (q - e).toNat; (m >>> k, m % 2 ^ k, k)

/-- Rounds whole units and a fraction of 2^k: to nearest-even, or stochastically with 24 random bits (R116, R120). -/
def roundUnits (u frac k : Nat) (sr : Option Nat) : Nat :=
  match sr with
  | some r => if r < (frac <<< 24) >>> k then u + 1 else u
  | none => if 2 * frac > 2 ^ k ∨ (2 * frac = 2 ^ k ∧ u % 2 = 1) then u + 1 else u

/-- The code of u × 2^q, u at most 2^(mw + 1), and whether it lies beyond the largest finite value. -/
def Fmt.encode (f : Fmt) (u : Nat) (q : Int) : Nat × Bool :=
  let (u, q) := if u = 2 ^ (f.mw + 1) then (2 ^ f.mw, q + 1) else (u, q)
  if u < 2 ^ f.mw then (u, false)
  else
    let ex := q + f.mw + f.bias
    let code := ex.toNat * 2 ^ f.mw + (u - 2 ^ f.mw)
    (code, decide (f.maxCode < code))

/-- A value converted to a format with its conditions (R116, R117, R120, R121): stochastic with 24 random bits, or to
nearest-even. A value that lies on the extended grid beyond the range is not rounded: OVERFLOW or SATURATE stands without
INEXACT (log entry 135). -/
def Fmt.convert (f : Fmt) (v : Val) (sr : Option Nat := none) : Nat × Conds :=
  match v with
  | .nan => (f.nanCode, .none)
  | .inf neg =>
    if f.hasInf then (f.infCode neg, .none)
    else (f.signCode neg + f.maxCode, { Conds.none with saturate := true })
  | .fin neg m e =>
    if m = 0 then (f.signCode neg, .none)
    else
      let q := f.quantum m e
      let (u, frac, k) := toUnits m e q
      let (code, big) := f.encode (if frac = 0 then u else roundUnits u frac k sr) q
      if big then
        if f.overflows then (f.infCode neg, ⟨false, true, false, decide (frac ≠ 0)⟩)
        else (f.signCode neg + f.maxCode, ⟨false, false, true, decide (frac ≠ 0)⟩)
      else (f.signCode neg + code, ⟨false, false, false, decide (frac ≠ 0)⟩)

/-- Rounding to nearest-even, the code alone. -/
def Fmt.rne (f : Fmt) (v : Val) : Nat := (f.convert v).1

/-! ### Exact arithmetic -/

/-- The signed integer of a finite value in units of 2^q, q at most its exponent. -/
def unitsAt (neg : Bool) (m : Nat) (e q : Int) : Int :=
  let u : Int := (m <<< (e - q).toNat : Nat)
  if neg then -u else u

/-- A signed number of units of 2^q, zero having the sign given. -/
def ofUnits (x : Int) (q : Int) (zeroNeg : Bool) : Val :=
  if x = 0 then .fin zeroNeg 0 q else .fin (decide (x < 0)) x.natAbs q

/-- The exact sum of two values (R110, R111): NaN of a NaN or of opposite infinities; zero is −0 only of two −0. -/
def Val.add : Val → Val → Val
  | .nan, _ => .nan
  | _, .nan => .nan
  | .inf a, .inf b => if a = b then .inf a else .nan
  | .inf a, .fin _ _ _ => .inf a
  | .fin _ _ _, .inf b => .inf b
  | .fin a m e, .fin b n f =>
    let q := min e f
    ofUnits (unitsAt a m e q + unitsAt b n f q) q (a && b && m == 0 && n == 0)

/-- The exact product of two values: NaN of a NaN or of ∞ × 0. -/
def Val.mul : Val → Val → Val
  | .nan, _ => .nan
  | _, .nan => .nan
  | .inf a, .inf b => .inf (a != b)
  | .inf a, .fin b n _ => if n = 0 then .nan else .inf (a != b)
  | .fin a m _, .inf b => if m = 0 then .nan else .inf (a != b)
  | .fin a m e, .fin b n f => .fin (a != b) (m * n) (e + f)

/-- A value times a power of two. -/
def Val.scale (v : Val) (k : Int) : Val :=
  match v with
  | .fin neg m e => .fin neg m (e + k)
  | w => w

/-- The opposite. -/
def Val.neg : Val → Val
  | .nan => .nan
  | .inf a => .inf (!a)
  | .fin a m e => .fin (!a) m e

/-- Whether a value is a NaN. -/
def Val.isNan : Val → Bool
  | .nan => true
  | _ => false

/-- Whether a value is finite. -/
def Val.isFin : Val → Bool
  | .fin _ _ _ => true
  | _ => false

/-- A signed 32-bit integer as a value. -/
def Val.ofInt (x : Int) : Val := ofUnits x 0 false

/-- Strictly less, for values that are no NaN. -/
def Val.lt : Val → Val → Bool
  | .nan, _ => false
  | _, .nan => false
  | .inf a, .inf b => a && !b
  | .inf a, .fin _ _ _ => a
  | .fin _ _ _, .inf b => !b
  | .fin a m e, .fin b n f => let q := min e f; decide (unitsAt a m e q < unitsAt b n f q)

/-- Equal as numbers, for values that are no NaN. -/
def Val.eqv (a b : Val) : Bool := !a.isNan && !b.isNan && !Val.lt a b && !Val.lt b a

/-- Whether a value carries the sign of a negative. -/
def Val.signed : Val → Bool
  | .nan => false
  | .inf a => a
  | .fin a _ _ => a

/-- A value rounded to nearest-even in binary64 (R333). -/
def Val.round64 : Val → Val
  | .fin neg m e =>
    if m = 0 then .fin neg 0 e
    else
      let q := max (e + (m.log2 : Int) - 52) (-1074)
      let (u, frac, k) := toUnits m e q
      let r := if frac = 0 then u else roundUnits u frac k none
      if 1024 ≤ q + (r.log2 : Int) then .inf neg else .fin neg r q
  | v => v

/-- The exact n-th power of a value, n at least 1. -/
def Val.pow (v : Val) (n : Nat) : Val :=
  match v with
  | .nan => .nan
  | .inf a => .inf (a && n % 2 == 1)
  | .fin a m e => .fin (a && n % 2 == 1) (m ^ n) (e * n)

/-! ### Integers of floating point -/

/-- A value rounded to an integer: none of a NaN, an infinity by its sign. -/
def Val.roundInt (v : Val) (sr : Option Nat) : Option (Int ⊕ Bool) :=
  match v with
  | .nan => none
  | .inf a => some (.inr a)
  | .fin neg m e =>
    let (u, frac, k) := toUnits m e 0
    let n : Int := if frac = 0 then u else roundUnits u frac k sr
    some (.inl (if neg then -n else n))

/-- A value converted to a signed integer of w bits with saturation (R117), as a two's-complement code. -/
def toInt (w : Nat) (v : Val) (sr : Option Nat) : Nat × Conds :=
  let hi : Int := 2 ^ (w - 1) - 1
  let lo : Int := -(2 ^ (w - 1))
  let code := fun (x : Int) => (x % 2 ^ w).toNat
  match v.roundInt sr with
  | none => (0, .none)
  | some (.inr a) => (code (if a then lo else hi), { Conds.none with saturate := true })
  | some (.inl n) =>
    let inexact := match v with
      | .fin _ m e => decide ((toUnits m e 0).2.1 ≠ 0)
      | _ => false
    if n < lo then (code lo, ⟨false, false, true, inexact⟩)
    else if hi < n then (code hi, ⟨false, false, true, inexact⟩)
    else (code n, ⟨false, false, false, inexact⟩)

/-! ### The stochastic generator (R119) -/

/-- The 24 random bits of an element. -/
def srBits (seed : Word) (stream seq idx : Nat) : Nat :=
  let ctr : Word := BitVec.ofNat 64 (stream <<< 40 ||| seq <<< 16 ||| idx)
  let z := seed + ctr * 0x9E3779B97F4A7C15
  let z := (z ^^^ (z >>> 30)) * 0xBF58476D1CE4E5B9
  let z := (z ^^^ (z >>> 27)) * 0x94D049BB133111EB
  (z ^^^ (z >>> 31)).toNat % 2 ^ 24

/-! ### FP32 in the vector unit (R115) -/

/-- An FP32 operand: a subnormal reads as a zero of its sign under FLUSH. -/
def fpIn (flush : Bool) (x : Word32) : Val :=
  let ex := (x.toNat >>> 23) % 256
  if flush && ex == 0 then .fin (x.toNat.testBit 31) 0 0 else Fmt.fp32.decode x.toNat

/-- An FP32 result: rounded once, a subnormal written as a zero of its sign under FLUSH, which by itself is no rounding and sets
no INEXACT (log entry 135). -/
def fpOut (flush : Bool) (v : Val) : Word32 × Conds :=
  let (c, k) := Fmt.fp32.convert v
  if flush && (c >>> 23) % 256 == 0 && c % 2 ^ 23 != 0 then (BitVec.ofNat 32 (c / 2 ^ 31 * 2 ^ 31), k)
  else (BitVec.ofNat 32 c, k)

/-- The canonical FP32 NaN. -/
def nan32 : Word32 := 0x7FC00000

/-- Minimum or maximum (R115): the number when exactly one is a NaN; −0 below +0. -/
def fpMinMax (isMax : Bool) (flush : Bool) (x y : Word32) : Word32 :=
  let a := fpIn flush x
  let b := fpIn flush y
  if a.isNan && b.isNan then nan32
  else if a.isNan then (fpOut flush b).1
  else if b.isNan then (fpOut flush a).1
  else
    let less := Val.lt a b || (Val.eqv a b && a.signed && !b.signed)
    if less = isMax then (fpOut flush b).1 else (fpOut flush a).1

/-! ### Special functions (R101): any result within the bound, log entry 10 -/

/-- A positive normal FP32 code's mantissa units and the exponent of its last place. -/
def normUnits (code : Nat) : Nat × Int := (code % 2 ^ 23 + 2 ^ 23, ((code >>> 23 : Nat) : Int) - 150)

/-- The candidates around a code that pass a test, chosen by a free value; the code itself when none does. -/
def pickNear (code span : Nat) (ok : Nat → Bool) (choice : Nat) : Nat :=
  let c := ((List.range (2 * span + 2)).map (fun k => code + k - span)).filter
    (fun x => decide (2 ^ 23 ≤ x) && decide (x < 0x7F800000) && ok x)
  if c.isEmpty then code else c.getD (choice % c.length) code

/-- RCP within 1 ulp: the FP32 values c × 2^q with |c × 2^q − 1 / (m × 2^e)| at most one 2^q. -/
def rcp32 (x : Word32) : Word32 :=
  match fpIn true x with
  | .nan => nan32
  | .inf neg => BitVec.ofNat 32 (Fmt.fp32.signCode neg)
  | .fin neg m e =>
    if m = 0 then BitVec.ofNat 32 (Fmt.fp32.infCode neg)
    else if Val.lt (.fin false 1 126) (.fin false m e) then BitVec.ofNat 32 (Fmt.fp32.signCode neg)
    else
      -- 1 / (m 2^e), truncated to 60 bits below its leading place
      let base := Fmt.fp32.rne (.fin false (2 ^ 120 / m) (-e - 120))
      let ok := fun c =>
        let (u, q) := normUnits c
        -- (u - 1) 2^q ≤ 1 / (m 2^e) ≤ (u + 1) 2^q, as (u ∓ 1) m 2^(q + e) against 1
        let k := q + e
        let side := fun (n : Nat) => if 0 ≤ k then (n * m) <<< k.toNat else n * m
        let one := if 0 ≤ k then 1 else 1 <<< (-k).toNat
        decide (side (u - 1) ≤ one) && decide (one ≤ side (u + 1))
      BitVec.ofNat 32 (Fmt.fp32.signCode neg + pickNear base 2 ok (Config.rcpPick x))

/-- RSQRT within 2 ulp. -/
def rsqrt32 (x : Word32) : Word32 :=
  match fpIn true x with
  | .nan => nan32
  | .inf neg => if neg then nan32 else 0
  | .fin neg m e =>
    if m = 0 then BitVec.ofNat 32 (Fmt.fp32.infCode neg)
    else if neg then nan32
    else
      -- m 2^e with e made even; 1 / sqrt = 2^(-e/2) / sqrt m
      let (m, e) := if e % 2 = 0 then (m, e) else (2 * m, e - 1)
      let base := Fmt.fp32.rne (.fin false (Nat.sqrt (2 ^ 160 / m)) (-(e / 2) - 80))
      let ok := fun c =>
        let (u, q) := normUnits c
        let k := 2 * q + e
        let side := fun (n : Nat) => if 0 ≤ k then (n * n * m) <<< k.toNat else n * n * m
        let one := if 0 ≤ k then 1 else 1 <<< (-k).toNat
        decide (side (u - 2) ≤ one) && decide (one ≤ side (u + 2))
      BitVec.ofNat 32 (pickNear base 3 ok (Config.rsqrtPick x))

/-- e^(n / 2^100) for a non-negative n below 2^94, in units of 2^-200: the Taylor series to 24 terms. -/
def expSmall (n : Nat) : Nat :=
  ((List.range 24).foldl (fun (a : Nat × Nat) k =>
    let t := a.2 * n / ((k + 1) <<< 100); (a.1 + t, t)) (2 ^ 200, 2 ^ 200)).1

/-- The square of a number of units of 2^-200, repeated. -/
def squareUnits : Nat → Nat → Nat
  | 0, x => x
  | k + 1, x => squareUnits k ((x * x) >>> 200)

/-- e^x of a finite value in units of 2^-200, |x| below 128: e^(x / 2^14) squared 14 times, inverted for a negative. -/
def expUnits (neg : Bool) (m : Nat) (e : Int) : Nat :=
  -- x / 2^14 in units of 2^-100 is below 2^94
  let n := if 0 ≤ e + 160 then (m <<< (e + 160).toNat) >>> 74 else 0
  let y := squareUnits 14 (expSmall n)
  if neg then 2 ^ 400 / y else y

/-- EXP within 2 ulp. -/
def exp32 (x : Word32) : Word32 :=
  match fpIn true x with
  | .nan => nan32
  | .inf neg => if neg then 0 else BitVec.ofNat 32 (Fmt.fp32.infCode false)
  | .fin neg m e =>
    if Val.lt (.fin false 128 0) (.fin false m e) then
      (if neg then 0 else BitVec.ofNat 32 (Fmt.fp32.infCode false))
    else
      let y := expUnits neg m e
      if y < 2 ^ 74 then 0
      else if (2 ^ 24 - 1) * 2 ^ 304 < y then BitVec.ofNat 32 (Fmt.fp32.infCode false)
      else
        let base := Fmt.fp32.rne (.fin false y (-200))
        let ok := fun c =>
          let (u, q) := normUnits c
          let k := (q + 200).toNat
          decide ((u - 2) <<< k ≤ y) && decide (y ≤ (u + 2) <<< k)
        BitVec.ofNat 32 (pickNear base 3 ok (Config.expPick x))

/-! ### The exact accumulator cell (R122–R125) -/

/-- VALUE of a cell as a signed integer of 320 bits. -/
def cellValue (c : Line) : Int :=
  let u : Int := (c.toNat % 2 ^ 320 : Nat)
  if u < 2 ^ 319 then u else u - 2 ^ 320

/-- A cell of its VALUE, COUNT and flags NAN, PINF, NINF, OVF. -/
def mkCell (v : Int) (count : Nat) (nan pinf ninf ovf : Bool) : Line :=
  BitVec.ofNat 512 ((v % 2 ^ 320).toNat |||
    ((min count (2 ^ 32 - 1) ||| ((if nan then 1 else 0) <<< 32) ||| ((if pinf then 1 else 0) <<< 33) |||
      ((if ninf then 1 else 0) <<< 34) ||| ((if ovf then 1 else 0) <<< 35)) <<< 320))

/-- A flag of a cell: 0 NAN, 1 PINF, 2 NINF, 3 OVF. -/
def cellFlag (c : Line) (k : Nat) : Bool := c.toNat.testBit (352 + k)

/-- COUNT of a cell. -/
def cellCount (c : Line) : Nat := (c.toNat >>> 320) % 2 ^ 32

/-- One contribution added to a cell (R123). -/
def cellAdd (c : Line) (v : Val) : Line :=
  let count := cellCount c + 1
  match v with
  | .nan => mkCell (cellValue c) count true (cellFlag c 1) (cellFlag c 2) (cellFlag c 3)
  | .inf neg =>
    mkCell (cellValue c) count (cellFlag c 0) (cellFlag c 1 || !neg) (cellFlag c 2 || neg) (cellFlag c 3)
  | .fin neg m e =>
    let t := cellValue c + unitsAt neg m e (-152)
    mkCell t count (cellFlag c 0) (cellFlag c 1) (cellFlag c 2)
      (cellFlag c 3 || decide (t < -(2 ^ 319)) || decide (2 ^ 319 - 1 < t))

/-- SETTLE of a cell to a format (R125). -/
def settle (c : Line) (f : Fmt) : Nat :=
  if cellFlag c 0 || cellFlag c 3 || (cellFlag c 1 && cellFlag c 2) then f.nanCode
  else if cellFlag c 1 then f.infCode false
  else if cellFlag c 2 then f.infCode true
  else f.rne (ofUnits (cellValue c) (-152) false)

/-- Addition in a format, rounded once to nearest-even (R280). -/
def Fmt.addCodes (f : Fmt) (x y : Nat) : Nat := f.rne (Val.add (f.decode x) (f.decode y))

end Sys2Proof.Machine
end

