-- ==== Sys2Proof/Machine/CoreOps.lean ====
section
/-! DEFINITION. Tensor cores: the scratchpad, FLAGS and traps, integrity faults, and the issue of an instruction with
its precise checks (R102, R107, R132–R135, R138, R163–R166, R168–R176). -/

namespace Sys2Proof.Machine

/-! ### The scratchpad (R107, R168, R172–R175) -/

/-- Bytes of a scratchpad: 4 MiB. -/
def spSize : Nat := 4194304

/-- One byte of the scratchpad; a zero-marked line reads as zeros (R173). -/
def Core.spByte (k : Core) (o : Nat) : Byte := Tab.get memDefault k.sp o

/-- Bytes of the scratchpad from an offset. -/
def Core.spBytes (k : Core) (o n : Nat) : List Byte := (List.range n).map (fun j => k.spByte (o + j))

/-- Element e of packed elements of so many bits, at most 32, from an offset (R107). -/
def Core.spElem (k : Core) (base bits e : Nat) : Nat :=
  let p := base * 8 + e * bits
  (leNat (k.spBytes (p / 8) 5) >>> (p % 8)) % 2 ^ bits

/-- The bits of one element are replaced, its neighbours kept. -/
def Core.spPutElem (k : Core) (base bits e code : Nat) : Core :=
  let p := base * 8 + e * bits
  let n := (p % 8 + bits + 7) / 8
  let old := leNat (k.spBytes (p / 8) n)
  let cleared := old - (((old >>> (p % 8)) % 2 ^ bits) <<< (p % 8))
  let new := natLE n (cleared + ((code % 2 ^ bits) <<< (p % 8)))
  { k with sp := (new.zipIdx).foldl (fun t e => Tab.put memDefault t (p / 8 + e.2) e.1) k.sp }

/-- The bits of a scratchpad line that an element covers. -/
def elemCover (base bits e line : Nat) : Nat :=
  let lo := max (base * 8 + e * bits) (line * 512)
  let hi := min (base * 8 + (e + 1) * bits) (line * 512 + 512)
  hi - lo

/-- Whether a line is marked poisoned (R175). -/
def Core.spBad (k : Core) (line : Nat) : Bool := Tab.get (fun _ => false) k.spPoison line

/-- A line's poison bit. -/
def Core.spMark (k : Core) (line : Nat) (b : Bool) : Core :=
  { k with spPoison := Tab.put (fun _ => false) k.spPoison line b }

/-- Whether ranges of the scratchpad touch a poisoned line. -/
def Core.spPoisonIn (k : Core) (l : List (Nat × Nat)) : Bool :=
  k.spPoison.any (fun e => l.any (fun r => decide (0 < r.2) && rangesMeet (64 * e.1, 64) r))

/-- A line of the scratchpad has been written: it loses its zero mark, the bytes not written staying zero (R173). -/
def Core.spUse (k : Core) (line : Nat) : Core := { k with spUsed := Tab.put (fun _ => false) k.spUsed line true }

/-- Elements are written by one access: the lines that it touches lose their zero marks, and a poisoned line that it covers
whole becomes clean (R173, R175; log entry 65). -/
def Core.spStore (k : Core) (base bits : Nat) (l : List (Nat × Nat)) : Core :=
  let k' := l.foldl (fun k e => k.spPutElem base bits e.1 e.2) k
  let lines := (l.flatMap fun e =>
    [(base * 8 + e.1 * bits) / 512, (base * 8 + (e.1 + 1) * bits - 1) / 512]).eraseDups
  let part := fun (m : Nat × Bool) => decide ((l.map (fun e => elemCover base bits e.1 m.1)).sum < 512)
  lines.foldl Core.spUse { k' with spPoison := k'.spPoison.filter part }

/-- Bytes are written from an offset by one access. -/
def Core.spWrite (k : Core) (o : Nat) (b : List Byte) : Core :=
  k.spStore o 8 (b.zipIdx.map (fun e => (e.2, e.1.toNat)))

/-- Whether a line carries the zero mark: it reads as zeros with correct parity and without poison (R168, R173). -/
def Core.spZero (k : Core) (line : Nat) : Bool := !Tab.get (fun _ => false) k.spUsed line

/-- The parity bit that a byte is stored with (R168): that of its eight bits. A check that fails is an operand of the command
that reads (R175, log entry 120). -/
def spParityBit (b : Byte) : Bool := ((List.range 8).foldl (fun x i => xor x (b.getLsbD i)) false)

/-- Lines of the scratchpad that an access reads fail their parity checks (R175, R500): each is marked poisoned, counted
and recorded. -/
def State.spParity (s : State) (c : Nat) (bad : List Nat) (reads : List (Nat × Nat)) : State :=
  s.each (bad.filter fun l => reads.any fun r => decide (0 < r.2) && rangesMeet (64 * l, 64) r) fun s l =>
    let k := s.core c
    if k.spBad l || k.spZero l then s
    else
      ((s.setCore c (k.spMark l true)).bump TC_SP_POISON.PARITY c).faultRecord 3 c ((k.launch.map (·.ctx)).getD 0xFFF)
        (0x1000 + c) 0 (64 * l)

/-! ### FLAGS (R163) -/

/-- The FLAGS bits that TRAP makes raise ARITH (R128, R163). -/
def trapMask (trap : Nat) : Nat :=
  trap % 4 ||| (if trap.testBit 2 then 16 else 0) ||| (if trap.testBit 3 then 32 else 0)

/-- The lowest bit set in a number below 64. -/
def lowBit (n : Nat) : Nat := ((List.range 6).find? n.testBit).getD 0

/-- Flags are set in FLAGS. -/
def State.setFlags (s : State) (c flags : Nat) : State := s.wr TC_FLAGS.FLAGS c (s.rd TC_FLAGS.FLAGS c ||| flags)

/-- Flags are set by the instruction at a PC; a trapped one raises ARITH. A core that has stopped sets none after the cycle
in which it stopped (R163, R166). -/
def State.orFlags (s : State) (c pc flags : Nat) : State :=
  let k := s.core c
  match k.launch with
  | none => s
  | some l =>
    if k.ended ∧ k.exc.seen ≠ s.now then s
    else
      let s := s.setFlags c flags
      let t := flags &&& trapMask l.trap
      if t = 0 then s else s.raise c 10 pc (lowBit t)

/-- The FLAGS bits of the conditions of a conversion (R121, R163). -/
def Conds.flags (x : Conds) : Nat :=
  packBits [(0, bit x.nanOut), (1, bit x.overflow), (2, bit x.saturate), (3, bit x.inexact)]

/-! ### Banks (R80, R86, R140) -/

/-- A cell of a bank. -/
def Core.cell (k : Core) (b i j : Nat) : Word32 := Tab.get (fun _ => 0) k.banks (b * 16384 + i * 128 + j)

/-- A cell of a bank is written. -/
def Core.setCell (k : Core) (b i j : Nat) (v : Word32) : Core :=
  { k with banks := Tab.put (fun _ => 0) k.banks (b * 16384 + i * 128 + j) v }

/-- A bank is cleared. -/
def Core.zeroBank (k : Core) (b : Nat) : Core := { k with banks := k.banks.filter (fun e => e.1 / 16384 != b) }

/-- Whether a bank holds integers. -/
def Core.isInt (k : Core) (b : Nat) : Bool := Tab.get (fun _ => false) k.bankInt b

/-- The class of a bank. -/
def Core.setInt (k : Core) (b : Nat) (v : Bool) : Core :=
  { k with bankInt := Tab.put (fun _ => false) k.bankInt b v }

/-- Both banks cleared, their classes floating-point (R91, R102, R140). -/
def Core.clearBanks (k : Core) : Core := { k with banks := [], bankInt := [], issueInt := [] }

/-- The array-operation queue is replaced; the port's next operation, or the pass that streams, begins at this tick if it is
another one. -/
def Core.setArr (k : Core) (now : Nat) (l : List ArrayOp) : Core :=
  let k' := { k with arr := l }
  { k' with portAt := if k'.portRuns = k.portRuns then k.portAt else now,
            streamAt := if k'.streams = k.streams then k.streamAt else now }

/-- A parity check fails in the array or a register (R102): a fault record, both banks cleared, and the launch ends
with INTEGRITY at the instruction. -/
def State.integrity (s : State) (c pc : Nat) : State :=
  let ctx := ((s.core c).launch.map (·.ctx)).getD 0xFFF
  let s := (s.faultRecord 2 c ctx (0x1000 + c) 0 0).dropArr c
  let s := s.setCore c (s.core c).clearBanks
  (s.raise c 13 pc 0).tryEnd c

/-! ### Issue (R132–R134, R159, R165) -/

/-- The 64-bit word of an opcode and its low 56 bits. -/
def tileWord (op : Nat) (body : BitVec 56) : Word := BitVec.ofNat 64 ((op <<< 56) ||| body.toNat)

/-- The opcodes of R132. -/
def opcodes : List Nat :=
  [0x00, 0x01, 0x08, 0x09, 0x10, 0x13, 0x14, 0x18, 0x20, 0x21, 0x22, 0x28, 0x29, 0x30, 0x38, 0x39, 0x40, 0x41, 0x42,
   0x43, 0x48, 0x49, 0x4A]

/-- The instruction at a PC of the instruction store. -/
def Core.instrAt (k : Core) (pc : Nat) : Word := Tab.get (fun _ => 0) k.prog pc

/-- Whether a core may issue: it runs a loaded launch, has not stopped, no SWAIT stalls it,
no save has closed its gates (R478) and its die is not walled off (R488). -/
def State.mayIssue (s : State) (c : Nat) : Bool :=
  let k := s.core c
  s.save.phase == 0 && !(s.rd SYS_CLK_STATUS.TDIE_WALLED).testBit (dieOf c) && s.coreEnabled c && s.rd TC_STATUS.STATE c == 2 && k.launch.isSome && k.loaded && !k.ended && k.swait.isNone

/-- The launch has issued an instruction (R164). -/
def State.markIssue (s : State) (c : Nat) : State :=
  let k := s.core c
  s.setCore c { k with firstIssue := some (k.firstIssue.getD s.now) }

/-- A core issues the instruction with an opcode and low bits: it must be the one at the PC. A meaning that answers
none stalls issue, and nothing happens. An undefined opcode at the PC is ILLEGAL whatever instruction was to be issued
(R133, log entry 23). -/
def State.issue (s : State) (c op : Nat) (body : BitVec 56) (f : State → Nat → Option State) : State :=
  if s.mayIssue c then
    let pc := s.rd TC_PC.PC c
    let w := (s.core c).instrAt pc
    if w = tileWord op body then (f (s.markIssue c) pc).getD s
    else if opcodes.contains (w.toNat >>> 56) then s
    else (s.markIssue c).raise c 1 pc 56
  else s

/-- The bits of a field of an instruction. -/
def fieldAt (b : BitVec 56) (hi lo : Nat) : Nat := bitsOf b.toNat hi lo

/-- The lowest bit of the offending field whose lowest bit is lowest: each reserved bit that is set, and the fields
given by their lowest bits (R133). -/
def lowestOffence (b : BitVec 56) (reserved : Nat) (fields : List (Nat × Bool)) : Option Nat :=
  let l := ((List.range 56).filter (fun i => reserved.testBit i && b.toNat.testBit i)) ++
    ((fields.filter Prod.snd).map Prod.fst)
  l.min?

/-- The bits of a mask from hi down to lo. -/
def maskBits (hi lo : Nat) : Nat := (2 ^ (hi + 1 - lo) - 1) <<< lo

/-- Of several precise exceptions at one instruction the lowest code is raised; of several registers at fault under one
code the manual names none, and a free value chooses (R166, log entry 24). -/
def State.raisePrecise (s : State) (c pc : Nat) (l : List (Nat × Nat)) : State :=
  let code := ((l.map Prod.fst).min?).getD 0
  let ds := ((l.filter (fun e => e.1 == code)).map Prod.snd).eraseDups
  match ds with
  | [d] => s.raise c code pc d
  | _ =>
    let (v, s) := s.free
    s.raise c code pc (ds.getD (v.toNat % max ds.length 1) 0)

/-- An instruction after its checks: ILLEGAL first, then the lowest of the other precise exceptions, else its effect. -/
def State.checked (s : State) (c pc : Nat) (ill : Option Nat) (excs : List (Nat × Nat))
    (ok : Option State) : Option State :=
  match ill with
  | some d => some (s.raise c 1 pc d)
  | none => if excs.isEmpty then ok else some (s.raisePrecise c pc excs)

/-- The checks of a scratchpad range at an offset held in an address register: ALIGN and BOUNDS (R138). -/
def rangeExcs (reg off len : Nat) : List (Nat × Nat) :=
  (if off % 64 ≠ 0 then [(4, reg)] else []) ++ (if spSize < off + len then [(5, reg)] else [])

/-- The value of a field "A[x], or IMM if x = 0". -/
def Core.arOr (k : Core) (x imm : Nat) : Nat := if x = 0 then imm else (k.ar x).toNat

end Sys2Proof.Machine
end

