-- ==== Sys2Proof/Machine/Wire.lean ====
section
/-! DEFINITION. What goes over a link's lanes and an Ethernet port's wire, bit for bit: messages in their slots, flits with
their CRC, fabric packets inside Ethernet frames (R345, R346, R362–R365). -/

namespace Sys2Proof.Machine

/-- The words of bytes, lowest first. -/
def bytesWords (b : List Byte) : List Word :=
  (List.range ((b.length + 7) / 8)).map (fun k => BitVec.ofNat 64 (leNat ((b.drop (8 * k)).take 8)))

/-! ### Messages (R346) -/

/-- The words of a message: its header of three slots, then its data. -/
def msgWords (m : Msg) : List Word :=
  packWord [(0, m.kind), (8, m.data.length), (13, m.lines), (16, m.tag), (32, m.dst)] ::
    packWord [(0, m.src), (32, m.code)] :: BitVec.ofNat 64 (bitsOf m.addr.toNat 51 0) :: m.data

/-- The message that begins some slots and the slots behind it; none at an unused slot, which is 0, or where the slots end
before the message does. -/
def msgOf : List Word → Option (Msg × List Word)
  | w0 :: w1 :: w2 :: rest =>
    let a := w0.toNat
    let n := bitsOf a 12 8
    if a = 0 ∨ rest.length < n then none
    else
      some (⟨bitsOf a 7 0, bitsOf a 15 13, bitsOf a 31 16, bitsOf a 63 32, bitsOf w1.toNat 31 0, bitsOf w1.toNat 39 32,
        BitVec.ofNat 64 (bitsOf w2.toNat 51 0), rest.take n⟩, rest.drop n)
  | _ => none

/-- The messages in some slots, at most so many. -/
def msgsOf : Nat → List Word → List Msg
  | 0, _ => []
  | n + 1, l =>
    match msgOf l with
    | some (m, rest) => m :: msgsOf n rest
    | none => []

/-! ### Flits (R345) -/

/-- The register of the CRC after one more byte: the polynomial of ECMA-182, the highest bit of each byte first (log entry
137). -/
def crcByte (r : Word) (b : Byte) : Word :=
  (List.range 8).foldl (fun x _ => (x <<< 1) ^^^ (if x.msb then 0x42F0E1EBA9EA3693 else 0)) (r ^^^ (b.setWidth 64 <<< 56))

/-- The CRC-64 of bytes, the lowest address first; the register begins at 0 (log entry 137). -/
def crc64 (b : List Byte) : Word := b.foldl crcByte 0

/-- The header word of a flit. -/
def flitHead (f : Flit) : Word :=
  packWord [(0, f.seq), (16, f.ack), (32, bit f.nak), (33, f.cls), (35, bit f.null), (36, f.crClass), (38, bit f.crRsp),
    (39, f.crCount)]

/-- Bytes 0x00 to 0xF7 of a flit, as words: the header and 30 slots. -/
def flitBody (f : Flit) : List Word :=
  let slots := f.msgs.flatMap msgWords
  flitHead f :: slots ++ List.replicate (30 - slots.length) 0

/-- The 32 words of a flit. -/
def flitWords (f : Flit) : List Word := flitBody f ++ [crc64 (wordBytes (flitBody f))]

/-- What 32 words say as a flit. -/
def flitOf (w : List Word) : Flit :=
  let h := (w.headD 0).toNat
  ⟨bitsOf h 15 0, bitsOf h 31 16, bitOf h 32, bitsOf h 34 33, bitOf h 35, bitsOf h 37 36, bitOf h 38, bitsOf h 48 39,
    if bitOf h 35 then [] else msgsOf 10 ((w.drop 1).take 30)⟩

/-- Whether the CRC of a flit's words is that of its bytes 0x00 to 0xF7. -/
def flitIntact (w : List Word) : Bool := w.length == 32 && w.getD 31 0 == crc64 (wordBytes (w.take 31))

/-! ### Packets (R363) -/

/-- The transport header and the messages of a packet, as bytes. -/
def packetBytes (k : Packet) : List Byte :=
  wordBytes (packWord [(0, k.seq), (32, k.ack)] ::
    packWord [(0, k.cls), (2, bit k.nak), (3, bit k.ackOnly), (4, bit k.restart)] :: k.msgs.flatMap msgWords)

/-- What the payload of a UDP datagram says as a packet. -/
def packetOf (b : List Byte) : Packet :=
  let w := bytesWords b
  let x := (w.getD 0 0).toNat
  let y := (w.getD 1 0).toNat
  ⟨bitsOf x 31 0, bitsOf x 63 32, bitsOf y 1 0, bitOf y 2, bitOf y 3, bitOf y 4,
    if bitOf y 3 then [] else msgsOf w.length (w.drop 2)⟩

/-! ### Frames (R362, R363, R365) -/

/-- The n bytes of a number as Ethernet, IP and UDP order them, the highest first. -/
def natBE (n x : Nat) : List Byte := (natLE n x).reverse

/-- The number that bytes spell, the highest first. -/
def beNat (b : List Byte) : Nat := leNat b.reverse

/-- The 16-bit words of bytes, added up. -/
def sum16 : List Byte → Nat
  | a :: b :: r => a.toNat * 256 + b.toNat + sum16 r
  | [a] => a.toNat * 256
  | [] => 0

/-- A sum with its carries added in again, until 16 bits hold it. -/
def fold16 (n : Nat) : Nat :=
  let m := n % 65536 + n / 65536
  m % 65536 + m / 65536

/-- The sum over a datagram and the IPv6 pseudo header of its two addresses; 65,535 where its checksum holds. -/
def udpSum (ips udp : List Byte) : Nat := fold16 (sum16 (ips ++ natBE 4 udp.length ++ natBE 4 17 ++ udp))

/-- A UDP datagram of a payload between two addresses, with its checksum. -/
def udpOf (ips : List Byte) (srcPort dstPort : Nat) (b : List Byte) : List Byte :=
  let head := natBE 2 srcPort ++ natBE 2 dstPort ++ natBE 2 (8 + b.length)
  let c := 65535 - udpSum ips (head ++ natBE 2 0 ++ b)
  head ++ natBE 2 (if c = 0 then 65535 else c) ++ b

/-- The 802.1Q tags at the front of what follows a frame's addresses, and what follows them. -/
def tagsOf : Nat → List Byte → Nat × List Byte
  | 0, b => (0, b)
  | n + 1, b =>
    if beNat (b.take 2) = 0x8100 then let r := tagsOf n (b.drop 4); (r.1 + 1, r.2) else (0, b)

/-- A received frame, without its FCS, taken apart: its tags, its EtherType and what follows it. -/
structure FrameParts where
  /-- 802.1Q tags -/
  tags : Nat
  /-- EtherType -/
  type : Nat
  /-- what follows the EtherType -/
  body : List Byte
  deriving DecidableEq, Repr

/-- The parts of a frame. -/
def frameParts (b : List Byte) : FrameParts :=
  let r := tagsOf 2 (b.drop 12)
  ⟨r.1, beNat (r.2.take 2), r.2.drop 2⟩

/-- A UDP datagram over IPv6 without extension headers. -/
structure Datagram where
  /-- source address, high and low word -/
  src : Word × Word
  /-- destination address -/
  dst : Word × Word
  /-- destination port -/
  port : Nat
  /-- the lengths agree, the transport header is there, and the checksum holds -/
  sound : Bool
  /-- payload -/
  data : List Byte
  deriving DecidableEq, Repr

/-- An IPv6 address of 16 bytes as its two words. -/
def addrWords (b : List Byte) : Word × Word := (BitVec.ofNat 64 (beNat (b.take 8)), BitVec.ofNat 64 (beNat (b.drop 8)))

/-- The datagram in a frame, if it carries one. -/
def datagramOf (f : FrameParts) : Option Datagram :=
  let ip := f.body
  if f.type = 0x86DD ∧ 48 ≤ ip.length ∧ beNat (ip.take 1) / 16 = 6 ∧ beNat ((ip.drop 6).take 1) = 17 then
    let n := beNat ((ip.drop 4).take 2)
    let udp := (ip.drop 40).take n
    some ⟨addrWords ((ip.drop 8).take 16), addrWords ((ip.drop 24).take 16), beNat ((udp.drop 2).take 2),
      udp.length == n && beNat ((udp.drop 4).take 2) == n && decide (24 ≤ n) &&
        udpSum ((ip.drop 8).take 32) udp == 65535, udp.drop 8⟩
  else none

end Sys2Proof.Machine
end

