-- ==== Sys2Proof/Machine/LinkOps.lean ====
section
/-! DEFINITION. Peer windows and the way of a message out of the device: usable links, egress queues, packets, requests
that await a response (R344–R369). -/

namespace Sys2Proof.Machine

/-! ### Ports -/

/-- STATE of a link: 0 DISABLED, 1 TRAINING, 2 ACTIVE, 3 RETRAIN, 4 DOWN (R352). -/
def State.linkState (s : State) (l : Nat) : Nat := if l < 24 then s.rd LK_LINK_STATUS.STATE l else 0

/-- The usable links of a window in ascending order (R357). -/
def State.winLinks (s : State) (w : Nat) : List Nat :=
  (List.range 24).filter fun l =>
    (s.rd LK_WIN.LINKS w).testBit l && (s.linkState l == 2 || s.linkState l == 3) && !s.rejoin.contains (w, l)

/-- An Ethernet peer entry and class. -/
def streamInit (_ : Nat) : EStream := ⟨0, 0, [], 0, false, false, [], none⟩

/-- The stream of an Ethernet peer entry and class (R364). -/
def State.stream (s : State) (e cls : Nat) : EStream := Tab.get streamInit s.estreams (e * 4 + cls)

/-- The stream of an Ethernet peer entry and class is replaced. -/
def State.setStream (s : State) (e cls : Nat) (x : EStream) : State :=
  { s with estreams := Tab.put streamInit s.estreams (e * 4 + cls) x }

/-- Whether an Ethernet peer entry takes requests: VALID and not DOWN (R364). -/
def State.peerUp (s : State) (e : Nat) : Bool := s.flag LK_EPEER_CFG.VALID e && s.rd LK_EPEER_CFG.STATE e != 2

/-- The port that a request to an offset of a window leaves by, as an agent number; none when it has no usable link
or entry (R357). -/
def State.winPort (s : State) (w off : Nat) : Option Nat :=
  if s.flag LK_WIN.VIA w then
    let e := s.rd LK_WIN_DEV.EPEER w
    if s.peerUp e then some (0x9100 + s.rd LK_EPEER_CFG.PORT e) else none
  else
    let l := s.winLinks w
    if l.isEmpty then none else some (0x9000 + l.getD (off / 4096 % l.length) 0)

/-! ### Messages -/

/-- Slots of a message: its header and its data. -/
def Msg.slots (m : Msg) : Nat := 3 + m.data.length

/-- Whether an Ethernet port sends and receives: ENABLE is 1 and its link is up (R369). -/
def State.ethRuns (s : State) (p : Nat) : Bool := s.flag LK_ETH_CFG.ENABLE p && s.flag LK_ETH_STATUS.UP p

/-- Whether a class of an Ethernet port is paused: priority flow control runs and has paused its priority (R362). -/
def State.paused (s : State) (p cls : Nat) : Bool :=
  s.flag LK_ETH_CFG.PFC p &&
    decide (s.now < Tab.get (fun _ => 0) s.pfcUntil (8 * p + bitsOf (s.reg (LK_ETH_CLASS.DSCP_0.off p)).toNat (3 * cls + 34) (3 * cls + 32)))

/-- The 16 bytes of an IPv6 address that two registers hold. -/
def ipBytes (hi lo : Word) : List Byte := natBE 8 hi.toNat ++ natBE 8 lo.toNat

/-- The frame of a packet to an Ethernet peer entry, without its FCS (R363). With priority flow control it carries one 802.1Q
tag, whose priority is its class's (log entry 138). -/
def State.frameOf (s : State) (e : Nat) (k : Packet) : List Byte :=
  let p := s.rd LK_EPEER_CFG.PORT e
  let classes := (s.reg (LK_ETH_CLASS.DSCP_0.off p)).toNat
  let tag := if s.flag LK_ETH_CFG.PFC p then
      natBE 2 0x8100 ++ natBE 2 (bitsOf classes (3 * k.cls + 34) (3 * k.cls + 32) * 8192) else []
  let ips := ipBytes (s.reg (LK_ETH_IP_HI.IP.off p)) (s.reg (LK_ETH_IP_LO.IP.off p)) ++
    ipBytes (s.reg (LK_EPEER_IP_HI.IP.off e)) (s.reg (LK_EPEER_IP_LO.IP.off e))
  let udp := udpOf ips (0xC000 + 0x1000 * k.cls + e) (s.rd LK_ETH_CFG.UDP_PORT p) (packetBytes k)
  natBE 6 (s.rd LK_EPEER_CFG.NEXT_MAC e) ++ natBE 6 (s.rd LK_ETH_MAC.MAC p) ++ tag ++ natBE 2 0x86DD ++
    natBE 4 (6 * 2 ^ 28 + bitsOf classes (6 * k.cls + 5) (6 * k.cls) * 2 ^ 22 + Config.flowLabel % 2 ^ 20) ++
    natBE 2 udp.length ++ [17, Config.hopLimit] ++ ips ++ udp

/-- Packets leave by an Ethernet port that runs, unless their class is paused. -/
def State.emit (s : State) (e cls : Nat) (ks : List Packet) : State :=
  let p := s.rd LK_EPEER_CFG.PORT e
  if s.ethRuns p && !s.paused p cls then
    { s with ethTx := (ks.map fun k => (0x9100 + p, s.frameOf e k)).reverse ++ s.ethTx }
  else s

/-- A packet of one message is sent to an Ethernet peer entry (R363; one message a packet, log entry 30). -/
def State.sendPacket (s : State) (e cls : Nat) (ms : List Msg) (ackOnly : Bool := false) : State :=
  let x := s.stream e cls
  let k : Packet := ⟨x.txSeq, (x.rxSeq + 2 ^ 32 - 1) % 2 ^ 32, cls, x.nak, ackOnly, x.restart, ms⟩
  let x' := if ackOnly then { x with nak := false }
    else { x with txSeq := (x.txSeq + 1) % 2 ^ 32, unacked := x.unacked ++ [k], nak := false, restart := false,
                  progress := if x.unacked.isEmpty then s.now else x.progress }
  (s.setStream e cls x').emit e cls [k]

/-- Whether a request that has left awaits a response under a TAG: until then no other request may use it (R346, R360). -/
def State.tagBusy (s : State) (tag : Nat) : Bool := s.peerReqs.any fun r => r.tag == tag && r.sent.isSome

/-- Whether a message may leave now: a response, or a request whose TAG is free (R360). -/
def State.mayLeave (s : State) (m : Msg) : Bool := isResponse m.kind || !s.tagBusy m.tag

/-- The requests that messages carry and that have not left: for each message the oldest. -/
def State.reqsOf (s : State) (ms : List Msg) : List PeerReq :=
  ms.filterMap fun m => s.peerReqs.find? fun r => r.sent.isNone && r.msg == m

/-- Requests have left the device: their windows begin (R360). -/
def State.markSent (s : State) (ms : List Msg) : State :=
  let ids := (s.reqsOf ms).map (·.id)
  { s with peerReqs := s.peerReqs.map fun (r : PeerReq) => if ids.contains r.id then { r with sent := some s.now } else r }

/-- Whether a message can leave to an Ethernet peer entry at once: fewer than 256 packets are unacknowledged, its class is
not paused, and its TAG is free (R360, R362, R364). -/
def State.packetGoes (s : State) (e cls : Nat) (m : Msg) : Bool :=
  decide ((s.stream e cls).unacked.length < 256) && !s.paused (s.rd LK_EPEER_CFG.PORT e) cls && s.mayLeave m

/-- A message enters the egress of a port in a class: a link's queue, or a packet when one can leave at once and none waits
before it (R347, R364). -/
def State.pushMsg (s : State) (port entry cls : Nat) (m : Msg) : State :=
  if port < 0x9100 then
    let l := port - 0x9000
    let x := s.link l
    let key := 2 * cls + bit (isResponse m.kind)
    let old := Tab.get (fun _ => []) x.egress key
    s.setLink l { x with egress := Tab.put (fun _ => []) x.egress key (old ++ [m])
                         headAt := if old.isEmpty && decide (key < 2) then Tab.put (fun _ => 0) x.headAt key s.now
                                   else x.headAt }
  else
    let x := s.stream entry cls
    if x.waiting.isEmpty && s.packetGoes entry cls m then
      let s := s.sendPacket entry cls [m]
      if isResponse m.kind then s else s.markSent [m]
    else s.setStream entry cls { x with waiting := x.waiting ++ [m] }

/-- This device's identifier. -/
def State.deviceId (s : State) : Nat := s.rd LK_DEVICE_ID.DEVICE

/-- The peer's address of an address in a window (R355). -/
def State.remoteAddr (s : State) (w pa : Nat) : Nat := s.rd LK_WIN.REMOTE_HI w * 2 ^ 40 + (pa - peerBase) % 2 ^ 40

/-- A request to an address in a window, that awaits a response: it enters the egress of the window's port; none when
the window has no usable link or entry, and then it is LOST at once (R354, R357). -/
def State.sendReq (s : State) (w pa lines cls dst : Nat) (who : Requester) (kind code : Nat) (addr : Word)
    (data : List Word) : Option State :=
  match s.winPort w (pa % 2 ^ 40) with
  | none => none
  | some port =>
    let tag := s.nextTag % 65536
    let m : Msg := ⟨kind, if kind = 1 ∨ kind = 3 then lines else 0, tag, dst, s.deviceId, code, addr, data⟩
    let r : PeerReq := ⟨s.nextTag, tag, port, w, pa, lines, who, none, cls, m⟩
    let s := { s with nextTag := s.nextTag + 1, peerReqs := s.peerReqs ++ [r] }
    some (s.pushMsg port (s.rd LK_WIN_DEV.EPEER w) cls m)

/-- The window of a peer address. -/
def winOf (pa : Nat) : Nat := (pa - peerBase) / 2 ^ 40

/-- The pieces of a range for messages: whole lines in groups of at most three inside one granule, partial lines
alone: address and bytes (R346). -/
def msgPieces : Nat → Nat → Nat → List (Nat × Nat)
  | 0, _, _ => []
  | n + 1, pa, len =>
    if len = 0 then []
    else
      let toLine := 64 - pa % 64
      let k := if pa % 64 ≠ 0 ∨ len < 64 then min toLine len
        else 64 * min 3 (min (len / 64) ((4096 - pa % 4096) / 64))
      (pa, k) :: msgPieces n (pa + k) (len - k)

/-- The line that holds bytes from an offset. -/
def lineAt (o : Nat) (b : List Byte) : Line := BitVec.ofNat 512 (leNat b <<< (8 * o))

/-- The eight words of a line. -/
def lineWords (l : Line) : List Word := (List.range 8).map (fun k => BitVec.ofNat 64 (l.toNat >>> (64 * k)))

/-- Bytes are sent into a peer window: the state, and the lines LOST at once for want of a link. Partial lines go as
WRITE_MASKED (R346, R355). -/
def State.peerWrite (s : State) (cls : Nat) (who : Requester) (pa : Nat) (b : List Byte) (masked : Bool := false) :
    State × Nat :=
  let w := winOf pa
  let pieces := if masked then (linesOf pa b.length).map fun l =>
      (max pa (64 * l), min (pa + b.length) (64 * l + 64) - max pa (64 * l))
    else msgPieces (b.length + 1) pa b.length
  pieces.foldl
    (fun a p =>
      let bs := (b.drop (p.1 - pa)).take p.2
      let whole := p.1 % 64 = 0 ∧ p.2 % 64 = 0 ∧ !masked
      let lines := if whole then p.2 / 64 else 1
      let addr := BitVec.ofNat 64 (a.1.remoteAddr w (if whole then p.1 else p.1 / 64 * 64))
      let data := if whole then bytesWords bs else maskOf (p.1 % 64) p.2 :: lineWords (lineAt (p.1 % 64) bs)
      match a.1.sendReq w p.1 lines cls (a.1.rd LK_WIN_DEV.DEVICE w) who (if whole then 1 else 2) 0 addr data with
      | some s => (s, a.2)
      | none => (a.1.bump LK_STATUS.LOST 0, a.2 + lines))
    (s, 0)

/-- The lines of a range are asked of a peer: the state, and the lines LOST at once. -/
def State.peerRead (s : State) (cls : Nat) (who : Requester) (pa len : Nat) : State × Nat :=
  let w := winOf pa
  let lo := pa / 64 * 64
  let n := (linesOf pa len).length * 64
  (msgPieces (n + 1) lo n).foldl
    (fun a p =>
      let addr := BitVec.ofNat 64 (a.1.remoteAddr w p.1)
      match a.1.sendReq w p.1 (p.2 / 64) cls (a.1.rd LK_WIN_DEV.DEVICE w) who 3 0 addr [] with
      | some s => (s, a.2)
      | none => (a.1.bump LK_STATUS.LOST 0, a.2 + p.2 / 64))
    (s, 0)

/-- Whether a response can still leave by a port: its link is ACTIVE or in RETRAIN, its Ethernet entry not DOWN (R354). -/
def State.portUp (s : State) (port entry : Nat) : Bool :=
  if port < 0x9100 then s.linkState (port - 0x9000) == 2 || s.linkState (port - 0x9000) == 3 else s.peerUp entry

/-- A response to a message leaves by the port it came from, in the class of the request (R346); the response to a
request of a neighbour whose link is DOWN, or has been since it came, is discarded (R354). -/
def State.respond (s : State) (port : Nat) (x : RxMsg) (kind code : Nat) (data : List Word) : State :=
  if s.portUp port x.entry && !x.mute then
    s.pushMsg port x.entry x.cls
      ⟨kind, if kind = 0x42 then x.msg.lines else 0, x.msg.tag, x.msg.src, s.deviceId, code, x.msg.addr, data⟩
  else s

/-- The requests of an asker that have not left the device. -/
def State.unsent (s : State) (who : Requester) : Nat :=
  (s.peerReqs.filter (fun r => r.who == who && r.sent.isNone)).length

/-- The requests of an asker that await a response or have not left. -/
def State.owed (s : State) (who : Requester) : Nat := (s.peerReqs.filter (fun r => r.who == who)).length

end Sys2Proof.Machine
end

