-- ==== Sys2Proof/Machine/Queues.lean ====
section
/-! DEFINITION. Queues as software drives them and as the engine fetches from them: enable and disable, TAIL, RESUME and
ABANDON, and the reading of slots with the first checks of a command (R190–R206, R214, R536). -/

namespace Sys2Proof.Machine

/-! ### Enable and disable (R191, R192) -/

/-- A command of a queue has completed with an error that parks the queue when its entry is written (R199). -/
def State.errDue (s : State) (q : Nat) : Bool :=
  s.flag QE_Q_CFG.STOP_ON_ERR q && s.inflight.any (fun f => f.q == q && f.status.isSome && f.status != some 0)

/-- Whether a queue starts and fetches: it is ACTIVE, no disable is under way, no command of it has failed under STOP_ON_ERR,
and no save has begun (R190, R192, R199, R478). -/
def State.qRuns (s : State) (q : Nat) : Bool :=
  s.qActive q && s.flag QE_Q_CFG.ENABLE q && !(s.queue q).enableKept && !s.errDue q && s.save.phase == 0

/-- Whether both rings of a queue are admitted to its context, whose partition is the queue's (R191, R443). -/
def State.ringsOk (s : State) (q : Nat) : Bool :=
  let c := Subject.context (s.rd QE_Q_CFG.CONTEXT q)
  s.queuePartOk q &&
    s.admitsSub c false (s.rd QE_Q_RING.BASE q * 4096) (s.rd QE_Q_CFG.SLOTS q * 64) &&
    s.admitsSub c true (s.rd QE_Q_CQ_BASE.BASE q * 4096) (s.rd QE_Q_CQ_CFG.ENTRIES q * 32)

/-- The check of a DISABLED queue whose ENABLE is 1 (R191): ACTIVE with its indices at 0, or DISABLED with RING_DENIED. -/
def State.enableQueue (s : State) (q : Nat) : State :=
  if s.ringsOk q then
    let s := ((s.wr QE_Q_STATUS.HEAD q 0).wr QE_DB_TAIL.TAIL q 0).wr QE_DB_STATUS.CQ_TAIL q 0
    ((s.wr QE_DB_CQ_HEAD.CQ_HEAD q 0).setQueue q (queueInit q)).qSet q 1 0
  else (s.setQueue q { queueInit q with refused := true }).qSet q 0 6

/-- A queue whose disable is under way becomes DISABLED once its last record is written; an ENABLE 1 that came meanwhile
is checked then (R192). -/
def State.tryDisable (s : State) (q : Nat) : State :=
  let x := s.queue q
  if s.rd QE_Q_STATUS.STATE q ≠ 0 ∧ (!s.flag QE_Q_CFG.ENABLE q ∨ x.enableKept) ∧
      !s.inflight.any (fun f => f.q == q) ∧ x.heldCq = [] then
    let s := (s.setQueue q (queueInit q)).qSet q 0 0
    if x.enableKept then s.enableQueue q else s
  else s

/-- A store to QE_Q_CFG: ENABLE 1 on a DISABLED queue makes the check, on one that drains it is kept; ENABLE 0 begins a
disable, in which a COPY that has started goes on, and the queue leaves its fault (R191, R192, R242). -/
def State.queueCfg (s : State) (agent q : Nat) (v : Word) : State :=
  let was := s.flag QE_Q_CFG.ENABLE q
  let s := s.storeReg agent (QE_Q_CFG.ENABLE.off q) v
  if s.flag QE_Q_CFG.ENABLE q then
    if s.rd QE_Q_STATUS.STATE q = 0 then s.enableQueue q
    else if was then s
    else s.setQueue q { s.queue q with enableKept := true }
  else if was then
    let s := s.setQueue q { s.queue q with
      enableKept := false, chosen := (s.queue q).chosen && s.headBusy q, refused := false, released := none }
    ((if s.rd QE_Q_STATUS.STATE q = 0 then s.qSet q 0 0 else s).leaveFault q).tryDisable q
  else s

/-- QUEUE_ENABLE (R191): a write of QE_Q_CFG with ENABLE 1. -/
def execQueueEnable (t agent q : Nat) (v : Word) (s : State) : Res :=
  s.live t fun s =>
    if 16384 ≤ q ∨ QE_Q_CFG.ENABLE.get v ≠ 1 then s
    else s.gate agent (QE_Q_CFG.ENABLE.off q) true fun s => s.queueCfg agent q v

/-- QUEUE_DISABLE (R192): a write of QE_Q_CFG with ENABLE 0. -/
def execQueueDisable (t agent q : Nat) (v : Word) (s : State) : Res :=
  s.live t fun s =>
    if 16384 ≤ q ∨ QE_Q_CFG.ENABLE.get v ≠ 0 then s
    else s.gate agent (QE_Q_CFG.ENABLE.off q) true fun s => s.queueCfg agent q v

/-! ### The end of a COPY or an INLINE_WRITE (R174, R182, R205, R233, R354, R358) -/

/-- The status and DETAIL of a COPY or INLINE_WRITE whose lines have all ended: XLATE after ABANDON, DENIED, ABORTED with
the lines discarded, LOST with the lines not confirmed, POISON with the lines delivered as poison, or OK (R218). -/
def State.moveStatus (s : State) (x : InFlight) : Nat × Nat :=
  let open_ := ((s.peerReqs.filter fun r => match r.who with
    | .cmd q i _ => q == x.q && i == x.i
    | _ => false).map (·.lines)).sum
  if x.abandoned then (6, x.detail)
  else
    match x.denied with
    | some va => (5, va)
    | none =>
      if !x.spGone.isEmpty then (10, x.aborted.length)
      else if 0 < x.lost ∨ !x.gone.isEmpty then (8, x.lost + x.gone.length + open_)
      else if !x.poison.isEmpty then (11, x.poison.length)
      else (0, 0)

/-- Whether a descriptor's lines have all been accepted by their links, and those read from a peer have arrived (R182). -/
def State.descDone (s : State) (x : InFlight) (d : CopyDesc) : Bool :=
  d.moved && (s.peerReqs.all fun r => match r.who with
    | .cmd q i pos => !(q == x.q && i == x.i && pos == d.pos) || (r.sent.isSome && r.msg.kind != 3)
    | _ => true)

/-- A COPY or INLINE_WRITE gives up the descriptors that are done, and completes after its last (R205, R233). -/
def State.cmdSettle (s : State) (q i : Nat) : State :=
  match s.flight q i with
  | none => s
  | some x =>
    if x.status.isSome then s
    else
      let left := x.descs.filter fun d => !s.descDone x d
      let s := s.setFlight { x with descs := left }
      if left.isEmpty ∧ x.whole ∧ x.begun then
        let r := s.moveStatus x
        s.finish q i r.1 r.2
      else s

/-! ### Resuming (R197, R199, R536) -/

/-- TAIL − HEAD exceeds SLOTS (R197). -/
def State.overrun (s : State) (q : Nat) : Bool := decide (s.rd QE_Q_CFG.SLOTS q < s.qAvail q)

/-- The WAIT of a queue that has started and is not complete (R213). -/
def State.runningWait (s : State) (q : Nat) : Option InFlight :=
  s.inflight.find? (fun f => f.q == q && f.kind == 5 && f.status.isNone)

/-- Whether a queue's WAIT is registered at its object. -/
def State.waitsAt (s : State) (q : Nat) : Bool := s.waiters.any (fun w => decide (w.who = WaiterId.queue q))

/-- A queue's WAIT registers at its object and is evaluated against VALUE as it stands (R211, R249). -/
def State.registerWait (s : State) (q : Nat) (f : InFlight) : State :=
  let w := (f.words.getD 1 0).toNat
  let obj := bitsOf w 12 0
  let x : Waiter := ⟨.queue q, obj, bitsOf w 14 13, f.words.getD 2 0, s.now, bitsOf w 19 15⟩
  let s := { s with waiters := s.waiters ++ [x] }
  s.wake obj (s.reg (SY_VAL.VALUE.off obj))

/-- A PARKED queue becomes ACTIVE: held completion entries are written first, and then every park condition is tested afresh:
OVERRUN, and a WAIT that has timed out meanwhile; a COPY that has started goes on with its next descriptor (R197, R199, R233,
R536). -/
def State.activate (s : State) (q : Nat) : State :=
  let s := (s.qSet q 1 0).cqFlush q (s.queue q).heldCq
  if (s.queue q).heldCq ≠ [] ∧ !(s.queue q).cqFull then s.qSet q 2 8
  else if s.overrun q then s.park q 2
  else
    match s.runningWait q with
    | some f => if f.begun && !s.waitsAt q then s.park q 4 else s
    | none => if s.headBusy q then s.setQueue q { s.queue q with chosen := true } else s

/-- What RESUME does for a PARKED queue's reason (R199, R492, R536): a walk or a WAIT is tried again, the check of an
enable that a context reset parked is repeated, and OVERRUN holds while TAIL is too far. -/
def State.resumeQueue (s : State) (q : Nat) : State :=
  if !s.qParked q then s
  else
    match s.rd QE_Q_STATUS.REASON q with
    | 2 => if s.overrun q then s else s.activate q
    | 3 =>
      let s := s.activate q
      if s.qActive q ∧ (s.queue q).fetched ≠ [] then s.setQueue q { s.queue q with chosen := true } else s
    | 4 =>
      match s.runningWait q with
      | some f => if s.waitsAt q then s.activate q else (s.registerWait q f).activate q
      | none => s.activate q
    | 7 => if (s.queue q).refused then s.enableQueue q else s.activate q
    | _ => s.activate q

/-- The command at HEAD of a queue whose walk failed is abandoned: it completes with XLATE, a COPY once its started descriptors
are complete (R190, R233). -/
def State.abandonHead (s : State) (q : Nat) : State :=
  let va := (s.queue q).faultVa
  let s := (s.setQueue q { s.queue q with faulted := false }).leaveFault q
  match (s.queue q).fetched with
  | [] => s
  | f :: _ =>
    match s.flight q f.i with
    | some x => ((s.setFlight { x with whole := true, abandoned := true, detail := va }).passHead q).cmdSettle q f.i
    | none => s.failHead q 6 va

/-- ABANDON (R190, R199): the command at HEAD completes with XLATE, or the WAIT that timed out with TIMEOUT, and the
queue resumes. -/
def State.abandonQueue (s : State) (q : Nat) : State :=
  if !s.qParked q then s
  else
    match s.rd QE_Q_STATUS.REASON q with
    | 3 => (s.abandonHead q).activate q
    | 4 =>
      match s.runningWait q with
      | some f => (s.finish q f.i 9 (bitsOf (f.words.getD 1 0).toNat 12 0)).activate q
      | none => s.activate q
    | _ => s

/-- Whether ABANDON acts on a queue: it is PARKED with XLATE or WAIT_TIMEOUT (R199). -/
def State.canAbandon (s : State) (q : Nat) : Bool :=
  s.qParked q && (s.rd QE_Q_STATUS.REASON q == 3 || s.rd QE_Q_STATUS.REASON q == 4)

/-- A store to QE_Q_CTRL (R190): of both bits, ABANDON acts where it can, and RESUME otherwise (log entry 131). -/
def State.queueCtrl (s : State) (q : Nat) (v : Word) : State :=
  let s := if QE_Q_CTRL.ABANDON.get v = 1 ∧ s.canAbandon q then s.abandonQueue q
    else if QE_Q_CTRL.RESUME.get v = 1 then s.resumeQueue q else s
  s.tryDisable q

/-- RESUME (R199): a write of QE_Q_CTRL with RESUME 1. -/
def execResume (t agent q : Nat) (s : State) : Res :=
  s.live t fun s =>
    if 16384 ≤ q then s
    else s.gate agent (QE_Q_CTRL.RESUME.off q) true fun s => s.queueCtrl q 1

/-- ABANDON (R190): a write of QE_Q_CTRL with ABANDON 1. -/
def execAbandon (t agent q : Nat) (s : State) : Res :=
  s.live t fun s =>
    if 16384 ≤ q then s
    else s.gate agent (QE_Q_CTRL.RESUME.off q) true fun s => s.queueCtrl q 2

/-! ### CQ_HEAD (R195, R198) -/

/-- A write of QE_DB_CQ_HEAD: entries that waited for free places alone are written as far as there are any (R198, log entry
130). -/
def State.cqHeadTo (s : State) (q head : Nat) : State :=
  let s := s.wr QE_DB_CQ_HEAD.CQ_HEAD q head
  if (s.queue q).heldCq ≠ [] ∧ (s.queue q).cqFull then
    let s := s.cqFlush q (s.queue q).heldCq
    let s := if (s.queue q).heldCq ≠ [] ∧ !(s.queue q).cqFull ∧ s.qActive q then s.qSet q 2 8 else s
    s.tryDisable q
  else s

/-! ### TAIL (R197) -/

/-- The commands fetched that a TAIL still covers, and the one that has started descriptors (R197, R233). -/
def State.covered (s : State) (q : Nat) : List Fetched :=
  (s.queue q).fetched.filter fun f =>
    decide (idxDiff f.i (s.qHead q) + slotsOf (f.words.headD 0) ≤ s.qAvail q) || (s.flight q f.i).isSome

/-- Commands fetched beyond TAIL that have not started are dropped, as if they had never been fetched (R197). -/
def State.dropBeyond (s : State) (q : Nat) : State :=
  let kept := s.covered q
  let s := if kept.isEmpty then s.ungate q ((s.queue q).gates.map Prod.fst) else s
  let x := s.queue q
  let x := if kept.isEmpty then { x.dropHead with fetched := [] } else { x with fetched := kept }
  let s := s.setQueue q x
  match x.reread with
  | some (i, _, _) => if idxDiff i (s.qHead q) < s.qAvail q then s else s.setQueue q { x with reread := none }
  | none => s

/-- A write of TAIL, by a doorbell or a trigger (R197, R256). A disable under way may end with it (R192). -/
def State.tailTo (s : State) (q tail : Nat) : State :=
  let s := s.wr QE_DB_TAIL.TAIL q tail
  if s.qParked q then
    let s := if s.overrun q then s else s.dropBeyond q
    if s.rd QE_Q_STATUS.REASON q = 1 then (s.activate q).tryDisable q else s
  else if s.qActive q then if s.overrun q then s.park q 2 else s.dropBeyond q
  else s

/-- TAIL_WRITE (R197): a write of QE_DB_TAIL. -/
def execTailWrite (t agent q : Nat) (v : Word) (s : State) : Res :=
  s.live t fun s =>
    if 16384 ≤ q then s
    else s.gate agent (QE_DB_TAIL.TAIL.off q) true fun s =>
      (s.storeReg agent (QE_DB_TAIL.TAIL.off q) v).tailTo q (v.toNat % 2 ^ 32)

/-! ### The checks of a command at fetch (R200, R205–R214) -/

/-- The bits of a command's word w that are not reserved (R207, R209–R212); bits and words that a layout does not list count as
reserved (log entry 133). -/
def cmdMask (kind w : Nat) : Nat :=
  let low := fun (n : Nat) => 2 ^ n - 1
  match kind, w with
  | 1, 1 => low 63 | 1, 2 => low 48 | 1, 3 => low 53 | 1, 4 => low 35
  | 1, 8 => low 64 | 1, 9 => low 64 | 1, 10 => low 64 | 1, 11 => low 64
  | 2, 1 => low 48 | 2, 2 => low 48 | 2, 3 => low 44
  | 3, 1 => low 48 | 3, 2 => 0x37F
  | 3, _ => low 64
  | 4, 1 => low 15 | 4, 2 => low 64
  | 5, 1 => low 20 | 5, 2 => low 64
  | 6, 1 => low 48 | 6, 2 => low 48
  | 7, 1 => low 17
  | 8, 1 => low 40 - 8
  | 9, 1 => 1
  | _, _ => 0

/-- Bytes of a scratchpad (R49, R209). -/
def spBytes : Nat := 4194304

/-- The offsets of fields that hold an undefined code, a TWO or a scratchpad address that breaks the layout (R49, R206,
R211). -/
def cmdBadCodes (kind : Nat) (w : List Word) : List Nat :=
  let h := (w.headD 0).toNat
  let at_ := fun (n : Nat) => (w.getD n 0).toNat
  (if bitsOf h 31 27 ≠ 0 ∨ (kind ≠ 3 ∧ bitsOf h 24 24 ≠ bit (decide (kind = 1))) then [0] else []) ++
  (if kind = 4 ∧ 2 ≤ bitsOf (at_ 1) 14 13 then [8] else []) ++
  (if kind = 2 ∧ bitOf (at_ 3) 40 ∧ bitsOf (at_ 1) 47 30 ≠ 0 then [8] else []) ++
  (if kind = 2 ∧ bitOf (at_ 3) 41 ∧ bitsOf (at_ 2) 47 30 ≠ 0 then [16] else [])

/-- The offsets of checked fields outside their ranges or misaligned (R128, R206, R207, R209, R210, R212). -/
def cmdBadRanges (kind : Nat) (w : List Word) : List Nat :=
  let at_ := fun (n : Nat) => (w.getD n 0).toNat
  let len := bitsOf (at_ 3) 39 0
  match kind with
  | 1 =>
    let n := bitsOf (at_ 1) 62 48
    let k := bitsOf (at_ 3) 52 48
    (if at_ 1 % 8 ≠ 0 ∨ n = 0 ∨ 16384 < n then [8] else []) ++ (if at_ 2 % 64 ≠ 0 then [16] else []) ++
    (if at_ 3 % 64 ≠ 0 ∨ k = 0 ∨ 16 < k then [24] else [])
  | 2 =>
    (if bitOf (at_ 3) 40 ∧ 0 < len ∧ spBytes < at_ 1 % spBytes + len then [8] else []) ++
    (if bitOf (at_ 3) 41 ∧ 0 < len ∧ spBytes < at_ 2 % spBytes + len then [16] else [])
  | 3 =>
    let n := bitsOf (at_ 2) 6 0
    if n = 0 ∨ (if bitOf (w.headD 0).toNat 24 then 104 else 40) < n then [16] else []
  | 6 => if at_ 1 % 64 ≠ 0 then [8] else []
  | _ => []

/-- The status and DETAIL of checks 2 and 3 of a command (R206, R214): OK, BAD_KIND, BAD_FIELD or BAD_RANGE. -/
def cmdCheck (w : List Word) : Nat × Nat :=
  let kind := bitsOf (w.headD 0).toNat 23 16
  if kind = 0 ∨ 9 < kind then (1, 0)
  else
    let reserved := (w.zipIdx.filter fun e => decide (e.2 ≠ 0) && (e.1.toNat &&& (2 ^ 64 - 1 - cmdMask kind e.2)) != 0).map
      fun e => 8 * e.2
    match (cmdBadCodes kind w ++ reserved).min? with
    | some d => (2, d)
    | none =>
      match (cmdBadRanges kind w).min? with
      | some d => (4, d)
      | none => (0, 0)

/-- One slot of a queue's ring read as one coherent line (R203, R204): its words, none when the read is refused or
poisoned (R199). -/
def State.slotWords (s : State) (q i : Nat) : Option (List Word) × State :=
  let a := s.rd QE_Q_RING.BASE q * 4096 + i % s.rd QE_Q_CFG.SLOTS q * 64
  if s.plainOk (s.subject (0x4000 + q)) false a 64 then
    let (w, p, s) := s.engWords a 8
    (if p then none else some w, s)
  else (none, s)

/-- A read of the slot of index i, after so many failed re-reads since the first read (R202, R203): the command is
fetched, the queue waits for its second slot or for a fresh GEN, or parks. A re-read is counted (R513). -/
def State.readSlot (s : State) (q i : Nat) (first fails : Nat) : State :=
  let s := if fails = 0 then s else s.pmcHub (hubOfQueue q) 66 (some (s.rd QE_Q_CFG.CONTEXT q))
  match s.slotWords q i with
  | (none, s) => s.park q 6
  | (some w, s) =>
    let x := s.queue q
    let fetch := fun (s : State) (w : List Word) =>
      s.setQueue q { s.queue q with fetched := x.fetched ++ [⟨i, w, (cmdCheck w).1, (cmdCheck w).2⟩], reread := none }
    if bitsOf (w.headD 0).toNat 15 0 ≠ genOf i (s.rd QE_Q_CFG.SLOTS q) then
      (s.setQueue q { x with reread := some (i, first, fails) }).parkAhead q
    else if slotsOf (w.headD 0) = 2 then
      if idxDiff (s.rd QE_DB_TAIL.TAIL q) i < 2 then s.setQueue q { x with reread := none }
      else
        match s.slotWords q (i + 1) with
        | (none, s) => s.park q 6
        | (some w2, s) => fetch s (w ++ w2)
    else fetch s w

/-- Whether index i is the next that a running queue reads (R203). -/
def State.readsNext (s : State) (q i : Nat) : Bool :=
  s.qRuns q && i == s.nextFetch q && decide (1 ≤ idxDiff (s.rd QE_DB_TAIL.TAIL q) i) &&
    decide (idxDiff (s.rd QE_DB_TAIL.TAIL q) i ≤ s.rd QE_Q_CFG.SLOTS q)

/-- SLOT_READ (R203): the engine reads a published slot. -/
def execSlotRead (t q i : Nat) (found : Found) (s : State) : Res :=
  s.live t fun s =>
    if s.readsNext q i ∧ (s.queue q).reread = none then
      s.reads found 0 (0x4000 + q) fun s => s.readSlot q i s.now 0
    else s

/-- SLOT_REREAD (R203): 250 ns after a failed read the engine reads the slot again. -/
def execSlotReread (t q i : Nat) (found : Found) (s : State) : Res :=
  s.live t fun s =>
    match (s.queue q).reread with
    | some (j, first, n) =>
      if s.readsNext q i ∧ i = j ∧ first + 250 * (n + 1) ≤ s.now then
        s.reads found 0 (0x4000 + q) fun s => s.readSlot q i first (n + 1)
      else s
    | none => s

end Sys2Proof.Machine
end

