-- ==== Sys2Proof/Machine/Sync.lean ====
section
/-! DEFINITION. Sync objects as agents reach them: operations, triggers, events and the end of a wait's window
(R245–R260). -/

namespace Sys2Proof.Machine

/-! ### Operations (R246) -/

/-- SY_ADD (R246): an agent's ADD is performed at an object. -/
def execSyAdd (t agent obj : Nat) (v : Word) (s : State) : Res :=
  s.live t fun s =>
    if 8192 ≤ obj then s else s.gate agent (SY_ADD.V.off obj) true fun s => s.syPerform obj false v

/-- SY_SET (R246): an agent's SET is performed at an object. -/
def execSySet (t agent obj : Nat) (v : Word) (s : State) : Res :=
  s.live t fun s =>
    if 8192 ≤ obj then s else s.gate agent (SY_SET.V.off obj) true fun s => s.syPerform obj true v

/-! ### Triggers (R254–R257) -/

/-- The partition that a trigger's TARGET belongs to: a queue's, or a host core's. -/
def State.targetPart (s : State) (cfg : Word) : Nat :=
  let n := SY_TRIG_CFG.TARGET.get cfg
  if SY_TRIG_CFG.ACTION.get cfg = 1 then s.partOfHost n else s.partOfQueue n

/-- The check of a trigger: its TARGET belongs to its object's partition (R257). -/
def State.trigOk (s : State) (obj : Nat) (cfg : Word) : Bool := s.targetPart cfg == s.partOfObj obj

/-- Whether a trigger's word says that it is armed and not refused (R254). -/
def armedWord (cfg : Word) : Bool := SY_TRIG_CFG.ARM.get cfg == 1 && SY_TRIG_CFG.REFUSED.get cfg == 0

/-- What follows a change of a trigger's registers from an earlier SY_TRIG_CFG: with ARM 1 the check, and one evaluation
when the trigger has become armed (R254, R257). -/
def State.trigChanged (s : State) (obj : Nat) (before : Word) : State :=
  let cfg := s.reg (SY_TRIG_CFG.ARM.off obj)
  if SY_TRIG_CFG.ARM.get cfg = 1 then
    let s := s.wr SY_TRIG_CFG.REFUSED obj (bit (!s.trigOk obj cfg))
    if armedWord (s.reg (SY_TRIG_CFG.ARM.off obj)) && !armedWord before then s.evalTrigger obj else s
  else s

/-- A live write of SY_TRIG_CFG. -/
def State.trigStore (s : State) (agent obj : Nat) (v : Word) : State :=
  let off := SY_TRIG_CFG.ARM.off obj
  let before := s.reg off
  let s := s.storeReg agent off v
  if SY_TRIG_CFG.ARM.get v = 1 then s.trigChanged obj before else s

/-- SY_TRIG_CFG (R257): a write of a trigger's settings. -/
def execSyTrigCfg (t agent obj : Nat) (v : Word) (s : State) : Res :=
  s.live t fun s =>
    let off := SY_TRIG_CFG.ARM.off obj
    if 8192 ≤ obj then s
    else s.gate agent off true fun s => s.txnWrite agent off v fun s => s.trigStore agent obj v

/-- ADVANCE (R256): the oldest advance on its way reaches its queue, whatever the queue's state. -/
def execAdvance (t : Nat) (s : State) : Res :=
  s.live t fun s =>
    match s.advances with
    | [] => s
    | (q, n) :: r => ({ s with advances := r }).tailTo q ((s.rd QE_DB_TAIL.TAIL q + n) % 2 ^ 32)

/-- A read of SY_EVENT_c pops its oldest event and clears LOST (R258). -/
def State.eventRead (s : State) (agent c : Nat) : State :=
  let s := s.answer agent (s.eventView c)
  let left := (Tab.get (fun _ => []) s.events c).tail
  { s with events := Tab.put (fun _ => []) s.events c left,
           eventIrq := Tab.put (fun _ => false) s.eventIrq c (!left.isEmpty),
           eventLost := Tab.put (fun _ => false) s.eventLost c false }

/-- SY_EVENT_READ (R258). -/
def execSyEventRead (t agent core : Nat) (s : State) : Res :=
  s.live t fun s =>
    if 96 ≤ core then s else s.gate agent (SY_EVENT.OBJ.off core) false fun s => s.eventRead agent core

/-! ### Timeouts (R154, R211, R250) -/

/-- The window of a waiter has ended without its condition: an SWAIT raises TIMEOUT or, with ONTO, writes 1 and goes on;
a WAIT parks its queue. -/
def State.expire (s : State) (w : Waiter) : State :=
  let s := { s with waiters := s.waiters.filter (fun (x : Waiter) => decide (x ≠ w)) }
  let ticks := s.now - w.start
  match w.who with
  | .core c =>
    let k := s.core c
    let s := s.offerCore 7 c (waitArg w.obj true ticks)
    let pc := s.rd TC_PC.PC c
    match k.swait with
    | some r =>
      if r.onto then (s.setCore c { k.setA r.dx 1 with swait := none }).passPc c pc
      else (s.setCore c { k with swait := none }).raise c 9 pc w.obj
    | none => s
  | .queue q =>
    let s := match s.runningWait q with
      | some f => s.offerQueue 7 q (waitArg w.obj true ticks) (hdrLayer f.words) (hdrOpid f.words)
      | none => s
    s.park q 4

/-- WAIT_TIMEOUT (R250): a wait's window ends. -/
def execWaitTimeout (t : Nat) (w : WaiterId) (s : State) : Res :=
  s.live t fun s =>
    match s.waiters.find? (fun (x : Waiter) => decide (x.who = w)) with
    | some x => if x.open s.now then s else s.expire x
    | none => s

end Sys2Proof.Machine
end

