-- ==== Sys2Proof/Machine/Mailbox.lean ====
section
/-! DEFINITION. Mailboxes: the lock, the request and response queues, SEND, ACK, RELEASE and the response window
(R261–R267). -/

namespace Sys2Proof.Machine

/-- STATE of a mailbox: 0 FREE, 1 OWNED, 2 SENT, 3 DONE. -/
def State.mbState (s : State) (m : Nat) : Nat := s.rd MB_STATUS.STATE m

/-- Owner of a mailbox. -/
def State.mbOwner (s : State) (m : Nat) : Nat := s.rd MB_STATUS.OWNER m

/-- The service processor pair that answers a mailbox (R261). -/
def pairOf (m agent : Nat) : Bool :=
  if m < 32 then agent == 1 || agent == 2 else agent == 3 || agent == 4

/-- Whether an agent is a mailbox's responder: the pair, when a host core owns it; host software, when a service
processor does (R261). -/
def State.responds (s : State) (m agent : Nat) : Bool :=
  if isHost (s.mbOwner m) then pairOf m agent else isHost agent

/-- A write that R263 discards is counted. -/
def State.mbForeign (s : State) (m : Nat) : State := s.bump MB_STATUS.FOREIGN m

/-- A mailbox becomes FREE, with empty queues. -/
def State.mbFree (s : State) (m : Nat) : State :=
  let s := ((s.wr MB_STATUS.STATE m 0).wr MB_STATUS.OWNER m 0).wr MB_STATUS.OVERFLOW m 0
  s.setMbox m { s.mbox m with req := [], rsp := [], irq := false }

/-- A read of MB_LOCK (R262): a host core or service processor takes a FREE mailbox; the owner reads 0; while another agent
owns it, its number is read; any other agent reads 0xFFFF. -/
def State.mbLockRead (s : State) (agent m : Nat) : State :=
  if s.mbState m = 0 ∧ (isHost agent || isService agent) then
    ((s.wr MB_STATUS.STATE m 1).wr MB_STATUS.OWNER m agent).answer agent 0
  else if s.mbState m = 0 then s.answer agent 0xFFFF
  else if s.mbOwner m = agent then s.answer agent 0
  else s.answer agent (BitVec.ofNat 64 (s.mbOwner m))

/-- MB_LOCK (R262): an 8 B read of the register. -/
def execMbLock (t agent m : Nat) (s : State) : Res :=
  s.live t fun s =>
    if 64 ≤ m then s else s.gate agent (MB_LOCK.RESULT.off m) false fun s => s.mbLockRead agent m

/-- A write of MB_RELEASE (R263, R264): by the owner; by a service processor of the mailbox's hub, whose release is an
abort; one with GO 0 releases nothing; by another agent, or of a FREE mailbox, it is counted. -/
def State.mbReleaseWrite (s : State) (agent m : Nat) (v : Word) : State :=
  let go := MB_RELEASE.GO.get v == 1
  if s.mbState m ≠ 0 ∧ s.mbOwner m = agent then if go then s.mbFree m else s
  else if s.mbState m ≠ 0 ∧ pairOf m agent then if go then (s.mbFree m).bump MB_STATUS.ABORTS m else s
  else s.mbForeign m

/-- MB_RELEASE (R263): a write of the register. -/
def execMbRelease (t agent m : Nat) (v : Word) (s : State) : Res :=
  s.live t fun s =>
    let off := MB_RELEASE.GO.off m
    if 64 ≤ m then s else s.gate agent off true fun s => (s.storeReg agent off v).mbReleaseWrite agent m v

/-- A write of MB_REQ (R263): the owner's word enters the request queue; a 33rd sets OVERFLOW. -/
def State.mbReqPush (s : State) (agent m : Nat) (v : Word) : State :=
  let x := s.mbox m
  if s.mbOwner m = agent ∧ (s.mbState m = 1 ∨ s.mbState m = 3) then
    if x.req.length < 32 then s.setMbox m { x with req := x.req ++ [v] } else s.wr MB_STATUS.OVERFLOW m 1
  else s.mbForeign m

/-- MB_REQ_WRITE (R263). -/
def execMbReqWrite (t agent m : Nat) (v : Word) (s : State) : Res :=
  s.live t fun s =>
    if 64 ≤ m then s else s.gate agent (MB_REQ.WORD.off m) true fun s => s.mbReqPush agent m v

/-- A read of MB_REQ (R263): the responder pops a word in SENT; a read of an empty queue returns 0 and sets
EMPTY_READ. -/
def State.mbReqPop (s : State) (agent m : Nat) : State :=
  let x := s.mbox m
  if s.mbState m = 2 ∧ s.responds m agent then
    match x.req with
    | w :: r => (s.setMbox m { x with req := r }).answer agent w
    | [] => (s.wr MB_STATUS.EMPTY_READ m 1).answer agent 0
  else if x.req.isEmpty then (s.wr MB_STATUS.EMPTY_READ m 1).answer agent 0
  else s.answer agent 0

/-- MB_REQ_READ (R263). -/
def execMbReqRead (t agent m : Nat) (s : State) : Res :=
  s.live t fun s =>
    if 64 ≤ m then s else s.gate agent (MB_REQ.WORD.off m) false fun s => s.mbReqPop agent m

/-- A write of MB_RSP (R263): the responder's word in SENT; a 33rd is discarded. -/
def State.mbRspPush (s : State) (agent m : Nat) (v : Word) : State :=
  let x := s.mbox m
  if s.mbState m = 2 ∧ s.responds m agent then
    if x.rsp.length < 32 then s.setMbox m { x with rsp := x.rsp ++ [v] } else s
  else s.mbForeign m

/-- MB_RSP_WRITE (R263). -/
def execMbRspWrite (t agent m : Nat) (v : Word) (s : State) : Res :=
  s.live t fun s =>
    if 64 ≤ m then s else s.gate agent (MB_RSP.WORD.off m) true fun s => s.mbRspPush agent m v

/-- A read of MB_RSP (R263): the owner pops a word in DONE. -/
def State.mbRspPop (s : State) (agent m : Nat) : State :=
  let x := s.mbox m
  if s.mbState m = 3 ∧ s.mbOwner m = agent then
    match x.rsp with
    | w :: r => (s.setMbox m { x with rsp := r }).answer agent w
    | [] => (s.wr MB_STATUS.EMPTY_READ m 1).answer agent 0
  else if x.rsp.isEmpty then (s.wr MB_STATUS.EMPTY_READ m 1).answer agent 0
  else s.answer agent 0

/-- MB_RSP_READ (R263). -/
def execMbRspRead (t agent m : Nat) (s : State) : Res :=
  s.live t fun s =>
    if 64 ≤ m then s else s.gate agent (MB_RSP.WORD.off m) false fun s => s.mbRspPop agent m

/-- A write of MB_SEND (R261, R263): the request goes to the responder, by an interrupt of the pair or by the NOTIFY add;
with OVERFLOW set it ends at once with REQ_OVERFLOW. -/
def State.mbSendWrite (s : State) (agent m : Nat) (v : Word) : State :=
  if s.mbOwner m = agent ∧ (s.mbState m = 1 ∨ s.mbState m = 3) then
    let x := { s.mbox m with rsp := [], cmd := MB_SEND.CMD.get v, sentAt := s.now }
    if s.flag MB_STATUS.OVERFLOW m then ((s.setMbox m x).wr MB_STATUS.STATE m 3).wr MB_ACK.CODE m 7
    else if isHost agent then (s.setMbox m { x with irq := true }).wr MB_STATUS.STATE m 2
    else
      let s := (s.setMbox m x).wr MB_STATUS.STATE m 2
      if s.flag MB_CFG.NOTIFY m then s.notify agent (s.rd MB_CFG.NOTIFY_SYNC m) else s
  else s.mbForeign m

/-- MB_SEND (R263): a write of the register. -/
def execMbSend (t agent m : Nat) (v : Word) (s : State) : Res :=
  s.live t fun s =>
    let off := MB_SEND.CMD.off m
    if 64 ≤ m then s else s.gate agent off true fun s => (s.storeReg agent off v).mbSendWrite agent m v

/-- The tick from which an acknowledgement is late (R265). -/
def State.mbDue (s : State) (m : Nat) : Nat := (s.mbox m).sentAt + 2 ^ s.rd MB_CFG.TLOG2 m

/-- The codes that a responder may write (R266). -/
def ackCode (c : Nat) : Bool := (decide (1 ≤ c) && decide (c ≤ 5)) || (decide (16 ≤ c) && decide (c ≤ 255))

/-- A mailbox's request is answered with a code: DONE, the request queue empty (R263). -/
def State.mbDone (s : State) (m code : Nat) : State :=
  let s := (s.wr MB_ACK.CODE m code).wr MB_STATUS.STATE m 3
  s.setMbox m { s.mbox m with req := [], irq := false }

/-- The response window of a mailbox ends (R265). -/
def State.mbTimeout (s : State) (m : Nat) : State :=
  ((s.wr MB_ACK.CODE m 6).wr MB_STATUS.STATE m 3).setMbox m { s.mbox m with irq := false }

/-- A write of MB_ACK (R263, R265, R266): the responder's code in SENT; an undefined code is rejected under R63; at or
after the window's end, and after a timeout, it is discarded and counted in LATE. -/
def State.mbAckWrite (s : State) (agent m : Nat) (v : Word) : State :=
  let code := MB_ACK.CODE.get v
  let off := MB_ACK.CODE.off m
  let told := fun (s : State) (bad : Bool) => s.report agent off (v.toNat / 256 != 0) bad
  if s.mbState m = 3 ∧ s.rd MB_ACK.CODE m = 6 ∧ s.responds m agent then told (s.bump MB_STATUS.LATE m) false
  else if s.mbState m = 2 ∧ s.responds m agent then
    if s.mbDue m ≤ s.now then told ((s.mbTimeout m).bump MB_STATUS.LATE m) false
    else if ackCode code then told (s.mbDone m code) false
    else told s true
  else told (s.mbForeign m) false

/-- MB_ACK (R263): a write of the register. -/
def execMbAck (t agent m : Nat) (v : Word) (s : State) : Res :=
  s.live t fun s =>
    if 64 ≤ m then s else s.gate agent (MB_ACK.CODE.off m) true fun s => s.mbAckWrite agent m v

/-- MAILBOX_TIMEOUT (R265): no acknowledgement has arrived within the window. -/
def execMailboxTimeout (t m : Nat) (s : State) : Res :=
  s.live t fun s =>
    if s.mbState m = 2 ∧ s.mbDue m ≤ s.now then s.mbTimeout m else s

/-- The mailboxes of an agent that is reset or fenced become FREE (R264). -/
def State.mbOwnerReset (s : State) (agent : Nat) : State :=
  s.each (List.range 64) fun s m =>
    if s.mbState m ≠ 0 ∧ s.mbOwner m = agent then (s.mbFree m).bump MB_STATUS.ABORTS m else s

end Sys2Proof.Machine
end

