-- ==== Sys2Proof/Machine/Coherence.lean ====
section
/-! DEFINITION. The requests that homes order: reads and ownership for host cores, notices and write-backs, coherent
reads and writes of other agents, invalidations and probes (R391–R407). -/

namespace Sys2Proof.Machine

/-! ### Notices and write-backs (R396) -/

/-- A core's entry of the write-back buffer for a line is given up. -/
def State.dropWb (s : State) (c line : Nat) : State :=
  let h := s.host c
  s.setHost c { h with wb := h.wb.filter (fun x => x.line != line) }

/-- A notice reaches the home (R396). -/
def State.applyNotice (s : State) (c line : Nat) : State :=
  match s.dirEntry line with
  | none => s
  | some e =>
    if e.state = 1 ∧ e.ptrs.contains c then
      let l := e.ptrs.filter (· != c)
      if l.isEmpty then s.dirFree line else s.dirSet { e with ptrs := l }
    else if e.state = 3 ∧ e.ptrs.contains c then s.dirFree line
    else s

/-- A write-back reaches the home: the owner's is written to memory with its poison mark; a clean one of a LOST line writes
the whole line (R274, R406, log entry 84); another is discarded (R396). -/
def State.applyWriteBack (s : State) (c : Nat) (x : CacheLine) : State :=
  match s.dirEntry x.line with
  | none => s
  | some e =>
    if e.state = 3 ∧ e.ptrs.contains c then (s.dirFree x.line).storeLine x.line fullMask x.data x.poison
    else if e.state = 4 ∧ !x.poison then ((s.dirFree x.line).dropStray x.line).storeLine x.line fullMask x.data
    else s

/-- The notice or write-back that a core owes for a line reaches the home, before any later request of the core for the
line (R392, R396). -/
def State.flushWb (s : State) (c line : Nat) : State :=
  match (s.host c).wb.find? (fun x => x.line == line) with
  | none => s
  | some x =>
    let s := s.lookup line
    (if x.dirty || x.poison then s.applyWriteBack c x else s.applyNotice c line).dropWb c line

/-- Whether a line may be cached: HBM or the far tier (R47). -/
def State.cacheable (s : State) (line : Nat) : Bool := (s.region (64 * line)).coherent

/-- Whether a home takes a request for a line: one that may be cached, and not of HBM during a save, when its
controllers accept no new request (R47, R478). -/
def State.homeTakes (s : State) (line : Nat) : Bool :=
  s.cacheable line && (s.save.phase == 0 || decide (s.region (64 * line) ≠ .hbm))

/-- A parity check of a core's caches fails on a line as the core itself reads it (R372, R500): a dirty one is written back as
poison and recorded; a clean one leaves the caches. -/
def State.cacheParity (s : State) (c line : Nat) : State :=
  match (s.host c).cache.find? (fun x => x.line == line) with
  | some x =>
    if x.dirty then (s.evictLine c { x with poison := true }).faultRecord 4 c 0xFFF (0x100 + c) (64 * line) 0
    else s.evictLine c x
  | none => s

/-- L2_EVICTION (R396): a core evicts a line, but not one that it waits for (R380, R400). -/
def execL2Eviction (t core line : Nat) (parityOk : Bool) (s : State) : Res :=
  s.live t fun s =>
    match (s.host core).cache.find? (fun x => x.line == line) with
    | some x =>
      if s.awaits core line then s
      else if parityOk then s.evictLine core x
      else s.cacheParity core line
    | none => s

/-- NOTICE (R396): the home applies the notice of a clean line. -/
def execNotice (t core line : Nat) (s : State) : Res :=
  s.live t fun s =>
    match (s.host core).wb.find? (fun x => x.line == line) with
    | some x => if x.dirty || x.poison then s else s.flushWb core line
    | none => s

/-- WRITE_BACK (R396): the home applies the write-back of a dirty line. -/
def execWriteBack (t core line : Nat) (s : State) : Res :=
  s.live t fun s =>
    match (s.host core).wb.find? (fun x => x.line == line) with
    | some x =>
      if s.homeTakes line && (x.dirty || x.poison) then
        s.orHold line (.back core line) fun s => s.flushWb core line
      else s
    | none => s

/-! ### Reads for host cores (R393–R395, R400) -/

/-- A core's pointer joins a SHARED entry, which the fifth makes BROADCAST (R395). -/
def addSharer (e : DirEntry) (c : Nat) : DirEntry :=
  if e.ptrs.contains c then e
  else if e.ptrs.length < 4 then { e with ptrs := e.ptrs ++ [c] }
  else { e with state := 2, ptrs := [] }

/-- An owner keeps a clean copy without write permission (R400). -/
def State.downgrade (s : State) (o line : Nat) : State :=
  let h := s.host o
  s.setHost o { h with cache := h.cache.map fun x =>
                  if x.line = line then { x with dirty := false, excl := false } else x }

/-- A read shared of a core at the home (R400): the line, whether it is poison, and the state with the copy filled; none
while every way of the set is busy (R403). -/
def State.readShared (s : State) (c line : Nat) : Option (Line × Bool × State) :=
  let s := (s.flushWb c line).lookup line
  match s.dirEntry line with
  | none =>
    match s.dirRoom line with
    | none => none
    | some (w, s) =>
      let (d, p, s) := s.fetchLine line
      some (d, p, (s.dirSet ⟨line, 1, [c], w⟩).fillLine c line d false p false)
  | some e =>
    if e.state = 4 then some (0, true, s)
    else if e.state = 3 then
      let o := e.ptrs.headD 0
      let s := s.checkCopy o line
      match (s.host o).copy line with
      | some x =>
        if o = c then some (x.data, x.poison, s)
        else
          let s := if x.dirty || x.poison then s.storeLine line fullMask x.data x.poison else s
          let s := (s.dropWb o line).downgrade o line
          let keeps := (s.host o).cache.any (fun y => y.line == line)
          some (x.data, x.poison,
            (s.dirSet { e with state := 1, ptrs := if keeps then [o, c] else [c] }).fillLine c line x.data false x.poison
              false)
      | none =>
        let (d, p, s) := s.fetchLine line
        some (d, p, (s.dirSet { e with state := 1, ptrs := [c] }).fillLine c line d false p false)
    else
      let (d, p, s) := s.fetchLine line
      some (d, p, (s.dirSet (if e.state = 1 then addSharer e c else e)).fillLine c line d false p false)

/-- A core's read for a shared copy is performed and answered with its line (R400). -/
def State.sharedNow (s : State) (core line : Nat) (found : Found) : State :=
  s.reads found 0 (0x100 + core) fun s =>
    match s.readShared core line with
    | some (d, p, s) => s.answerLine (0x100 + core) d p
    | none => s

/-- READ_SHARED (R400): held while the line's channel or port holds requests. -/
def execReadShared (t core line : Nat) (found : Found) (s : State) : Res :=
  s.live t fun s =>
    if !s.homeTakes line || !(s.host core).released then s
    else s.orHold line (.shared core line found) fun s => s.sharedNow core line found

/-! ### Ownership (R394, R400, R402) -/

/-- An ownership grant is sent, or waits for the clusters that must acknowledge an invalidation first (R400). -/
def State.grantWhen (s : State) (g : Grant) : State :=
  if g.needs.isEmpty then s.sendGrant g else { s with grants := s.grants ++ [g] }

/-- A read for ownership of a core at the home (R400, R406); none while every way of the set is busy. -/
def State.readOwn (s : State) (c line : Nat) : Option State :=
  let s := (s.flushWb c line).lookup line
  match s.dirEntry line with
  | none =>
    match s.dirRoom line with
    | none => none
    | some (w, s) =>
      let (d, p, s) := s.fetchLine line
      some ((s.dirSet ⟨line, 3, [c], w⟩).grantWhen ⟨c, line, [], d, p, false⟩)
  | some e =>
    if e.state = 4 then some (s.grantWhen ⟨c, line, [], 0, true, false⟩)
    else if e.state = 3 then
      let o := e.ptrs.headD 0
      if o = c then
        match (s.host c).copy line with
        | some x => some ((s.placeLine c { x with excl := true }).scStore c line)
        | none =>
          let (d, p, s) := s.fetchLine line
          some (s.grantWhen ⟨c, line, [], d, p, false⟩)
      else
        let (d, p, dirty, s) := s.takeOwner o line
        some ((s.dirSet { e with ptrs := [c] }).grantWhen ⟨c, line, [], d, p, dirty⟩)
    else
      let (d, p, s) :=
        match (if e.ptrs.contains c then (s.host c).copy line else none) with
        | some x => (x.data, x.poison, s)
        | none => s.fetchLine line
      let (s, needs) := s.invalidateAll e (some c)
      some ((s.dirSet { e with state := 3, ptrs := [c] }).grantWhen ⟨c, line, needs, d, p, false⟩)

/-- A core's read for ownership is performed (R400). -/
def State.ownNow (s : State) (core line : Nat) (found : Found) : State :=
  s.reads found 0 (0x100 + core) fun s => (s.readOwn core line).getD s

/-- READ_FOR_OWNERSHIP (R400): held while the line's channel or port holds requests. -/
def execReadForOwnership (t core line : Nat) (found : Found) (s : State) : Res :=
  s.live t fun s =>
    if !s.homeTakes line || !(s.host core).released then s
    else s.orHold line (.own core line found) fun s => s.ownNow core line found

/-- Whether a store-conditional of a core waits for the home's decision on a line (R380, R402). -/
def State.asksCond (s : State) (core line : Nat) : Bool :=
  match (s.host core).scPend with
  | some (pa, _, _) => pa / 64 == line && s.homeTakes line
  | none => false

/-- The home decides an outstanding store-conditional when it orders the request: it succeeds only when the entry lists the
core, or is BROADCAST (R402). -/
def State.condNow (s : State) (core line : Nat) (found : Found) : State :=
  if s.asksCond core line then
    s.reads found 0 (0x100 + core) fun s =>
      let s := (s.flushWb core line).lookup line
      let holds := match s.dirEntry line with
        | some e => e.state == 2 || ((e.state == 1 || e.state == 3) && e.ptrs.contains core)
        | none => false
      let h := s.host core
      if holds then (s.readOwn core line).getD s
      else s.setHost core { h with scPend := none, scOk := false, resv := none }
  else s

/-- CONDITIONAL_READ_FOR_OWNERSHIP (R402): held while the line's channel or port holds requests. -/
def execConditionalReadForOwnership (t core line : Nat) (found : Found) (s : State) : Res :=
  s.live t fun s =>
    if s.asksCond core line then s.orHold line (.cond core line found) fun s => s.condNow core line found else s

/-! ### Agents that do not cache (R401) -/

/-- A line is read as it stands at its place in the home order, and answered (R401, R274). -/
def State.readNow (s : State) (agent line : Nat) (found : Found) : State :=
  s.reads found 0 agent fun s =>
    let (d, p, s) := s.coRead line
    s.answerLine agent d p

/-- COHERENT_READ (R401): held while the line's channel or port holds requests. -/
def execCoherentRead (t agent line : Nat) (found : Found) (s : State) : Res :=
  s.live t fun s =>
    if !s.homeTakes line then s
    else if !s.admits agent false (64 * line) 64 then s.answer agent 0 5
    else s.orHold line (.read agent line found) fun s => s.readNow agent line found

/-- Every copy of a line is removed and the bytes are written; a line that no channel serves answers with poison (R291, R401,
R406). -/
def State.writeNow (s : State) (agent line : Nat) (mask : Word) (data : Line) (found : Found) : State :=
  s.reads found 0 agent fun s => (s.coWrite line mask data).answer agent 0 0 (s.failedLine line)

/-- NON_CACHING_WRITE (R401, R406): held while the line's channel or port holds requests. -/
def execNonCachingWrite (t agent line : Nat) (mask : Word) (data : Line) (found : Found) (s : State) : Res :=
  s.live t fun s =>
    if !s.homeTakes line then s
    else if !s.admits agent true (64 * line) 64 then s.answer agent 0 5
    else s.orHold line (.write agent line mask data found) fun s => s.writeNow agent line mask data found

/-- INVALIDATION (R399): a cluster's queue applies its oldest entry and acknowledges it. -/
def execInvalidation (t cluster : Nat) (s : State) : Res :=
  s.live t fun s =>
    match Tab.get (fun _ => []) s.invq cluster with
    | [] => s
    | e :: r =>
      (({ s with invq := Tab.put (fun _ => []) s.invq cluster r }).applyInval cluster e).ackInval cluster e.1

/-- The word of DIR_PROBE_DATA for a line (R407). -/
def State.probeWord (s : State) (line : Nat) (busy : Bool) : Word :=
  let place := [(39, setOf line), (52, sliceOf line), (63, 1)]
  match (if s.cacheable line then s.dirEntry line else none) with
  | none => packWord ((3, bit busy) :: place)
  | some e =>
    packWord ([(0, e.state), (3, bit busy), (4, if e.state = 1 ∨ e.state = 3 then e.ptrs.length else 0),
      (7, e.ptrs.getD 0 0), (14, e.ptrs.getD 1 0), (21, e.ptrs.getD 2 0), (28, e.ptrs.getD 3 0), (35, e.way)] ++ place)

/-- A probe of a line (R407): ordered at its home like a request; the report says whether the line was busy. -/
def State.probeLine (s : State) (line : Nat) : State :=
  let busy := s.busy line
  let s := if s.cacheable line then s.lookup line else s
  s.setReg 0x38001008 (s.probeWord line busy)

/-- DIR_PROBE (R407). -/
def execDirProbe (t agent : Nat) (v : Word) (s : State) : Res :=
  s.live t fun s => s.gate agent 0x38001000 true fun s =>
    (s.storeReg agent 0x38001000 v).probeLine (bitsOf v.toNat 51 6)

end Sys2Proof.Machine
end

