-- ==== Sys2Proof/Machine/Mops.lean ====
section
/-! DEFINITION. Memory-side arithmetic: the adders of HBM channels and CXL ports (R277–R284, R122–R125). -/

namespace Sys2Proof.Machine

/-- What an adder answers: a refusal with its cause, poison, or the old value of a fetch. -/
inductive MopRes
  | refused (cause : Nat) | poison | ok (old : Word)
  deriving DecidableEq, Repr

/-- A number of w bits as a signed one. -/
def signedNat (w x : Nat) : Int := if x < 2 ^ (w - 1) then x else (x : Int) - 2 ^ w

/-- The bytes of an element of a scalar or line code (R279); none for other codes. -/
def mopSize (code : Nat) : Option Nat :=
  if code ∈ [0x01, 0x03, 0x05, 0x07, 0x09, 0x10, 0x20, 0x22] then some 4
  else if code ∈ [0x02, 0x04, 0x06, 0x08, 0x0A, 0x21, 0x23] then some 8
  else if code = 0x11 ∨ code = 0x12 then some 2
  else none

/-- The new value of an element of w bits (R280): its old value and the operand, a CAS taking the compare value in the
low bits and the swap value above it. -/
def mopNew (code w old x : Nat) : Nat :=
  let y := x % 2 ^ w
  match code with
  | 0x01 => (old + y) % 2 ^ w
  | 0x02 => (old + y) % 2 ^ w
  | 0x03 => if signedNat w old ≤ signedNat w y then old else y
  | 0x04 => if signedNat w old ≤ signedNat w y then old else y
  | 0x05 => if signedNat w old ≤ signedNat w y then y else old
  | 0x06 => if signedNat w old ≤ signedNat w y then y else old
  | 0x07 => min old y
  | 0x08 => min old y
  | 0x09 => max old y
  | 0x0A => max old y
  | 0x10 => Fmt.addCodes .fp32 old y
  | 0x11 => Fmt.addCodes .bf16 old y
  | 0x12 => Fmt.addCodes .fp16 old y
  | 0x20 => if old = y then (x >>> w) % 2 ^ w else old
  | 0x21 => if old = y then (x >>> w) % 2 ^ w else old
  | _ => y

/-- The format of the contributions of an EA code, or of the results of a SETTLE code. -/
def cellFmt (code : Nat) : Option Fmt :=
  match code with
  | 0x18 => some .fp32
  | 0x19 => some .bf16
  | 0x1A => some .fp16
  | 0x1C => some .fp32
  | 0x1D => some .bf16
  | _ => none

/-- Whether a code is a SETTLE. -/
def isSettle (code : Nat) : Bool := code == 0x1C || code == 0x1D

/-! ### Checks (R279, R281) -/

/-- Whether a line operation's mask enables every byte of an element or none. -/
def wholeElems (size : Nat) (mask : Word) : Bool :=
  (List.range (64 / size)).all fun k =>
    let b := (mask.toNat >>> (size * k)) % 2 ^ size
    b == 0 || b == 2 ^ size - 1

/-- Whether a request keeps the rules of R279 and R281, its SETTLE target apart. -/
def State.mopLegal (s : State) (code : Nat) (r : MopReq) : Bool :=
  (s.region r.pa).coherent &&
    (match r.form with
     | .scalar =>
       (match mopSize code with
        | some n => r.pa % n == 0
        | none => false)
     | .line =>
       (match mopSize code with
        | some n => r.pa % 64 == 0 && decide (code < 0x20) && wholeElems n r.mask
        | none => false)
     | .cells =>
       (cellFmt code).isSome && r.pa % 64 == 0 && decide (1 ≤ r.n) && decide (r.n ≤ 16) &&
         r.pa / 4096 == (r.pa + 64 * r.n - 1) / 4096)

/-- Bytes of a request's target range. -/
def mopSpan (r : MopReq) (code : Nat) : Nat :=
  match r.form with
  | .scalar => (mopSize code).getD 1
  | .line => 64
  | .cells => 64 * r.n

/-- Whether a SETTLE target lies within one line of HBM or the far tier. -/
def State.targetLegal (s : State) (r : MopReq) (size : Nat) : Bool :=
  (s.region r.target).coherent && r.target / 64 == (r.target + size * r.n - 1) / 64

/-! ### A line at its adder -/

/-- A line read by its adder: an error found is recorded with SOURCE adder (R276). -/
def State.adderLine (s : State) (line : Nat) : Line × Bool × State :=
  let (d, p, t) := (s.readFor 2).fetchLine line
  (d, p, t.readFor s.access.source)

/-- A line is brought to its adder (R277, R278): every cached copy is removed; a line of HBM enters its channel's line
store, from which the least recently used leaves when 64 are held. Its bytes, and whether it is poison. -/
def State.adderTake (s : State) (line : Nat) : Line × Bool × State :=
  let s := s.coTake line
  match s.region (64 * line) with
  | .hbm =>
    let c := s.chanOf (64 * line)
    let mine := s.lineStore.filter (fun e => s.chanOf (64 * e.1) == c && e.1 != line)
    let (d, p, s) := s.adderLine line
    if p then (d, p, s)
    else
      let s := if s.inStore line then s
        else if mine.length < 64 then s
        else
          match mine with
          | [] => s
          | x :: r => s.leaveStore (r.foldl (fun a e => if e.2 < a.2 then e else a) x).1
      (d, p, { s with lineStore := s.lineStore.filter (fun e => e.1 != line) ++ [(line, s.now)] })
  | _ => s.adderLine line

/-- Masked bytes of a line are given by its adder. -/
def State.adderPut (s : State) (line : Nat) (mask : Word) (d : Line) : State := s.storeLine line mask d

/-- An operation performed at a line's channel is counted (R294, R513). -/
def State.countMop (s : State) (line : Nat) : State :=
  match s.region (64 * line) with
  | .hbm =>
    let c := s.chanOf (64 * line)
    (s.bump HM_CH_MOPS.COUNT c).pmcHub (hubOfChan c) 70
  | _ => s

/-- The elements of a line that a mask enables take their new values. -/
def lineNew (code size : Nat) (old x : Line) (mask : Word) : Line :=
  (List.range (64 / size)).foldl
    (fun l k =>
      if mask.toNat.testBit (size * k) then
        let v := mopNew code (8 * size) ((old.toNat >>> (8 * size * k)) % 2 ^ (8 * size))
          ((x.toNat >>> (8 * size * k)) % 2 ^ (8 * size))
        Line.merge l (BitVec.ofNat 512 (v <<< (8 * size * k))) (maskOf (size * k) size)
      else l)
    old

/-- A scalar or line operation at its line (R280, R282). -/
def State.mopLine (s : State) (code : Nat) (r : MopReq) (size : Nat) : MopRes × State :=
  let line := r.pa / 64
  if s.lostLine line then (.poison, s.bump TIER_PORT_STATUS.LOST_WR (s.portOf r.pa).1)
  else
    match s.adderTake line with
    | (d, p, s) =>
      if p then (.poison, s)
      else
        let s := s.countMop line
        match r.form with
        | .scalar =>
          let o := r.pa % 64
          let old := (d.toNat >>> (8 * o)) % 2 ^ (8 * size)
          let v := mopNew code (8 * size) old r.operand.toNat
          (.ok (if r.fetch || decide (0x20 ≤ code) then BitVec.ofNat 64 old else 0),
            s.adderPut line (maskOf o size) (BitVec.ofNat 512 (v <<< (8 * o))))
        | _ => (.ok 0, s.adderPut line fullMask (lineNew code size d r.operand r.mask))

/-- One cell takes its contribution (R123, R282, R283): whether it was poisoned, and so skipped. -/
def State.eaCell (s : State) (f : Fmt) (line x : Nat) : Bool × State :=
  if s.lostLine line then (true, s.bump TIER_PORT_STATUS.LOST_WR (s.portOf (64 * line)).1)
  else
    match s.adderTake line with
    | (d, p, s) =>
      if p then (true, s)
      else (false, s.adderPut line fullMask (cellAdd d (f.decode (x % 2 ^ f.width))))

/-- The contributions of a request to cells in ascending order, from one cell on, a number of them: whether one was poison
(R280, R283). -/
def State.cellRun (s : State) (f : Fmt) (r : MopReq) (first num : Nat) : Bool × State :=
  (List.range num).foldl
    (fun (a : Bool × State) k =>
      let (p, s) := a.2.eaCell f (r.pa / 64 + first + k) (r.operand.toNat >>> (f.width * (first + k)))
      (a.1 || p, s))
    (false, s)

/-- The contributions of a request, all that are left or a number of them: an agent observes the others undone between two
parts, since a request is not atomic across cells (R283); none while cells are left. -/
def State.mopCells (s : State) (agent code : Nat) (f : Fmt) (r : MopReq) : Option MopRes × State :=
  let mine := fun (j : CellJob) => j.agent == agent && j.code == code && j.pa == r.pa
  let (first, bad, s) := match s.cellJobs.find? mine with
    | some j => (j.done, j.bad, { s with cellJobs := s.cellJobs.filter fun j => !mine j })
    | none => (0, false, s.countMop (r.pa / 64))
  let left := r.n - first
  let num := match r.part with
    | some k => min k left
    | none => left
  let (p, s) := s.cellRun f r first num
  if num < left then (none, { s with cellJobs := s.cellJobs ++ [⟨agent, code, r.pa, first + num, bad || p⟩] })
  else (some (if bad || p then .poison else .ok 0), s)

/-- One cell read for a SETTLE: its result's code and whether the cell was poisoned (R125, R282). -/
def State.settleCell (s : State) (f : Fmt) (line : Nat) : Nat × Bool × State :=
  match s.adderTake line with
  | (d, p, s) => if p then (f.nanCode, true, s) else (Sys2Proof.Machine.settle d f, false, s)

/-- A SETTLE whose target is lawful (R125, R282, R283): the cells are read, then their results written at the target; a
target that the dike table denies leaves memory as it was. -/
def State.mopSettle (s : State) (agent : Nat) (f : Fmt) (r : MopReq) : MopRes × State :=
  let size := f.width / 8
  let out := (List.range r.n).foldl
    (fun (a : Nat × Bool × State) k =>
      let (c, p, s) := a.2.2.settleCell f (r.pa / 64 + k)
      (a.1 + c * 2 ^ (f.width * k), a.2.1 || p, s))
    (0, false, s.countMop (r.pa / 64))
  let s := out.2.2
  if !s.admits agent true r.target (size * r.n) then (.refused 5, s)
  else
    let o := r.target % 64
    let s := s.coWrite (r.target / 64) (maskOf o (size * r.n)) (BitVec.ofNat 512 (out.1 <<< (8 * o)))
    if out.2.1 then (.poison, s.setPoison (r.target / 64) true) else (.ok 0, s)

/-- A memory-side request of an agent (R64, R274, R279–R283), and its result once it is whole: a SETTLE only reads its
cells. -/
def State.mop (s : State) (agent code : Nat) (r : MopReq) : Option MopRes × State :=
  if !s.mopLegal code r || (isSettle code && !s.targetLegal r (((cellFmt code).getD .fp32).width / 8)) then
    (some (.refused 7), s)
  else if !s.admits agent (!isSettle code) r.pa (mopSpan r code) then (some (.refused 5), s)
  else
    match r.form, mopSize code, cellFmt code with
    | .cells, _, some f =>
      if isSettle code then let (x, s) := s.mopSettle agent f r; (some x, s) else s.mopCells agent code f r
    | _, some n, _ => let (x, s) := s.mopLine code r n; (some x, s)
    | _, _, _ => (some (.refused 7), s)

/-- A memory-side request is performed at its adder, and answered once it is whole. -/
def State.mopNow (s : State) (agent code : Nat) (r : MopReq) : State :=
  s.reads r.found 0 agent fun s =>
    match s.mop agent code r with
    | (none, s) => s
    | (some (.refused c), s) => s.answer agent 0 c
    | (some .poison, s) => s.answer agent 0 0 true
    | (some (.ok v), s) => s.answer agent v

/-- The answer of an adder to its requester; during a save no new request is accepted (R478), and a channel or port may hold
it (R287, R299). -/
def State.mopAnswer (s : State) (agent code : Nat) (r : MopReq) : State :=
  if s.save.phase ≠ 0 then s
  else s.orHold (r.pa / 64) (.mop agent code r) fun s => s.mopNow agent code r

/-- IADD32 (R280). -/
def execIadd32 (t agent : Nat) (r : MopReq) (s : State) : Res := s.live t fun s => s.mopAnswer agent 0x01 r

/-- IADD64 (R280). -/
def execIadd64 (t agent : Nat) (r : MopReq) (s : State) : Res := s.live t fun s => s.mopAnswer agent 0x02 r

/-- SMIN32 (R280). -/
def execSmin32 (t agent : Nat) (r : MopReq) (s : State) : Res := s.live t fun s => s.mopAnswer agent 0x03 r

/-- SMIN64 (R280). -/
def execSmin64 (t agent : Nat) (r : MopReq) (s : State) : Res := s.live t fun s => s.mopAnswer agent 0x04 r

/-- SMAX32 (R280). -/
def execSmax32 (t agent : Nat) (r : MopReq) (s : State) : Res := s.live t fun s => s.mopAnswer agent 0x05 r

/-- SMAX64 (R280). -/
def execSmax64 (t agent : Nat) (r : MopReq) (s : State) : Res := s.live t fun s => s.mopAnswer agent 0x06 r

/-- UMIN32 (R280). -/
def execUmin32 (t agent : Nat) (r : MopReq) (s : State) : Res := s.live t fun s => s.mopAnswer agent 0x07 r

/-- UMIN64 (R280). -/
def execUmin64 (t agent : Nat) (r : MopReq) (s : State) : Res := s.live t fun s => s.mopAnswer agent 0x08 r

/-- UMAX32 (R280). -/
def execUmax32 (t agent : Nat) (r : MopReq) (s : State) : Res := s.live t fun s => s.mopAnswer agent 0x09 r

/-- UMAX64 (R280). -/
def execUmax64 (t agent : Nat) (r : MopReq) (s : State) : Res := s.live t fun s => s.mopAnswer agent 0x0A r

/-- FADD32 (R280). -/
def execFadd32 (t agent : Nat) (r : MopReq) (s : State) : Res := s.live t fun s => s.mopAnswer agent 0x10 r

/-- FADDBF16 (R280). -/
def execFaddbf16 (t agent : Nat) (r : MopReq) (s : State) : Res := s.live t fun s => s.mopAnswer agent 0x11 r

/-- FADD16 (R280). -/
def execFadd16 (t agent : Nat) (r : MopReq) (s : State) : Res := s.live t fun s => s.mopAnswer agent 0x12 r

/-- EA_FP32 (R123). -/
def execEaFp32 (t agent : Nat) (r : MopReq) (s : State) : Res := s.live t fun s => s.mopAnswer agent 0x18 r

/-- EA_BF16 (R123). -/
def execEaBf16 (t agent : Nat) (r : MopReq) (s : State) : Res := s.live t fun s => s.mopAnswer agent 0x19 r

/-- EA_FP16 (R123). -/
def execEaFp16 (t agent : Nat) (r : MopReq) (s : State) : Res := s.live t fun s => s.mopAnswer agent 0x1A r

/-- SETTLE_FP32 (R125). -/
def execSettleFp32 (t agent : Nat) (r : MopReq) (s : State) : Res := s.live t fun s => s.mopAnswer agent 0x1C r

/-- SETTLE_BF16 (R125). -/
def execSettleBf16 (t agent : Nat) (r : MopReq) (s : State) : Res := s.live t fun s => s.mopAnswer agent 0x1D r

/-- CAS32 (R280). -/
def execCas32 (t agent : Nat) (r : MopReq) (s : State) : Res := s.live t fun s => s.mopAnswer agent 0x20 r

/-- CAS64 (R280). -/
def execCas64 (t agent : Nat) (r : MopReq) (s : State) : Res := s.live t fun s => s.mopAnswer agent 0x21 r

/-- SWAP32 (R280). -/
def execSwap32 (t agent : Nat) (r : MopReq) (s : State) : Res := s.live t fun s => s.mopAnswer agent 0x22 r

/-- SWAP64 (R280). -/
def execSwap64 (t agent : Nat) (r : MopReq) (s : State) : Res := s.live t fun s => s.mopAnswer agent 0x23 r

end Sys2Proof.Machine
end

