-- ==== Sys2Proof/Machine/Held.lean ====
section
/-! DEFINITION. Requests that a channel or a CXL port holds, and the events that let them go: the end of a retraining, the loss
of a channel, and the end of a link recovery (R25, R287–R291, R299). -/

namespace Sys2Proof.Machine

/-- A held request is performed in its turn (R287, R299). -/
def State.redo (s : State) : HeldReq → State
  | .read agent line found => s.readNow agent line found
  | .write agent line mask data found => s.writeNow agent line mask data found
  | .shared core line found => if (s.host core).released then s.sharedNow core line found else s
  | .own core line found => if (s.host core).released then s.ownNow core line found else s
  | .cond core line found => s.condNow core line found
  | .back core line => s.flushWb core line
  | .mop agent code r => s.mopNow agent code r

/-- The requests that a channel or port has held are performed in the order they arrived, and none is lost (R287, R299). -/
def State.releaseReqs (s : State) (key : Nat) : State :=
  let mine := (s.heldReqs.filter fun h => h.1 == key).map Prod.snd
  ({ s with heldReqs := s.heldReqs.filter fun h => h.1 != key }).each mine State.redo

/-- RETRAIN_DONE (R287): the channel resumes. -/
def execRetrainDone (t ch : Nat) (s : State) : Res :=
  s.live t fun s =>
    if ch < 384 ∧ s.rd HM_CH_STATUS.STATE ch = 1 then
      let s := (s.bump HM_CH_STATUS.RETRAINS ch).wr HM_CH_STATUS.TRAIN_FAILS ch 0
      ((s.setChan ch { s.chan ch with failedAt := none }).resumeChan ch 2 0 (s.holdTicks ch)).releaseReqs ch
    else s

/-- A third failure in a row: the channel is declared lost; one that is lost already answers no longer (R288, R293). -/
def State.trainingLost (s : State) (c : Nat) : State :=
  if (s.chan c).lost then
    { s with repairs := s.repairs.map fun (r : Repair) => if r.ch = c then { r with dead := true } else r }
  else s.declareLost c 0

/-- RETRAIN_FAIL (R288): the attempt did not finish in time; the channel resumes on its previous settings, and a third
failure in a row declares it lost. -/
def execRetrainFail (t ch : Nat) (s : State) : Res :=
  s.live t fun s =>
    if ch < 384 ∧ s.rd HM_CH_STATUS.STATE ch = 1 then
      let fails := s.rd HM_CH_STATUS.TRAIN_FAILS ch + 1
      let s := (s.setChan ch { s.chan ch with failedAt := some s.now }).wr HM_CH_STATUS.TRAIN_FAILS ch fails
      let s := s.resumeChan ch 3 fails 0
      (if 3 ≤ fails then s.trainingLost ch else s).releaseReqs ch
    else s

/-- A write of HM_CH_CTRL.RETIRE by an agent (R290, R294). -/
def State.retireWrite (s : State) (agent c : Nat) : State :=
  if !isService agent then s.report agent (HM_CH_CTRL.RETRAIN.off c) true false
  else if (s.chan c).lost then s else (s.declareLost c 2).releaseReqs c

/-- RETIRE (R290): a channel is lost for its correctable errors in one 1 s window (1) or by a service processor's write
of HM_CH_CTRL.RETIRE (2); another agent's write is ignored and reported (R294). -/
def execRetire (t ch cause agent : Nat) (s : State) : Res :=
  s.live t fun s =>
    let x := s.chan ch
    if 384 ≤ ch then s
    else if cause = 1 then
      if s.flag HM_CFG.AUTO_RETIRE ∧ x.ceSec.1 = s.winNum 1000000000 ∧ s.rd HM_CFG.CE_RETIRE < x.ceSec.2 ∧ !x.lost then
        (s.declareLost ch 1).releaseReqs ch
      else s
    else
      s.gate agent (HM_CH_CTRL.RETRAIN.off ch) true fun s => s.retireWrite agent ch

end Sys2Proof.Machine
end

