-- ==== Sys2Proof/Machine/HostOps.lean ====
section
/-! DEFINITION. What happens to a host core from outside its instructions: stores that leave the buffer, loads that return,
TLB invalidations, and barriers that complete (R376–R388). -/

namespace Sys2Proof.Machine

/-- Whether a core may execute instructions: released from reset, not halted, not fenced (R446, R487, R515). -/
def State.hostRuns (s : State) (c : Nat) : Bool :=
  decide (c < 96) && (s.host c).released && !(s.host c).halted && s.save.phase == 0

/-- A core in strict-order mode (R387). -/
def State.strict (s : State) (c : Nat) : Bool := s.flag HC_STRICT.STRICT c

/-! ### Barriers (R382) -/

/-- Accesses of all cores, by core and place, that entries of a tag have translated and that are not done (R376, R377). -/
def State.tlbMarks (s : State) (tag : Nat) : List (Nat × Nat) :=
  (Tab.keys s.hosts).flatMap fun c =>
    ((((s.host c).sb.filter (fun e => e.tag == tag)).map (·.seq)) ++
      (((s.host c).loads.filter (fun e => e.tag == tag)).map (·.seq))).map fun n => (c, n)

/-- Whether marked accesses are done: the loads have returned and the stores have left the buffers (R377). -/
def State.tlbDone (s : State) (l : List (Nat × Nat)) : Bool :=
  l.all fun m => !(s.host m.1).sb.any (fun e => e.seq == m.2) && !(s.host m.1).loads.any (fun e => e.seq == m.2)

/-- Every core's TLBs drop the entries of a tag (R376, R377). -/
def State.tlbDrop (s : State) (tag : Nat) : State :=
  s.each (Tab.keys s.hosts) fun s c =>
    let h := s.host c
    s.setHost c { h with tlb := h.tlb.filter (· != tag) }

/-- An access of a core is translated by an entry of a tag, which its TLBs hold from then on (R376). -/
def State.tlbUse (s : State) (c tag : Nat) : State :=
  let h := s.host c
  s.setHost c { h with tlb := tag :: h.tlb.filter (· != tag) }

/-- Whether the barrier that a core waits at completes (R382): DEVICE and RC also wait for the TLB invalidations before them
on every core (R376). -/
def State.barrierDone (s : State) (c : Nat) : Bool :=
  let h := s.host c
  let loads := !h.loads.any (fun l => decide (l.seq < h.barSeq))
  match h.barrier with
  | 0 => true
  | 1 => loads
  | k => loads && h.sb.isEmpty && (decide (k < 4) || h.tlbi.all s.tlbDone)

/-- A barrier completes when it can; DEVICE and RC complete the TLB invalidations before them (R376, R382). -/
def State.tryBarrier (s : State) (c : Nat) : State :=
  let h := s.host c
  if s.barrierDone c then s.setHost c { h with barrier := 0, tlbi := if 4 ≤ h.barrier then [] else h.tlbi } else s

/-- An access of a core has ended: its barrier may complete, and a DEVICE or RC barrier of another core that waits for it. -/
def State.tryBarriers (s : State) (c : Nat) : State :=
  (s.tryBarrier c).each ((Tab.keys s.hosts).filter fun k => decide (4 ≤ (s.host k).barrier)) State.tryBarrier

/-- A barrier of a core (R382): it waits while an earlier one does, and while a store-conditional is
outstanding. -/
def State.barrier (s : State) (c kind : Nat) : State :=
  let h := s.host c
  if s.hostRuns c && h.barrier == 0 && h.scPend.isNone then
    (s.setHost c { h with barrier := kind, barSeq := h.nextAcc }).tryBarrier c
  else s

/-! ### Stores and loads that end -/

/-- A list without its first element that satisfies a test. -/
def dropFirst {α : Type} (f : α → Bool) : List α → List α
  | [] => []
  | x :: r => if f x then r else x :: dropFirst f r

/-- The traffic class of a core's peer accesses (log entry 32). -/
def hostCls (c : Nat) : Nat := Config.hostClass c % 4

/-- The oldest sent store to an address leaves a core's buffer: performed (0), LOST (1) or refused (2) (R378, R384). -/
def State.storeEnds (s : State) (c pa how : Nat) : State :=
  let h := s.host c
  if h.sb.any (fun e => e.pa == pa && e.sent) then
    let s := s.setHost c { h with sb := dropFirst (fun e => e.pa == pa && e.sent) h.sb }
    (if how = 0 then s else s.lostStore c how pa).tryBarriers c
  else s

/-- The stores of a core into peer windows that no earlier load holds back are sent (R378, R411); one with no usable link
is LOST at once (R357). -/
def State.issuePeers (s : State) (c : Nat) : State :=
  let h := s.host c
  let oldest := (h.loads.map (·.seq)).min?.getD h.nextAcc
  s.each (h.sb.filter fun e => !e.sent && s.region e.pa == .peer && decide (e.seq ≤ oldest)) fun s e =>
    let h := s.host c
    let s := s.setHost c { h with sb := h.sb.map fun x => if x.seq = e.seq then { x with sent := true } else x }
    let bs := (List.range e.size).map (fun k => Line.byte e.data k)
    match s.peerWrite (hostCls c) (.hostStore c e.pa) e.pa bs with
    | (s, 0) => s
    | (s, _) => s.storeEnds c e.pa 1

/-- A load of a core returns: its data, or the poison exception (R379, R384). -/
def State.loadReturns (s : State) (c pa size : Nat) (d : Line) (poison : Bool) : State :=
  let s :=
    if poison then (s.hostExc c 2 0 (pa / 64 * 64)).answer (0x100 + c) 0 0 true
    else
      let v : Line := BitVec.ofNat 512 ((d.toNat >>> (8 * (pa % 64))) % 2 ^ (8 * size))
      (s.setHost c { s.host c with loadData := v }).answerLine (0x100 + c) v false
  (s.issuePeers c).tryBarriers c

/-- The line that a core asked of a peer has come, or will not (R354, R360, R425). -/
def State.peerLoadDone (s : State) (c line size : Nat) (d : Line) (poison : Bool) : State :=
  let h := s.host c
  let mine := fun (l : OpenLoad) => l.pa / 64 == line && l.size == size
  match h.loads.find? mine with
  | none => s
  | some l => (s.setHost c { h with loads := dropFirst mine h.loads }).loadReturns c l.pa size d poison

/-! ### The loss of a core's copies (R404–R406) -/

/-- Lines become LOST: counted at their slices, with one fault record for a slice (R406, R500). -/
def State.linesLost (s : State) (ls : List Nat) : State :=
  let s := s.each ls fun s l =>
    match s.dirEntry l with
    | some e =>
      { s with dir := s.dir.map fun x => if x.line = l then { e with state := 4, ptrs := [] } else x }
    | none => s
  s.each (List.range 32) fun s k =>
    match ls.filter (fun l => sliceOf l == k) with
    | [] => s
    | a :: r =>
      (s.bump DIR_S_STATUS.LOST_TOTAL k (r.length + 1)).faultRecord 5 k 0xFFF 0 (64 * a) (r.length + 1)

/-- A directory without a core's pointers in its SHARED entries (R404). -/
def dropPtr (c : Nat) (e : DirEntry) : Option DirEntry :=
  if e.state = 1 ∧ e.ptrs.contains c then
    let l := e.ptrs.filter (· != c)
    if l.isEmpty then none else some { e with ptrs := l }
  else some e

/-- A requester, nobody if it is a core that was reset. -/
def forget (c : Nat) (r : Requester) : Requester :=
  match r with
  | .hostStore x _ => if x = c then .gone else r
  | .hostLoad x _ => if x = c then .gone else r
  | _ => r

/-- Whether a held request is a core's own (R287, R405). -/
def HeldReq.isOf (c : Nat) : HeldReq → Bool
  | .shared k _ _ => k == c
  | .own k _ _ => k == c
  | .cond k _ _ => k == c
  | .back k _ => k == c
  | _ => false

/-- A core's caches, buffer, reservation and requests are lost (R386, R404, R405); the line of a grant on its way to it is
LOST too. -/
def State.loseCore (s : State) (c : Nat) : State :=
  let own := (s.dir.filter (fun e => e.state == 3 && e.ptrs.contains c)).map (·.line)
  let s := { s with dir := s.dir.filterMap (dropPtr c),
                    grants := s.grants.filter (fun (g : Grant) => g.core != c),
                    heldReqs := s.heldReqs.filter (fun (e : Nat × HeldReq) => !e.2.isOf c),
                    peerReqs := s.peerReqs.map fun (r : PeerReq) => { r with who := forget c r.who } }
  let h := s.host c
  let s := s.setHost c { h with cache := [], wb := [], sb := [], loads := [], resv := none, scPend := none, tlb := [],
                                tlbi := [], l1i := [], l1d := [],
                                barrier := 0, lostQ := [] }
  s.linesLost own

end Sys2Proof.Machine
end

