-- ==== Sys2Proof/Machine/Translation.lean ====
section
/-! DEFINITION. Page-table roots, invalidation by tag, fault records and their resolution, walks ahead, and the enabling
of record rings (R225–R244, R285, R535). -/

namespace Sys2Proof.Machine

/-! ### Record rings (R285, R535) -/

/-- A store to the configuration register of a record ring: with ENABLE 1 it latches the agent, sets TAIL to HEAD and
checks the ring against the rules that admit the agent; a trace ring must lie in HBM (R507). -/
def State.ringStore (s : State) (agent n : Nat) (v : Word) (inTxn : Bool := false) : State :=
  let r := ringOf n
  let s := s.storeReg agent (r.enable.off r.idx) v inTxn
  if r.enable.get v = 1 then
    let s := s.wr r.tail r.idx (s.rd r.head r.idx)
    let ok := s.admits agent true (s.rd r.base r.idx * 4096) (s.rd r.entries r.idx * r.size) &&
      (decide (n < 5) || s.region (s.rd r.base r.idx * 4096) == .hbm)
    { s with ringAgent := Tab.put (fun _ => 0) s.ringAgent n agent,
             ringBad := Tab.put (fun _ => false) s.ringBad n (!ok) }
  else s

/-- RING_ENABLE (R285): a write of a ring's configuration register. -/
def execRingEnable (t agent ring : Nat) (v : Word) (s : State) : Res :=
  s.live t fun s =>
    let r := ringOf ring
    let off := r.enable.off r.idx
    if 21 ≤ ring ∨ r.enable.get v ≠ 1 then s
    else s.gate agent off true fun s => s.txnWrite agent off v fun s => s.ringStore agent ring v

/-! ### Roots (R225) -/

/-- Both walk caches without a tag. -/
def State.dropTag (s : State) (tag : Nat) : State :=
  s.each [0, 1] fun s h =>
    { s with wcLeaf := Tab.put (fun _ => []) s.wcLeaf h ((s.leaves h).filter (fun x => x.tag != tag)),
             wcPtr := Tab.put (fun _ => []) s.wcPtr h ((s.ptrs h).filter (fun x => x.tag != tag)) }

/-- A store to TR_CTX_c (R225). -/
def State.rootStore (s : State) (agent c : Nat) (v : Word) : State :=
  let s := (s.storeReg agent (TR_CTX.VALID.off c) v).dropTag c
  if TR_CTX.VALID.get v = 1 then
    s.wr TR_CTX.REFUSED c (bit (!s.admitsSub (.context c) false (s.rd TR_CTX.ROOT c * 4096) 4096))
  else s

/-- TR_CTX_WRITE (R225): a write of a context's root register. -/
def execTrCtxWrite (t agent ctx : Nat) (v : Word) (s : State) : Res :=
  s.live t fun s =>
    if 4096 ≤ ctx then s else s.gate agent (TR_CTX.VALID.off ctx) true fun s => s.rootStore agent ctx v

/-! ### Invalidation (R235–R237) -/

/-- The descriptors of a tag that hold translations (R232, R234): started commands that are not complete, a COPY once
for each of its descriptors. -/
def State.holders (s : State) (tag : Nat) : List (Nat × Nat × Nat) :=
  (s.inflight.filter (fun f => f.ctx == tag && f.status.isNone)).flatMap fun f =>
    if f.kind = 2 then f.descs.map fun d => (f.q, f.i, d.pos)
    else if f.exts.isEmpty then [] else [(f.q, f.i, 0)]

/-- Whether a marked descriptor still holds its translations. -/
def State.stillHeld (s : State) (m : Nat × Nat × Nat) : Bool :=
  s.inflight.any fun f => f.q == m.1 && f.i == m.2.1 && f.status.isNone &&
    (if f.kind = 2 then f.descs.any (fun d => d.pos == m.2.2) else true)

/-- An invalidation of a tag is received: the caches drop the tag and the descriptors that hold translations are
marked. -/
def State.invalidate (s : State) (tag : Nat) (signal : Bool) (sync agent : Nat) : State :=
  let s := s.dropTag tag
  let x : Inval := ⟨s.nextInval, tag, s.holders tag, signal, sync, agent⟩
  { s with invals := s.invals ++ [x], nextInval := s.nextInval + 1 }

/-- A write of TR_INVAL_AST: while 64 are pending it is ignored and counted (R237). -/
def State.invalAst (s : State) (agent : Nat) (v : Word) : State :=
  if 64 ≤ s.invals.length then s.bump TR_INVAL_STATUS.REFUSED 0
  else s.invalidate (TR_INVAL_AST.TAG.get v) (TR_INVAL_AST.SIGNAL.get v == 1) (TR_INVAL_AST.SYNC.get v) agent

/-- TR_INVAL_AST (R235): a write of the register. -/
def execTrInvalAst (t agent : Nat) (v : Word) (s : State) : Res :=
  s.live t fun s =>
    let off := TR_INVAL_AST.TAG.off 0
    s.gate agent off true fun s => (s.storeReg agent off v).invalAst agent v

/-- INVALIDATION_COMPLETE (R235): every marked descriptor has finished or been aborted; the signal follows. -/
def execInvalidationComplete (t k : Nat) (s : State) : Res :=
  s.live t fun s =>
    match s.invals.find? (fun x => x.k == k) with
    | none => s
    | some x =>
      if x.marked.any s.stillHeld then s
      else
        let s := { s with invals := s.invals.filter (fun (y : Inval) => y.k != k) }
        if x.signal then s.notify x.agent x.sync else s

/-! ### Fault records (R239–R243) -/

/-- CONTINUATION_RECORD (R240): at a 1 µs boundary of the timebase a record lists the next 16 queues of an open fault that had
joined before it and that no record has listed yet. -/
def execContinuationRecord (t slot : Nat) (s : State) : Res :=
  s.live t fun s =>
    match s.faults.find? (fun f => f.slot == slot) with
    | none => s
    | some f =>
      let due := (f.unlisted.filter fun e => decide (e.2 < s.now)).take 16
      if due.isEmpty ∨ !s.edge 1000 then s
      else
        let f' := { f with unlisted := f.unlisted.filter fun e => !due.contains e }
        ({ s with faults := s.faults.map (fun (x : OpenFault) => if x.slot = slot then f' else x) }).ringRecord 0
          (faultWords f true (due.map Prod.fst))

/-- A slot of the table of open faults has become free: the longest-waiting queue without one walks again (R243). -/
def State.slotFreed (s : State) : State :=
  match s.unslotted with
  | [] => s
  | u :: r => ({ s with unslotted := r }).setQueue u { s.queue u with chosen := true }

/-- What a resolution does to a queue that its fault listed (R242): its command walks again, or is abandoned. -/
def State.resolveQueue (s : State) (abandon : Bool) (q : Nat) : State :=
  if !(s.queue q).faulted then s
  else if abandon then
    let xlate := s.qParked q && s.rd QE_Q_STATUS.REASON q == 3
    (if xlate then s.abandonQueue q else s.abandonHead q).tryDisable q
  else s.setQueue q { s.queue q with chosen := true }

/-- A write of TR_FAULT_RESOLVE (R242). -/
def State.faultResolve (s : State) (v : Word) : State :=
  let slot := TR_FAULT_RESOLVE.SLOT.get v
  match s.faults.find? (fun f => f.slot == slot && f.seq % 2 ^ 32 == TR_FAULT_RESOLVE.SEQ.get v) with
  | none => s.bump TR_FAULT_STATUS.STALE 0
  | some f =>
    let s := { s with faults := s.faults.filter (fun (x : OpenFault) => x.slot != slot) }
    (s.each f.queues (fun s q => s.resolveQueue (TR_FAULT_RESOLVE.ACTION.get v == 1) q)).slotFreed

/-- TR_FAULT_RESOLVE (R242): a write of the register. -/
def execTrFaultResolve (t agent : Nat) (v : Word) (s : State) : Res :=
  s.live t fun s =>
    let off := TR_FAULT_RESOLVE.SLOT.off 0
    s.gate agent off true fun s => (s.storeReg agent off v).faultResolve v

/-! ### Walks ahead (R227) -/

/-- The virtual ranges that a command's own words name: address and bytes. -/
def cmdRanges (w : List Word) : List (Nat × Nat) :=
  let at_ := fun (n : Nat) => (w.getD n 0).toNat
  let va := fun (n : Nat) => bitsOf (at_ n) 47 0
  match bitsOf (at_ 0) 23 16 with
  | 1 => [(va 3, 16 * bitsOf (at_ 3) 52 48)]
  | 2 =>
    let len := bitsOf (at_ 3) 39 0
    (if bitOf (at_ 3) 40 then [] else [(va 1, len)]) ++ (if bitOf (at_ 3) 41 then [] else [(va 2, len)])
  | 3 => [(va 1, bitsOf (at_ 2) 6 0)]
  | 6 => [(va 1, 128)]
  | _ => []

/-- WALK_AHEAD (R227): the engine walks an address of one of a queue's next four commands, without faulting and without
setting A or D. -/
def execWalkAhead (t q va : Nat) (found : Found) (s : State) : Res :=
  s.live t fun s =>
    let near := ((s.queue q).fetched.take 4).flatMap fun f => cmdRanges f.words
    if s.qRuns q && near.any (fun r => decide (r.1 ≤ va) && decide (va < r.1 + r.2)) then
      s.reads found 0 (0x4000 + q) fun s => (s.walk1 (hubOfQueue q) (s.rd QE_Q_CFG.CONTEXT q) va false true).2
    else s

end Sys2Proof.Machine
end

