-- ==== Sys2Proof/Machine/Tier.lean ====
section
/-! DEFINITION. The far tier's ports, the residency table with its migrations, and rills (R295–R313). -/

namespace Sys2Proof.Machine

/-! ### CXL ports (R295, R299) -/

/-- Whether a CXL port is in link recovery. -/
def State.cxlRecovering (s : State) (p : Nat) : Bool := Tab.get (fun _ => 0) s.cxlRecover p != 0

/-- CXL_LINK_RECOVERY (R299): an ACTIVE port leaves link-up. -/
def execCxlLinkRecovery (t port : Nat) (s : State) : Res :=
  s.live t fun s =>
    if port < 8 ∧ s.rd TIER_PORT_STATUS.STATE port = 2 ∧ !s.cxlRecovering port then
      { s with cxlRecover := Tab.put (fun _ => 0) s.cxlRecover port (s.now + 1) }
    else s

/-- A port's recovery ends and the requests it held are performed in arrival order. -/
def State.endRecovery (s : State) (p : Nat) : State :=
  { s with cxlRecover := Tab.put (fun _ => 0) s.cxlRecover p 0 }.releaseReqs (384 + p)

/-- Whether a port's recovery has lasted 1 ms. -/
def State.recoveryOver (s : State) (p : Nat) : Bool := decide (Tab.get (fun _ => 0) s.cxlRecover p - 1 + 1000000 ≤ s.now)

/-- CXL_LINK_RECOVERED (R299): the link is back within 1 ms. -/
def execCxlLinkRecovered (t port : Nat) (s : State) : Res :=
  s.live t fun s =>
    if s.cxlRecovering port && !s.recoveryOver port then s.endRecovery port else s

/-- CXL_PORT_DOWN (R299): the link is not back within 1 ms; the port stays DOWN, and what it held meets that. -/
def execCxlPortDown (t port : Nat) (s : State) : Res :=
  s.live t fun s =>
    if s.cxlRecovering port && s.recoveryOver port then
      (s.wr TIER_PORT_STATUS.STATE port 3).endRecovery port
    else s

/-- CXL_ERROR (R295, R500): firmware reads an error status from a port. -/
def execCxlError (t port : Nat) (status : Word) (s : State) : Res :=
  s.live t fun s =>
    if 8 ≤ port then s else s.faultRecord 12 port 0xFFF 0 0 status.toNat

/-! ### Objects (R300–R302) -/

/-- Bytes of a leaf of a LEAF code. -/
def leafBytes (code : Nat) : Nat := 4096 * 512 ^ code

/-- Base of an object's virtual range. -/
def State.objVa (s : State) (n : Nat) : Nat := s.rd TIER_OBJ_VA.VA n * 4096

/-- Bytes of one leaf of an object. -/
def State.objLeaf (s : State) (n : Nat) : Nat := leafBytes (s.rd TIER_OBJ_CFG.LEAF n)

/-- Bytes of an object. -/
def State.objLen (s : State) (n : Nat) : Nat := s.rd TIER_OBJ_VA.LENGTH n * s.objLeaf n

/-- An object's backing in a tier. -/
def State.objBacking (s : State) (n tier : Nat) : Nat :=
  if tier = 0 then s.rd TIER_OBJ_HBM.PA n * 4096 else s.rd TIER_OBJ_FAR.PA n * 4096

/-- Whether an object's entry is in use. -/
def State.objLive (s : State) (n : Nat) : Bool := s.flag TIER_OBJ_CFG.VALID n && !s.flag TIER_OBJ_CFG.REFUSED n

/-- The objects in use. -/
def State.liveObjs (s : State) : List Nat :=
  ((s.regs.filter fun e => decide (0x21100000 ≤ e.1) && decide (e.1 < 0x21300000) && e.1 % 0x20 == 0).map
    fun e => (e.1 - 0x21100000) / 0x20).filter s.objLive

/-- Whether a backing lies inside its region, at a multiple of the leaf, and is admitted to the object's context. -/
def State.backingOk (s : State) (n tier : Nat) : Bool :=
  let a := s.objBacking n tier
  let c := Subject.context (s.rd TIER_OBJ_CFG.CONTEXT n)
  let want : Region := if tier = 0 then .hbm else .far
  a % s.objLeaf n == 0 && s.region a == want && s.region (a + (s.objLen n - 1)) == want &&
    s.admitsSub c false a (s.objLen n) && s.admitsSub c true a (s.objLen n)

/-- The check of an entry whose VALID is written to 1 (R301). -/
def State.objOk (s : State) (n : Nat) : Bool :=
  let len := s.objLen n
  let ctx := s.rd TIER_OBJ_CFG.CONTEXT n
  let others := s.liveObjs.filter (· != n)
  let backs := fun (m : Nat) => [(s.objBacking m 0, s.objLen m), (s.objBacking m 1, s.objLen m)]
  decide (0 < len) && s.objVa n % s.objLeaf n == 0 && s.backingOk n 0 && s.backingOk n 1 &&
    others.all (fun m => !(s.rd TIER_OBJ_CFG.CONTEXT m == ctx && rangesMeet (s.objVa m, s.objLen m) (s.objVa n, len)) &&
      !listsMeet (backs m) (backs n))

/-- A store to TIER_OBJ_CFG_n (R301): a VALID of 1 that is not ignored checks the entry. -/
def State.objStore (s : State) (agent n : Nat) (v : Word) : State :=
  let moves := s.flag TIER_OBJ_CFG.VALID n && s.rd TIER_OBJ_CFG.STATE n != 0
  let s := s.storeReg agent (TIER_OBJ_CFG.VALID.off n) v
  if TIER_OBJ_CFG.VALID.get v = 1 ∧ !moves then s.wr TIER_OBJ_CFG.REFUSED n (bit (!s.objOk n)) else s

/-- TIER_OBJ_CFG (R301): a write of the register. -/
def execTierObjCfg (t agent n : Nat) (v : Word) (s : State) : Res :=
  s.live t fun s =>
    if 65536 ≤ n then s else s.gate agent (TIER_OBJ_CFG.VALID.off n) true fun s => s.objStore agent n v

/-! ### Leaves (R302, R304) -/

/-- The entry of a virtual address at a level of a tag's tables, read without a cache: its address and value. -/
def State.entryAt (s : State) (tag va level : Nat) : List Nat → Nat → Option (Nat × Nat) × State
  | [], _ => (none, s)
  | l :: rest, table =>
    let a := table + 8 * (va / spanOf l % 512)
    match s.readPte tag a with
    | (none, s) => (none, s)
    | (some pte, s) =>
      if l = level then (some (a, pte), s)
      else if bitOf pte 0 && bitOf pte 1 && !badFormat pte l then s.entryAt tag va level rest (bitsOf pte 51 12 * 4096)
      else (none, s)

/-- The leaf k of an object as its tables hold it. -/
def State.objEntry (s : State) (n k : Nat) : Option (Nat × Nat) × State :=
  let tag := s.rd TIER_OBJ_CFG.CONTEXT n
  s.entryAt tag (s.objVa n + k * s.objLeaf n) (3 - s.rd TIER_OBJ_CFG.LEAF n) [0, 1, 2, 3] (s.rd TR_CTX.ROOT tag * 4096)

/-- Whether leaf k of an object is as CHECK demands (R304): valid, of the size LEAF, open to engines, and at HOME's
backing. -/
def State.leafOk (s : State) (n k : Nat) : Bool × State :=
  let level := 3 - s.rd TIER_OBJ_CFG.LEAF n
  let want := s.objBacking n (s.rd TIER_OBJ_CFG.HOME n) + k * s.objLeaf n
  match s.objEntry n k with
  | (none, s) => (false, s)
  | (some (_, pte), s) =>
    (bitOf pte 0 && !badFormat pte level && (bitOf pte 1 == (level == 3)) && bitOf pte 7 &&
      bitsOf pte 51 12 * 4096 == want, s)

/-- Whether every leaf of an object passes CHECK. -/
def State.leavesOk (s : State) (n : Nat) : Bool × State :=
  if s.flag TR_CTX.VALID (s.rd TIER_OBJ_CFG.CONTEXT n) && !s.flag TR_CTX.REFUSED (s.rd TIER_OBJ_CFG.CONTEXT n) then
    (List.range (s.rd TIER_OBJ_VA.LENGTH n)).foldl
      (fun (a : Bool × State) k => let r := a.2.leafOk n k; (a.1 && r.1, r.2)) (true, s)
  else (false, s)

/-- Leaf k of an object is rewritten by an atomic operation at the entry's home. -/
def State.rewriteLeaf (s : State) (n k : Nat) (f : Nat → Nat) : State :=
  match s.objEntry n k with
  | (none, s) => s
  | (some (a, pte), s) =>
    s.engStore (a / 64) (maskOf (a % 64) 8) (BitVec.ofNat 512 ((f pte % 2 ^ 64) <<< (8 * (a % 64))))

/-- Every leaf of an object is rewritten. -/
def State.rewriteLeaves (s : State) (n : Nat) (f : Nat → Nat → Nat) : State :=
  s.each (List.range (s.rd TIER_OBJ_VA.LENGTH n)) fun s k => s.rewriteLeaf n k (f k)

/-- The value of a leaf without V. -/
def clearV (pte : Nat) : Nat := pte / 2 * 2

/-- The value of a leaf with V, pointing at an address. -/
def remapPte (pte pa : Nat) : Nat := (pte - bitsOf pte 51 12 * 4096) / 2 * 2 + 1 + pa / 4096 % 2 ^ 40 * 4096

/-! ### Migrations (R303–R308) -/

/-- Migrations past their check: the moving set. -/
def State.moving (s : State) : List Mig := s.migs.filter (fun m => m.phase != 0)

/-- Whether a virtual address lies in an object of a tag that is in the moving set; a walk that finds V = 0 there
waits (R306). -/
def State.walkHeld (s : State) (tag va : Nat) : Bool :=
  s.moving.any fun m => s.rd TIER_OBJ_CFG.CONTEXT m.obj == tag && decide (s.objVa m.obj ≤ va) &&
    decide (va < s.objVa m.obj + s.objLen m.obj)

/-- A migration's trace event for the PHASE entered (R509). -/
def State.tracePhase (s : State) (m : Mig) (phase : Nat) : State :=
  (s.wr TIER_OBJ_CFG.PHASE m.obj phase).offer 20 5 m.hub m.hub (packBits [(0, m.obj), (16, phase)])
    (s.rd TIER_OBJ_CFG.CONTEXT m.obj) m.work.1 m.work.2

/-- A migration reaches its object's pending list (R303). -/
def State.submitMig (s : State) (m : Mig) : State :=
  let s := if s.rd TIER_OBJ_CFG.STATE m.obj = 0 then s.wr TIER_OBJ_CFG.STATE m.obj 1 else s
  { s with migs := s.migs ++ [m] }

/-- The first migration in arrival order of an object. -/
def State.migOf (s : State) (n : Nat) : Option Mig := s.migs.find? (fun m => m.obj == n)

/-- The status that the check of a migration's request gives (R308): 0, or NOT_VALID (3) or DENIED (2) as LAST records
them. -/
def State.migCause (s : State) (n ctx : Nat) : Nat :=
  if !s.objLive n then 3
  else if s.rd TIER_OBJ_CFG.CONTEXT n ≠ ctx ∨ !(s.backingOk n 0 && s.backingOk n 1) then 2
  else 0

/-- Whether rill n is in use. -/
def State.rillOn (s : State) (n : Nat) : Bool := s.flag TIER_RILL_CFG.ENABLE n && !Tab.get (fun _ => false) s.rillBad n

/-- The rills in use that are bound to a queue. -/
def State.rillsOf (s : State) (q : Nat) : List Nat :=
  (List.range 64).filter (fun n => s.rillOn n && s.rd TIER_RILL_CFG.QUEUE n == q)

/-- The rills that gate the launch at HEAD of a queue: each has issued a migration of its LAYER with GATE that is not
complete (R312). -/
def State.gatesOf (s : State) (q : Nat) : List Nat :=
  match (s.queue q).fetched with
  | [] => []
  | f :: _ =>
    if bitsOf (f.words.headD 0).toNat 23 16 = 1 then
      (s.migs.filterMap fun m => if m.gate = some (hdrLayer f.words) then m.rill.map Prod.fst else none).eraseDups.filter
        fun n => s.rd TIER_RILL_CFG.QUEUE n == q
    else []

/-- Whether the launch at HEAD of a queue is held by a migration that one of its rills has issued (R312). -/
def State.gated (s : State) (q : Nat) : Bool := !(s.gatesOf q).isEmpty

/-- A migration of a rill has ended: a rill that no longer holds the launch at HEAD of its queue counts its ticks, and a
launch that no rill holds any longer is released (R312). -/
def State.releaseGate (s : State) (m : Mig) : State :=
  match m.rill with
  | none => s
  | some (n, _) =>
    let q := s.rd TIER_RILL_CFG.QUEUE n
    if (s.queue q).gates.isEmpty then s
    else
      let s := s.ungate q (((s.queue q).gates.map Prod.fst).filter fun k => !(s.gatesOf q).contains k)
      if s.gated q then s else s.setQueue q { s.queue q with released := some m.obj }

/-- A migration ends with a status for its command (R303, R304, R308): its object is free for the next one, a rill
counts it, and a held launch may go on. -/
def State.endMig (s : State) (m : Mig) (status detail : Nat) (failed : Bool) : State :=
  let s := { s with migs := dropFirst (fun (x : Mig) => decide (x = m)) s.migs }
  let s := s.wr TIER_OBJ_CFG.STATE m.obj (bit (s.migOf m.obj).isSome)
  let s := match m.cmd with
    | some (q, i) => if m.ended then s else s.finish q i status detail
    | none => s
  let s := match m.rill with
    | some (n, _) =>
      let s := s.wr TIER_RILL_STATUS.OUT n (s.rd TIER_RILL_STATUS.OUT n - 1)
      if failed then s.bump TIER_RILL_STATUS.FAILS n else s
    | none => s
  s.releaseGate m

/-- Whether migration m may take a place in the moving set now (R303, R304, R312): it is the first of its object, no
launch released for the object is still to start, and a place is free beyond those that older waiting ones take. -/
def State.migReady (s : State) (m : Mig) : Bool :=
  let first := fun (x : Mig) => x.phase == 0 && decide (s.migOf x.obj = some x)
  let older := (s.migs.takeWhile (fun x => decide (x ≠ m))).filter first
  first m && decide (s.moving.length + older.length < 64) &&
    !s.queues.any (fun e => e.2.released == some m.obj)

/-- The invalidation of DRAIN starts when fewer than 64 are pending (R237, R304). -/
def State.startInval (s : State) (m : Mig) : State × Mig :=
  if s.invals.length < 64 then
    (s.invalidate (s.rd TIER_OBJ_CFG.CONTEXT m.obj) false 0 0, { m with inval := some s.nextInval })
  else (s, m)

/-- A migration in the list is replaced. -/
def State.setMig (s : State) (old new : Mig) : State :=
  { s with migs := s.migs.map fun (x : Mig) => if x = old then new else x }

/-- The agent that a migration's reads carry: its queue, or the queue of its rill (R535). -/
def State.migAgent (s : State) (m : Mig) : Nat :=
  match m.cmd, m.rill with
  | some (q, _), _ => 0x4000 + q
  | none, some (n, _) => 0x4000 + s.rd TIER_RILL_CFG.QUEUE n
  | none, none => 0

/-- CHECK of a migration that moves its object, and then DRAIN: every leaf is invalid, and the invalidations begin (R304,
R377). -/
def State.checkMig (s : State) (n : Nat) (m : Mig) : State :=
  match s.leavesOk n with
  | (false, s) => (s.wr TIER_OBJ_CFG.LAST n 1).endMig m 4 8 true
  | (true, s) =>
    let s := ((s.wr TIER_OBJ_CFG.STATE n 2).tracePhase m 0).rewriteLeaves n (fun _ pte => clearV pte)
    let s := s.tracePhase m 1
    let tag := s.rd TIER_OBJ_CFG.CONTEXT n
    let (s, m') := (s.tlbDrop tag).startInval { m with phase := 1, tlb := s.tlbMarks tag }
    s.setMig m m'

/-- MIGRATION_CHECK (R303, R304): the oldest migration of an object takes a place; it completes at once when HOME is its
target, fails with MISMATCH, or enters DRAIN with every leaf invalid and its invalidations started, that of the host cores' TLBs among them (R377). -/
def execMigrationCheck (t n : Nat) (found : Found) (s : State) : Res :=
  s.live t fun s =>
    match s.migOf n with
    | none => s
    | some m =>
      if !s.migReady m then s
      else if s.rd TIER_OBJ_CFG.HOME n = m.target then (s.bump TIER_OBJ_CFG.NOOPS n).endMig m 0 0 false
      else
        s.reads found 0 (s.migAgent m) fun s => s.checkMig n m

/-- MIGRATION_DRAIN (R304): both invalidations are complete and the migration enters COPY; an invalidation that found
none of the 64 free starts now. -/
def execMigrationDrain (t n : Nat) (s : State) : Res :=
  s.live t fun s =>
    match s.migOf n with
    | none => s
    | some m =>
      if m.phase ≠ 1 then s
      else
        match m.inval with
        | none => let (s, m') := s.startInval m; s.setMig m m'
        | some k =>
          if s.invals.any (fun x => x.k == k) || !s.tlbDone m.tlb then s
          else (s.setMig m { m with phase := 2 }).tracePhase m 2

/-- Lines of an object are copied from the old backing to the new: of these, the lines that read as poison, and those that
could not be written (R299, R304). -/
def State.moveLines (s : State) (old new : Nat) (ks : List Nat) : Nat × Nat × State :=
  ks.foldl
    (fun (a : Nat × Nat × State) k =>
      let (d, p, s) := a.2.2.engLine (old / 64 + k)
      let dst := new / 64 + k
      let lost := s.lostLine dst
      let s := if p then s.engPoison dst else s.engStore dst fullMask d
      (a.1 + bit p, a.2.1 + bit lost, s))
    (0, 0, s)

/-- The lines of an object that a migration has not copied. -/
def State.linesLeft (s : State) (m : Mig) : List Nat :=
  (List.range (s.objLen m.obj / 64)).filter fun k => !m.copied.contains k

/-- REMAP (R304): the leaves point into the new backing, HOME is set, and the migration ends with the lines that were poison
or could not be written. -/
def State.remap (s : State) (m : Mig) (bad lost : Nat) : State :=
  let n := m.obj
  let new := s.objBacking n m.target
  let leaf := s.objLeaf n
  let s := (s.tracePhase m 3).rewriteLeaves n (fun k pte => remapPte pte (new + k * leaf))
  let s := (s.wr TIER_OBJ_CFG.HOME n m.target).bump TIER_OBJ_CFG.MOVES n
  if 0 < lost then s.endMig m 8 lost false
  else if 0 < bad then s.endMig m 11 bad false
  else s.endMig m 0 0 false

/-- Lines of a migration are copied: those of a list, or all that are left, and then REMAP (R304). -/
def State.copyMig (s : State) (n : Nat) (m : Mig) (only : Option (List Nat)) : State :=
  let ks := match only with
    | some l => (s.linesLeft m).filter l.contains
    | none => s.linesLeft m
  let (bad, lost, s) := s.moveLines (s.objBacking n (1 - m.target)) (s.objBacking n m.target) ks
  if only.isSome then s.setMig m { m with copied := m.copied ++ ks, bad := m.bad + bad, lost := m.lost + lost }
  else s.remap m (m.bad + bad) (m.lost + lost)

/-- MIGRATION_COPY (R304, R307): lines are copied, each once, in any order: those of a list, or all that are left, after which
REMAP follows. -/
def execMigrationCopy (t n : Nat) (only : Option (List Nat)) (found : Found) (s : State) : Res :=
  s.live t fun s =>
    match s.migOf n with
    | none => s
    | some m =>
      if m.phase ≠ 2 then s
      else s.reads found 0 (s.migAgent m) fun s => s.copyMig n m only

/-! ### Rills (R310–R312) -/

/-- Whether a rill's array, of the entries and the bound queue that a TIER_RILL_CFG word names, is admitted to the queue's
context (R64, R310). -/
def State.rillOk (s : State) (n : Nat) (cfg : Word) : Bool :=
  s.admitsSub (.context (s.rd QE_Q_CFG.CONTEXT (TIER_RILL_CFG.QUEUE.get cfg))) false (s.rd TIER_RILL_BASE.BASE n * 4096)
    (8 * TIER_RILL_CFG.ENTRIES.get cfg)

/-- A rill whose ENABLE is written to 1: the array is checked, the cursor goes to 0 and every issued mark is cleared
(R310). -/
def State.rillEnabled (s : State) (n : Nat) : State :=
  let ok := s.rillOk n (s.reg (TIER_RILL_CFG.ENABLE.off n))
  { s.wr TIER_RILL_STATUS.CURSOR n 0 with
    rillBad := Tab.put (fun _ => false) s.rillBad n (!ok),
    rillIssued := s.rillIssued.filter (fun e => e.1 / 4096 != n) }

/-- A store to TIER_RILL_CFG_n (R310). -/
def State.rillStore (s : State) (agent n : Nat) (v : Word) : State :=
  let s := s.storeReg agent (TIER_RILL_CFG.ENABLE.off n) v
  if TIER_RILL_CFG.ENABLE.get v = 1 then s.rillEnabled n else s

/-- RILL_ENABLE (R310): a write of TIER_RILL_CFG_n with ENABLE 1. -/
def execRillEnable (t agent n : Nat) (v : Word) (s : State) : Res :=
  s.live t fun s =>
    let off := TIER_RILL_CFG.ENABLE.off n
    if 64 ≤ n ∨ TIER_RILL_CFG.ENABLE.get v ≠ 1 then s
    else s.gate agent off true fun s => s.txnWrite agent off v fun s => s.rillStore agent n v

/-- The entries of a rill's array, none when a read of it is refused or poisoned. -/
def State.rillEntries (s : State) (n q : Nat) : Option (List Nat) × State :=
  let a := s.rd TIER_RILL_BASE.BASE n * 4096
  let k := s.rd TIER_RILL_CFG.ENTRIES n
  if s.plainOk (.context (s.rd QE_Q_CFG.CONTEXT q)) false a (8 * k) then
    let (w, p, s) := s.engWords a k
    (if p then none else some (w.map (·.toNat)), s)
  else (none, s)

/-- A mark of a rill's entry. -/
def State.setIssued (s : State) (n e : Nat) (b : Bool) : State :=
  { s with rillIssued := Tab.put (fun _ => false) s.rillIssued (n * 4096 + e) b }

/-- A rill issues the migration of entry e (R311): of another context's object, or of an entry that its check refuses,
nothing moves and FAILS counts it. -/
def State.issueRill (s : State) (n q e w : Nat) : State :=
  let s := s.setIssued n e true
  let obj := bitsOf w 15 0
  match s.migCause obj (s.rd QE_Q_CFG.CONTEXT q) with
  | 0 =>
    (s.bump TIER_RILL_STATUS.OUT n).submitMig
      ⟨obj, bitsOf w 16 16, none, some (n, e), if bitOf w 17 then some (bitsOf w 47 32) else none, hubOfQueue q, (0, 0), 0,
        none, [], [], 0, 0, false⟩
  | c =>
    let s := if s.rd TIER_OBJ_CFG.CONTEXT obj = s.rd QE_Q_CFG.CONTEXT q ∨ c = 3 then s.wr TIER_OBJ_CFG.LAST obj c else s
    s.bump TIER_RILL_STATUS.FAILS n

/-- The evaluation of a rill of queue q for a launch of a LAYER (R311). -/
def State.evalRill (s : State) (q layer n : Nat) : State :=
  match s.rillEntries n q with
  | (none, s) => s
  | (some es, s) =>
    let k := es.length
    let cur := s.rd TIER_RILL_STATUS.CURSOR n % max k 1
    match (List.range k).find? (fun d => bitsOf (es.getD ((cur + d) % k) 0) 47 32 == layer) with
    | none => s
    | some d0 =>
      let p := (cur + d0) % k
      let s := s.each (List.range d0) fun s d => s.setIssued n ((cur + d) % k) false
      let s := if p < cur then s.bumpWrap TIER_RILL_STATUS.LAP n else s
      let s := s.wr TIER_RILL_STATUS.CURSOR n p
      s.each (List.range k) fun s d =>
        let e := (p + d) % k
        let w := es.getD e 0
        if d ≤ bitsOf w 25 18 ∧ !Tab.get (fun _ => false) s.rillIssued (n * 4096 + e) ∧
            s.rd TIER_RILL_STATUS.OUT n < s.rd TIER_RILL_CFG.MAX_OUT n then s.issueRill n q e w
        else s

/-- RILL_EVALUATION (R311, R312): a LAUNCH has become a bound queue's next command to start; its rills issue what is due,
and its gate may hold it. -/
def execRillEvaluation (t q : Nat) (found : Found) (s : State) : Res :=
  s.live t fun s =>
    match (s.queue q).fetched with
    | [] => s
    | f :: _ =>
      if bitsOf (f.words.headD 0).toNat 23 16 ≠ 1 ∨ (s.queue q).evaluated ∨ !s.qRuns q ∨ (s.rillsOf q).isEmpty then s
      else
        s.reads found 0 (0x4000 + q) fun s =>
          let s := s.each (s.rillsOf q) fun s n => s.evalRill q (hdrLayer f.words) n
          s.setQueue q { s.queue q with evaluated := true, gates := (s.gatesOf q).map fun n => (n, s.now) }

end Sys2Proof.Machine
end

