-- ==== Sys2Proof/Machine/TileArray.lean ====
section
/-! DEFINITION. The array instructions and the phases of array work (R82–R96, R108–R118, R135–R142). -/

namespace Sys2Proof.Machine

/-- The floating-point format of a code of R135. -/
def fmtOf (code : Nat) : Fmt :=
  match code with
  | 0 => .fp32 | 1 => .bf16 | 2 => .fp16 | 3 => .e4m3 | 4 => .e5m2 | 5 => .e3m2 | 6 => .e2m3
  | _ => .e2m1

/-- A number of w bits as a signed integer. -/
def signedOf (w x : Nat) : Int := if x % 2 ^ w < 2 ^ (w - 1) then (x % 2 ^ w : Nat) else ((x % 2 ^ w : Nat) : Int) - 2 ^ w

/-! ### One streaming cycle of a cell (R82, R109–R114) -/

/-- A scaled operand: NaN under scale 0xFF, otherwise the element times 2^(scale − 127) (R108, R109). -/
def scaledVal (v : Val) (scale : Nat) : Val := if scale = 255 then .nan else v.scale ((scale : Int) - 127)

/-- One cycle of a floating-point cell: the exact sum of the products and the bank value rounded once, and the FLAGS
bits that it sets: NAN_OUT of a NaN from operands that held none, OVERFLOW of a finite sum beyond the maximum. -/
def cellStep (old : Word32) (ops : List (Val × Val)) : Word32 × Nat :=
  let bank := Fmt.fp32.decode old.toNat
  let sum := ops.foldl (fun a p => Val.add a (Val.mul p.1 p.2)) bank
  let (code, cond) := Fmt.fp32.convert sum
  let nanIn := bank.isNan || ops.any (fun p => p.1.isNan || p.2.isNan)
  (BitVec.ofNat 32 code, (if sum.isNan && !nanIn then 1 else 0) ||| (if cond.overflow then 2 else 0))

/-- One cycle of an INT8 cell: the sum modulo 2^32, INT_WRAP when it left the range (R86, R114). -/
def cellStepInt (old : Word32) (ops : List (Int × Int)) : Word32 × Nat :=
  let sum := old.toInt + (ops.map (fun p => p.1 * p.2)).sum
  (BitVec.ofInt 32 sum, if sum < -(2 ^ 31) ∨ 2 ^ 31 - 1 < sum then 16 else 0)

/-- The value of A[i][k], its block scale applied (R138). -/
def Core.aVal (k : Core) (o : ArrayOp) (i kk : Nat) : Val :=
  let v := (fmtOf o.fmtA).decode (k.spElem o.aOff (codeBits o.fmtA) (kk * 128 + i))
  if o.scaled then scaledVal v (k.spByte (o.saOff + kk / 32 * 128 + i)).toNat else v

/-- The value of B[k][j], its block scale applied (R138). -/
def Core.bVal (k : Core) (o : ArrayOp) (kk j : Nat) : Val :=
  let v := (fmtOf o.fmtB).decode (k.spElem o.bOff (codeBits o.fmtB) (kk * 128 + j))
  if o.scaled then scaledVal v (k.spByte (o.sbOff + kk / 32 * 128 + j)).toNat else v

/-- The K-step groups of a pass: s consecutive values of k each, the last perhaps fewer (R82, R139). -/
def ArrayOp.groups (o : ArrayOp) : List (List Nat) :=
  (List.range o.cycles).map fun g =>
    (List.range (stepsOf o.fmtA)).map (fun d => g * stepsOf o.fmtA + d) |>.filter (fun kk => decide (kk < o.k))

/-- A cell after the whole pass, and the FLAGS bits it set. -/
def Core.passCell (k : Core) (o : ArrayOp) (i j : Nat) : Word32 × Nat :=
  o.groups.foldl
    (fun a g =>
      let r :=
        if o.fmtA = 8 then
          cellStepInt a.1 (g.map fun kk =>
            (signedOf 8 (k.spElem o.aOff 8 (kk * 128 + i)), signedOf 8 (k.spElem o.bOff 8 (kk * 128 + j))))
        else cellStep a.1 (g.map fun kk => (k.aVal o i kk, k.bVal o kk j))
      (r.1, a.2 ||| r.2))
    (k.cell o.bank i j, 0)

/-- Every position of the presented array. -/
def cells (w : Nat) : List (Nat × Nat) :=
  (List.range 128).flatMap (fun i => (List.range w).map (fun j => (i, j)))

/-- A core's bank after a pass has streamed, and the FLAGS bits. -/
def Core.stream (k : Core) (o : ArrayOp) (w : Nat) : Core × Nat :=
  (cells w).foldl
    (fun a p => let r := k.passCell o p.1 p.2; (a.1.setCell o.bank p.1 p.2 r.1, a.2 ||| r.2)) (k, 0)

/-- The scratchpad ranges of operands and scales that a pass reads at a presented width: elements at j ≥ W are not
read (R138). -/
def ArrayOp.streamReads (o : ArrayOp) (w : Nat) : List (Nat × Nat) :=
  (o.aOff, codeBytes o.fmtA (o.k * 128)) ::
  (List.range o.k).map (fun kk =>
    (o.bOff + kk * 128 * codeBits o.fmtB / 8, (w * codeBits o.fmtB + 7) / 8)) ++
  (if o.scaled then
    (o.saOff, (o.k + 31) / 32 * 128) :: (List.range ((o.k + 31) / 32)).map (fun b => (o.sbOff + b * 128, w))
   else [])

/-! ### Drains (R116–R118, R142) -/

/-- The value of a bank's cell. -/
def Core.cellVal (k : Core) (b i j : Nat) : Val :=
  let c := k.cell b i j
  if k.isInt b then Val.ofInt c.toInt else Fmt.fp32.decode c.toNat

/-- The random bits of an element of a drain, in SR mode (R119). -/
def Core.drainRnd (k : Core) (o : ArrayOp) (i j : Nat) : Option Nat :=
  if o.sr then k.launch.map (fun l => srBits l.seed l.stream o.seq (i * 128 + j)) else none

/-- An unscaled element of a drain: its code and FLAGS bits. -/
def Core.drainElem (k : Core) (o : ArrayOp) (i j : Nat) : Nat × Nat :=
  let v := k.cellVal o.bank i j
  let r := k.drainRnd o i j
  match o.fmtA with
  | 9 => ((k.cell o.bank i j).toNat, 0)
  | 8 => let (c, x) := toInt 8 v r; (c, x.flags)
  | f => let (c, x) := (fmtOf f).convert v r; (c, x.flags)

/-- EMAX of R118. -/
def emaxOf (fmt : Nat) : Int :=
  match fmt with
  | 3 => 8 | 4 => 15 | 5 => 4
  | _ => 2

/-- floor(log2) of a finite non-zero magnitude. -/
def log2Val : Val → Option Int
  | .fin _ m e => if m = 0 then none else some (e + m.log2)
  | _ => none

/-- The largest of some optional integers. -/
def maxLog : List (Option Int) → Option Int
  | [] => none
  | none :: r => maxLog r
  | some x :: r => match maxLog r with
    | none => some x
    | some y => some (max x y)

/-- The scale code of a block (R118): 0xFF with a NaN or infinity, 127 when every value is zero. -/
def blockScale (fmt : Nat) (vs : List Val) : Nat :=
  if vs.any (fun v => !v.isFin) then 255
  else match maxLog (vs.map log2Val) with
    | none => 127
    | some x => (max 0 (min 254 (x - emaxOf fmt + 127))).toNat

/-- One element of a scaled block: its code and FLAGS bits. A scale of 0xFF makes every code 0. -/
def scaledElem (fmt scale : Nat) (v : Val) (r : Option Nat) : Nat × Nat :=
  if scale = 255 then (0, 0)
  else let (c, x) := (fmtOf fmt).convert (v.scale (127 - (scale : Int))) r; (c, x.flags)

/-- The blocks of a scaled drain: the byte of the scale and the positions (R118, R142). -/
def drainBlocks (axis : Bool) (w : Nat) : List (Nat × List (Nat × Nat)) :=
  if axis then
    (List.range 4).flatMap fun b => (List.range w).map fun j =>
      (b * 128 + j, (List.range 32).map fun d => (32 * b + d, j))
  else
    (List.range 128).flatMap fun i => (List.range 4).map fun b =>
      (i * 4 + b, ((List.range 32).map fun d => (i, 32 * b + d)).filter fun p => decide (p.2 < w))

/-- The index of an element in the destination (R141). -/
def drainIndex (layout : Bool) (p : Nat × Nat) : Nat := if layout then p.2 * 128 + p.1 else p.1 * 128 + p.2

/-- What a drain writes: the elements with their indices, the scales with their bytes, and the FLAGS bits. -/
def Core.drain (k : Core) (o : ArrayOp) (w : Nat) : List (Nat × Nat) × List (Nat × Nat) × Nat :=
  if o.scaled then
    (drainBlocks o.axis w).foldl
      (fun a b =>
        let vs := b.2.map fun p => k.cellVal o.bank p.1 p.2
        let sc := blockScale o.fmtA vs
        let es := b.2.map fun p =>
          (drainIndex o.layout p, scaledElem o.fmtA sc (k.cellVal o.bank p.1 p.2) (k.drainRnd o p.1 p.2))
        let nanOut := if sc = 255 ∧ !vs.any Val.isNan then 1 else 0
        (a.1 ++ es.map (fun e => (e.1, e.2.1)), a.2.1 ++ [(b.1, sc)],
          es.foldl (fun f e => f ||| e.2.2) (a.2.2 ||| nanOut)))
      ([], [], 0)
  else
    let es := (cells w).map fun p => (drainIndex o.layout p, k.drainElem o p.1 p.2)
    (es.map (fun e => (e.1, e.2.1)), [], es.foldl (fun f e => f ||| e.2.2) 0)

/-! ### The instructions -/

/-- Whether a pass of a format must carry block scales, none when it may or may not (R137). -/
def scaleRule (fmt : Nat) (scaled : Bool) : Bool :=
  match fmt with
  | 5 => scaled | 6 => scaled | 7 => scaled
  | 3 => true | 4 => true
  | _ => !scaled

/-- Whether two formats may meet in a pass (R84). -/
def pairs (a b : Nat) : Bool := a == b || (a == 3 && b == 4) || (a == 4 && b == 3) || (a == 5 && b == 6) || (a == 6 && b == 5)

/-- The codes of R135 that MPASS takes. -/
def passCode (f : Nat) : Bool := decide (1 ≤ f) && decide (f ≤ 8)

/-- The pass of an MPASS (R136): its fields with what they take from the address registers. -/
def passOf (k : Core) (b : BitVec 56) (pc : Nat) : ArrayOp where
  drain := false
  bank := fieldAt b 55 55
  init := fieldAt b 54 53
  fmtA := fieldAt b 52 49
  fmtB := fieldAt b 48 45
  scaled := fieldAt b 44 44 == 1
  aOff := (k.ar (fieldAt b 43 39)).toNat
  bOff := (k.ar (fieldAt b 38 34)).toNat
  saOff := bitsOf (k.ar (fieldAt b 33 29)).toNat 21 0
  sbOff := bitsOf (k.ar (fieldAt b 33 29)).toNat 53 32
  ldOff := (k.ar (fieldAt b 28 24)).toNat
  k := max 1 (min 65536 (k.arOr (fieldAt b 23 19) (fieldAt b 16 0)))
  sr := false
  axis := false
  layout := false
  cnten := false
  cnt := 0
  seq := 0
  pc := pc
  filled := fieldAt b 54 53 == 0
  layer := k.layer

/-- The offending field of an MPASS (R133, R136, R137). -/
def passOffence (b : BitVec 56) : Option Nat :=
  let fa := fieldAt b 52 49
  let fb := fieldAt b 48 45
  let sc := fieldAt b 44 44 == 1
  let bad := passCode fa && passCode fb && !pairs fa fb
  lowestOffence b (maskBits 18 17)
    [(53, fieldAt b 54 53 == 3), (49, !passCode fa || bad), (45, !passCode fb || bad),
     (44, (passCode fa && !scaleRule fa sc) || (passCode fb && !scaleRule fb sc))]

/-- The other precise exceptions of an MPASS (R136, R138, R140). -/
def passExcs (k : Core) (b : BitVec 56) (o : ArrayOp) : List (Nat × Nat) :=
  let sx := fieldAt b 33 29
  let nsc := (o.k + 31) / 32 * 128
  rangeExcs (fieldAt b 43 39) o.aOff (codeBytes o.fmtA (o.k * 128)) ++
  rangeExcs (fieldAt b 38 34) o.bOff (codeBytes o.fmtB (o.k * 128)) ++
  (if o.scaled then
    rangeExcs sx o.saOff nsc ++ rangeExcs sx o.sbOff nsc
   else []) ++
  (if (k.ar sx).toNat ≠ o.saOff + o.sbOff * 2 ^ 32 then [(5, sx)] else []) ++
  (if o.init = 2 then rangeExcs (fieldAt b 28 24) o.ldOff 65536 else []) ++
  (if o.init = 0 ∧ Tab.get (fun _ => false) k.issueInt o.bank ≠ (o.fmtA == 8) then [(6, o.bank)] else [])

/-- An array operation enters the queue and issue goes on. -/
def State.enqueue (s : State) (c pc : Nat) (o : ArrayOp) : State :=
  let k := s.core c
  (s.setCore c (k.setArr s.now (k.arr ++ [o]))).passPc c pc

/-- MPASS (R136–R140): a pass enters the array-operation queue; with eight there, issue stalls (R88). -/
def execMpass (t core : Nat) (body : BitVec 56) (s : State) : Res :=
  s.live t fun s => s.issue core 0x08 body fun s pc =>
    let k := s.core core
    let o := passOf k body pc
    if 8 ≤ k.arr.length then none
    else s.checked core pc (passOffence body) (passExcs k body o)
      (some (let k' := { k with issueInt :=
                if o.init = 0 then k.issueInt else Tab.put (fun _ => false) k.issueInt o.bank (o.fmtA == 8) }
             (s.setCore core k').enqueue core pc o))

/-- The drain of an MDRAIN (R141). -/
def drainOf (k : Core) (b : BitVec 56) (pc : Nat) : ArrayOp where
  drain := true
  bank := fieldAt b 55 55
  init := 0
  fmtA := fieldAt b 54 51
  fmtB := 0
  scaled := fieldAt b 49 49 == 1
  aOff := (k.ar (fieldAt b 42 38)).toNat
  bOff := 0
  saOff := (k.ar (fieldAt b 37 33)).toNat
  sbOff := 0
  ldOff := 0
  k := 0
  sr := fieldAt b 50 50 == 1
  axis := fieldAt b 48 48 == 1
  layout := fieldAt b 47 47 == 1
  cnten := fieldAt b 46 46 == 1
  cnt := fieldAt b 45 43
  seq := k.seq
  pc := pc
  filled := true
  layer := k.layer

/-- The offending field of an MDRAIN (R133, R141). -/
def drainOffence (b : BitVec 56) : Option Nat :=
  let f := fieldAt b 54 51
  lowestOffence b (maskBits 32 0)
    [(51, decide (9 < f)), (49, decide (f ≤ 9) && !scaleRule f (fieldAt b 49 49 == 1))]

/-- The other precise exceptions of an MDRAIN (R140, R142). -/
def drainExcs (k : Core) (b : BitVec 56) (o : ArrayOp) : List (Nat × Nat) :=
  rangeExcs (fieldAt b 42 38) o.aOff (codeBytes o.fmtA 16384) ++
  (if o.scaled then rangeExcs (fieldAt b 37 33) o.saOff 512 else []) ++
  (if o.fmtA = 9 ∧ !Tab.get (fun _ => false) k.issueInt o.bank then [(6, o.bank)] else [])

/-- MDRAIN (R141, R142): a drain enters the array-operation queue; an SR drain takes the next SEQ (R119). -/
def execMdrain (t core : Nat) (body : BitVec 56) (s : State) : Res :=
  s.live t fun s => s.issue core 0x09 body fun s pc =>
    let k := s.core core
    let o := drainOf k body pc
    if 8 ≤ k.arr.length then none
    else s.checked core pc (drainOffence body) (drainExcs k body o)
      (some ((s.setCore core { k with seq := if o.sr then (k.seq + 1) % 2 ^ 24 else k.seq }).enqueue core pc o))

/-! ### The phases -/

/-- The bank after a fill: zeros, or FP32 or INT32 values, elements at j ≥ W unread (R87, R138, R140). -/
def Core.fill (k : Core) (o : ArrayOp) (w : Nat) : Core :=
  let k' := (k.zeroBank o.bank).setInt o.bank (o.fmtA == 8)
  if o.init = 2 then
    (cells w).foldl
      (fun a p => a.setCell o.bank p.1 p.2 (BitVec.ofNat 32 (k.spElem o.ldOff 32 (p.1 * 128 + p.2)))) k'
  else k'

/-- The scratchpad ranges that a LOAD fill reads. -/
def ArrayOp.fillReads (o : ArrayOp) (w : Nat) : List (Nat × Nat) :=
  if o.init = 2 then (List.range 128).map (fun i => (o.ldOff + i * 512, w * 4)) else []

/-- FILL_DONE (R87, R89, R140): the fill at the accumulator port ends and its bank takes its start values. A LOAD of
poisoned bytes raises POISON, and a failed parity check INTEGRITY (R102, R176). -/
def execFillDone (t core conflicts : Nat) (parityOk : Bool) (spBad : List Nat) (s : State) : Res :=
  s.live t fun s =>
    match (s.core core).portRuns with
    | none => s
    | some o =>
      let s := if o.drain then s
        else (s.spParity core spBad (o.fillReads s.width)).bumpWrap TC_SP_CONFLICT.COUNT core conflicts
      let k := s.core core
      if o.drain then s
      else if !parityOk then s.integrity core o.pc
      else if k.spPoisonIn (o.fillReads s.width) then
        ((s.setCore core (k.setArr s.now (k.arr.erase o))).raise core 12 o.pc 0).tryEnd core
      else
        let k' := k.fill o s.width
        s.setCore core { k'.setArr s.now (replaceFirst o { o with filled := true } k.arr) with portAt := s.now }

/-- Cycles that an operation of the port takes (R87). -/
def ArrayOp.portCycles (o : ArrayOp) (w : Nat) : Nat := if o.drain then w else if o.filled then 0 else 128

/-- The cycles of port work that the next pass still waits for: the operations up to its own fill or the last drain
before it, less the cycles the present one has run (R89, R93; nominal ACLK, log entry 26). -/
def Core.portGap (k : Core) (w now : Nat) : Nat :=
  match k.arr.zipIdx.find? (fun e => !e.1.drain) with
  | none => 0
  | some (o, i) =>
    let before := if o.filled then (k.arr.take i).reverse.dropWhile (fun p => !(p.drain && p.bank == o.bank))
      else k.arr.take i
    (before.map (·.portCycles w)).sum + o.portCycles w - (now - k.portAt) * 17 / 10

/-- The cycles for which the array recirculates after an end of stream, and whether for all of them (R93, R96): for the gap,
when the next pass waits for the port alone; for at most THRESHOLD cycles when the gap is not known. -/
def recircFor (k : Core) (w now threshold : Nat) : Nat × Bool :=
  match k.arr.zipIdx.find? (fun e => !e.1.drain) with
  | none => (threshold, false)
  | some (o, i) =>
    if (k.arr.take i).any (fun p => p.drain && listsMeet p.writes o.reads) then (threshold, false)
    else
      let g := k.portGap w now
      (if g < threshold then g else 0, true)

/-- STREAM_END (R82, R93, R110, R171): the streaming pass has added its products to its bank, with its flags, its
cycles, its operand stalls, the cycles that the gate duty held it and those in which a port lost a bank; the array may begin
to recirculate, but not on a die whose gate duty is lowered (R467). -/
def execStreamEnd (t core stalls gated conflicts : Nat) (parityOk : Bool) (spBad : List Nat) (s : State) : Res :=
  s.live t fun s =>
    match (s.core core).streams with
    | none => s
    | some o =>
      if s.flag TC_STATUS.RECIRC core then s
      else
        let s := (s.spParity core spBad (o.streamReads s.width)).bumpWrap TC_SP_CONFLICT.COUNT core conflicts
        let k := s.core core
        let s := ((s.bumpWrap TC_CYC_STREAM.COUNT core o.cycles).pmcCore core (streamSel o.fmtA) o.cycles o.layer)
        let s := ((s.bumpWrap TC_SP_OPSTALL.COUNT core stalls).pmcCore core 5 stalls o.layer).pmcCore core 6 gated o.layer
        if !parityOk then
          (s.setCore core { k.setArr s.now (k.arr.erase o) with streamAt := s.now }).integrity core o.pc
        else
          let bad := k.spPoisonIn (o.streamReads s.width)
          let r := if bad then (k, 0) else k.stream o s.width
          let k' := r.1.setArr s.now (k.arr.erase o)
          let n := if s.rd SLU_POLDER_THR.DUTY (dieOf core) < 16 then (0, true)
            else recircFor k' s.width s.now (s.rd TC_RECIRC_CFG.THRESHOLD core)
          let s := (s.setCore core { k' with recircMax := n.1, recircAll := n.2, recircAt := s.now, streamAt := s.now }).wr
            TC_STATUS.RECIRC core (bit (decide (0 < n.1)))
          (if bad then s.raise core 12 o.pc 0 else s.orFlags core o.pc r.2).tryEnd core

/-- RECIRCULATION_END (R93–R95): the array has recirculated, for all the cycles of a gap that is known, and otherwise for
some cycles, at most as many as its start allowed. -/
def execRecirculationEnd (t core cycles : Nat) (s : State) : Res :=
  s.live t fun s =>
    if s.flag TC_STATUS.RECIRC core then
      let k := s.core core
      let s := s.bumpWrap TC_CYC_RECIRC.COUNT core (if k.recircAll then k.recircMax else min cycles k.recircMax)
      (s.setCore core { k with streamAt := s.now }).wr TC_STATUS.RECIRC core 0
    else s

/-- A completion counter (R126). -/
def Core.counter (k : Core) (n : Nat) : Word32 := Tab.get (fun _ => 0) k.cc n

/-- A completion counter is written. -/
def Core.setCounter (k : Core) (n : Nat) (v : Word32) : Core := { k with cc := Tab.put (fun _ => 0) k.cc n v }

/-- DRAIN_DONE (R116–R118, R142, R151): the drain has written the scratchpad, with its flags; with CNTEN its counter
rises by 1. -/
def execDrainDone (t core conflicts : Nat) (parityOk : Bool) (s : State) : Res :=
  s.live t fun s =>
    let k := s.core core
    match k.portRuns with
    | none => s
    | some o =>
      if !o.drain then s
      else if !parityOk then (s.bumpWrap TC_SP_CONFLICT.COUNT core conflicts).integrity core o.pc
      else
        let s := s.bumpWrap TC_SP_CONFLICT.COUNT core conflicts
        let (es, scs, flags) := k.drain o s.width
        let k := (k.spStore o.aOff (codeBits o.fmtA) es).spStore o.saOff 8 scs
        let k := if o.cnten then k.setCounter o.cnt (k.counter o.cnt + 1) else k
        let s := s.setCore core { k.setArr s.now (k.arr.erase o) with portAt := s.now }
        (s.orFlags core o.pc flags).tryEnd core

end Sys2Proof.Machine
end

