-- ==== Sys2Proof/Machine/TileVector.lean ====
section
/-! DEFINITION. The vector instructions and scratchpad moves (R100, R101, R115, R143–R148). -/

namespace Sys2Proof.Machine

/-- Lane l of vector register n (R126). -/
def Core.lane (k : Core) (n l : Nat) : Word32 := Tab.get (fun _ => 0) k.v (n * 256 + l)

/-- Lane l of vector register n is written. -/
def Core.setLane (k : Core) (n l : Nat) (x : Word32) : Core :=
  { k with v := Tab.put (fun _ => 0) k.v (n * 256 + l) x }

/-- Predicate register n, M0 being all ones (R126). -/
def Core.pred (k : Core) (n : Nat) : BitVec 256 :=
  if n = 0 then BitVec.allOnes 256 else Tab.get (fun _ => 0) k.m n

/-- Predicate register n is written; a write of M0 has no effect (R143). -/
def Core.setPred (k : Core) (n : Nat) (x : BitVec 256) : Core :=
  if n = 0 then k else { k with m := Tab.put (fun _ => 0) k.m n x }

/-- A predicate of the lanes for which a test holds. -/
def predOf (f : Nat → Bool) : BitVec 256 :=
  BitVec.ofNat 256 ((List.range 256).foldl (fun a l => if f l then a ||| (1 <<< l) else a) 0)

/-! ### Lane operations (R115, R144) -/

/-- What a lane operation answers: the result and its FLAGS bits. -/
abbrev LaneRes := Word32 × Nat

/-- An FP32 result of operands, with NAN_OUT of a NaN from none, OVERFLOW and INEXACT (R163). -/
def fpResult (flush : Bool) (ops : List Val) (v : Val) : LaneRes :=
  let (x, c) := fpOut flush v
  (x, (if v.isNan && !ops.any Val.isNan then 1 else 0) ||| c.flags)

/-- The result of a special function: NAN_OUT, OVERFLOW of EXP, DIVZERO of RCP and RSQRT of a zero (R101, R163). -/
def special (fn : Nat) (x : Word32) : LaneRes :=
  let v := fpIn true x
  let zero := match v with
    | .fin _ m _ => m == 0
    | _ => false
  match fn with
  | 0x0C =>
    let r := exp32 x
    (r, if v.isFin && r == 0x7F800000 then 2 else 0)
  | 0x0D => (rcp32 x, if zero then 32 else 0)
  | _ =>
    let r := rsqrt32 x
    (r, (if zero then 32 else 0) ||| (if r == nan32 && !v.isNan then 1 else 0))

/-- A conversion of INT32 to FP32 (R144). -/
def i2f (x : Word32) (r : Option Nat) : LaneRes :=
  let (c, k) := Fmt.fp32.convert (Val.ofInt x.toInt) r
  (BitVec.ofNat 32 c, k.flags)

/-- A conversion of FP32 to INT32 (R144). -/
def f2i (flush : Bool) (x : Word32) (r : Option Nat) : LaneRes :=
  let (c, k) := toInt 32 (fpIn flush x) r
  (BitVec.ofNat 32 c, k.flags)

/-- The lane operations that write VD: FN, subnormal mode, the random bits of the lane, the selector, VA, VB, VC. -/
def laneOp (fn : Nat) (flush : Bool) (r : Option Nat) (sel : Bool) (a b c : Word32) : LaneRes :=
  let x := fpIn flush a
  let y := fpIn flush b
  match fn with
  | 0x00 => (a, 0)
  | 0x01 => fpResult flush [x, y] (Val.add x y)
  | 0x02 => fpResult flush [x, y] (Val.add x y.neg)
  | 0x03 => fpResult flush [x, y] (Val.mul x y)
  | 0x04 => let z := fpIn flush c; fpResult flush [x, y, z] (Val.add (Val.mul x y) z)
  | 0x05 => (fpMinMax false flush a b, 0)
  | 0x06 => (fpMinMax true flush a b, 0)
  | 0x0C => special 0x0C a
  | 0x0D => special 0x0D a
  | 0x0E => special 0x0E a
  | 0x10 => (a + b, 0)
  | 0x11 => (a - b, 0)
  | 0x12 => (a * b, 0)
  | 0x13 => (a &&& b, 0)
  | 0x14 => (a ||| b, 0)
  | 0x15 => (a ^^^ b, 0)
  | 0x16 => (a <<< (b.toNat % 32), 0)
  | 0x17 => (a >>> (b.toNat % 32), 0)
  | 0x18 => (a.sshiftRight (b.toNat % 32), 0)
  | 0x19 => (if a.toInt ≤ b.toInt then a else b, 0)
  | 0x1A => (if a.toInt ≤ b.toInt then b else a, 0)
  | 0x20 => f2i flush a none
  | 0x21 => f2i flush a r
  | 0x22 => i2f a none
  | 0x23 => i2f a r
  | _ => (if sel then a else b, 0)

/-- The compares that write M[MD]; a compare with a NaN is false (R144). -/
def laneTest (fn : Nat) (flush : Bool) (a b : Word32) : Bool :=
  let x := fpIn flush a
  let y := fpIn flush b
  match fn with
  | 0x08 => Val.eqv x y
  | 0x09 => Val.lt x y
  | 0x0A => Val.lt x y || Val.eqv x y
  | 0x1C => a == b
  | _ => decide (a.toInt < b.toInt)

/-- Whether FN is a compare. -/
def isTest (fn : Nat) : Bool := [0x08, 0x09, 0x0A, 0x1C, 0x1D].contains fn

/-- The FN codes of R144. -/
def vopCodes : List Nat :=
  [0x00, 0x01, 0x02, 0x03, 0x04, 0x05, 0x06, 0x08, 0x09, 0x0A, 0x0C, 0x0D, 0x0E, 0x10, 0x11, 0x12, 0x13, 0x14, 0x15,
   0x16, 0x17, 0x18, 0x19, 0x1A, 0x1C, 0x1D, 0x20, 0x21, 0x22, 0x23, 0x28, 0x2C, 0x2D, 0x30]

/-! ### Reductions (R146) -/

/-- Two neighbours of the tree of REDSUM: a side of inactive lanes only lets the other pass. -/
def sumPair (flush : Bool) (a b : Option Word32 × Nat) : Option Word32 × Nat :=
  match a.1, b.1 with
  | none, y => (y, a.2 ||| b.2)
  | x, none => (x, a.2 ||| b.2)
  | some x, some y =>
    let v := fpIn flush x
    let w := fpIn flush y
    let r := fpResult flush [v, w] (Val.add v w)
    (some r.1, a.2 ||| b.2 ||| r.2)

/-- One level of the tree: lane 2m with lane 2m + 1. -/
def sumLevel (flush : Bool) : List (Option Word32 × Nat) → List (Option Word32 × Nat)
  | a :: b :: r => sumPair flush a b :: sumLevel flush r
  | l => l

/-- Eight levels of the tree. -/
def sumTree (flush : Bool) (l : List (Option Word32 × Nat)) : Option Word32 × Nat :=
  ((List.range 8).foldl (fun l _ => sumLevel flush l) l).headD (none, 0)

/-- REDSUM of the active lanes, +0 with none; a NaN is written canonical (R105). -/
def redSum (flush : Bool) (lanes : List (Option Word32)) : LaneRes :=
  match sumTree flush (lanes.map (fun x => (x, 0))) with
  | (some x, f) => (if (Fmt.fp32.decode x.toNat).isNan then nan32 else x, f)
  | (none, f) => (0, f)

/-- REDMAX of the active lanes, −∞ with none. -/
def redMax (flush : Bool) (lanes : List (Option Word32)) : LaneRes :=
  match lanes.filterMap id with
  | [] => (0xFF800000, 0)
  | x :: r => (r.foldl (fpMinMax true flush) (fpOut flush (fpIn flush x)).1, 0)

/-! ### VOP -/

/-- The random bits of a lane in a vector conversion (R119). -/
def Core.laneRnd (k : Core) (l : Nat) : Option Nat :=
  k.launch.map (fun x => srBits x.seed x.stream k.seq l)

/-- Whether a launch flushes subnormals (R115). -/
def Core.flushes (k : Core) : Bool := (k.launch.map (·.flush)).getD false

/-- A vector operation on a core: its registers afterwards and the FLAGS bits of the active lanes (R143–R146). -/
def Core.vop (k : Core) (b : BitVec 56) : Core × Nat :=
  let fn := fieldAt b 52 47
  let vd := fieldAt b 46 43
  let md := fieldAt b 30 28
  let act := k.pred (fieldAt b 55 53)
  let src := k.ar (fieldAt b 26 22)
  let va := fun l => k.lane (fieldAt b 42 39) l
  let vb := fun l => if fieldAt b 27 27 = 1 then BitVec.ofNat 32 src.toNat else k.lane (fieldAt b 38 35) l
  let fl := k.flushes
  if isTest fn then
    (k.setPred md (predOf fun l => act.getLsbD l && laneTest fn fl (va l) (vb l)), 0)
  else if fn = 0x30 then
    (k.setPred md (predOf fun l => act.getLsbD l && decide (l < src.toNat)), 0)
  else if fn = 0x2C ∨ fn = 0x2D then
    let lanes := (List.range 256).map (fun l => if act.getLsbD l then some (va l) else none)
    let r := if fn = 0x2C then redMax fl lanes else redSum fl lanes
    ((List.range 256).foldl (fun k l => if act.getLsbD l then k.setLane vd l r.1 else k) k, r.2)
  else
    let sr := fn == 0x21 || fn == 0x23
    let sel := k.pred md
    let out := (List.range 256).foldl
      (fun (x : Core × Nat) l =>
        if act.getLsbD l then
          let r := laneOp fn fl (k.laneRnd l) (sel.getLsbD l) (va l) (vb l) (k.lane (fieldAt b 34 31) l)
          (x.1.setLane vd l r.1, x.2 ||| r.2)
        else x) (k, 0)
    ({ out.1 with seq := if sr then (k.seq + 1) % 2 ^ 24 else k.seq }, out.2)

/-- VOP (R143–R146): the operation on the active lanes; a register parity failure is INTEGRITY (R102). -/
def execVop (t core : Nat) (body : BitVec 56) (parityOk : Bool) (s : State) : Res :=
  s.live t fun s => s.issue core 0x10 body fun s pc =>
    s.checked core pc
      (lowestOffence body (maskBits 21 0) [(47, !vopCodes.contains (fieldAt body 52 47))]) []
      (some
        (let s := s.pmcCore core 7
         if !parityOk then s.integrity core pc
         else
           let (k, flags) := (s.core core).vop body
           (((s.setCore core k).setFlags core flags).passPc core pc).orFlags core pc flags))

/-! ### VLD, VST and SMOVE -/

/-- The address of a VLD or VST: A[AB] + 64 × IMM (R147). -/
def vecAddr (k : Core) (b : BitVec 56) : Nat :=
  ((k.ar (fieldAt b 42 38)) + BitVec.ofInt 64 (64 * signedOf 16 (fieldAt b 37 22))).toNat

/-- The formats of R135 that VLD and VST take. -/
def vecCode (f : Nat) : Bool := decide (f ≤ 4) || f == 8 || f == 9

/-- Whether an array operation that waits or runs forbids an access: it writes what the access touches, or reads what
the access writes (R162). -/
def Core.hazard (k : Core) (reads writes : List (Nat × Nat)) : Bool :=
  k.arr.any (fun o => listsMeet o.writes (reads ++ writes) || listsMeet o.reads writes)

/-- An element of the scratchpad widened into a lane (R147). -/
def widen (fmt code : Nat) : Word32 :=
  match fmt with
  | 8 => BitVec.ofInt 32 (signedOf 8 code)
  | 9 => BitVec.ofNat 32 code
  | f => BitVec.ofNat 32 (Fmt.fp32.rne ((fmtOf f).decode code))

/-- VLD (R147): the active lanes take the widened elements; poisoned bytes raise POISON, of every element whatever lanes
are active (log entry 118). -/
def execVld (t core : Nat) (body : BitVec 56) (spBad : List Nat) (s : State) : Res :=
  s.live t fun s => s.issue core 0x13 body fun s pc =>
    let k := s.core core
    let f := fieldAt body 52 49
    let a := vecAddr k body
    let n := codeBytes f 256
    s.checked core pc
      (lowestOffence body (maskBits 47 47 ||| maskBits 21 0) [(49, !vecCode f), (48, fieldAt body 48 48 == 1)])
      (rangeExcs (fieldAt body 42 38) a n)
      (if k.hazard [(a, n)] [] then none
       else
        let act := k.pred (fieldAt body 55 53)
        let s := s.spParity core spBad [(a, n)]
        let k := s.core core
        if k.spPoisonIn [(a, n)] then some ((s.passPc core pc).raise core 12 pc 0)
        else
          let k' := (List.range 256).foldl
            (fun x l => if act.getLsbD l then x.setLane (fieldAt body 46 43) l (widen f (k.spElem a (codeBits f) l))
              else x) k
          some ((s.setCore core k').passPc core pc))

/-- A lane narrowed to an element of the scratchpad: its code and FLAGS bits (R116, R117, R147). -/
def narrow (fmt : Nat) (r : Option Nat) (x : Word32) : Nat × Nat :=
  match fmt with
  | 9 => (x.toNat, 0)
  | 8 => let (c, k) := toInt 8 (Val.ofInt x.toInt) r; (c, k.flags)
  | f => let (c, k) := (fmtOf f).convert (Fmt.fp32.decode x.toNat) r; (c, k.flags)

/-- VST (R147): the active lanes are converted and written; inactive lanes write no bytes. -/
def execVst (t core : Nat) (body : BitVec 56) (s : State) : Res :=
  s.live t fun s => s.issue core 0x14 body fun s pc =>
    let k := s.core core
    let f := fieldAt body 52 49
    let a := vecAddr k body
    let n := codeBytes f 256
    let sr := fieldAt body 48 48 == 1
    s.checked core pc
      (lowestOffence body (maskBits 47 47 ||| maskBits 21 0) [(49, !vecCode f)])
      (rangeExcs (fieldAt body 42 38) a n)
      (if k.hazard [] [(a, n)] then none
       else
        let act := k.pred (fieldAt body 55 53)
        let es := ((List.range 256).filter (fun l => act.getLsbD l)).map fun l =>
          (l, narrow f (if sr then k.laneRnd l else none) (k.lane (fieldAt body 46 43) l))
        let k' := k.spStore a (codeBits f) (es.map (fun e => (e.1, e.2.1)))
        let k' := { k' with seq := if sr then (k.seq + 1) % 2 ^ 24 else k.seq }
        let flags := es.foldl (fun x e => x ||| e.2.2) 0
        some ((((s.setCore core k').setFlags core flags).passPc core pc).orFlags core pc flags))

/-- The bytes of a FILL of so many bytes (R148). -/
def fillBytes (pattern : Word) (n : Nat) : List Byte :=
  (List.range n).map (fun j => BitVec.ofNat 8 (pattern.toNat >>> (8 * (j % 4))))

/-- SMOVE (R148): a move inside the scratchpad, through a temporary, or a fill with a pattern. -/
def execSmove (t core : Nat) (body : BitVec 56) (spBad : List Nat) (s : State) : Res :=
  s.live t fun s => s.issue core 0x18 body fun s pc =>
    let k := s.core core
    let fill := fieldAt body 55 55 == 1
    let dx := fieldAt body 52 48
    let sx := fieldAt body 47 43
    let d := (k.ar dx).toNat
    let src := (k.ar sx).toNat
    let n := (k.ar (fieldAt body 42 38)).toNat
    s.checked core pc (lowestOffence body (maskBits 54 53 ||| maskBits 37 0) [])
      (if n = 0 then []
       else (if spSize < d + n then [(5, dx)] else []) ++ (if !fill && spSize < src + n then [(5, sx)] else []))
      (if n = 0 then some (s.passPc core pc)
       else if k.hazard (if fill then [] else [(src, n)]) [(d, n)] then none
       else
        let s := if fill then s else s.spParity core spBad [(src, n)]
        let k := s.core core
        if !fill && k.spPoisonIn [(src, n)] then some ((s.passPc core pc).raise core 12 pc 0)
        else
        let b := if fill then fillBytes (k.ar sx) n else k.spBytes src n
        some ((s.setCore core (k.spWrite d b)).passPc core pc))

end Sys2Proof.Machine
end

