-- ==== Sys2Proof/Machine/TileScalar.lean ====
section
/-! DEFINITION. Control, scalar, counter, signal and wait instructions, and the exceptions that reach a core from
outside its program (R130, R131, R151–R160, R164). -/

namespace Sys2Proof.Machine

/-- The effect of an instruction that only passes issue on. -/
def State.passWith (s : State) (c pc : Nat) (f : Core → Core) : State := (s.setCore c (f (s.core c))).passPc c pc

/-- NOP (R159). -/
def execNop (t core : Nat) (body : BitVec 56) (s : State) : Res :=
  s.live t fun s => s.issue core 0x00 body fun s pc =>
    s.checked core pc (lowestOffence body (maskBits 55 0) []) [] (some (s.passPc core pc))

/-- Whether the kinds ARR, CPY and SIG of a FENCE are done; vector work is complete when it has issued (R155). -/
def Core.quiet (k : Core) (arr cpy sig : Bool) : Bool :=
  (!arr || k.arr.isEmpty) && (!cpy || k.copies.isEmpty) && (!sig || k.held.isEmpty)

/-- END (R130): once array work, copies and signals are done, the core ends its launch with no exception. -/
def execEnd (t core : Nat) (body : BitVec 56) (s : State) : Res :=
  s.live t fun s => s.issue core 0x01 body fun s pc =>
    s.checked core pc (lowestOffence body (maskBits 55 0) []) []
      (if (s.core core).quiet true true true then
        some (s.endLaunch core ⟨0, pc, 0, 0, s.now⟩ s.tb)
       else none)

/-- Whether every earlier copy OUT of a core into a peer window has been performed at the peer (R155): its bursts there have
begun, and none of their lines awaits its acknowledgement. -/
def State.corePeersDone (s : State) (c : Nat) : Bool :=
  let k := s.core c
  ((k.copies ++ k.acking).filter (·.out)).all fun o =>
    !(o.bursts.drop o.begun).any (s.peerBurst k.exts o) && s.peerLines c [o.k] == 0

/-- FENCE (R155): issue stalls until the work of the kinds set is done; with no kind set it acts as a NOP. -/
def execFence (t core : Nat) (body : BitVec 56) (s : State) : Res :=
  s.live t fun s => s.issue core 0x30 body fun s pc =>
    let b := fun n => fieldAt body n n == 1
    s.checked core pc (lowestOffence body (maskBits 55 53 ||| maskBits 47 0) []) []
      (if (s.core core).quiet (b 48) (b 50) (b 51) && (!b 52 || s.corePeersDone core) then some (s.passPc core pc)
       else none)

/-- CCWAIT (R151): issue stalls until the counter has reached the value, modulo 2^32. -/
def execCcwait (t core : Nat) (body : BitVec 56) (s : State) : Res :=
  s.live t fun s => s.issue core 0x21 body fun s pc =>
    let k := s.core core
    let v := BitVec.ofNat 32 (k.arOr (fieldAt body 52 48) (fieldAt body 31 0))
    s.checked core pc (lowestOffence body (maskBits 47 32) []) []
      (if (k.counter (fieldAt body 55 53) - v).toNat < 2 ^ 31 then some (s.passPc core pc) else none)

/-- CCSET (R151). -/
def execCcset (t core : Nat) (body : BitVec 56) (s : State) : Res :=
  s.live t fun s => s.issue core 0x22 body fun s pc =>
    s.checked core pc (lowestOffence body (maskBits 47 32) []) []
      (some (s.passWith core pc fun k =>
        k.setCounter (fieldAt body 55 53) (BitVec.ofNat 32 (k.arOr (fieldAt body 52 48) (fieldAt body 31 0)))))

/-- The object of an SSIG or SWAIT: A[OX] + OBJ, modulo 2^64 (R153). -/
def tileObj (k : Core) (b : BitVec 56) : Nat := (k.ar (fieldAt b 52 48) + BitVec.ofNat 64 (fieldAt b 12 0)).toNat

/-- SYNC, when the object does not exist or the dike table does not admit it to the launch's context (R153). -/
def State.objExcs (s : State) (c obj : Nat) : List (Nat × Nat) :=
  if s.objAdmits (((s.core c).launch.map (·.ctx)).getD 0) obj then [] else [(8, obj % 65536)]

/-- A core's signal is performed at its object, with its trace event (R153, R246, R509). -/
def State.coreSignal (s : State) (c obj : Nat) (set : Bool) (v : Word) (layer opid : Nat) : State :=
  let s := s.syPerform obj set v
  s.offerAs 6 c (signalArg obj (s.reg (SY_VAL.VALUE.off obj))) layer opid

/-- SSIG (R153): the signal is performed, or with REL held until every earlier copy is complete; a seventeenth held
signal stalls issue. -/
def execSsig (t core : Nat) (body : BitVec 56) (s : State) : Res :=
  s.live t fun s => s.issue core 0x28 body fun s pc =>
    let k := s.core core
    let obj := tileObj k body
    let set := fieldAt body 55 54 == 1
    let v := BitVec.ofNat 64 (k.arOr (fieldAt body 47 43) (fieldAt body 31 16))
    s.checked core pc
      (lowestOffence body (maskBits 42 32 ||| maskBits 15 13) [(54, decide (1 < fieldAt body 55 54))])
      (s.objExcs core obj)
      (if fieldAt body 53 53 = 1 ∧ !k.copies.isEmpty then
        (if 16 ≤ k.held.length then none
         else some (s.passWith core pc fun k =>
          { k with held := k.held ++ [⟨obj, set, v, k.copies.map (·.k), k.layer, k.opid⟩] }))
       else some ((s.coreSignal core obj set v k.layer k.opid).passPc core pc))

/-- SWAIT (R154): the wait ends at once when the condition holds; otherwise the core registers as a waiter and issue
stalls. -/
def execSwait (t core : Nat) (body : BitVec 56) (s : State) : Res :=
  s.live t fun s => s.issue core 0x29 body fun s pc =>
    let k := s.core core
    let obj := tileObj k body
    let cond := fieldAt body 55 54
    let onto := fieldAt body 53 53 == 1
    let dx := fieldAt body 42 38
    let v := BitVec.ofNat 64 (k.arOr (fieldAt body 47 43) (fieldAt body 31 16))
    s.checked core pc (lowestOffence body (maskBits 32 32 ||| maskBits 15 13) []) (s.objExcs core obj)
      (some
        (if condHolds cond (s.reg (SY_VAL.VALUE.off obj)) v then
          (s.offerCore 7 core (waitArg obj false 0)).passWith core pc (fun k => if onto then k.setA dx 0 else k)
         else
          { s.setCore core { k with swait := some ⟨onto, dx, obj, s.now⟩ } with
            waiters := s.waiters ++ [⟨.core core, obj, cond, v, s.now, fieldAt body 37 33⟩] }))

/-- TAG (R156): LAYER and OPID take the values set. -/
def execTag (t core : Nat) (body : BitVec 56) (s : State) : Res :=
  s.live t fun s => s.issue core 0x38 body fun s pc =>
    s.checked core pc (lowestOffence body (maskBits 55 50 ||| maskBits 47 32) []) []
      (some (s.passWith core pc fun k =>
        { k with layer := if fieldAt body 48 48 = 1 then fieldAt body 31 16 else k.layer,
                 opid := if fieldAt body 49 49 = 1 then fieldAt body 15 0 else k.opid }))

/-- The scalar operations of R158. -/
def scalarOp (fn : Nat) (a b : Word) : Word :=
  match fn with
  | 0 => a + b
  | 1 => a - b
  | 2 => a &&& b
  | 3 => a ||| b
  | 4 => a ^^^ b
  | 5 => a <<< (b.toNat % 64)
  | 6 => a >>> (b.toNat % 64)
  | 7 => a.sshiftRight (b.toNat % 64)
  | 8 => a * b
  | 9 => if a.toNat ≤ b.toNat then a else b
  | 10 => if a.toNat ≤ b.toNat then b else a
  | 11 => if a.toNat < b.toNat then 1 else 0
  | _ => if a.toInt < b.toInt then 1 else 0

/-- AOP (R158): A[AD] = A[AA] FN A[AB]. -/
def execAop (t core : Nat) (body : BitVec 56) (s : State) : Res :=
  s.live t fun s => s.issue core 0x40 body fun s pc =>
    s.checked core pc
      (lowestOffence body (maskBits 55 53 ||| maskBits 32 0) [(48, decide (12 < fieldAt body 52 48))]) []
      (some (s.passWith core pc fun k =>
        k.setA (fieldAt body 47 43)
          (scalarOp (fieldAt body 52 48) (k.ar (fieldAt body 42 38)) (k.ar (fieldAt body 37 33)))))

/-- AOPI (R158): A[AD] = A[AA] FN IMM, sign-extended. -/
def execAopi (t core : Nat) (body : BitVec 56) (s : State) : Res :=
  s.live t fun s => s.issue core 0x41 body fun s pc =>
    s.checked core pc
      (lowestOffence body (maskBits 55 53 ||| maskBits 37 32) [(48, decide (12 < fieldAt body 52 48))]) []
      (some (s.passWith core pc fun k =>
        k.setA (fieldAt body 47 43)
          (scalarOp (fieldAt body 52 48) (k.ar (fieldAt body 42 38))
            (BitVec.ofInt 64 (signedOf 32 (fieldAt body 31 0))))))

/-- What ALI loads (R158). -/
def aliValue (mode imm : Nat) (old : Word) : Word :=
  match mode with
  | 0 => BitVec.ofInt 64 (signedOf 32 imm)
  | 1 => BitVec.ofNat 64 imm
  | _ => BitVec.ofNat 64 (imm * 2 ^ 32 + old.toNat % 2 ^ 32)

/-- ALI (R158): an immediate into A[AD]. -/
def execAli (t core : Nat) (body : BitVec 56) (s : State) : Res :=
  s.live t fun s => s.issue core 0x42 body fun s pc =>
    s.checked core pc
      (lowestOffence body (maskBits 55 50 ||| maskBits 42 32) [(48, fieldAt body 49 48 == 3)]) []
      (some (s.passWith core pc fun k =>
        k.setA (fieldAt body 47 43)
          (aliValue (fieldAt body 49 48) (fieldAt body 31 0) (k.ar (fieldAt body 47 43)))))

/-- The sources of ARD (R158); the iteration under way counts as remaining (log entry 27). -/
def State.ardValue (s : State) (c src pc : Nat) : Word :=
  let k := s.core c
  if src = 0 then BitVec.ofNat 64 s.tb
  else if src ≤ 4 then BitVec.ofNat 64 (k.loop (src - 1)).left
  else if src ≤ 12 then BitVec.ofNat 64 (k.counter (src - 5)).toNat
  else if src = 13 then BitVec.ofNat 64 k.copies.length
  else if src = 14 then BitVec.ofNat 64 (s.rd TC_FLAGS.FLAGS c)
  else BitVec.ofNat 64 pc

/-- ARD (R158): A[AD] takes a source. -/
def execArd (t core : Nat) (body : BitVec 56) (s : State) : Res :=
  s.live t fun s => s.issue core 0x43 body fun s pc =>
    s.checked core pc
      (lowestOffence body (maskBits 55 48 ||| maskBits 42 8) [(0, decide (15 < fieldAt body 7 0))]) []
      (some (s.passWith core pc fun k =>
        k.setA (fieldAt body 47 43) (s.ardValue core (fieldAt body 7 0) pc)))

/-- A taken branch: outside the program PC_BOUNDS, otherwise the target, and loops whose body does not hold it end
(R159, R160). -/
def State.branch (s : State) (c pc off : Nat) : State :=
  let k := s.core c
  let target : Int := pc + signedOf 24 off
  if target < 0 ∨ (k.progLen : Int) ≤ target then s.raise c 2 pc 0
  else
    let n := target.toNat
    let k' := (List.range 4).foldl
      (fun k i => let l := k.loop i; if l.on && !(decide (l.first ≤ n) && decide (n ≤ l.last)) then k.setLoop i (loopOff i)
        else k) k
    (s.setCore c k').wr TC_PC.PC c n

/-- BR (R159). -/
def execBr (t core : Nat) (body : BitVec 56) (s : State) : Res :=
  s.live t fun s => s.issue core 0x48 body fun s pc =>
    s.checked core pc (lowestOffence body (maskBits 55 24) []) [] (some (s.branch core pc (fieldAt body 23 0)))

/-- The conditions of BRC (R159). -/
def brcHolds (k : Core) (cond x : Nat) : Bool :=
  match cond with
  | 0 => k.ar x == 0
  | 1 => k.ar x != 0
  | 2 => decide ((k.ar x).toInt < 0)
  | 3 => decide (0 ≤ (k.ar x).toInt)
  | 4 => k.pred x != 0
  | _ => k.pred x == 0

/-- BRC (R159): a branch that is not taken is never checked. -/
def execBrc (t core : Nat) (body : BitVec 56) (s : State) : Res :=
  s.live t fun s => s.issue core 0x49 body fun s pc =>
    let cond := fieldAt body 55 52
    let x := fieldAt body 51 47
    s.checked core pc
      (lowestOffence body (maskBits 46 24)
        [(52, decide (5 < cond)), (50, (cond == 4 || cond == 5) && decide (7 < x))]) []
      (some (if brcHolds (s.core core) cond x then s.branch core pc (fieldAt body 23 0) else s.passPc core pc))

/-- The count of a LOOP: A[NX], unsigned, clamped to 4,294,967,295 (R134), or IMM (R160). -/
def loopCount (k : Core) (b : BitVec 56) : Nat :=
  let nx := fieldAt b 47 43
  if nx = 0 then fieldAt b 23 0 else min (k.ar nx).toNat (2 ^ 32 - 1)

/-- LOOP (R160): the counter becomes active for its count of rounds of the body, or the body is passed. -/
def execLoop (t core : Nat) (body : BitVec 56) (s : State) : Res :=
  s.live t fun s => s.issue core 0x4A body fun s pc =>
    let k := s.core core
    let ctr := fieldAt body 49 48
    let n := fieldAt body 37 24
    let last := pc + n
    let on := (List.range 4).filter (fun i => (k.loop i).on)
    let bad := on.contains ctr || n == 0 || decide (k.progLen ≤ last) || on.any (fun i => decide ((k.loop i).last < last))
    s.checked core pc (lowestOffence body (maskBits 55 50 ||| maskBits 42 38) []) (if bad then [(3, ctr)] else [])
      (some
        (let count := loopCount k body
         if count = 0 then s.passPc core last
         else
          (s.setCore core (k.setLoop ctr ⟨true, pc + 1, last, count, on.length + 1⟩)).goPc core (pc + 1)))

/-! ### Exceptions from outside the program -/

/-- The launch of a core, or the one that ended on it last. -/
def Core.lastLaunch (k : Core) : Option LaunchRef := k.launch.or k.was

/-- WATCHDOG (R164): the launch has run past the limit of LIMIT_LOG2 on the core; in the cycle in which it has stopped
already the exception that prevails stands (R166). -/
def execWatchdog (t core : Nat) (s : State) : Res :=
  s.live t fun s =>
    let k := s.core core
    match k.lastLaunch, k.firstIssue with
    | some l, some f =>
      if 0 < l.limit ∧ f + 2 ^ l.limit * 1000 ≤ s.now then s.raise core 14 (s.rd TC_PC.PC core) 0 else s
    | _, _ => s

/-- Whether an exception code makes the other cores of a launch receive SIBLING (R131); ABORTED does after a fence, the one
reset of a core that leaves its launch's others running (R486). -/
def spreads (code : Nat) : Bool := code != 0 && code != 15

/-- The rank of the core of a launch that failed first: by tick, then by rank (R130, R131). -/
def State.failedRank (s : State) (l : LaunchRef) : Option Nat :=
  let ended := (s.inflight.filter (fun f => f.q == l.q && f.i == l.i && f.status.isNone)).flatMap
    (fun f => f.ends.map fun e => (e.tick, e.core, e.code))
  let stopped := s.cores.filterMap fun e =>
    match e.2.launch with
    | some x => if x.q = l.q ∧ x.i = l.i ∧ e.2.ended then some (e.2.excTick, e.1, e.2.exc.code) else none
    | none => none
  let bad := (ended ++ stopped).filter (fun e => spreads e.2.2)
  match bad with
  | [] => none
  | x :: r =>
    let first := r.foldl (fun a e => if e.1 < a.1 ∨ (e.1 = a.1 ∧ e.2.1 < a.2.1) then e else a) x
    let cores := match s.flight l.q l.i with
      | some f => (List.range 256).filter fun c =>
          bitOf (f.words.getD (8 + c / 64) 0).toNat (c % 64)
      | none => []
    some (cores.findIdx (fun c => c == first.2.1))

/-- SIBLING (R131): a core of a launch in which another core has raised an exception stops, with that core's rank in
DETAIL. -/
def execSibling (t core : Nat) (s : State) : Res :=
  s.live t fun s =>
    let k := s.core core
    match k.launch with
    | none => s
    | some l =>
      match s.failedRank l with
      | some r => if k.ended then s else s.raise core 15 (s.rd TC_PC.PC core) r
      | none => s

end Sys2Proof.Machine
end

