-- ==== Sys2Proof/Machine/TileCopy.lean ====
section
/-! DEFINITION. Tile copies: issue, completion and faults (R149, R150, R174–R188). -/

namespace Sys2Proof.Machine

/-! ### What a copy reaches -/

/-- The first address from one that no extent holds, none when the whole range is held; a range beyond the 48-bit
space lies in none (R149, R150). -/
def firstMissing (exts : List Extent) (write : Bool) : Nat → Nat → Nat → Option Nat
  | 0, va, stop => if va < stop then some va else none
  | n + 1, va, stop =>
    if stop ≤ va then none
    else
      match exts.find? (fun e => decide (e.va ≤ va) && decide (va < e.va + e.len) && (!write || e.w)) with
      | some e => firstMissing exts write n (e.va + e.len) stop
      | none => some va

/-- The first address of a copy that lies in no translated extent of its launch. -/
def CopyOp.missing (o : CopyOp) (exts : List Extent) : Option Nat :=
  (List.range o.rows).findSome? fun r =>
    let va := rowAddr o.ux o.stride r
    firstMissing exts o.out (exts.length + 1) va (va + o.rowBytes)

/-- The scratchpad offsets of the bytes that a burst of a copy OUT sends. Where rows overlap, each byte is that of one of the
rows that write it, which one a free value chooses (R150). -/
def State.outFrom (s : State) (o : CopyOp) (b : Burst) : List Nat :=
  if o.rowBytes ≤ o.stride ∨ o.rows ≤ 1 then (List.range b.len).map (b.sp + ·)
  else
    (List.range b.len).map fun j =>
      let va := b.va + j
      let rs := (List.range o.rows).filter fun r =>
        decide (rowAddr o.ux o.stride r ≤ va) && decide (va < rowAddr o.ux o.stride r + o.rowBytes)
      let r := rs.getD ((Config.freeWord (s.freeIdx + (va - o.ux))).toNat % max rs.length 1) 0
      o.sx + r * o.rowBytes + (va - rowAddr o.ux o.stride r)

/-- Whether a burst's lines are plain memory that the dike table admits to a context (R64, R186); register space takes
no line access (R56). -/
def State.burstOk (s : State) (ctx : Nat) (wr : Bool) (pa len : Nat) : Bool :=
  s.admitsSub (.context ctx) wr pa len && s.region pa != .regs

/-! ### Completion and faults -/

/-- A completed copy, drain or launch count rises by 1 (R151). -/
def State.addCounter (s : State) (c n : Nat) : State :=
  let k := s.core c
  s.setCore c (k.setCounter n (k.counter n + 1))

/-- Held signals whose earlier copies are complete are performed, in order (R153). -/
def State.releaseHeld (s : State) (c : Nat) : State :=
  let k := s.core c
  let left := k.copies.map (·.k)
  let ready := k.held.filter (fun h => !h.after.any left.contains)
  let s := s.setCore c { k with held := k.held.filter (fun h => h.after.any left.contains) }
  s.each ready fun s h => s.coreSignal c h.obj h.set h.v h.layer h.opid

/-- TC_COPY_FAULT records a fault of a copy, MORE as it stands (R187). -/
def State.recordFault (s : State) (c : Nat) (o : CopyOp) (cause row : Nat) : State :=
  let more := s.rd TC_COPY_FAULT.MORE c
  (s.setCore c { s.core c with faultOf := some (o.k, s.now) }).setReg (TC_COPY_FAULT.CAUSE.off c)
    (packWord [(0, cause), (3, bit o.out), (4, o.cnt), (8, o.pc), (32, row), (48, more)])

/-- A copy of a core faults (R186, R187): the first fault of the launch is recorded and raises COPY_FAULT, later ones are
counted; of faults in one cycle that of the copy issued earliest is recorded. -/
def State.copyFault (s : State) (c : Nat) (o : CopyOp) (cause row va : Nat) : State :=
  match (s.core c).faultOf with
  | none => (s.recordFault c o cause row).raise c 11 o.pc o.cnt va
  | some (n, t) =>
    let s := s.bump TC_COPY_FAULT.MORE c
    if t = s.now ∧ o.k < n then (s.recordFault c o cause row).raise c 11 o.pc o.cnt va true else s

/-- The row of a copy that holds a virtual address. -/
def CopyOp.rowOf (o : CopyOp) (va : Nat) : Nat :=
  ((List.range o.rows).find? fun r =>
    decide (rowAddr o.ux o.stride r ≤ va) && decide (va < rowAddr o.ux o.stride r + o.rowBytes)).getD 0

/-- Bytes of a copy IN reach the scratchpad; the lines that take a poisoned byte are marked (R175, R179). -/
def State.copyIn (s : State) (c sp : Nat) (b : List Byte) (bad : List (Nat × Nat)) : State :=
  let k := (s.core c).spWrite sp b
  let marks := (bad.flatMap fun r => linesOf r.1 r.2).eraseDups
  let k := marks.foldl (fun k l => k.spMark l true) k
  ((s.setCore c k).bump TC_SP_POISON.POISON_IN c marks.length).bumpWrap TC_COPY_BYTES_IN.BYTES c b.length

/-- A burst of a copy IN from plain memory: its lines are read once each as they stand (R179, R183). -/
def State.burstIn (s : State) (c pa len sp : Nat) : State :=
  let r := (linesOf pa len).foldl
    (fun (a : List Byte × List (Nat × Nat) × State) l =>
      let (d, p, s) := a.2.2.engLine l
      let lo := max pa (64 * l)
      let n := min (pa + len) (64 * l + 64) - lo
      (a.1 ++ (List.range n).map (fun j => Line.byte d (lo - 64 * l + j)),
        if p then a.2.1 ++ [(sp + (lo - pa), n)] else a.2.1, s))
    ([], [], s)
  r.2.2.copyIn c sp r.1 r.2.1

/-- The poisoned scratchpad lines of a range. -/
def Core.badLines (k : Core) (sp len : Nat) : List Nat := (linesOf sp len).filter k.spBad

/-- A scratchpad line as it stands. -/
def Core.spLine (k : Core) (line : Nat) : Line := BitVec.ofNat 512 (leNat (k.spBytes (64 * line) 64))

/-- The copy with a number among a core's copies in flight. -/
def Core.copyNo (k : Core) (n : Nat) : Option CopyOp := k.copies.find? (fun o => o.k == n)

/-- INFLIGHT of TC_COPY_STATUS follows the copies in flight. -/
def State.showCopies (s : State) (c : Nat) : State := s.wr TC_COPY_STATUS.INFLIGHT c (s.core c).copies.length

/-- A copy in flight of a core is changed. -/
def State.mapCopy (s : State) (c n : Nat) (f : CopyOp → CopyOp) : State :=
  let k := s.core c
  s.setCore c { k with copies := k.copies.map fun o => if o.k = n then f o else o }

/-- Scratchpad lines that a copy OUT needs and has not read yet are read, each once: a line whose parity fails is marked, and
a poisoned one is counted (R175, R176, R183). -/
def State.readOut (s : State) (c n : Nat) (spBad lines : List Nat) : State :=
  match (s.core c).copyNo n with
  | none => s
  | some o =>
    let new := lines.filter fun l => !o.buf.any (fun e => e.1 == l)
    let s := s.spParity c spBad (new.map fun l => (64 * l, 64))
    let k := s.core c
    let s := s.bump TC_SP_POISON.POISON_OUT c (new.filter k.spBad).length
    s.mapCopy c n fun o => { o with buf := o.buf ++ new.map fun l => (l, k.spLine l, k.spBad l) }

/-- A byte of a scratchpad line that a copy OUT has read. -/
def CopyOp.bufByte (o : CopyOp) (off : Nat) : Byte :=
  match o.buf.find? (fun e => e.1 == off / 64) with
  | some e => Line.byte e.2.1 (off % 64)
  | none => 0

/-- Whether a scratchpad line that a copy OUT has read was poisoned. -/
def CopyOp.bufBad (o : CopyOp) (line : Nat) : Bool := o.buf.any fun e => e.1 == line && e.2.2

/-- The bytes that a burst, or a line of one, of a copy OUT sends, and whether one of them is poison, after their scratchpad
lines have been read. -/
def State.outBytes (s : State) (c n : Nat) (spBad : List Nat) (b : Burst) : List Byte × Bool × State :=
  match (s.core c).copyNo n with
  | none => ([], false, s)
  | some o =>
    let offs := s.outFrom o b
    let lines := (offs.map (· / 64)).eraseDups
    let s := s.readOut c n spBad lines
    match (s.core c).copyNo n with
    | none => ([], false, s)
    | some o => (offs.map o.bufByte, lines.any o.bufBad, s.bumpWrap TC_COPY_BYTES_OUT.BYTES c b.len)

/-- A copy of a core is complete (R182): it leaves the copies in flight, its counter rises, and signals held for it
go out. -/
def State.copyDone (s : State) (c : Nat) (o : CopyOp) : State :=
  let k := s.core c
  let waits := o.out && s.owed (.copy c o.k) != 0
  let s := (s.setCore c { k with copies := k.copies.filter (fun x => x.k != o.k),
                                 acking := if waits then k.acking ++ [o] else k.acking }).showCopies c
  ((s.addCounter c o.cnt).offerAs 5 c
    (packBits [(0, o.cnt), (3, bit o.out), (32, o.rows * o.rowBytes % 2 ^ 32)]) o.layer o.opid).releaseHeld c

/-! ### The copy engine (R177, R180) -/

/-- Copies in flight in the order of their turns: those issued after the one served last, then the others (R177). -/
def Core.inTurn (k : Core) : List CopyOp :=
  k.copies.filter (fun o => decide (k.turn ≤ o.k)) ++ k.copies.filter (fun o => decide (o.k < k.turn))

/-- Whether a copy's next burst can begin: copies begin in issue order, and the lines that are outstanding in its direction
leave room for those of the burst (R177, R180). -/
def State.canBegin (s : State) (c : Nat) (o : CopyOp) : Bool :=
  match o.bursts[o.begun]? with
  | none => false
  | some b =>
    decide (s.copyLines c o.out + b.lines.length ≤ 1024) &&
      (decide (0 < o.begun) || (s.core c).copies.all fun x => decide (o.k ≤ x.k) || decide (0 < x.begun))

/-- The messages of a burst into or out of a peer window enter their link's egress; a burst that the dike table refuses, or
whose lines are LOST at once, fails (R64, R155, R186, R354, R357). The lines of a copy OUT are read then (log entry 63). -/
def State.peerBegin (s : State) (c : Nat) (o : CopyOp) (b : Burst) (spBad : List Nat) : State :=
  let k := s.core c
  let pa := b.pa k.exts o.out
  if !s.burstOk k.ctx o.out pa b.len then s.copyFault c o 1 (o.rowOf b.va) b.va
  else
    let r :=
      if o.out then
        let (bs, _, s) := s.outBytes c o.k spBad b
        s.peerWrite o.cls (.copy c o.k) pa bs
      else s.peerRead o.cls (.copy c o.k) pa b.len
    if 0 < r.2 then r.1.copyFault c o 3 (o.rowOf b.va) b.va else r.1

/-- The next burst of a copy begins: its lines in plain memory are asked for and move as TCOPY_COMPLETE says. -/
def State.beginBurst (s : State) (c : Nat) (spBad : List Nat) (o : CopyOp) : State :=
  let s := s.mapCopy c o.k fun o => { o with begun := o.begun + 1 }
  let s := s.setCore c { s.core c with turn := o.k + 1 }
  match o.bursts[o.begun]? with
  | some b => if s.peerBurst (s.core c).exts o b then s.peerBegin c o b spBad else s
  | none => s

/-- The copy engine serves the copies in flight in turn, one burst at a time, as far as its limits allow (R177, R180; log
entry 63): fuel bounds the bursts. -/
def State.serve (s : State) (c : Nat) (spBad : List Nat) : Nat → State
  | 0 => s
  | n + 1 =>
    match (s.core c).inTurn.find? (s.canBegin c) with
    | none => s
    | some o => (s.beginBurst c spBad o).serve c spBad n

/-- The bursts of a core's copies that have not begun. -/
def Core.toBegin (k : Core) : Nat := (k.copies.map fun o => o.bursts.length - o.begun).sum

/-- The copy engine goes on. -/
def State.goOn (s : State) (c : Nat) (spBad : List Nat) : State := s.serve c spBad (s.core c).toBegin

/-! ### The commands -/

/-- The copy of a TCOPY, its class raised to that of its launch's queue (R149, R193). -/
def copyOf (k : Core) (cls : Nat) (b : BitVec 56) (pc : Nat) : CopyOp :=
  let g := (k.ar (fieldAt b 37 33)).toNat
  let rowBytes := bitsOf g 22 0
  { k := k.nextCopy
    out := fieldAt b 55 55 == 1
    cnt := fieldAt b 54 52
    cls := max (fieldAt b 51 50) cls
    sx := (k.ar (fieldAt b 47 43)).toNat
    ux := (k.ar (fieldAt b 42 38)).toNat
    rowBytes := rowBytes
    rows := bitsOf g 38 23 + 1
    stride := if fieldAt b 32 28 = 0 then rowBytes else (k.ar (fieldAt b 32 28)).toNat
    pc := pc
    moved := []
    begun := 0
    buf := []
    layer := k.layer
    opid := k.opid }

/-- TCOPY (R149, R150, R177): the copy is checked and is in flight; one without bytes completes at once. -/
def execTcopy (t core : Nat) (body : BitVec 56) (spBad : List Nat) (s : State) : Res :=
  s.live t fun s => s.issue core 0x20 body fun s pc =>
    let k := s.core core
    let o := copyOf k (s.coreCls core) body pc
    let gx := fieldAt body 37 33
    if 64 ≤ k.copies.length then none
    else
      s.checked core pc (lowestOffence body (maskBits 49 48 ||| maskBits 27 0) [])
        ((if (k.ar gx).toNat / 2 ^ 39 ≠ 0 then [(5, gx)] else []) ++
          (if spSize < o.sx + o.rows * o.rowBytes then [(5, fieldAt body 47 43)] else []))
        (match if o.rowBytes = 0 then none else o.missing k.exts with
         | some va => some (s.raise core 7 pc 0 va)
         | none =>
          let s := s.passWith core pc fun k => { k with nextCopy := k.nextCopy + 1, copies := k.copies ++ [o] }
          let s := s.showCopies core
          if o.rowBytes = 0 then some (s.copyDone core o) else some (s.goOn core spBad))

/-- A line of a copy IN or OUT moves (R175, R176, R178–R184): IN it is read once now; OUT it is written, and marked poison
when bytes of a poisoned scratchpad line are among it; behind a DOWN port it is lost (R299, log entry 136). -/
def State.movePiece (s : State) (core n : Nat) (found : Found) (b : Burst) : State :=
  match (s.core core).copyNo n with
  | none => s
  | some o =>
    let pa := b.pa (s.core core).exts o.out
    if o.out then
      let (bs, bad, s) := s.outBytes core n found.sp b
      if s.lostLine (pa / 64) then (s.engWrite pa bs).copyFault core o 3 (o.rowOf b.va) b.va
      else
        let s := s.engWrite pa bs
        if bad then s.setPoison (pa / 64) true else s
    else s.burstIn core pa b.len b.sp

/-- The lines of a copy that have been asked for and that a list names, or all of them, move now. A line that the dike table
refuses waits for COPY_FAULT (R186). -/
def State.copyLinesNow (s : State) (core n : Nat) (only : Option (List Nat)) (found : Found) : State :=
  let k := s.core core
  match k.copyNo n with
  | none => s
  | some o =>
    let now := (s.openLines k.exts o).filter fun e =>
      s.burstOk k.ctx o.out (e.1.pa k.exts o.out) e.1.len &&
        (match only with
         | some l => l.contains e.2
         | none => true)
    let s := s.each now fun s e => s.movePiece core n found e.1
    let s := { s with freeIdx := s.freeIdx + o.rows * o.rowBytes }
    (s.mapCopy core n fun o => { o with moved := o.moved ++ now.map Prod.snd }).goOn core found.sp

/-- All the lines of a copy move, burst after burst: fuel bounds the bursts. -/
def State.moveAll (s : State) (core n : Nat) (found : Found) : Nat → State
  | 0 => s
  | m + 1 => (s.copyLinesNow core n none found).moveAll core n found m

/-- Whether every line of a copy has moved: its bursts have all begun, none of its lines in plain memory is left, its lines
into peer windows have been accepted by their links, and its lines from them have arrived (R182). -/
def State.copyWhole (s : State) (core : Nat) (o : CopyOp) : Bool :=
  o.begun == o.bursts.length && (s.openLines (s.core core).exts o).isEmpty &&
    (if o.out then s.unsent (.copy core o.k) else s.owed (.copy core o.k)) == 0

/-- TCOPY_COMPLETE (R151, R177–R184): lines of the copy move, in any order, each once: those of a list, or all that are left,
and the copy engine goes on. After the last the copy is complete and its counter rises. -/
def execTcopyComplete (t core k conflicts : Nat) (only : Option (List Nat)) (found : Found) (s : State) : Res :=
  s.live t fun s =>
    match (s.core core).copyNo k with
    | none => s
    | some o =>
      s.reads found 0 (0x1000 + core) fun s =>
        let s := s.bumpWrap TC_SP_CONFLICT.COUNT core conflicts
        match only with
        | some _ => s.copyLinesNow core k only found
        | none =>
          let s := s.moveAll core k found (o.bursts.length + 1)
          match (s.core core).copyNo k with
          | some o =>
            if s.copyWhole core o then
              (s.pmcCore core (if o.out then 9 else 8) o.pieces.length o.layer).copyDone core o
            else s
          | none => s

/-- COPY_FAULT (R186, R187): a copy in flight fails at a row and address: refused by the dike table (1), or, into a
peer window, refused on its route (2) or lost (3). Faults after the first are counted, those of abandoned copies too. -/
def execCopyFault (t core k cause row va : Nat) (s : State) : Res :=
  s.live t fun s =>
    let c := s.core core
    match (c.copies ++ c.dropped).find? (fun o => o.k == k) with
    | none => s
    | some o =>
      let a := rowAddr o.ux o.stride row
      let pa := (physIn c.exts va 1 o.out).getD 0
      if o.rows ≤ row ∨ va < a ∨ a + o.rowBytes ≤ va then s
      else if (cause = 1 ∧ (s.isPeer pa ∨ !s.burstOk c.ctx o.out pa 1)) ∨ ((cause = 2 ∨ cause = 3) ∧ s.isPeer pa) then
        s.copyFault core o cause row va
      else s

end Sys2Proof.Machine
end

