-- ==== Sys2Proof/Machine/Sluice.lean ====
section
/-! DEFINITION. The Sluice: throttle events and their log, reservations of hints, and the admission of launches
(R156–R157, R453–R462, R470–R474). -/

namespace Sys2Proof.Machine

/-! ### Throttle events (R471–R474) -/

/-- DURATION, REASON, KIND, CONT, POLDER and YIELDED of a throttle record at a tick (R473). -/
def ThrEvent.word (e : ThrEvent) (now : Nat) (cont : Bool) : Nat :=
  packBits [(0, (now - e.start) % 2 ^ 40), (40, e.reason), (44, bit e.yield), (45, bit cont), (48, e.polder),
    (52, e.rank)]

/-- A throttle record (R473). -/
def ThrEvent.record (e : ThrEvent) (now : Nat) (cont : Bool) : List Word :=
  [BitVec.ofNat 64 e.start, BitVec.ofNat 64 (e.word now cont),
   packWord [(0, e.ctx), (16, e.queue), (32, e.layer), (48, e.opid)], packWord [(0, e.count % 2 ^ 32), (32, e.detail)]]

/-- A throttle record is kept, of which 8,192 are, written to the throttle ring and traced (R474, R509). -/
def State.thrRecord (s : State) (e : ThrEvent) (cont : Bool) : State :=
  let w := e.record s.tb cont
  let s := if s.thrLog.length < 8192 then { s with thrLog := s.thrLog ++ [w] }
    else { s with thrLog := s.thrLog.tail ++ [w], thrOver := s.thrOver + 1 }
  (s.ringRecord 2 w).offer 16 1 0 0 (e.word s.tb cont) e.ctx e.layer e.opid

/-- Whom a throttle event concerns first. -/
structure Concern where
  /-- context, 0xFFF none -/
  ctx : Nat
  /-- queue, 0x3FFF none -/
  queue : Nat
  /-- LAYER -/
  layer : Nat
  /-- OPID -/
  opid : Nat
  deriving DecidableEq, Repr

/-- No work is concerned. -/
def nobodys : Concern := ⟨0xFFF, 0x3FFF, 0, 0⟩

/-- Whether an event has a reason and a polder. -/
def ThrEvent.is (e : ThrEvent) (reason polder : Nat) : Bool := e.reason == reason && e.polder == polder

/-- The DETAIL of an event after another finding: the highest temperature, the lowest VIN, the first limit (R473). -/
def thrDetail (reason old new : Nat) : Nat :=
  match reason with
  | 3 => max old new
  | 4 => min old new
  | _ => old

/-- A throttle event of a reason and polder opens, or the one that is open takes so many more counts (R472). -/
def State.openEvent (s : State) (reason polder : Nat) (w : Concern) (count detail : Nat) (act : Bool := false) :
    State :=
  if s.thrEvents.any (·.is reason polder) then
    { s with thrEvents := s.thrEvents.map fun (e : ThrEvent) =>
        if e.is reason polder then
          { e with count := e.count + count, act := e.act || act, detail := thrDetail reason e.detail detail }
        else e }
  else
    let e : ThrEvent := ⟨reason, polder, s.tb, false, 0, w.ctx, w.queue, w.layer, w.opid, count, detail,
      s.now + ms100, act⟩
    { s with thrEvents := s.thrEvents ++ [e] }

/-- The throttle action that an event reports is undone. -/
def State.endAct (s : State) (reason polder : Nat) : State :=
  { s with thrEvents := s.thrEvents.map fun (e : ThrEvent) => if e.is reason polder then { e with act := false } else e }

/-- Whether the condition of an event still holds: a throttle action, a refused launch, or a reservation that waits or
was taken from (R472). -/
def State.eventHolds (s : State) (e : ThrEvent) : Bool :=
  e.act || s.queues.any (fun q => q.2.refusedWhy == some (e.reason, e.polder)) ||
    (e.reason == 5 && s.reservs.any (fun r => r.missed && r.polder == e.polder))

/-- The pairs of reason and polder in the order in which coinciding records are written (R472). -/
def thrPairs : List (Nat × Nat) :=
  [1, 2, 3, 4, 5, 6].flatMap fun r => [0, 1, 2, 3, 4, 5, 6, 7, 15].map fun p => (r, p)

/-- Events whose conditions no longer hold close, each with its record (R472). -/
def State.closeEvents (s : State) : State :=
  s.each thrPairs fun s k =>
    match s.thrEvents.find? (·.is k.1 k.2) with
    | none => s
    | some e =>
      if s.eventHolds e then s
      else ({ s with thrEvents := s.thrEvents.filter (fun (x : ThrEvent) => !x.is k.1 k.2) }).thrRecord e false

/-- THROTTLE_CONT (R472): an event open for another 100 ms writes a record with CONT set. -/
def execThrottleCont (t : Nat) (s : State) : Res :=
  s.live t fun s =>
    s.each thrPairs fun s k =>
      match s.thrEvents.find? (fun e => e.is k.1 k.2 && decide (e.cont ≤ s.now)) with
      | none => s
      | some e =>
        ({ s with thrEvents := s.thrEvents.map fun (x : ThrEvent) =>
            if x.is k.1 k.2 then { x with cont := x.cont + ms100 } else x }).thrRecord e true

/-! ### Reservations (R456–R459) -/

/-- Wc of R456, in 0.1 W. -/
def State.classW (s : State) (c : Nat) : Nat := (s.reg (SLU_PCLASS.W0.off 0)).toNat / 2 ^ (8 * c) % 256

/-- Wc − W0, in 0.1 W; none below zero (log entry 36). -/
def State.classStep (s : State) (c : Nat) : Nat := s.classW c - s.classW 0

/-- What a hint asks of a polder, in 0.1 W (R457): for the cores that hinted, a die's enabled cores, or a part of a
polder's budget. -/
def State.hintAmount (s : State) (p c : Nat) (cores : Option (List Nat)) : Nat :=
  match cores with
  | some l => l.length * s.classStep c
  | none =>
    if p < 4 then (s.dieCores p).length * s.classStep c else s.rd SLU_POLDER_CFG.BUDGET_W p * 10 * c / 7

/-- A hint: who sent it and what it announces (R157, R212). -/
structure HintReq where
  /-- context -/
  ctx : Nat
  /-- traffic class of its queue -/
  cls : Nat
  /-- queue -/
  queue : Nat
  /-- LAYER -/
  layer : Nat
  /-- OPID -/
  opid : Nat
  /-- PCLASS -/
  pclass : Nat
  /-- START, in µs -/
  start : Nat
  /-- DUR, in µs -/
  dur : Nat
  /-- T of R457: the issue tick of a tile hint, the start tick of a HINT command -/
  tick : Nat
  /-- the tile core that sent it -/
  core : Option Nat
  deriving DecidableEq, Repr

/-- DUR as it counts: 0 becomes 1 (R157, R212). -/
def HintReq.len (h : HintReq) : Nat := max h.dur 1

/-- Whether a reservation has the key of a hint on a polder (R457). -/
def Reservation.keyIs (r : Reservation) (h : HintReq) (p : Nat) : Bool :=
  r.ctx == h.ctx && r.polder == p && r.layer == h.layer && r.opid == h.opid

/-- A reservation is replaced by another of its number. -/
def State.setReserv (s : State) (r : Reservation) : State :=
  { s with reservs := s.reservs.map fun (x : Reservation) => if x.k = r.k then r else x }

/-- A hint reaches the Sluice for one polder (R457): the reservation with its key takes its class and asks for the new
amount and window; otherwise a new one is made, if fewer than 1,024 are held. -/
def State.hintOn (s : State) (h : HintReq) (p : Nat) : State :=
  let lo := h.tick + h.start * 1000
  let hi := lo + h.len * 1000
  match s.reservs.find? (fun r => r.keyIs h p) with
  | some r =>
    let cores := match h.core with
      | some c => if r.cores.contains c then r.cores else r.cores ++ [c]
      | none => r.cores
    s.setReserv { r with pclass := h.pclass, cls := h.cls, queue := h.queue, lo := lo, hi := hi, cores := cores,
                         amount := s.hintAmount p h.pclass (h.core.map fun _ => cores), waiting := true }
  | none =>
    if 1024 ≤ s.reservs.length then s.bump SLU_HINT_STATUS.DROPPED 0
    else
      let cores := h.core.toList
      let r : Reservation := ⟨s.nextReserv, h.ctx, p, h.layer, h.opid, h.pclass, h.cls, h.queue, lo, hi,
        s.hintAmount p h.pclass (h.core.map fun _ => cores), 0, 0, none, cores, true, 0, 0, false⟩
      { s with reservs := s.reservs ++ [r], nextReserv := s.nextReserv + 1 }

/-- The unclaimed amounts on a polder of the granted reservations that satisfy a test and meet a window, in 0.1 W. -/
def State.unclaimedOn (s : State) (p lo hi : Nat) (f : Reservation → Bool) : Nat :=
  ((s.reservs.filter (fun r => r.polder == p && r.meets lo hi && f r)).map Reservation.unclaimed).sum

/-! ### The checks of R461 -/

/-- A refusal: REASON of R473, polder and DETAIL. -/
structure Why where
  /-- reason -/
  reason : Nat
  /-- polder, 15 package -/
  polder : Nat
  /-- DETAIL of R473 -/
  detail : Nat
  deriving DecidableEq, Repr

/-- VIN in V, as the latest sample gives it. -/
def State.vinV (s : State) : Rat := (s.rd SLU_PKG_EXC.VIN_MV : Rat) / 1000

/-- The peak that a polder's short windows are held to (R453). -/
def State.peakOf (s : State) (p : Nat) : Nat := max (s.rd SLU_POLDER_CFG.PEAK_W p) (s.rd SLU_POLDER_CFG.BUDGET_W p)

/-- What the short windows of a polder show beside an addition, in W. -/
def State.shortOn (s : State) (p : Nat) : Rat :=
  max (s.meanW us10 p) (s.meanW ms1 p) + (s.pendingOf (fun x => x == p) : Rat) / 10

/-- The first check of one polder that fails with an addition and the reservations to be respected, both in 0.1 W. -/
def State.polderWhy (s : State) (p add others : Nat) : Option Why :=
  let more := ((others + add : Nat) : Rat) / 10
  let short := s.shortOn p + more
  let imax := s.rd SLU_POLDER_CFG.IMAX_A p
  let budget := s.rd SLU_POLDER_CFG.BUDGET_W p
  if (imax : Rat) < short / s.vinV then some ⟨2, p, imax⟩
  else if (s.peakOf p : Rat) < short then some ⟨1, p, s.peakOf p⟩
  else if (budget : Rat) < s.meanW ms100 p + more then some ⟨1, p, budget⟩
  else none

/-- The package's draw with an addition and the reservations to be respected, both in 0.1 W, in W. -/
def State.pkgDraw (s : State) (add others : Nat) : Rat :=
  max (s.meanW us10 15) (s.meanW ms1 15) + ((s.pendingOf (fun _ => true) + others + add : Nat) : Rat) / 10

/-- Whether the package may not draw more than SUSTAIN_W now (R461): its excursions are spent, or its 100 ms mean is above. -/
def State.sustainBinds (s : State) : Bool :=
  decide (1000 * s.rd SLU_PKG_CFG.EXCURSION_MS ≤ s.excUs) ||
    decide ((s.rd SLU_PKG_CFG.SUSTAIN_W : Rat) < s.meanW ms100 15)

/-- The first check of the package that fails. -/
def State.pkgWhy (s : State) (add others : Nat) : Option Why :=
  let pkg := s.pkgDraw add others
  let sustain := s.rd SLU_PKG_CFG.SUSTAIN_W
  let peak := s.rd SLU_PKG_CFG.PKG_PEAK_W
  if (2100 : Rat) < s.vinA10 + ((s.pendingOf (fun _ => true) + add : Nat) : Rat) / 10 / s.vinV then some ⟨2, 15, 2100⟩
  else if (peak : Rat) < pkg then some ⟨1, 15, peak⟩
  else if (sustain : Rat) < pkg ∧ s.sustainBinds then some ⟨1, 15, sustain⟩
  else none

/-- The checks of R461 for CURRENT and POWER: additions by polder, and the respected reservations of each polder. -/
def State.limitsWhy (s : State) (adds : List (Nat × Nat)) (others : Nat → Nat) : Option Why :=
  match adds.findSome? (fun a => s.polderWhy a.1 a.2 (others a.1)) with
  | some w => some w
  | none => s.pkgWhy (adds.map Prod.snd).sum (((List.range 8).map others).sum)

/-! ### Grants (R458) -/

/-- The tick from which a reservation is tried. -/
def State.grantDue (s : State) (r : Reservation) : Nat := r.lo - s.rd SLU_CFG.PREARM_US * 1000

/-- Whom a reservation concerns. -/
def Reservation.concern (r : Reservation) : Concern := ⟨r.ctx, r.queue, r.layer, r.opid⟩

/-- A try at a reservation's grant: every other granted reservation that meets its window counts. -/
def State.tryGrant (s : State) (r : Reservation) : State :=
  let others := fun (p : Nat) => s.unclaimedOn p r.lo r.hi (fun x => x.k != r.k)
  match s.limitsWhy [(r.polder, r.amount)] others with
  | none =>
    (s.setReserv { r with granted := r.amount, glo := r.lo, ghi := r.hi, grantAt := some s.now, waiting := false,
                          missed := false }).closeEvents
  | some _ =>
    (s.setReserv { r with missed := true }).openEvent 5 r.polder r.concern (if r.missed then 0 else 1) 0

/-- RESERVATION_GRANT (R458): from PREARM_US before its window, a waiting reservation is tried. -/
def execReservationGrant (t k : Nat) (s : State) : Res :=
  s.live t fun s =>
    match s.reservs.find? (fun r => r.k == k) with
    | none => s
    | some r =>
      if r.waiting ∧ s.grantDue r ≤ s.now ∧ s.now < r.hi ∧ s.save.phase = 0 then s.tryGrant r else s

/-- The window that a reservation asks for has ended (R457, R458): a previous grant whose window is open stands alone; without
one the reservation ends. -/
def State.windowEnds (s : State) (r : Reservation) : State :=
  if r.waiting && r.meets s.now (s.now + 1) then
    s.setReserv { r with lo := r.glo, hi := r.ghi, amount := r.granted, waiting := false, missed := false }
  else { s with reservs := s.reservs.filter (fun (x : Reservation) => x.k != r.k) }

/-- RESERVATION_END (R458): a reservation's window ends. -/
def execReservationEnd (t k : Nat) (s : State) : Res :=
  s.live t fun s =>
    match s.reservs.find? (fun r => r.k == k) with
    | none => s
    | some r => if r.hi ≤ s.now then (s.windowEnds r).closeEvents else s

/-! ### Launches (R208, R459, R461, R462) -/

/-- The cores that a LAUNCH names, in ascending order (R207). -/
def launchCores (w : List Word) : List Nat :=
  (List.range 256).filter fun c => (w.getD (8 + c / 64) 0).toNat.testBit (c % 64)

/-- A launch as the Sluice sees it. -/
structure LaunchReq where
  /-- context -/
  ctx : Nat
  /-- traffic class of its queue -/
  cls : Nat
  /-- LAYER -/
  layer : Nat
  /-- OPID -/
  opid : Nat
  /-- cores on each of its polders, in ascending order of polder -/
  on : List (Nat × Nat)
  deriving DecidableEq, Repr

/-- The tensor polders of some cores, with the cores on each. -/
def polderCounts (cores : List Nat) : List (Nat × Nat) :=
  ((List.range 4).map fun p => (p, (cores.filter (fun c => dieOf c == p)).length)).filter fun e => e.2 != 0

/-- The launch of a queue's command, to the Sluice. -/
def State.launchReq (s : State) (q : Nat) (w : List Word) : LaunchReq :=
  ⟨s.rd QE_Q_CFG.CONTEXT q, s.qClass q, hdrLayer w, hdrOpid w, polderCounts (launchCores w)⟩

/-- The granted reservations of a launch's context on a polder whose windows meet [now, now + 10 µs). -/
def State.ownReservs (s : State) (l : LaunchReq) (p : Nat) : List Reservation :=
  s.reservs.filter fun r => r.ctx == l.ctx && r.polder == p && r.meets s.now (s.now + us10)

/-- Whether a reservation has a launch's LAYER and OPID. -/
def Reservation.fits (r : Reservation) (l : LaunchReq) : Bool := r.layer == l.layer && r.opid == l.opid

/-- reserved_class of R461: the class that a launch draws at on a polder. -/
def State.launchClass (s : State) (l : LaunchReq) (p : Nat) : Nat :=
  let now := (s.ownReservs l p).filter fun r => r.meets s.now (s.now + 1)
  match now.find? (fun r => r.fits l) with
  | some r => r.pclass
  | none => ((now.map (·.pclass)).max?).getD (s.rd SLU_CFG.DEFAULT_PCLASS)

/-- The need of a launch on a polder, in 0.1 W. -/
def State.needOn (s : State) (l : LaunchReq) (p n : Nat) : Nat := n * s.classStep (s.launchClass l p)

/-- What a launch can claim on a polder of its context's reservations, in 0.1 W (R459). -/
def State.claimable (s : State) (l : LaunchReq) (p need : Nat) : Nat :=
  min need ((s.ownReservs l p).map Reservation.unclaimed).sum

/-- What a launch adds to each of its polders beyond what it claims, in 0.1 W. -/
def State.launchAdds (s : State) (l : LaunchReq) : List (Nat × Nat) :=
  l.on.map fun e => let need := s.needOn l e.1 e.2; (e.1, need - s.claimable l e.1 need)

/-- Whether a launch must respect a reservation (R459). -/
def Reservation.respected (r : Reservation) (l : LaunchReq) : Bool := r.ctx != l.ctx && decide (r.cls ≤ l.cls)

/-- others(p, launch) of R461, in 0.1 W. -/
def State.othersFor (s : State) (l : LaunchReq) (p : Nat) : Nat :=
  s.unclaimedOn p s.now (s.now + us10) (fun r => r.respected l)

/-- The launches of a class that have started and not completed. -/
def State.classLaunches (s : State) (cls : Nat) : List InFlight :=
  s.inflight.filter fun f => f.kind == 1 && f.status.isNone && s.qClass f.q == cls

/-- FLOORk of R461, in 0.1 W; class 3 has none. -/
def State.classFloor (s : State) (k : Nat) : Nat :=
  10 * (match k with
    | 0 => s.rd SLU_CLASS_FLOOR.FLOOR0
    | 1 => s.rd SLU_CLASS_FLOOR.FLOOR1
    | 2 => s.rd SLU_CLASS_FLOOR.FLOOR2
    | _ => 0)

/-- floors_owed of R461, in 0.1 W: what the floors of more urgent classes are short of their running launches' needs. -/
def State.floorsOwed (s : State) (cls : Nat) : Nat :=
  ((List.range (min cls 3)).map fun k => s.classFloor k - ((s.classLaunches k).map (·.need)).sum).sum

/-- The admission of R461: the reason for which a launch is refused, if it is. -/
def State.admitWhy (s : State) (l : LaunchReq) : Option Why :=
  let adds := s.launchAdds l
  if s.flag SLU_PKG_STATUS.SAG then some ⟨4, 15, s.rd SLU_PKG_EXC.VIN_MV⟩
  else
    match s.limitsWhy adds (s.othersFor l) with
    | some w => some w
    | none =>
      match adds.find? (fun a => decide (s.rd SLU_CFG.THROTTLE_C ≤ s.rd SLU_POLDER_THR.TEMP_C a.1)) with
      | some a => some ⟨3, a.1, s.rd SLU_POLDER_THR.TEMP_C a.1⟩
      | none =>
        let pkg := s.pkgDraw (adds.map Prod.snd).sum (((List.range 8).map (s.othersFor l)).sum)
        if (s.rd SLU_PKG_CFG.PKG_PEAK_W : Rat) - pkg < (s.floorsOwed l.cls : Rat) / 10 then some ⟨6, 15, 0⟩ else none

/-- The claims of a launch on a polder (R459): from the reservation of its LAYER and OPID first, then from the others in
the order they were made. -/
def takeClaims : List Reservation → Nat → List (Nat × Nat)
  | [], _ => []
  | r :: l, n =>
    let t := min n r.unclaimed
    if t = 0 then takeClaims l n else (r.k, t) :: takeClaims l (n - t)

/-- The claims of an admitted launch: reservation and amount. -/
def State.claimsOf (s : State) (l : LaunchReq) : List (Nat × Nat) :=
  l.on.flatMap fun e =>
    let need := s.needOn l e.1 e.2
    let own := s.ownReservs l e.1
    takeClaims (own.filter (fun r => r.fits l) ++ own.filter (fun r => !r.fits l)) need

/-- Claims are added to their reservations, or returned. -/
def State.moveClaims (s : State) (cs : List (Nat × Nat)) (back : Bool) : State :=
  { s with reservs := s.reservs.map fun (r : Reservation) =>
      let n := ((cs.filter (fun c => c.1 == r.k)).map Prod.snd).sum
      { r with claimed := if back then r.claimed - n else r.claimed + n } }

/-- Which of two reservations gives first (R459): of the higher class number, then the one granted later. -/
def givesFirst (a b : Reservation) : Bool :=
  decide (b.cls < a.cls) || (a.cls == b.cls && decide (b.grantAt.getD 0 < a.grantAt.getD 0))

/-- Reservations shrink, in order, by an amount in 0.1 W in all; each owner's HINT_MISS opens. -/
def State.shrink (s : State) : List Reservation → Nat → State
  | [], _ => s
  | r :: l, n =>
    let t := min n r.unclaimed
    if t = 0 then s.shrink l n
    else ((s.setReserv { r with granted := r.granted - t, missed := true }).openEvent 5 r.polder r.concern
      (if r.missed then 0 else 1) 0).shrink l (n - t)

/-- The unclaimed reservations of other contexts and less urgent classes, which a launch need not respect (R459). -/
def State.lesser (s : State) (l : LaunchReq) (p : Nat → Bool) : List Reservation :=
  (s.reservs.filter fun r => p r.polder && r.meets s.now (s.now + us10) && r.ctx != l.ctx && decide (l.cls < r.cls) &&
    decide (0 < r.unclaimed)).mergeSort givesFirst

/-- The overshoot of an admitted launch on a polder is taken from reservations that it need not respect (R459; in 0.1 W,
rounded up, log entry 36). -/
def State.takeOver (s : State) (l : LaunchReq) (p add : Nat) : State :=
  let low := s.lesser l (· == p)
  let total := (low.map Reservation.unclaimed).sum
  let more := ((s.othersFor l p + add + total : Nat) : Rat) / 10
  let short := s.shortOn p + more
  let extra := max (short - (s.rd SLU_POLDER_CFG.IMAX_A p : Rat) * s.vinV)
    (max (short - (s.peakOf p : Rat)) (s.meanW ms100 p + more - (s.rd SLU_POLDER_CFG.BUDGET_W p : Rat)))
  s.shrink low (min total (extra * 10).ceil.toNat)

/-- The overshoot of an admitted launch at the package's checks, with the floors it owes, is taken in the same way from the
reservations that are left (R459, R461). -/
def State.takePkg (s : State) (l : LaunchReq) (adds : List (Nat × Nat)) : State :=
  let low := s.lesser l fun _ => true
  let total := (low.map Reservation.unclaimed).sum
  let draw := s.pkgDraw (adds.map Prod.snd).sum (((List.range 8).map (s.othersFor l)).sum + total)
  let peak := draw + (s.floorsOwed l.cls : Rat) / 10 - (s.rd SLU_PKG_CFG.PKG_PEAK_W : Rat)
  let extra := if s.sustainBinds then max peak (draw - (s.rd SLU_PKG_CFG.SUSTAIN_W : Rat)) else peak
  s.shrink low (min total (extra * 10).ceil.toNat)

/-- The launch of an admitted command: its claims are taken, what it overshoots is taken, and its need counts as pending
for 10 µs (R459, R461). The claims and the whole need, in 0.1 W. -/
def State.admitLaunch (s : State) (l : LaunchReq) : List (Nat × Nat) × Nat × State :=
  let cs := s.claimsOf l
  let needs := l.on.map fun e => (e.1, s.needOn l e.1 e.2)
  let adds := s.launchAdds l
  let s := (s.each adds fun s a => s.takeOver l a.1 a.2).takePkg l adds
  let s := s.moveClaims cs false
  let s := { s with pends := s.pends.filter (fun p => decide (s.now < p.till)) ++
               needs.map fun e => (⟨e.1, e.2, s.now + us10⟩ : Pend) }
  (cs, (needs.map Prod.snd).sum, s)

/-- The gate duty of a tensor die. -/
def State.duty (s : State) (die : Nat) : Nat := s.rd SLU_POLDER_THR.DUTY die

/-- A die's gate duty becomes n/16: below 16/16 no array of the die goes on recirculating (R467). -/
def State.gateDuty (s : State) (die n : Nat) : State :=
  let s := s.wr SLU_POLDER_THR.DUTY die n
  if n < 16 then s.each (s.dieCores die) State.stopRecirc else s

/-- A launch that adds more than STEP_W to a tensor polder beyond what it claimed starts with the die's duty at most 8/16,
which then ramps (R464). -/
def State.stepRamp (s : State) (l : LaunchReq) : State :=
  s.each (s.launchAdds l) fun s a =>
    if 10 * s.rd SLU_CFG.STEP_W < a.2 then
      { s.gateDuty a.1 (min (s.duty a.1) 8) with ramps := Tab.put (fun _ => false) s.ramps a.1 true }
    else s

/-- The concern of a launch of a queue. -/
def LaunchReq.concern (l : LaunchReq) (q : Nat) : Concern := ⟨l.ctx, q, l.layer, l.opid⟩

/-- The launch at HEAD of a queue is refused: it joins the event of its reason and polder, and its STARVE_US begins with
the first refusal (R462, R471, R472, R513). -/
def State.refuseLaunch (s : State) (q : Nat) (l : LaunchReq) (w : Why) : State :=
  let x := s.queue q
  let joins := x.refusedWhy != some (w.reason, w.polder)
  let s := if x.refusedAt.isNone then s.pmcHub 0 77 (some l.ctx) (some l.layer) else s
  let s := s.setQueue q { x with refusedAt := some (x.refusedAt.getD s.now), refusedWhy := some (w.reason, w.polder) }
  s.openEvent w.reason w.polder (l.concern q) (bit joins) w.detail

/-- The blocking launch that holds a launch (R462): one that names a core in one of its polders, unless the launch's queue
has a lower class number. -/
def State.blocker (s : State) (q : Nat) (l : LaunchReq) : Option Nat :=
  (s.queues.find? fun e =>
    e.1 != q && e.2.blocking && !decide (l.cls < s.qClass e.1) &&
      (match e.2.fetched with
       | [] => false
       | f :: _ => (polderCounts (launchCores f.words)).any fun a => l.on.any fun b => a.1 == b.1)).map Prod.fst

/-- A launch held by a blocking one is counted once in that one's throttle event (R462). -/
def State.holdLaunch (s : State) (q b : Nat) : State :=
  match (s.queue b).refusedWhy with
  | none => s
  | some why =>
    if (s.queue q).heldWhy = some why then s
    else (s.setQueue q { s.queue q with heldWhy := some why }).openEvent why.1 why.2 nobodys 1
      ((s.thrEvents.find? (·.is why.1 why.2)).map (·.detail) |>.getD 0)

/-- STARVE (R462): the launch at HEAD of a queue has been refused for STARVE_US. -/
def execStarve (t q : Nat) (s : State) : Res :=
  s.live t fun s =>
    match (s.queue q).refusedAt with
    | some f =>
      if f + s.rd SLU_CFG.STARVE_US * 1000 ≤ s.now then s.setQueue q { s.queue q with blocking := true } else s
    | none => s

/-! ### Tile hints (R157) -/

/-- HINT (R157): the hint goes to the Sluice, but for one after the first of a 1 µs window of the timebase. -/
def execHint (t core : Nat) (body : BitVec 56) (s : State) : Res :=
  s.live t fun s => s.issue core 0x39 body fun s pc =>
    let k := s.core core
    let win := s.winNum 1000 + 1
    let pclass := fieldAt body 50 48
    let start := fieldAt body 47 36
    let dur := fieldAt body 35 20
    s.checked core pc (lowestOffence body (maskBits 55 51 ||| maskBits 19 0) []) []
      (some
        (if k.hintWin = win then (s.passPc core pc).bump TC_HINT_DROP.COUNT core
         else
          let l := k.launch
          let h : HintReq := ⟨k.ctx, s.coreCls core, (l.map (·.q)).getD 0, k.layer, k.opid, pclass, start, dur,
            s.now, some core⟩
          let s := s.passWith core pc fun k => { k with hintWin := win }
          (s.hintOn h (dieOf core)).offerCore 8 core (packBits [(0, pclass), (4, start), (16, h.len)])))

end Sys2Proof.Machine
end

