-- ==== Sys2Proof/Machine/Launch.lean ====
section
/-! DEFINITION. The Sluice's choice of a queue, and launches from their start to their completion (R126–R130,
R207, R208, R213–R216, R226, R232, R460–R462). -/

namespace Sys2Proof.Machine

/-! ### Eligible queues (R213, R215, R216) -/

/-- KIND of a command. -/
def kindOf (w : List Word) : Nat := bitsOf (w.headD 0).toNat 23 16

/-- Whether a command starts only after every earlier one is complete (R213). -/
def waitsEarlier (w : List Word) : Bool := (w.headD 0).toNat.testBit 25 || kindOf w == 4 || kindOf w == 9

/-- Descriptors in use on a hub: a COPY once for each of its own, every other started command once (R216). -/
def State.descsOn (s : State) (hub : Nat) (copies : Bool) : Nat :=
  ((s.inflight.filter fun f => hubOfQueue f.q == hub && f.status.isNone && (!copies || f.kind == 2)).map fun f =>
    if f.kind = 2 then f.descs.length else 1).sum

/-- Whether a hub's limits let a command of a kind start a descriptor (R216). -/
def State.hubTakes (s : State) (hub kind : Nat) : Bool :=
  decide (s.descsOn hub false < 8192) && (kind != 2 || decide (s.descsOn hub true < 1024))

/-- Whether rills let a queue's command start: a LAUNCH must have been evaluated and may be held (R311, R312). -/
def State.rillsLet (s : State) (q : Nat) (w : List Word) : Bool :=
  kindOf w != 1 || (!s.gated q && ((s.rillsOf q).isEmpty || (s.queue q).evaluated))

/-- Active buckets of a hub's collective engine (R314). -/
def State.bucketsOn (s : State) (hub : Nat) : Nat := (s.buckets.filter fun b => hubOfQueue b.q == hub).length

/-- Whether a queue is eligible (R215, R216, R226, R314): its next command can start under R213, and no choice of it stands. -/
def State.eligible (s : State) (q : Nat) : Bool :=
  match (s.queue q).fetched with
  | [] => false
  | f :: _ =>
    s.qRuns q && !(s.queue q).chosen && (s.runningWait q).isNone && (!waitsEarlier f.words || s.qQuiet q) &&
      decide (s.qInflight q < s.rd QE_Q_CFG.MAX_INFLIGHT q) && decide (2 ≤ s.cqFree q) &&
      s.hubTakes (hubOfQueue q) (kindOf f.words) && s.rillsLet q f.words &&
      (kindOf f.words != 6 || decide (s.bucketsOn (hubOfQueue q) < 128))

/-- The eligible queues in ascending order. -/
def State.eligibles (s : State) : List Nat := (Tab.keys s.queues).filter s.eligible

/-! ### Starting -/

/-- The command at HEAD of a queue has started, which spends one turn of the queue (R214, R460). -/
def State.startHead (s : State) (q : Nat) (f : Fetched) (exts : List Extent) : State :=
  let s := (s.start q f none 0 exts).traceStart q f
  s.setQueue q { s.queue q with spent := (s.queue q).spent + 1 }

/-- A core that a launch may name: enabled, and neither fenced nor walled off (R208). -/
def State.usable (s : State) (c : Nat) : Bool :=
  s.coreEnabled c && !s.walled (dieOf c) && decide (s.rd TC_STATUS.STATE c < 3)

/-- The core that a LAUNCH names and may not, the lowest of them; core 0 when it names none (R208, R218). -/
def State.badCore (s : State) (w : List Word) : Option Nat :=
  match launchCores w with
  | [] => some 0
  | l => l.find? (fun c => !s.usable c)

/-- The factor cores that a bucket descriptor names, when it compresses (R316, R338). -/
def factorCores (desc : List Word) : List Nat :=
  if (desc.getD 0 0).toNat.testBit 39 then
    (List.range (bitsOf (desc.getD 11 0).toNat 15 12)).map fun k => bitsOf (desc.getD 13 0).toNat (8 * k + 7) (8 * k)
  else []

/-- A collective engine holds a core for its factors (R338). -/
def State.factorHeld (s : State) (c : Nat) : Bool := s.buckets.any fun b => (factorCores b.desc).contains c

/-- Whether a core is free for a launch: IDLE, held by no collective engine (R338), and named by no launch that has
started and not begun (R208). -/
def State.coreFree (s : State) (c : Nat) : Bool :=
  s.rd TC_STATUS.STATE c == 1 && !s.factorHeld c &&
    !s.inflight.any (fun f => f.kind == 1 && f.status.isNone && !f.begun && (launchCores f.words).contains c)

/-- Whether every core of a launch is free. -/
def State.coresFree (s : State) (w : List Word) : Bool := (launchCores w).all s.coreFree

/-! ### SLUICE_CHOICE (R460, R462) -/

/-- A queue that no longer is eligible takes its refused launch out of the Sluice's choice (R462). -/
def State.leaveChoice (s : State) : State :=
  (s.each (Tab.keys s.queues) fun s q =>
    let x := s.queue q
    if x.refusedAt.isSome && !s.eligible q && !x.chosen then
      s.setQueue q { x with refusedAt := none, refusedWhy := none, blocking := false, heldWhy := none }
    else s).closeEvents

/-- Whether a queue holds a turn. -/
def State.holdsTurn (s : State) (q : Nat) : Bool := decide ((s.queue q).spent < s.rd QE_Q_SCHED.WEIGHT q)

/-- A round of a class ends when none of its eligible queues holds a turn (R460). -/
def State.newRound (s : State) (cls : Nat) : State :=
  if s.eligibles.any (fun q => s.qClass q == cls && s.holdsTurn q) then s
  else s.each ((Tab.keys s.queues).filter (fun q => s.qClass q == cls)) fun s q =>
    s.setQueue q { s.queue q with spent := 0 }

/-- Numbers from a pointer upwards, then those below it (R247). -/
def rotated (ptr : Nat) (l : List Nat) : List Nat :=
  l.filter (fun n => decide (ptr ≤ n)) ++ l.filter (fun n => decide (n < ptr))

/-- The eligible queues of a class in the order in which the Sluice tries them: those that hold turns first (R460). -/
def State.trials (s : State) (cls : Nat) : List Nat :=
  let l := rotated (Tab.get (fun _ => 0) s.sluPtr cls) (s.eligibles.filter (fun q => s.qClass q == cls))
  l.filter s.holdsTurn ++ l.filter (fun q => !s.holdsTurn q)

/-- The Sluice serves a queue: its class's pointer passes the queue when others competed (R12, R247). -/
def State.passPtr (s : State) (q : Nat) : State :=
  let cls := s.qClass q
  if 1 < (s.trials cls).length then { s with sluPtr := Tab.put (fun _ => 0) s.sluPtr cls (q + 1) } else s

/-- The Sluice chooses a queue: its check 5 is due (R226). -/
def State.choose (s : State) (q : Nat) : State :=
  let s := s.passPtr q
  (s.setQueue q { s.queue q with chosen := true, refusedWhy := none, heldWhy := none }).closeEvents

/-- One queue is tried (R460–R463): whether it was served. A command that failed a check completes; a launch waits for
its cores, for the blocking launch and for admission. -/
def State.tryQueue (s : State) (q : Nat) : Bool × State :=
  match (s.queue q).fetched with
  | [] => (false, s)
  | f :: _ =>
    if f.status ≠ 0 then (true, (s.passPtr q).failHead q f.status f.detail)
    else if kindOf f.words = 1 ∧ s.badCore f.words = none then
      if !s.coresFree f.words then (false, s)
      else
        let l := s.launchReq q f.words
        match s.blocker q l with
        | some b => (false, s.holdLaunch q b)
        | none =>
          match s.admitWhy l with
          | some w => (false, (s.refuseLaunch q l w).closeEvents)
          | none => (true, s.choose q)
    else (true, s.choose q)

/-- Queues are tried in order until one is served. -/
def State.tryQueues (s : State) : List Nat → State
  | [] => s
  | q :: l =>
    match s.tryQueue q with
    | (true, s) => s
    | (false, s) => s.tryQueues l

/-- SLUICE_CHOICE (R460): the Sluice chooses among the eligible queues, class by class. -/
def execSluiceChoice (t : Nat) (s : State) : Res :=
  s.live t fun s =>
    if s.save.phase ≠ 0 then s
    else
      let s := s.each [0, 1, 2, 3] State.newRound
      let s := s.leaveChoice
      s.tryQueues ([0, 1, 2, 3].flatMap s.trials)

/-! ### LAUNCH (R207, R232) -/

/-- A walk for the command at HEAD failed: it waits while a migration moves the page (R306), and otherwise parks its
queue; one that is parked already keeps its REASON (R199, log entry 119). -/
def State.walkFails (s : State) (q kind level va : Nat) : State :=
  let tag := s.headTag q
  if kind = 0 ∧ s.walkHeld tag va then s
  else s.parkXlate q tag va level kind

/-- One entry of an extent list: base, bytes, WRITE. -/
def extEntry (w : List Word) (k : Nat) : Nat × Nat × Bool :=
  let a := (w.getD (2 * k) 0).toNat
  let b := (w.getD (2 * k + 1) 0).toNat
  (a % 2 ^ 48, b % 2 ^ 40, b.testBit 63)

/-- Whether an entry of an extent list carries a reserved bit. -/
def extReserved (w : List Word) (k : Nat) : Bool :=
  (w.getD (2 * k) 0).toNat / 2 ^ 48 != 0 || bitsOf (w.getD (2 * k + 1) 0).toNat 62 40 != 0

/-- The status and DETAIL that an extent list of n entries gives its LAUNCH before its entries are walked (R207, R218,
R232). -/
def extCheck (w l : List Word) (n : Nat) : Nat × Nat :=
  let es := (List.range n).map (extEntry l)
  let inOne := fun (a len : Nat) => es.any fun e => decide (e.1 ≤ a) && decide (a + len ≤ e.1 + e.2.1)
  let w1 := (w.getD 1 0).toNat
  let w2 := (w.getD 2 0).toNat
  if (List.range n).any (extReserved l) then (2, 0x18)
  else if !inOne (w1 % 2 ^ 48) (8 * bitsOf w1 62 48) then (4, 0x08)
  else if w2 % 2 ^ 48 ≠ 0 ∧ !inOne (w2 % 2 ^ 48) 128 then (4, 0x10)
  else if es.any (fun e => e.2.1 == 0) then (4, 0x18)
  else (0, 0)

/-- What the preparation of a launch answers: its extents; a status and DETAIL; or a failed walk. -/
inductive Prep
  | ok (exts : List Extent) | fails (status detail : Nat) | walk (kind level va : Nat)
  deriving DecidableEq, Repr

/-- The entries of an extent list, each walked as its WRITE asks and held in one extent (R232). -/
def State.walkEntries (s : State) (q : Nat) : List (Nat × Nat × Bool) → List Extent → Prep × State
  | [], exts => (.ok exts, s)
  | e :: r, exts =>
    match s.translate (hubOfQueue q) (s.rd QE_Q_CFG.CONTEXT q) e.1 e.2.1 e.2.2 with
    | (.fault k l va, s) => (.walk k l va, s)
    | (.denied va, s) => (.fails 5 va, s)
    | (.ok [x], s) => s.walkEntries q r (exts ++ [x])
    | (.ok _, s) => (.fails 4 0x18, s)

/-- The words of an extent list through the extents of its own walk; the lines of it that are poison (R207). -/
def State.readList (s : State) (exts : List Extent) (va n : Nat) : List Word × Nat × State :=
  (List.range n).foldl
    (fun (a : List Word × Nat × State) k =>
      let (w, p, s) := a.2.2.engWords ((physIn exts (va + 16 * k) 16 false).getD 0) 2
      (a.1 ++ w, a.2.1 + bit (p && (va + 16 * k) % 64 == 0), s))
    ([], 0, s)

/-- The checks 4 and 5 of a LAUNCH (R207, R214, R232). -/
def State.prepLaunch (s : State) (q : Nat) (w : List Word) : Prep × State :=
  let tag := s.rd QE_Q_CFG.CONTEXT q
  let va := (w.getD 3 0).toNat % 2 ^ 48
  let n := bitsOf (w.getD 3 0).toNat 52 48
  match s.translate (hubOfQueue q) tag va (16 * n) false with
  | (.fault k l v, s) => (.walk k l v, s)
  | (.denied v, s) => (.fails 5 v, s)
  | (.ok own, s) =>
    match own.find? (fun e => !s.plainOk (.context tag) false e.pa e.len) with
    | some e => (.fails 5 e.va, s)
    | none =>
      let (l, bad, s) := s.readList own va n
      if 0 < bad then (.fails 11 bad, s)
      else
        match extCheck w l n with
        | (0, _) => s.walkEntries q ((List.range n).map (extEntry l)) []
        | (st, d) => (.fails st d, s)

/-- The chosen LAUNCH at HEAD of a queue starts: its cores and its extent list are checked, and what the Sluice found
when it chose must still hold; it claims, and waits for its dispatch (R207, R226, R459). -/
def State.launchStart (s : State) (q : Nat) (f : Fetched) : State :=
  match s.badCore f.words with
  | some c => s.failHead q 3 c
  | none =>
    match s.prepLaunch q f.words with
    | (.walk k l va, s) => s.walkFails q k l va
    | (.fails st d, s) => s.failHead q st d
    | (.ok exts, s) =>
      let l := s.launchReq q f.words
      let again := fun (s : State) => s.setQueue q { s.queue q with chosen := false }
      if !s.coresFree f.words then again s
      else
        match s.admitWhy l with
        | some w => again (s.refuseLaunch q l w)
        | none =>
          let s := s.stepRamp l
          let (cs, need, s) := s.admitLaunch l
          let s := s.startHead q f exts
          let s := match s.flight q f.i with
            | some x => s.setFlight { x with claims := cs, need := need }
            | none => s
          (s.passHead q).closeEvents

/-- A command at HEAD that the Sluice has chosen, of a queue that is not parked, with its index. -/
def State.chosenHead (s : State) (q i : Nat) : Option Fetched :=
  if (s.queue q).chosen && s.qRuns q then (s.queue q).fetched.head?.filter (fun f => f.i == i) else none

/-- LAUNCH (R207): the LAUNCH at HEAD is checked, its extent list read and translated, and it waits for its dispatch. -/
def execLaunch (t q i : Nat) (found : Found) (s : State) : Res :=
  s.live t fun s =>
    match s.chosenHead q i with
    | none => s
    | some f =>
      if kindOf f.words = 1 ∧ f.status = 0 then
        s.reads found 0 (0x4000 + q) fun s => s.headWalk q fun s => s.launchStart q f
      else s

/-! ### Dispatch (R126, R208) -/

/-- What a launch gives the core of a rank. -/
def State.launchRef (s : State) (x : InFlight) (rank : Nat) : LaunchRef :=
  let at_ := fun (n : Nat) => (x.words.getD n 0).toNat
  { q := x.q, i := x.i, ctx := x.ctx, rank := rank, ncores := (launchCores x.words).length,
    progAddr := bitsOf (at_ 1) 47 0, progLen := bitsOf (at_ 1) 62 48, paramAddr := bitsOf (at_ 2) 47 0,
    stream := bitsOf (at_ 4) 23 0, seed := s.reg (QE_CTX_SEED.SEED.off x.ctx), flush := bitOf (at_ 4) 24,
    trap := bitsOf (at_ 4) 28 25, limit := bitsOf (at_ 4) 33 29, reuse := bitOf (at_ 4) 34, exts := x.exts }

/-- The accumulator banks at the start of a launch (R92): of another context's values nothing; of the same context's each
bank holds what was left or zero, which a free value decides (log entry 12). -/
def State.banksAtStart (s : State) (k : Core) (ctx : Nat) : Core × State :=
  if k.bankCtx ≠ ctx then ({ k.clearBanks with bankCtx := ctx }, s)
  else
    let (v, s) := s.free
    let keep := fun (b : Nat) => v.toNat.testBit b
    ({ k with banks := k.banks.filter (fun e => keep (e.1 / 16384)),
              bankInt := k.bankInt.filter (fun e => keep e.1), issueInt := k.bankInt.filter (fun e => keep e.1) }, s)

/-- Whether the resident program is that of a launch (R129). -/
def State.resident (s : State) (c : Nat) (l : LaunchRef) : Bool :=
  s.flag TC_PROG_INFO.VALID c && s.rd TC_PROG_ADDR.VA c == l.progAddr / 8 && s.rd TC_PROG_INFO.LEN c == l.progLen &&
    s.rd TC_PROG_INFO.CONTEXT c == l.ctx

/-- The ranges that a launch loads on a core: its program, unless it is resident and may be reused, and its parameter block
(R129). -/
def State.loadRanges (s : State) (c : Nat) (l : LaunchRef) : List (Nat × Nat) :=
  (if l.reuse && s.resident c l then [] else [(l.progAddr, 8 * l.progLen)]) ++
    (if l.paramAddr = 0 then [] else [(l.paramAddr, 128)])

/-- The bursts of a core's loads that lie in peer windows (R129, R178). -/
def State.loadBursts (s : State) (c : Nat) (l : LaunchRef) : List Burst :=
  ((s.loadRanges c l).flatMap fun r => runBursts r.1 r.2 0).filter fun b => s.isPeer (b.pa l.exts false)

/-- A line of a core's loads has failed: the first one is kept (R129). -/
def State.loadFails (s : State) (c va : Nat) : State :=
  let k := s.core c
  s.setCore c { k with loadBad := some (k.loadBad.getD va) }

/-- A burst of a core's loads in a peer window is asked for, in the class of its launch's queue (R129, R193); one that the
dike table refuses, or that is LOST at once, fails. -/
def State.askBurst (s : State) (c : Nat) (l : LaunchRef) (b : Burst) : State :=
  let k := s.core c
  let s := s.setCore c { k with loadAsked := k.loadAsked + 1 }
  let pa := b.pa l.exts false
  if !s.burstOk l.ctx false pa b.len then s.loadFails c b.va
  else
    let r := s.peerRead (s.qClass l.q) (.load c) pa b.len
    if 0 < r.2 then r.1.loadFails c b.va else r.1

/-- The lines that a core's loads await from peers. -/
def State.loadOwed (s : State) (c : Nat) : Nat :=
  ((s.peerReqs.filter (fun r => r.who == .load c)).map (·.lines)).sum

/-- A core's loads go on, burst by burst, within the limit of outstanding lines (R129, R180): fuel bounds the bursts. -/
def State.askLoads (s : State) (c : Nat) : Nat → State
  | 0 => s
  | n + 1 =>
    let k := s.core c
    match k.launch with
    | none => s
    | some l =>
      match (s.loadBursts c l)[k.loadAsked]? with
      | none => s
      | some b =>
        if s.loadOwed c + b.lines.length ≤ 1024 then (s.askBurst c l b).askLoads c n else s

/-- A core's loads begin; answers to those of an earlier launch go to nobody (R129). -/
def State.startLoad (s : State) (c : Nat) : State := (s.recallReqs fun w => w == .load c).askLoads c 64

/-- A core begins a launch: the values of R126, a zero-marked scratchpad, cleared fault registers. -/
def State.beginCore (s : State) (x : InFlight) (e : Nat × Nat) : State :=
  let c := e.1
  let l := s.launchRef x e.2
  let (k, s) := s.banksAtStart (s.core c) l.ctx
  let k' : Core := { coreInit c with
    launch := some l, layer := hdrLayer x.words, opid := hdrOpid x.words, banks := k.banks, bankInt := k.bankInt,
    issueInt := k.issueInt, bankCtx := l.ctx, nextCopy := k.nextCopy, prog := k.prog, hintWin := k.hintWin,
    portAt := s.now, recircMax := k.recircMax, recircAll := k.recircAll, recircAt := k.recircAt, streamAt := k.streamAt }
  let k' := (((k'.setA 1 (BitVec.ofNat 64 l.rank)).setA 2 (BitVec.ofNat 64 l.ncores)).setA 3 (BitVec.ofNat 64 c)).setA 4
    (BitVec.ofNat 64 l.ctx)
  let s := ((s.setCore c k').wr TC_STATUS.STATE c 2).wr TC_STATUS.CONTEXT c l.ctx
  let s := ((s.setReg (TC_EXC.CODE.off c) 0).setReg (TC_EXC_UADDR.VA.off c) 0).setReg (TC_FLAGS.FLAGS.off c) 0
  let s := ((s.setReg (TC_PC.PC.off c) 0).setReg (TC_COPY_FAULT.CAUSE.off c) 0).wr TC_COPY_STATUS.INFLIGHT c 0
  (s.offerCore 1 c (packBits [(0, l.rank), (16, l.q), (32, l.i)])).startLoad c

/-- A launch that will not begin, or has ended, gives its claims back (R459). -/
def State.endClaims (s : State) (x : InFlight) : State := s.moveClaims x.claims true

/-- LAUNCH_DISPATCH (R208, R338): every named core is idle, none is held by a collective engine, and all begin together; a core fenced or walled off meanwhile makes
the launch BAD_TARGET. -/
def execLaunchDispatch (t q i : Nat) (s : State) : Res :=
  s.live t fun s =>
    match s.flight q i with
    | none => s
    | some x =>
      if x.kind ≠ 1 ∨ x.begun ∨ x.status.isSome ∨ s.save.phase ≠ 0 then s
      else
        let cores := launchCores x.words
        match cores.find? (fun c => !s.usable c) with
        | some c => (s.endClaims x).finish q i 3 c
        | none =>
          if cores.all (fun c => s.rd TC_STATUS.STATE c == 1 && !s.factorHeld c) then
            (s.setFlight { x with begun := true }).each cores.zipIdx fun s e => s.beginCore x e
          else s

/-! ### Loading (R129) -/

/-- Words of a launch's program or parameters through its extents, and the virtual address of the first line refused or
poison, if any; the lines of peer windows have come; register space is refused (log entry 34). -/
def State.loadWords (s : State) (c : Nat) (l : LaunchRef) (va n : Nat) : List Word × Option Nat × State :=
  (linesOf va (8 * n)).foldl
    (fun (a : List Word × Option Nat × State) line =>
      let lo := max va (64 * line)
      let k := (min (va + 8 * n) (64 * line + 64) - lo) / 8
      match physIn l.exts lo (8 * k) false with
      | none => (a.1, some (a.2.1.getD lo), a.2.2)
      | some pa =>
        if a.2.2.isPeer pa then
          let d := (((s.core c).loadBuf.find? fun e => e.1 == pa / 64).map Prod.snd).getD 0
          (a.1 ++ (List.range k).map (fun j => BitVec.ofNat 64 (d.toNat >>> (8 * (pa % 64) + 64 * j))), a.2)
        else if a.2.2.plainOk (.context l.ctx) false pa (8 * k) then
          let (w, p, s) := a.2.2.engWords pa k
          (a.1 ++ w, if p then some (a.2.1.getD lo) else a.2.1, s)
        else (a.1, some (a.2.1.getD lo), a.2.2))
    ([], none, s)

/-- A core's instruction store holds a program (R129). -/
def State.storeProgram (s : State) (c : Nat) (l : LaunchRef) (w : List Word) : State :=
  let s := s.setCore c { s.core c with
    prog := w.zipIdx.foldl (fun t e => Tab.put (fun _ => (0 : Word)) t e.2 e.1) [] }
  (s.setReg (TC_PROG_ADDR.VA.off c) (BitVec.ofNat 64 (l.progAddr / 8))).setReg (TC_PROG_INFO.LEN.off c)
    (packWord [(0, l.progLen), (16, l.ctx), (28, 1)])

/-- The parameter words reach A16–A31 (R126). -/
def Core.setParams (k : Core) (w : List Word) : Core := w.zipIdx.foldl (fun k e => k.setA (16 + e.2) e.1) k

/-- The program and the parameter block of a core's launch have been read: the core may issue, or the launch ends on it
with COPY_FAULT at PC 0 (R129). Then the program that was resident stays so, as TC_PROG_ADDR and TC_PROG_INFO show (log entry
134). -/
def State.loadCore (s : State) (c : Nat) (l : LaunchRef) : State :=
  let skip := l.reuse && s.resident c l
  let (prog, bad, s) := if skip then ([], none, s) else s.loadWords c l l.progAddr l.progLen
  let (par, bad', s) := if l.paramAddr = 0 then ([], none, s) else s.loadWords c l l.paramAddr 16
  match (s.core c).loadBad.or bad, bad' with
  | none, none =>
    let s := if skip then s else s.storeProgram c l prog
    s.setCore c { (s.core c).setParams par with loaded := true, loadBuf := [] }
  | some va, _ => s.raise c 11 0 0 va
  | none, some va => s.raise c 11 0 0 va

/-- PROGRAM_LOAD_DONE (R129): every line in a peer window has been answered. -/
def execProgramLoadDone (t core : Nat) (found : Found) (s : State) : Res :=
  s.live t fun s =>
    let k := s.core core
    match k.launch with
    | none => s
    | some l =>
      if k.loaded || k.ended || s.rd TC_STATUS.STATE core != 2 || s.loadOwed core != 0 ||
          k.loadAsked < (s.loadBursts core l).length then s
      else s.reads found 0 (0x1000 + core) fun s => s.loadCore core l

/-! ### Completion (R130) -/

/-- Of two ends with exceptions, the first: by tick, then by rank, whose order is that of core numbers (R130, R208); a
SIBLING is none while another stands. -/
def firstEnd (a b : EndRec) : EndRec :=
  if a.code = 15 ∧ b.code ≠ 15 then b
  else if b.code = 15 ∧ a.code ≠ 15 then a
  else if b.tick < a.tick ∨ (b.tick = a.tick ∧ b.core < a.core) then b else a

/-- The exception that a launch's completion carries. -/
def launchExc (ends : List EndRec) : Option EndRec :=
  match ends.filter (fun e => e.code != 0) with
  | [] => none
  | a :: r => some (r.foldl firstEnd a)

/-- The rank of a core in a launch. -/
def rankOf (w : List Word) (c : Nat) : Nat := ((launchCores w).findIdx (fun x => x == c))

/-- A launch all of whose cores have ended completes: with OK, ABORTED, or EXCEPTION with the rank and PC of the recorded
exception; its EXC is the code and its FLAGS are the OR of its cores' (R130, R217, R218, R486). -/
def State.finishLaunch (s : State) (x : InFlight) : State :=
  let flags := x.ends.foldl (fun a e => a ||| e.flags) 0
  let s := s.endClaims x
  match launchExc x.ends with
  | none => s.finish x.q x.i 0 0 0 flags
  | some e =>
    if e.code = 16 then s.finish x.q x.i 10 0 16 flags
    else s.finish x.q x.i 7 (packBits [(0, rankOf x.words e.core), (8, e.pc % 16384)]) e.code flags

/-- LAUNCH_COMPLETE (R130): every core that a launch names has ended. -/
def execLaunchComplete (t q i : Nat) (s : State) : Res :=
  s.live t fun s =>
    match s.flight q i with
    | none => s
    | some x =>
      if x.kind = 1 ∧ x.begun ∧ x.status.isNone ∧
          (launchCores x.words).all (fun c => x.ends.any (fun e => e.core == c)) then s.finishLaunch x
      else s

end Sys2Proof.Machine
end

