-- ==== Sys2Proof/Machine/Cascade.lean ====
section
/-! DEFINITION. The collective engines: epochs, the shape of the cascade, its folds, update and gather, low-rank
compression, and the messages between engines (R314–R342). -/

namespace Sys2Proof.Machine

/-! ### FP32 operations of the update (R333) -/

/-- The quotient of two values to more bits than FP32 keeps, the last one sticky. -/
def Val.div : Val → Val → Val
  | .nan, _ => .nan
  | _, .nan => .nan
  | .inf _, .inf _ => .nan
  | .inf a, .fin b _ _ => .inf (a != b)
  | .fin a _ e, .inf b => .fin (a != b) 0 e
  | .fin a m e, .fin b n f =>
    if n = 0 then (if m = 0 then .nan else .inf (a != b))
    else if m = 0 then .fin (a != b) 0 e
    else
      let k := 64 + n.log2 - min m.log2 n.log2
      let x := m <<< k
      .fin (a != b) (2 * (x / n) + (if x % n = 0 then 0 else 1)) (e - f - k - 1)

/-- The square root of a value to more bits than FP32 keeps, the last one sticky; a NaN of a negative number. -/
def Val.sqrt : Val → Val
  | .nan => .nan
  | .inf a => if a then .nan else .inf false
  | .fin a m e =>
    if m = 0 then .fin a 0 e
    else if a then .nan
    else
      let m' := if e % 2 = 0 then m else 2 * m
      let e' := if e % 2 = 0 then e else e - 1
      let x := m' <<< 128
      let r := Nat.sqrt x
      .fin false (2 * r + (if r * r = x then 0 else 1)) (e' / 2 - 64 - 1)

/-- An FP32 word as a value. -/
def f32Of (x : Word32) : Val := Fmt.fp32.decode x.toNat

/-- A value rounded once to an FP32 word (R333). -/
def f32 (v : Val) : Word32 := BitVec.ofNat 32 (Fmt.fp32.rne v)

/-- a × b + c, rounded once. -/
def fmaOf (a b c : Val) : Word32 := f32 (Val.add (Val.mul a b) c)

/-- The FP32 value of 1 − B^STEP: the power and the difference each rounded once in binary64, the result once to FP32 (R333, log
entry 37). -/
def decayBias (b : Word32) (step : Nat) : Word32 :=
  f32 (Val.add (.fin false 1 0) ((f32Of b).pow step).round64.neg).round64

/-- An FP32 number rounded to BF16, as a value. -/
def toBf16 (x : Word32) : Val := Fmt.bf16.decode (Fmt.bf16.rne (f32Of x))

/-! ### Epochs (R317–R319) -/

/-- The members by node: nodes in the order of their first members, each with its positions in ascending DEVICE order;
one node a member in a flat epoch (R319). -/
def groupsOf (ms : List Member) : Bool × List (List Nat) :=
  let pos := ms.zipIdx
  let nodes := (ms.map (·.node)).eraseDups.map fun n => (pos.filter (fun e => e.1.node == n)).map Prod.snd
  let size := (nodes.headD []).length
  if nodes.any (fun g => g.length != size || decide (8 < g.length)) then (true, pos.map fun e => [e.2])
  else (false, nodes)

/-- Members of an epoch slot. -/
def State.membersOf (s : State) (n : Nat) : List Member := Tab.get (fun _ => []) s.members n

/-- The entries of an epoch slot's member array; none when it is refused, and none of a poisoned one. -/
def State.readMembers (s : State) (n : Nat) : Option (List Member × Bool) × State :=
  let a := s.rd CE_EPOCH_LIST.BASE n * 4096
  let k := s.rd CE_EPOCH_CFG.MEMBERS n
  if s.plainOk (s.subject (Tab.get (fun _ => 0) s.ringAgent (64 + n))) false a (8 * k) then
    let (w, p, s) := s.engWords a k
    (some (w.map fun x => ⟨x.toNat % 2 ^ 32, bitsOf x.toNat 47 32, bitsOf x.toNat 55 48⟩, p), s)
  else (none, s)

/-- Whether DEVICE values ascend strictly. -/
def ascending : List Member → Bool
  | a :: b :: r => decide (a.device < b.device) && ascending (b :: r)
  | _ => true

/-- An epoch slot's check ends REFUSED with a cause. -/
def State.epochRefused (s : State) (n cause : Nat) : State :=
  s.setReg (CE_EPOCH_STATUS.STATE.off n) (packWord [(0, 3), (25, cause)])

/-- The check of an epoch slot (R318): its member array is read, and the slot is READY or REFUSED. -/
def State.checkEpoch (s : State) (n : Nat) : State :=
  match s.readMembers n with
  | (none, s) => s.epochRefused n 1
  | (some (ms, bad), s) =>
    if bad then s.epochRefused n 4
    else if !ascending ms then s.epochRefused n 2
    else
      match ms.findIdx? (fun m => m.device == s.deviceId) with
      | none => s.epochRefused n 3
      | some pos =>
        let (flat, gs) := groupsOf ms
        { s.setReg (CE_EPOCH_STATUS.STATE.off n)
            (packWord [(0, 2), (2, bit flat), (4, (gs.headD []).length), (8, gs.length), (32, pos)]) with
          members := Tab.put (fun _ => []) s.members n ms }

/-- An epoch slot is put into use, by an agent, or is left (R318). -/
def State.useEpoch (s : State) (agent n : Nat) : State :=
  let s := { s with members := Tab.put (fun _ => []) s.members n [] }
  if s.flag CE_EPOCH_CFG.VALID n then
    { s.setReg (CE_EPOCH_STATUS.STATE.off n) 1 with ringAgent := Tab.put (fun _ => 0) s.ringAgent (64 + n) agent }
  else s.setReg (CE_EPOCH_STATUS.STATE.off n) 0

/-- A store to CE_EPOCH_CFG_n: a VALID of 1 begins the check, a VALID of 0 leaves the slot; while buckets name it the
store is ignored (R318, R320). -/
def State.epochStore (s : State) (agent n : Nat) (v : Word) : State :=
  let held := s.buckets.any (fun b => b.slot == n)
  let s := s.storeReg agent (CE_EPOCH_CFG.EPOCH.off n) v
  if held then s else s.useEpoch agent n

/-! ### The descriptor (R316, R321, R322) -/

namespace Desc

/-- Bits of a word of the descriptor. -/
def bits (d : List Word) (w hi lo : Nat) : Nat := bitsOf (d.getD w 0).toNat hi lo

/-- ELEMENTS. -/
def elements (d : List Word) : Nat := bits d 0 31 0

/-- GFMT. -/
def gfmt (d : List Word) : Fmt := match bits d 0 33 32 with | 0 => .fp32 | 1 => .bf16 | _ => .fp16

/-- ACC is EA320. -/
def ea (d : List Word) : Bool := bits d 0 34 34 == 1

/-- UPDATE. -/
def update (d : List Word) : Nat := bits d 0 36 35

/-- GATHER. -/
def gather (d : List Word) : Bool := bits d 0 37 37 == 1

/-- PFMT is BF16. -/
def half (d : List Word) : Bool := bits d 0 38 38 == 1

/-- COMPRESS. -/
def compress (d : List Word) : Bool := bits d 0 39 39 == 1

/-- SOURCES. -/
def sources (d : List Word) : Nat := bits d 0 46 40

/-- An address field: the low 48 bits of a word. -/
def addr (d : List Word) (w : Nat) : Nat := bits d w 47 0

/-- SRC_STRIDE. -/
def stride (d : List Word) : Nat := bits d 2 39 0

/-- An FP32 field in the low or high half of a word. -/
def f32At (d : List Word) (w : Nat) (high : Bool) : Word32 :=
  BitVec.ofNat 32 (if high then bits d w 63 32 else bits d w 31 0)

/-- ROWS. -/
def rows (d : List Word) : Nat := bits d 12 31 0

/-- COLS. -/
def cols (d : List Word) : Nat := bits d 12 63 32

/-- RANK, clamped. -/
def rank (d : List Word) : Nat := min (max 1 (min 64 (bits d 11 6 0))) (min (rows d) (cols d))

/-- ITER, clamped. -/
def iter (d : List Word) : Nat := max 1 (min 4 (bits d 11 10 8))

/-- Bytes of a parameter. -/
def pBytes (d : List Word) : Nat := if half d then 2 else 4

/-- Arrays of STATE: the moments and, for a BF16 parameter, the master (R322). -/
def arrays (d : List Word) : Nat :=
  match update d with
  | 0 => 0
  | 1 => 1 + bit (half d)
  | _ => 2 + bit (half d)

end Desc

/-- Bits of the descriptor's words that are no field (R316). -/
def descReserved (w : Nat) : Nat :=
  match w with
  | 0 => maskBits 63 47
  | 2 => maskBits 63 40
  | 10 => maskBits 63 32
  | 11 => maskBits 7 7 ||| maskBits 11 11 ||| maskBits 63 16
  | 7 => 0 | 8 => 0 | 9 => 0 | 12 => 0 | 13 => 0
  | _ => maskBits 63 48

/-- Whether the mode of a descriptor uses one of its words (R316: the others are not checked). -/
def descUses (d : List Word) (w : Nat) : Bool :=
  match w with
  | 6 => Desc.arrays d != 0
  | 10 => Desc.update d == 2
  | 11 => Desc.compress d
  | 12 => Desc.compress d
  | 13 => Desc.compress d
  | 14 => Desc.compress d
  | 15 => Desc.compress d
  | _ => true

/-- Offsets of fields of a descriptor with an undefined code or a reserved bit. -/
def descCodes (d : List Word) : List Nat :=
  ((List.range 16).filter fun w => descUses d w && ((d.getD w 0).toNat &&& descReserved w) != 0).map (8 * ·) ++
    (if Desc.bits d 0 33 32 = 3 ∨ Desc.update d = 3 then [0] else [])

/-- Offsets of counts and addresses of a descriptor outside their ranges or misaligned. -/
def descRanges (d : List Word) : List Nat :=
  let e := Desc.elements d
  (if e = 0 ∨ 268435456 < e ∨ Desc.sources d = 0 ∨ 64 < Desc.sources d then [0] else []) ++
  ([1, 4, 5, 6, 14, 15].filter fun w => descUses d w && Desc.addr d w % 64 != 0).map (8 * ·) ++
  (if Desc.stride d % 64 ≠ 0 then [16] else []) ++
  (if Desc.addr d 3 % (if Desc.ea d then 1024 else 64) ≠ 0 then [24] else []) ++
  (if Desc.update d = 2 ∧ Desc.bits d 10 31 0 = 0 then [0x50] else []) ++
  (if Desc.compress d ∧ (Desc.bits d 11 15 12 = 0 ∨ 8 < Desc.bits d 11 15 12) then [0x58] else []) ++
  (if Desc.compress d ∧ Desc.rows d * Desc.cols d ≠ e then [0x60] else [])

/-- The status and DETAIL that a descriptor gives its COLLECTIVE (R316). -/
def descCheck (d : List Word) : Nat × Nat :=
  match (descCodes d).min? with
  | some o => (2, 0x80 + o)
  | none =>
    match (descRanges d).min? with
    | some o => (4, 0x80 + o)
    | none => (0, 0)

/-- How the elements of a pass lie on the members (R321): elements, the number of the pass's first unit (log entry 38),
the members by node, and this member's node and local index. -/
structure Shape where
  /-- elements -/
  e : Nat
  /-- number of its first unit -/
  base : Nat
  /-- members by node -/
  gs : List (List Nat)
  /-- this member's position -/
  me : Nat
  /-- node of this member -/
  g : Nat
  /-- local index of this member -/
  k : Nat
  deriving DecidableEq, Repr

namespace Shape

/-- U. -/
def units (x : Shape) : Nat := (x.e + 15) / 16

/-- L. -/
def l (x : Shape) : Nat := (x.gs.headD []).length

/-- n1. -/
def n1 (x : Shape) : Nat := (x.units + x.l - 1) / x.l

/-- n2. -/
def n2 (x : Shape) : Nat := (x.n1 + x.gs.length - 1) / x.gs.length

/-- The units of node-shard k. -/
def shard (x : Shape) (k : Nat) : List Nat := (List.range x.units).filter fun u => u / x.n1 == k

/-- The units of sub-shard g of node-shard k. -/
def sub (x : Shape) (k g : Nat) : List Nat := (x.shard k).filter fun u => u % x.n1 / x.n2 == g

/-- The units that this member owns. -/
def own (x : Shape) : List Nat := x.sub x.k x.g

/-- The position of the member with a local index in a node. -/
def at_ (x : Shape) (g k : Nat) : Nat := (x.gs.getD g []).getD k 0

/-- The position of a unit's owner. -/
def owner (x : Shape) (u : Nat) : Nat := x.at_ (u % x.n1 / x.n2) (u / x.n1)

/-- Elements of a unit that take part. -/
def live (x : Shape) (u : Nat) : Nat := min 16 (x.e - 16 * u)

/-- The byte mask of a unit of FP32. -/
def mask (x : Shape) (u : Nat) : Word := maskOf 0 (4 * x.live u)

end Shape

/-- The passes of a compressed bucket before its update (R336). -/
def passesOf (d : List Word) : Nat := if Desc.compress d then 2 * Desc.iter d else 0

/-- Elements of a pass: those of the factor, or of the gradient after the last (R336). -/
def passElems (d : List Word) (p : Nat) : Nat :=
  if passesOf d ≤ p then Desc.elements d
  else if p % 2 = 0 then Desc.rows d * Desc.rank d
  else Desc.cols d * Desc.rank d

/-- The node and local index of a position. -/
def placeOf (gs : List (List Nat)) (me : Nat) : Nat × Nat :=
  ((gs.zipIdx.filter fun g => g.1.contains me).map fun g => (g.2, g.1.findIdx (· == me))).headD (0, 0)

/-- The shape of a bucket's pass. -/
def State.shape (s : State) (b : Bucket) : Shape :=
  let gs := (groupsOf (s.membersOf b.slot)).2
  let me := s.rd CE_EPOCH_STATUS.POSITION b.slot
  let pl := placeOf gs me
  ⟨passElems b.desc b.pass, ((List.range b.pass).map fun p => (passElems b.desc p + 15) / 16).sum, gs, me, pl.1, pl.2⟩

/-- Whether a bucket is past its factor passes. -/
def Bucket.last (b : Bucket) : Bool := decide (passesOf b.desc ≤ b.pass)

/-! ### Memory of a bucket -/

/-- The bucket of a queue and index is replaced. -/
def State.setBucket (s : State) (b : Bucket) : State :=
  { s with buckets := s.buckets.map fun (x : Bucket) => if x.q = b.q ∧ x.i = b.i then b else x }

/-- The physical address of a virtual one of a bucket's regions. -/
def Bucket.pa (b : Bucket) (va : Nat) : Nat := (physIn b.exts va 1 false).getD 0

/-- The sixteen words of a region's line, and whether it is poison. -/
def State.ceRead (s : State) (b : Bucket) (va : Nat) : Line × Bool × State := s.engLine (b.pa va / 64)

/-- Bytes of a region are written, from an offset of a line. -/
def State.ceWrite (s : State) (b : Bucket) (va : Nat) (mask : Word) (d : Line) : State :=
  let pa := b.pa va
  s.engStore (pa / 64) (BitVec.ofNat 64 (mask.toNat <<< (pa % 64))) (BitVec.ofNat 512 (d.toNat <<< (8 * (pa % 64))))

/-- Element j of a line of FP32. -/
def lane (d : Line) (j : Nat) : Word32 := BitVec.ofNat 32 (d.toNat >>> (32 * j))

/-- A line of FP32 elements. -/
def ofLanes (l : List Word32) : Line := BitVec.ofNat 512 (l.zipIdx.foldl (fun a e => a + e.1.toNat <<< (32 * e.2)) 0)

/-- The FADD32 line operation of a fold (R280, R325), on the first elements of a unit; it answers poison when it met
any. -/
def State.ceAdd (s : State) (b : Bucket) (va : Nat) (mask : Word) (d : Line) : State :=
  (s.mopLine 0x10 ⟨.line, b.pa va, false, d, mask, 0, 0, .none, none⟩ 4).2

/-- The elements of source j that a unit holds, as FP32, and whether any byte of them is poison (R325). -/
def State.sourceUnit (s : State) (b : Bucket) (x : Shape) (j u : Nat) : Line × Bool × State :=
  let f := Desc.gfmt b.desc
  let n := f.width / 8
  let va := Desc.addr b.desc 1 + j * Desc.stride b.desc + 16 * n * u
  let (d, p, s) := s.ceRead b va
  let raw := d.toNat >>> (8 * (b.pa va % 64))
  let es := (List.range (x.live u)).map fun e => f32 (f.decode ((raw >>> (f.width * e)) % 2 ^ f.width))
  (ofLanes es, p, s)

/-- PART's address of a unit. -/
def Bucket.part (b : Bucket) (u : Nat) : Nat := Desc.addr b.desc 3 + 64 * u

/-- A unit of PART takes a line, or becomes poison. -/
def State.putPart (s : State) (b : Bucket) (x : Shape) (u : Nat) (d : Line) (bad : Bool) : State :=
  if bad then s.engPoison (b.pa (b.part u) / 64) else s.ceWrite b (b.part u) (x.mask u) d

/-- Level 0 of a unit (R325): source 0 into PART, then the others added in ascending order. -/
def State.foldSources (s : State) (b : Bucket) (x : Shape) (u : Nat) : State :=
  let (d, p, s) := s.sourceUnit b x 0 u
  (List.range (Desc.sources b.desc - 1)).foldl
    (fun s j =>
      let (d, p, s) := s.sourceUnit b x (j + 1) u
      if p then s.engPoison (b.pa (b.part u) / 64) else s.ceAdd b (b.part u) (x.mask u) d)
    (s.putPart b x u d p)

/-! ### Messages (R331, R334, R339) -/

/-- The hub of a bucket's engine. -/
def Bucket.hub (b : Bucket) : Nat := hubOfQueue b.q

/-- A COLL message to the member at a position (R346): its window takes it in either MODE; without a usable route its
line is lost (R340). -/
def State.ceSend (s : State) (b : Bucket) (pos lvl code : Nat) (first : Word) (data : List Word) : State :=
  let m := (s.membersOf b.slot).getD pos ⟨0, 0, 0⟩
  let addr := packWord [(0, b.epoch), (32, b.bucket), (48, lvl)]
  let who := Requester.ce b.hub b.q b.i
  let sent :=
    if s.flag LK_WIN.VALID m.window && !s.flag LK_WIN.REFUSED m.window then
      s.sendReq m.window (peerBase + m.window * 2 ^ 40) 1 (s.qClass b.q) m.device who 5 code addr (first :: data)
    else none
  match sent with
  | some s => s.bumpWrap CE_BYTES_OUT.BYTES b.hub (8 * (1 + data.length))
  | none =>
    (s.bump LK_STATUS.LOST 0).setBucket
      (match s.buckets.find? (fun x => x.q == b.q && x.i == b.i) with
       | some x => { x with lost := x.lost + 1, badTo := x.badTo ++ [m.device] }
       | none => b)

/-- POSITION and UNIT of a message. -/
def unitWord (x : Shape) (u : Nat) : Word := packWord [(0, x.me), (16, x.base + u)]

/-- The bucket as it stands now. -/
def State.again (s : State) (b : Bucket) : Bucket := (s.buckets.find? (fun x => x.q == b.q && x.i == b.i)).getD b

/-- A unit received, or kept by the member itself, is noted. -/
def State.noteUnit (s : State) (b : Bucket) (lvl pos u : Nat) : State :=
  let b := s.again b
  s.setBucket { b with got := (lvl, pos, u) :: b.got }

/-- Whether the units of a list have come at a level from a position. -/
def Bucket.has (b : Bucket) (lvl pos base : Nat) (us : List Nat) : Bool :=
  us.all fun u => b.got.contains (lvl, pos, base + u)

/-! ### FP32 mode (R325–R327) -/

/-- A STAGE slot's address of a unit at level 1, from local index i. -/
def Bucket.stage1 (b : Bucket) (x : Shape) (i u : Nat) : Nat :=
  Desc.addr b.desc 4 + 64 * (i * x.n1 + u % x.n1)

/-- A STAGE slot's address of a unit at level 2, from node g. -/
def Bucket.stage2 (b : Bucket) (x : Shape) (g u : Nat) : Nat :=
  Desc.addr b.desc 4 + 64 * (x.l * x.n1 + g * x.n2 + u % x.n1 % x.n2)

/-- Level 1 of a unit (R326): its PART goes to the member of its node-shard, or into the member's own slot. A poisoned
line is not sent (log entry 38). -/
def State.sendLevel1 (s : State) (b : Bucket) (x : Shape) (u : Nat) : State :=
  let (d, p, s) := s.ceRead b (b.part u)
  if p then s
  else
    let j := u / x.n1
    if j = x.k then (s.ceWrite b (b.stage1 x x.k u) (x.mask u) d).noteUnit b 1 x.me (x.base + u)
    else s.ceSend b (x.at_ x.g j) 1 0 (unitWord x u) (lineWords d)

/-- Level 2 of a unit (R327). -/
def State.sendLevel2 (s : State) (b : Bucket) (x : Shape) (u : Nat) : State :=
  let (d, p, s) := s.ceRead b (b.part u)
  if p then s
  else
    let g := u % x.n1 / x.n2
    if g = x.g then (s.ceWrite b (b.stage2 x x.g u) (x.mask u) d).noteUnit b 2 x.me (x.base + u)
    else s.ceSend b (x.at_ g x.k) 2 0 (unitWord x u) (lineWords d)

/-- A unit's slots are folded into PART in ascending order (R326, R327). -/
def State.foldSlots (s : State) (b : Bucket) (x : Shape) (u n : Nat) (slot : Nat → Nat) : State :=
  let (d, p, s) := s.ceRead b (slot 0)
  (List.range (n - 1)).foldl
    (fun s j =>
      let (d, p, s) := s.ceRead b (slot (j + 1))
      if p then s.engPoison (b.pa (b.part u) / 64) else s.ceAdd b (b.part u) (x.mask u) d)
    (s.putPart b x u d p)

/-! ### EA320 mode (R330, R331) -/

/-- The address of a unit's first cell in ACC. -/
def Bucket.cells (b : Bucket) (x : Shape) (u : Nat) : Nat := Desc.addr b.desc 3 + 1024 * (u % x.n1 % x.n2)

/-- Contributions to the cells of one unit, element by element: whether any cell was poisoned (R123, R282). -/
def State.addCells (s : State) (b : Bucket) (x : Shape) (f : Fmt) (u : Nat) (codes : List Nat) : Bool × State :=
  codes.zipIdx.foldl
    (fun (a : Bool × State) e =>
      let (p, s) := a.2.eaCell f (b.pa (b.cells x u + 64 * e.2) / 64) e.1
      (a.1 || p, s))
    (false, s.countMop (b.pa (b.cells x u) / 64))

/-- The EA code of a format (R279). -/
def eaCode (f : Fmt) : Nat := match f with | .fp32 => 0x18 | .bf16 => 0x19 | _ => 0x1A

/-- Codes packed into words. -/
def packCodes (w : Nat) (codes : List Nat) : List Word :=
  let n := codes.zipIdx.foldl (fun a e => a + e.1 <<< (w * e.2)) 0
  (List.range ((codes.length * w + 63) / 64)).map fun k => BitVec.ofNat 64 (n >>> (64 * k))

/-- The contributions of a unit reach its owner's cells: over a window, or at once through the member's own adders (R330).
-/
def State.contribute (s : State) (b : Bucket) (x : Shape) (f : Fmt) (u : Nat) (codes : List Nat) : State :=
  let o := x.owner u
  if o = x.me then
    let (bad, s) := s.addCells b x f u codes
    if bad then let b := s.again b; s.setBucket { b with badTo := b.badTo ++ [s.deviceId] } else s
  else
    s.ceSend b o (if (x.gs.getD x.g []).contains o then 1 else 2) (eaCode f) (unitWord x u) (packCodes f.width codes)

/-- The elements of source j of a unit as their codes, and whether any byte of them is poison. -/
def State.sourceCodes (s : State) (b : Bucket) (x : Shape) (j u : Nat) : List Nat × Bool × State :=
  let f := Desc.gfmt b.desc
  let va := Desc.addr b.desc 1 + j * Desc.stride b.desc + 16 * (f.width / 8) * u
  let (d, p, s) := s.ceRead b va
  let raw := d.toNat >>> (8 * (b.pa va % 64))
  ((List.range (x.live u)).map fun e => (raw >>> (f.width * e)) % 2 ^ f.width, p, s)

/-- Zeros are written to every cell of ACC, but for positions past the last element (R321, R330). -/
def State.zeroCells (s : State) (b : Bucket) (x : Shape) : State :=
  s.each (List.range x.n2) fun s v =>
    s.each (List.range (x.live (x.k * x.n1 + x.g * x.n2 + v))) fun s c =>
      s.ceWrite b (Desc.addr b.desc 3 + 1024 * v + 64 * c) fullMask 0

/-- Whether a position has a unit to own. -/
def Shape.owns (x : Shape) (pos : Nat) : Bool :=
  let pl := placeOf x.gs pos
  !(x.sub pl.2 pl.1).isEmpty

/-- Whether contributions of a bucket to a device are still to be acknowledged (R331). -/
def State.oweTo (s : State) (b : Bucket) (device : Nat) : Bool :=
  s.peerReqs.any (fun r => r.who == Requester.ce b.hub b.q b.i && r.msg.dst == device) ||
    s.resends.any (fun r => r.msg.dst == device && r.msg.addr.toNat % 2 ^ 48 == b.epoch + b.bucket * 2 ^ 32)

/-- DONE goes to every owner whose contributions have all been acknowledged; this member records its own (R331). -/
def State.sendDones (s : State) (b : Bucket) (x : Shape) : State :=
  s.each x.gs.flatten fun s pos =>
    let b := s.again b
    let dev := ((s.membersOf b.slot).getD pos ⟨0, 0, 0⟩).device
    if !x.owns pos || b.told.contains pos || b.badTo.contains dev || s.oweTo b dev then s
    else
      let s := s.setBucket { b with told := pos :: b.told, dones := if pos = x.me then pos :: b.dones else b.dones }
      if pos = x.me then s else s.ceSend b pos 3 0 (packWord [(0, x.me), (16, Desc.sources b.desc)]) []

/-- Whether a pass sends contributions to cells: EA320 mode, but for the update after compression (R330, R336). -/
def Bucket.contributes (b : Bucket) : Bool := Desc.ea b.desc && !(b.last && Desc.compress b.desc)

/-- Whether every owner of a pass has been told DONE, those apart that will not be (R331). -/
def State.toldAll (s : State) (b : Bucket) (x : Shape) : Bool :=
  !b.contributes || x.gs.flatten.all fun pos =>
    !x.owns pos || b.told.contains pos || b.badTo.contains ((s.membersOf b.slot).getD pos ⟨0, 0, 0⟩).device

/-- The cells of a unit are settled into STAGE (R125, R282, R330). -/
def State.settleUnit (s : State) (b : Bucket) (x : Shape) (u : Nat) : State :=
  let r := (List.range (x.live u)).foldl
    (fun (a : List Word32 × Bool × State) c =>
      let (v, p, s) := a.2.2.settleCell .fp32 (b.pa (b.cells x u + 64 * c) / 64)
      (a.1 ++ [BitVec.ofNat 32 v], a.2.1 || p, s))
    ([], false, s.countMop (b.pa (b.cells x u) / 64))
  let va := Desc.addr b.desc 4 + 64 * (u % x.n1 % x.n2)
  let s := r.2.2.ceWrite b va (x.mask u) (ofLanes r.1)
  if r.2.1 then s.setPoison (b.pa va / 64) true else s

/-! ### Update and gather (R333, R334) -/

/-- The steps of R333 for one element: the reduced sum, and p, m and v before and after. -/
def updateElem (d : List Word) (sum p m v : Word32) : Word32 × Word32 × Word32 :=
  let x := f32Of
  let g := f32 (Val.mul (x sum) (x (Desc.f32At d 7 false)))
  let lr := (x (Desc.f32At d 7 true)).neg
  let b1 := Desc.f32At d 8 false
  let b2 := Desc.f32At d 8 true
  let wd := x (Desc.f32At d 9 true)
  let one : Val := .fin false 1 0
  match Desc.update d with
  | 0 => (g, m, v)
  | 1 =>
    let g1 := fmaOf wd (x p) (x g)
    let m := fmaOf (x b1) (x m) (x g1)
    (fmaOf lr (x m) (x p), m, v)
  | _ =>
    let a1 := f32 (Val.add one (x b1).neg)
    let a2 := f32 (Val.add one (x b2).neg)
    let step := Desc.bits d 10 31 0
    let t1 := f32 (Val.mul (x a1) (x g))
    let m := fmaOf (x b1) (x m) (x t1)
    let t2 := f32 (Val.mul (x a2) (x g))
    let t3 := f32 (Val.mul (x t2) (x g))
    let v := fmaOf (x b2) (x v) (x t3)
    let t4 := f32 (Val.div (x v) (x (decayBias b2 step)))
    let t5 := f32 (Val.sqrt (x t4))
    let dn := f32 (Val.add (x t5) (x (Desc.f32At d 9 false)))
    let t6 := f32 (Val.div (x m) (x (decayBias b1 step)))
    let t7 := f32 (Val.div (x t6) (x dn))
    let u := fmaOf wd (x p) (x t7)
    (fmaOf lr (x u) (x p), m, v)

/-- The address of a unit's line in array a of STATE. -/
def Bucket.stateVa (b : Bucket) (x : Shape) (a u : Nat) : Nat := Desc.addr b.desc 6 + 64 * (a * x.n2 + u % x.n1 % x.n2)

/-- PARAM's address of a unit. -/
def Bucket.paramVa (b : Bucket) (u : Nat) : Nat := Desc.addr b.desc 5 + 16 * Desc.pBytes b.desc * u

/-- A unit of parameters as PARAM holds it (R333). -/
def paramLine (d : List Word) (ps : List Word32) : Line :=
  if Desc.half d then
    BitVec.ofNat 512 (ps.zipIdx.foldl (fun a e => a + Fmt.bf16.rne (f32Of e.1) <<< (16 * e.2)) 0)
  else ofLanes ps

/-- What the update of a unit reads (R333). -/
structure UnitIn where
  /-- the reduced sum -/
  sum : Line
  /-- the parameters, or their FP32 master -/
  p : Line
  /-- the first array of STATE -/
  m : Line
  /-- the second array of STATE -/
  v : Line
  deriving DecidableEq, Repr

/-- STATE and the parameters of a unit with its reduced sum, as far as its UPDATE uses them; none of poison (R333, log entry
38). -/
def State.unitIn (s : State) (b : Bucket) (x : Shape) (u : Nat) (sum : Line) : Option UnitIn × State :=
  let d := b.desc
  let n := Desc.arrays d
  let (m, mBad, s) := if 0 < n then s.ceRead b (b.stateVa x 0 u) else (0, false, s)
  let (v, vBad, s) := if Desc.update d = 2 then s.ceRead b (b.stateVa x 1 u) else (0, false, s)
  let (p, pBad, s) :=
    if n = 0 then (0, false, s)
    else if Desc.half d then s.ceRead b (b.stateVa x (n - 1) u)
    else s.ceRead b (b.paramVa u)
  (if mBad || vBad || pBad then none else some ⟨sum, p, m, v⟩, s)

/-- The owner updates a unit from its reduced sum (R333): STATE and PARAM are written. -/
def State.updateUnit (s : State) (b : Bucket) (x : Shape) (u : Nat) (i : UnitIn) : State :=
  let d := b.desc
  let n := Desc.arrays d
  let master := Desc.half d && n != 0
  let es := (List.range (x.live u)).map fun j => updateElem d (lane i.sum j) (lane i.p j) (lane i.m j) (lane i.v j)
  let ps := es.map (·.1)
  let s := if 0 < n then s.ceWrite b (b.stateVa x 0 u) (x.mask u) (ofLanes (es.map (·.2.1))) else s
  let s := if Desc.update d = 2 then s.ceWrite b (b.stateVa x 1 u) (x.mask u) (ofLanes (es.map (·.2.2))) else s
  let s := if master then s.ceWrite b (b.stateVa x (n - 1) u) (x.mask u) (ofLanes ps) else s
  s.ceWrite b (b.paramVa u) (maskOf 0 (Desc.pBytes d * x.live u)) (paramLine d ps)

/-- The words of a unit that the gather carries: the factor's, or PARAM's bytes, which may still wait for their line; none of
poison. -/
def State.gatherWords (s : State) (b : Bucket) (x : Shape) (u : Nat) : Option (List Word) × State :=
  if b.last then
    let n := 2 * Desc.pBytes b.desc
    let words := fun (d : Line) (o : Nat) => (List.range n).map fun k => BitVec.ofNat 64 (d.toNat >>> (8 * o + 64 * k))
    match b.halves.find? (fun e => e.1 == u) with
    | some e => (some (words e.2 0), s)
    | none =>
      let va := b.paramVa u
      let (d, p, s) := s.ceRead b va
      (if p then none else some (words d (b.pa va % 64)), s)
  else
    (some (lineWords (ofLanes ((List.range (x.live u)).map fun j => Tab.get (fun _ => 0) b.fac (16 * u + j)))), s)

/-- The other unit of a line of BF16 parameters. -/
def otherHalf (u : Nat) : Nat := if u % 2 = 0 then u + 1 else u - 1

/-- A gathered unit of parameters reaches PARAM (R334). Of a line of BF16 parameters both units are written together, so that it
is old or new as a whole outside the own sub-shard (R342). -/
def State.placeParam (s : State) (b : Bucket) (x : Shape) (u : Nat) (d : Line) : State :=
  let n := Desc.pBytes b.desc
  let v := otherHalf u
  if !Desc.half b.desc || x.own.contains v || decide (x.units ≤ v) then
    s.ceWrite b (b.paramVa u) (maskOf 0 (n * x.live u)) d
  else
    let b := s.again b
    match b.halves.find? (fun e => e.1 == v) with
    | none => s.setBucket { b with halves := b.halves ++ [(u, d)] }
    | some e =>
      let (lo, hi) := if u < v then (d, e.2) else (e.2, d)
      (s.setBucket { b with halves := b.halves.filter fun e => e.1 != v }).ceWrite b (b.paramVa (min u v))
        (maskOf 0 (n * (x.live (min u v) + x.live (max u v))))
        (Line.merge (BitVec.ofNat 512 (hi.toNat <<< 256)) lo (maskOf 0 32))

/-- A gathered unit is placed (R334). -/
def State.placeUnit (s : State) (b : Bucket) (x : Shape) (u : Nat) (w : List Word) : State :=
  let d : Line := BitVec.ofNat 512 (leNat (wordBytes w))
  if b.last then s.placeParam b x u d
  else
    let b := s.again b
    let put := fun (t : Tab Word32) (j : Nat) => Tab.put (fun _ => (0 : Word32)) t (16 * u + j) (lane d j)
    s.setBucket { b with fac := (List.range (x.live u)).foldl put b.fac }

/-- Units go to the members at some positions by the gather, whose messages carry LEVEL 0 (log entry 38). -/
def State.sendGather (s : State) (b : Bucket) (x : Shape) (us ps : List Nat) : State :=
  s.each us fun s u =>
    match s.gatherWords (s.again b) x u with
    | (none, s) => s
    | (some w, s) => s.each ps fun s pos => s.ceSend b pos 0 0 (unitWord x u) w

/-- Whether a bucket's pass gathers: GATHER, or a factor's. -/
def Bucket.gathers (b : Bucket) : Bool := !b.last || Desc.gather b.desc

/-- Whether a member holds every sub-shard of its node-shard (R334). -/
def Bucket.nodeWhole (b : Bucket) (x : Shape) : Bool :=
  (List.range x.gs.length).all fun g => g == x.g || b.has 0 (x.at_ g x.k) x.base (x.sub x.k g)

/-- Whether a member holds everything the gather brings it (R334, R335). -/
def Bucket.gathered (b : Bucket) (x : Shape) : Bool :=
  b.nodeWhole x && (List.range x.l).all fun j => j == x.k || b.has 0 (x.at_ x.g j) x.base (x.shard j)

/-! ### Compression (R336) -/

/-- A sum of products of BF16 operands accumulated in FP32, each product added in order (R110, R336). -/
def dotBf16 (l : List (Word32 × Word32)) : Word32 :=
  l.foldl (fun a e => fmaOf (toBf16 e.1) (toBf16 e.2) (f32Of a)) 0

/-- Element (i, j) of a row-major matrix of n columns. -/
def elemAt (a : List Word32) (n i j : Nat) : Word32 := a.getD (i * n + j) 0

/-- M @ Q. -/
def mulMQ (d : List Word) (m q : List Word32) : List Word32 :=
  let r := Desc.rank d
  (List.range (Desc.rows d * r)).map fun e =>
    dotBf16 ((List.range (Desc.cols d)).map fun c => (elemAt m (Desc.cols d) (e / r) c, elemAt q r c (e % r)))

/-- M transposed @ P. -/
def mulMtP (d : List Word) (m p : List Word32) : List Word32 :=
  let r := Desc.rank d
  (List.range (Desc.cols d * r)).map fun e =>
    dotBf16 ((List.range (Desc.rows d)).map fun i => (elemAt m (Desc.cols d) i (e / r), elemAt p r i (e % r)))

/-- Element e of P @ Q transposed. -/
def mulPQ (d : List Word) (p q : List Word32) (e : Nat) : Word32 :=
  let r := Desc.rank d
  dotBf16 ((List.range r).map fun k => (elemAt p r (e / Desc.cols d) k, elemAt q r (e % Desc.cols d) k))

/-- The sum of FP32 numbers by REDSUM trees of 256 lanes, their sums added by a tree in turn (R146, R336, log entry 37): fuel
bounds the trees. -/
def treeSum : Nat → List Word32 → Word32
  | 0, _ => 0
  | n + 1, l =>
    let sums := (List.range ((l.length + 255) / 256)).map fun k => (redSum false (((l.drop (256 * k)).take 256).map some)).1
    match sums with
    | [] => 0
    | [x] => x
    | _ => treeSum n sums

/-- The norm of a column (R336). -/
def normOf (v : List Word32) : Word32 := f32 (Val.sqrt (f32Of (treeSum (v.length + 1) (v.map fun x => f32 (Val.mul (f32Of x) (f32Of x))))))

/-- A column less its parts along the earlier columns, one after another, and divided by its norm; one of norm 0 is left at zero
(R336). -/
def orthoCol (earlier : List (List Word32)) (v : List Word32) : List Word32 :=
  let w := earlier.foldl (fun v q => let c := Config.gsCoef q v; (q.zip v).map fun e => Config.gsLess c e.1 e.2) v
  let n := normOf w
  if (f32Of n).eqv (.fin false 0 0) then w.map fun _ => 0 else w.map fun x => Config.gsUnit x n

/-- The columns made orthonormal by modified Gram–Schmidt in ascending order (R336). -/
def orthoCols (rows r : Nat) (a : List Word32) : List Word32 :=
  let cols := (List.range r).foldl
    (fun (q : List (List Word32)) c => q ++ [orthoCol q ((List.range rows).map fun i => elemAt a r i c)]) []
  (List.range (rows * r)).map fun e => (cols.getD (e % r) []).getD (e / r) 0

/-- An element of the first Q: the 24 random bits of R119 for the bucket's STREAM and the element's index, as a value in
[−1, 1) (R119, R336, log entry 37). -/
def seededQ (seed : Word) (bucket e : Nat) : Word32 :=
  f32 (ofUnits ((srBits seed bucket (e / 65536) (e % 65536) : Int) - 2 ^ 23) (-23) false)

/-- The level-0 sum of a unit, as R325 folds it, without its PART. -/
def State.levelZero (s : State) (b : Bucket) (x : Shape) (u : Nat) : List Word32 × Bool × State :=
  (List.range (Desc.sources b.desc)).foldl
    (fun (a : List Word32 × Bool × State) j =>
      let (d, p, s) := a.2.2.sourceUnit b x j u
      let es := (List.range (x.live u)).map (lane d)
      (if j = 0 then es
       else (a.1.zip es).map fun e => BitVec.ofNat 32 (Fmt.addCodes .fp32 e.1.toNat e.2.toNat), a.2.1 || p, s))
    ([], false, s)

/-- Words of FP32 in a region from an address. -/
def State.ceFloats (s : State) (b : Bucket) (va n : Nat) : List Word32 × Bool × State :=
  (List.range n).foldl
    (fun (a : List Word32 × Bool × State) k =>
      let (d, p, s) := a.2.2.ceRead b (va + 4 * k)
      (a.1 ++ [lane (BitVec.ofNat 512 (d.toNat >>> (8 * (b.pa (va + 4 * k) % 64 / 4 * 4)))) 0], a.2.1 || p, s))
    ([], false, s)

/-- M, and the first Q (R336); none when anything read was poison (log entry 38). -/
def State.beginFactors (s : State) (b : Bucket) : Option Bucket × State :=
  let d := b.desc
  let x := { s.shape b with e := Desc.elements d }
  let r := (List.range x.units).foldl
    (fun (a : List Word32 × Bool × State) u =>
      let (es, p, s) := a.2.2.levelZero b x u
      (a.1 ++ es, a.2.1 || p, s))
    ([], false, s)
  let (res, bad, s) := r.2.2.ceFloats b (Desc.addr d 14) (Desc.elements d)
  let m := (r.1.zip res).map fun e => f32 (Val.add (f32Of e.1) (f32Of e.2))
  let fva := Desc.addr d 15
  let (hdr, hbad, s) := s.ceRead b fva
  let n := Desc.cols d * Desc.rank d
  let (q, qbad, s) := if hdr.toNat.testBit 0 then s.ceFloats b (fva + 64) n
    else ((List.range n).map (seededQ (s.reg (QE_CTX_SEED.SEED.off b.ctx)) b.bucket), false, s)
  (if r.2.1 || bad || hbad || qbad then none else some { b with m := m, qf := q }, s)

/-- FP32 words are written into a region. -/
def State.putFloats (s : State) (b : Bucket) (va : Nat) (l : List Word32) : State :=
  s.each l.zipIdx fun s e => s.ceWrite b (va + 4 * e.2) (maskOf 0 4) (e.1.setWidth 512)

/-- After the last pass RESID and FACTOR are written (R336). -/
def State.endFactors (s : State) (b : Bucket) (q : List Word32) : State :=
  let d := b.desc
  let res := (List.range (Desc.elements d)).map fun e =>
    f32 (Val.add (f32Of (b.m.getD e 0)) (f32Of (mulPQ d b.p b.qf e)).neg)
  let s := (s.putFloats b (Desc.addr d 14) res).putFloats b (Desc.addr d 15 + 64) q
  s.ceWrite b (Desc.addr d 15) (maskOf 0 8) 1

/-- The vector that a factor pass reduces: M @ Q, or M transposed @ P (R336). -/
def passVec (b : Bucket) : List Word32 := if b.pass % 2 = 0 then mulMQ b.desc b.m b.qf else mulMtP b.desc b.m b.p

/-- A factor launch as the Sluice sees it (R338). -/
def State.factorReq (s : State) (b : Bucket) : LaunchReq :=
  let w := match s.flight b.q b.i with
    | some f => f.words
    | none => []
  ⟨b.ctx, s.qClass b.q, hdrLayer w, hdrOpid w, polderCounts (factorCores b.desc)⟩

/-- Whether the factor cores are idle and the Sluice admits a factor launch (R338). -/
def State.factorsRun (s : State) (b : Bucket) : Bool :=
  (factorCores b.desc).all (fun c => s.rd TC_STATUS.STATE c == 1) && (s.admitWhy (s.factorReq b)).isNone

/-- A factor launch begins and ends on a core (R126, R338): a zero-marked scratchpad, cleared registers, banks that hold nothing
of it, no resident program of a launch, and the events of its begin and end. -/
def State.factorCore (s : State) (b : Bucket) (l : LaunchReq) (e : Nat × Nat) : State :=
  let c := e.1
  let k := s.core c
  let s := s.setCore c { coreInit c with
    layer := l.layer, opid := l.opid, bankCtx := b.ctx, nextCopy := k.nextCopy, hintWin := k.hintWin, portAt := k.portAt,
    recircMax := k.recircMax, recircAll := k.recircAll, recircAt := k.recircAt, streamAt := k.streamAt }
  let s := ((s.wr TC_STATUS.CONTEXT c b.ctx).wr TC_PROG_INFO.VALID c 0).setReg (TC_EXC.CODE.off c) 0
  let s := ((s.setReg (TC_EXC_UADDR.VA.off c) 0).setReg (TC_FLAGS.FLAGS.off c) 0).setReg (TC_PC.PC.off c) 0
  let s := (s.setReg (TC_COPY_FAULT.CAUSE.off c) 0).wr TC_COPY_STATUS.INFLIGHT c 0
  let ev := fun (s : State) (n arg : Nat) => s.offer n 0 (0x1000 + c) (hubOfCore c) arg b.ctx l.layer l.opid
  ev (ev s 1 (packBits [(0, e.2), (16, b.q), (32, b.i)])) 2 0

/-- A factor launch is admitted, and runs on the factor cores in one step (R338, log entry 37): its need counts as pending. -/
def State.runFactors (s : State) (b : Bucket) : State :=
  let l := s.factorReq b
  let (cs, _, s) := s.admitLaunch l
  (s.moveClaims cs true).each (factorCores b.desc).zipIdx fun s e => s.factorCore b l e

/-! ### The progress of a bucket (R325–R336) -/

/-- A factor pass: the node's vector goes out as a bucket's one source would (R334, R336). -/
def State.factorPass (s : State) (b : Bucket) (vec : List Word32) : State :=
  let x := s.shape b
  let codes := fun (u : Nat) => (List.range (x.live u)).map fun e => vec.getD (16 * u + e) 0
  let s := s.setBucket { b with level := 1 }
  if Desc.ea b.desc then
    (s.zeroCells b x).each (List.range x.units) fun s u => s.contribute b x .fp32 u ((codes u).map (·.toNat))
  else
    let s := s.each (List.range x.units) fun s u => s.putPart b x u (ofLanes (codes u)) false
    s.each (List.range x.units) fun s u => s.sendLevel1 b x u

/-- A pass of a bucket begins: level 0, and what goes out from it. A factor pass first computes its vector, when the
Sluice lets it. -/
def State.beginPass (s : State) (b : Bucket) : State :=
  let x := s.shape b
  if b.last then
    let s := s.setBucket { b with level := if Desc.compress b.desc then 2 else 1 }
    if Desc.compress b.desc then s
    else if Desc.ea b.desc then
      (s.zeroCells b x).each (List.range x.units) fun s u =>
        s.each (List.range (Desc.sources b.desc)) fun s j =>
          let (cs, p, s) := s.sourceCodes b x j u
          if p then
            let b := s.again b
            s.setBucket { b with badTo := b.badTo ++
              [((s.membersOf b.slot).getD (x.owner u) ⟨0, 0, 0⟩).device] }
          else s.contribute b x (Desc.gfmt b.desc) u cs
    else
      let s := s.each (List.range x.units) fun s u => s.foldSources b x u
      s.each (List.range x.units) fun s u => s.sendLevel1 b x u
  else if !s.factorsRun b then s
  else
    let s := s.runFactors b
    if b.pass = 0 then
      match s.beginFactors b with
      | (none, s) => s
      | (some b, s) => s.factorPass b (passVec b)
    else s.factorPass b (passVec b)

/-- The reduced sum of a unit, none of poison: from PART, from STAGE, or of the two factors. -/
def State.reduced (s : State) (b : Bucket) (x : Shape) (u : Nat) : Option Line × State :=
  if b.last && Desc.compress b.desc then
    (some (ofLanes ((List.range (x.live u)).map fun j => mulPQ b.desc b.p b.qf (16 * u + j))), s)
  else
    let va := if Desc.ea b.desc then Desc.addr b.desc 4 + 64 * (u % x.n1 % x.n2) else b.part u
    let (d, p, s) := s.ceRead b va
    (if p then none else some d, s)

/-- The reduced sum of a unit and, in the last pass, what its update reads beside it; none of poison. -/
def State.takeUnit (s : State) (b : Bucket) (x : Shape) (u : Nat) : Option UnitIn × State :=
  match s.reduced b x u with
  | (none, s) => (none, s)
  | (some d, s) => if b.last then s.unitIn b x u d else (some ⟨d, 0, 0, 0⟩, s)

/-- The reduced sums of the own sub-shard with what their update reads, by unit; none while one of them is poison. -/
def State.sums (s : State) (b : Bucket) (x : Shape) : Option (List (Nat × UnitIn)) × State :=
  x.own.foldl
    (fun (a : Option (List (Nat × UnitIn)) × State) u =>
      let (d, s) := a.2.takeUnit b x u
      (a.1.bind fun l => d.map fun d => l ++ [(u, d)], s))
    (some [], s)

/-- The owner takes its reduced sums: it updates, or holds the factor; and the gather goes to the other nodes (R333,
R334). -/
def State.reducePass (s : State) (b : Bucket) (x : Shape) (sums : List (Nat × UnitIn)) : State :=
  let s := s.each sums fun s e =>
    if b.last then s.updateUnit b x e.1 e.2 else s.placeUnit b x e.1 (lineWords e.2.sum)
  let b := s.again b
  let s := s.setBucket { b with level := 3 }
  if b.gathers then
    s.sendGather b x x.own (((List.range x.gs.length).filter (· != x.g)).map fun g => x.at_ g x.k)
  else s

/-- The owner reads its reduced sums and takes them, if none is poison. -/
def State.reduce (s : State) (b : Bucket) (x : Shape) : State :=
  match s.sums b x with
  | (some l, s) => s.reducePass b x l
  | (none, s) => s

/-- The own sub-shard goes to the node peers with the rest of the node-shard, once it is whole (R334). -/
def State.spreadNode (s : State) (b : Bucket) (x : Shape) : State :=
  let s := s.setBucket { b with spread := true }
  s.sendGather b x (x.shard x.k) (((List.range x.l).filter (· != x.k)).map fun j => x.at_ x.g j)

/-- A factor's pass is over at this member: the next pass, with P made orthonormal or Q kept (R336). -/
def State.nextPass (s : State) (b : Bucket) (x : Shape) : State :=
  let d := b.desc
  let v := (List.range x.e).map fun e => Tab.get (fun _ => (0 : Word32)) b.fac e
  let b' := { b with pass := b.pass + 1, level := 0, dones := [], told := [], spread := false, fac := [] }
  if b.pass % 2 = 0 then s.setBucket { b' with p := orthoCols (Desc.rows d) (Desc.rank d) v }
  else if b.pass + 1 < passesOf d then s.setBucket { b' with qf := v }
  else
    let local_ := mulMtP d b.m b.p
    (s.endFactors { b with qf := local_ } v).setBucket { b' with qf := v }

/-- One step of a bucket's progress, none when it waits. -/
def State.ceMove (s : State) (b : Bucket) : Option State :=
  let x := s.shape b
  match b.level with
  | 0 =>
    let s' := s.beginPass b
    if (s'.again b).level = 0 then none else some s'
  | 1 =>
    if Desc.ea b.desc then
      if x.own.isEmpty || x.gs.flatten.all (fun p => b.dones.contains p) then
        let s := s.each x.own fun s u => s.settleUnit b x u
        some (s.setBucket { b with level := 2 })
      else none
    else if (List.range x.l).all (fun j => b.has 1 (x.at_ x.g j) x.base (x.shard x.k)) then
      let s := s.each (x.shard x.k) fun s u => s.foldSlots b x u x.l (fun j => b.stage1 x j u)
      let s := s.setBucket { b with level := 2 }
      some (s.each (x.shard x.k) fun s u => s.sendLevel2 b x u)
    else none
  | 2 =>
    if (b.last && Desc.compress b.desc) || Desc.ea b.desc then some (s.reduce b x)
    else if (List.range x.gs.length).all (fun g => b.has 2 (x.at_ g x.k) x.base x.own) then
      some ((s.each x.own fun s u => s.foldSlots b x u x.gs.length (fun g => b.stage2 x g u)).reduce b x)
    else none
  | 3 =>
    if !b.gathers then some (s.setBucket { b with level := 4 })
    else if !b.spread && b.nodeWhole x then some (s.spreadNode b x)
    else if b.spread && b.gathered x && (b.last || s.toldAll b x) then
      some (if b.last then s.setBucket { b with level := 4 } else s.nextPass b x)
    else none
  | _ => none

/-- One step of a bucket's progress, after the DONEs that it owes (R331). -/
def State.ceStep (s : State) (b : Bucket) : Option State :=
  if b.contributes && b.level != 0 then
    let s := s.sendDones b (s.shape b)
    some ((s.ceMove (s.again b)).getD s)
  else s.ceMove b

/-- A bucket advances as far as it can, by at most so many steps. -/
def State.ceRun (s : State) (b : Bucket) : Nat → State
  | 0 => s
  | n + 1 =>
    match s.ceStep (s.again b) with
    | none => s
    | some s' => if s'.again b = s.again b then s' else s'.ceRun b n

/-- A bucket advances as far as it can. -/
def State.ceGo (s : State) (b : Bucket) : State := (s.readAs (0xA000 + b.hub)).ceRun b (6 * (passesOf b.desc + 1) + 6)

/-! ### The end of a bucket (R335, R340–R342) -/

/-- A bucket ends with a status; its pair has ended here (R339). -/
def State.ceEnd (s : State) (b : Bucket) (status detail : Nat) : State :=
  let s := { s with buckets := s.buckets.filter (fun (x : Bucket) => !(x.q == b.q && x.i == b.i)),
                    endedBuckets := s.endedBuckets ++ [(b.epoch, b.bucket)],
                    resends := s.resends.filter (fun (r : Resend) =>
                      r.msg.addr.toNat % 2 ^ 48 != b.epoch + b.bucket * 2 ^ 32) }
  s.finish b.q b.i status detail

/-- Buckets whose factor core is fenced or walled off end with BAD_TARGET (R338). -/
def State.ceLoseCore (s : State) (c : Nat) : State :=
  s.each (s.buckets.filter fun b => (factorCores b.desc).contains c) fun s b => s.ceEnd b 3 c

/-- The units that a bucket still expects from a member for a level (0 for its gather). -/
def Bucket.awaits (b : Bucket) (x : Shape) (lvl pos : Nat) (us : List Nat) : Nat × List Nat :=
  (pos, us.filter fun u => pos != x.me && !b.got.contains (lvl, pos, x.base + u))

/-- What a bucket still expects at its levels: positions and units. -/
def State.ceRed (s : State) (b : Bucket) : List (Nat × List Nat) :=
  let x := s.shape b
  if Desc.ea b.desc ∨ (b.last && Desc.compress b.desc) then []
  else ((List.range x.l).map fun j => b.awaits x 1 (x.at_ x.g j) (x.shard x.k)) ++
    ((List.range x.gs.length).map fun g => b.awaits x 2 (x.at_ g x.k) x.own)

/-- What a bucket still expects of its gather: positions and units. -/
def State.ceGat (s : State) (b : Bucket) : List (Nat × List Nat) :=
  let x := s.shape b
  if b.gathers then
    ((List.range x.gs.length).map fun g => b.awaits x 0 (x.at_ g x.k) (x.sub x.k g)) ++
      ((List.range x.l).map fun j => b.awaits x 0 (x.at_ x.g j) (x.shard j))
  else []

/-- The 64 B lines that a pass of a bucket still expects to receive (R340): at its levels, and those of its gather, in which two
units of BF16 parameters share a line. -/
def State.passMissing (s : State) (b : Bucket) : Nat :=
  let gat := (s.ceGat b).flatMap Prod.snd
  ((s.ceRed b).map fun e => e.2.length).sum +
    (if b.last && Desc.half b.desc then ((gat.map (· / 2)).eraseDups).length else gat.length)

/-- The 64 B lines that a bucket still expects to receive (R340): in its pass and in those after it. -/
def State.ceMissing (s : State) (b : Bucket) : Nat :=
  ((List.range (passesOf b.desc + 1 - b.pass)).map fun p => s.passMissing { b with pass := b.pass + p }).sum

/-- The devices that owe a bucket lines. -/
def State.ceOwing (s : State) (b : Bucket) : List Nat :=
  let ms := s.membersOf b.slot
  (((s.ceRed b ++ s.ceGat b).filter fun e => !e.2.isEmpty).filterMap fun e => (ms[e.1]?).map (·.device)).eraseDups

end Sys2Proof.Machine
end

