-- ==== Sys2Proof/Machine/Collective.lean ====
section
/-! DEFINITION. COLLECTIVE commands from their start to their end, epoch slots, and the messages that engines receive
(R314–R343). -/

namespace Sys2Proof.Machine

/-! ### The start of a bucket (R315–R323) -/

/-- The READY epoch slot of an epoch, the lowest (R320). -/
def State.readySlot (s : State) (epoch : Nat) : Option Nat :=
  (List.range 16).find? fun n => s.rd CE_EPOCH_STATUS.STATE n == 2 && s.rd CE_EPOCH_CFG.EPOCH n == epoch

/-- A region that the engine walks: the offset of its field, its address, its bytes, and whether it is written. -/
structure CeRegion where
  /-- offset of the field that names it -/
  off : Nat
  /-- virtual address -/
  va : Nat
  /-- bytes -/
  len : Nat
  /-- walked with write access -/
  wr : Bool
  deriving DecidableEq, Repr

/-- The regions of a descriptor in the order of their fields (R322, R323). -/
def ceRegions (d : List Word) (x : Shape) : List CeRegion :=
  let n := Desc.elements d
  let width := (Desc.gfmt d).width / 8
  ((List.range (Desc.sources d)).map fun j => ⟨0x08, Desc.addr d 1 + j * Desc.stride d, n * width, false⟩) ++
  [⟨0x18, Desc.addr d 3, if Desc.ea d then 1024 * x.n2 else 64 * x.units, true⟩,
   ⟨0x20, Desc.addr d 4, if Desc.ea d then 64 * x.n2 else 64 * (x.l * x.n1 + x.gs.length * x.n2), true⟩,
   ⟨0x28, Desc.addr d 5, n * Desc.pBytes d, true⟩] ++
  (if Desc.arrays d = 0 then [] else [⟨0x30, Desc.addr d 6, 64 * (Desc.arrays d * x.n2), true⟩]) ++
  (if Desc.compress d then
    [⟨0x70, Desc.addr d 14, 4 * n, true⟩,
     ⟨0x78, Desc.addr d 15, 64 + 4 * (Desc.rank d * (Desc.rows d + Desc.cols d)), true⟩]
   else [])

/-- Every region is walked in turn, its extents merged with those before (R231); all of them together must fit in sixteen
(R323). -/
def State.walkRegions (s : State) (q : Nat) : List CeRegion → List Extent → Prep × State
  | [], exts => (.ok exts, s)
  | r :: rest, exts =>
    let tag := s.rd QE_Q_CFG.CONTEXT q
    match s.translate (hubOfQueue q) tag r.va r.len r.wr with
    | (.fault k l va, s) => (.walk k l va, s)
    | (.denied va, s) => (.fails 5 va, s)
    | (.ok es, s) =>
      match es.find? (fun e => !s.plainOk (.context tag) r.wr e.pa e.len) with
      | some e => (.fails 5 e.va, s)
      | none =>
        let all := es.foldl (fun a (e : Extent) => addRun a e.va e.pa e.len e.w) exts
        if 16 < all.length then (.fails 4 (0x80 + r.off), s) else s.walkRegions q rest all

/-- A COLLECTIVE's EPOCH. -/
def collEpoch (w : List Word) : Nat := bitsOf (w.getD 2 0).toNat 47 16

/-- A COLLECTIVE's BUCKET. -/
def collBucket (w : List Word) : Nat := bitsOf (w.getD 2 0).toNat 15 0

/-- The bucket that a COLLECTIVE starts. -/
def State.newBucket (s : State) (q : Nat) (f : Fetched) (slot : Nat) (desc : List Word) (exts : List Extent) : Bucket where
  q := q
  i := f.i
  ctx := s.rd QE_Q_CFG.CONTEXT q
  epoch := collEpoch f.words
  bucket := collBucket f.words
  slot := slot
  desc := desc
  exts := exts
  start := s.now
  pass := 0
  level := 0
  got := []
  dones := []
  told := []
  badTo := []
  spread := false
  lost := 0
  halves := []
  fac := []
  m := []
  p := []
  qf := []

/-- The descriptor of a COLLECTIVE as the engine reads it once (R315): its words, or how the command fails. -/
def State.readDesc (s : State) (q : Nat) (w : List Word) : Prep × List Word × State :=
  let tag := s.rd QE_Q_CFG.CONTEXT q
  let va := bitsOf (w.getD 1 0).toNat 47 0
  match s.translate (hubOfQueue q) tag va 128 false with
  | (.fault k l v, s) => (.walk k l v, [], s)
  | (.denied v, s) => (.fails 5 v, [], s)
  | (.ok exts, s) =>
    match exts.find? (fun e => !s.plainOk (.context tag) false e.pa e.len) with
    | some e => (.fails 5 e.va, [], s)
    | none =>
      let line := fun (s : State) (k : Nat) => s.engWords ((physIn exts (va + 64 * k) 64 false).getD 0) 8
      let (a, p, s) := line s 0
      let (b, p', s) := line s 1
      if p || p' then (.fails 11 (bit p + bit p'), [], s) else (.ok exts, a ++ b, s)

/-- The READY slot of a COLLECTIVE whose pair is not active yet (R315, R320). -/
def State.collSlot (s : State) (w : List Word) : Option Nat :=
  if s.buckets.any fun b => b.epoch == collEpoch w && b.bucket == collBucket w then none
  else s.readySlot (collEpoch w)

/-- The checks of a COLLECTIVE whose descriptor has been read: its layout, then its factor cores (R316, R338); the status
and DETAIL that it completes with, if any. -/
def State.collCheck (s : State) (desc : List Word) : Option (Nat × Nat) :=
  match descCheck desc with
  | (0, _) => ((factorCores desc).find? fun c => !s.usable c).map fun c => (3, c)
  | r => some r

/-- A COLLECTIVE whose descriptor has been read walks its regions and starts (R316, R323–R325, R338). -/
def State.collEnter (s : State) (q : Nat) (f : Fetched) (slot : Nat) (desc : List Word) : State :=
  match s.collCheck desc with
  | some r => s.failHead q r.1 r.2
  | none =>
    let b := s.newBucket q f slot desc []
    match s.walkRegions q (ceRegions desc { s.shape b with e := Desc.elements desc }) [] with
    | (.walk k l va, s) => s.walkFails q k l va
    | (.fails st d, s) => s.failHead q st d
    | (.ok exts, s) =>
      let s := (s.startHead q f exts).passHead q
      let b := s.newBucket q f slot desc exts
      let s := { s with buckets := s.buckets ++ [b] }
      let s := match s.flight q f.i with
        | some x => s.setFlight { x with begun := true }
        | none => s
      s.ceGo b

/-- The chosen COLLECTIVE at HEAD of a queue starts (R314–R325): its bucket is active and advances as far as it can. Its
pair and epoch are checked before its descriptor is read, as BAD_FIELD comes first (R206). -/
def State.collStart (s : State) (q : Nat) (f : Fetched) : State :=
  match s.collSlot f.words with
  | none => s.failHead q 2 0x10
  | some slot =>
    match s.readDesc q f.words with
    | (.walk k l va, _, s) => s.walkFails q k l va
    | (.fails st d, _, s) => s.failHead q st d
    | (.ok _, desc, s) => s.collEnter q f slot desc

/-- Whether a bucket may become active on a queue's engine (R314). -/
def State.bucketFree (s : State) (q : Nat) : Bool := decide (s.bucketsOn (hubOfQueue q) < 128)

/-- COLLECTIVE (R315): the chosen COLLECTIVE reads its descriptor, walks its regions and starts reducing its bucket. -/
def execCollective (t q i : Nat) (found : Found) (s : State) : Res :=
  s.live t fun s =>
    match s.chosenHead q i with
    | none => s
    | some f =>
      if kindOf f.words = 6 ∧ f.status = 0 ∧ s.bucketFree q then
        s.reads found 0 (0x4000 + q) fun s => s.headWalk q fun s => s.collStart q f
      else s

/-! ### Epoch slots (R318) -/

/-- CE_EPOCH_CFG (R318): a write of the register. -/
def execCeEpochCfg (t agent n : Nat) (v : Word) (s : State) : Res :=
  s.live t fun s =>
    let off := CE_EPOCH_CFG.EPOCH.off n
    if 16 ≤ n then s
    else s.gate agent off true fun s => s.txnWrite agent off v fun s => s.epochStore agent n v

/-- EPOCH_CHECK_DONE (R318): a slot that is CHECKING has had its array read. -/
def execEpochCheckDone (t n : Nat) (found : Found) (s : State) : Res :=
  s.live t fun s =>
    if n < 16 ∧ s.rd CE_EPOCH_STATUS.STATE n = 1 then
      s.reads found 0 (Tab.get (fun _ => 0) s.ringAgent (64 + n)) fun s => s.checkEpoch n
    else s

/-! ### Arrivals (R331, R339) -/

/-- The hub of a link or Ethernet port (R18). -/
def hubOfPort (port : Nat) : Nat := if port < 0x9100 then (port - 0x9000) / 12 else (port - 0x9100) / 2

/-- How an engine answers an arrival: acknowledged, refused as NOT_READY, refused for poison, refused for its CODE. -/
inductive Arrival
  | acked | notReady | refused | unsupported
  deriving DecidableEq, Repr

/-- An arrival is discarded and counted in LATE. -/
def State.ceLate (s : State) (hub : Nat) : Arrival × State := (.acked, s.bump CE_STATUS.LATE hub)

/-- An arrival is refused as NOT_READY and counted. -/
def State.ceNotReady (s : State) (hub : Nat) : Arrival × State := (.notReady, s.bump CE_STATUS.NOT_READY hub)

/-- A DONE of a position (R331): recorded once; the owner settles when every member's has come. -/
def State.ceDoneMsg (s : State) (b : Bucket) (pos : Nat) : Arrival × State :=
  if b.dones.contains pos then s.ceLate b.hub
  else (.acked, (s.setBucket { b with dones := pos :: b.dones }).ceGo b)

/-- Codes unpacked from words. -/
def unpackCodes (w n : Nat) (l : List Word) : List Nat :=
  let x := leNat (wordBytes l)
  (List.range n).map fun k => (x >>> (w * k)) % 2 ^ w

/-- Contributions of a unit arrive for the own cells (R330): before the cells are zeroed they are refused; after the
sender's DONE they are late. -/
def State.ceCells (s : State) (b : Bucket) (x : Shape) (code pos u : Nat) (data : List Word) : Arrival × State :=
  if b.level = 0 then s.ceNotReady b.hub
  else if b.dones.contains pos ∨ 1 < b.level ∨ !x.own.contains u then s.ceLate b.hub
  else
    match if isSettle code then none else cellFmt code with
    | none => (.unsupported, s)
    | some f =>
      let (bad, s) := s.addCells b x f u (unpackCodes f.width (x.live u) data)
      (if bad then .refused else .acked, s)

/-- The slot of STAGE that a unit from a position fills at a level, if this member awaits it there (R326, R327). -/
def Bucket.slotOf (b : Bucket) (x : Shape) (lvl pos u : Nat) : Option Nat :=
  let pl := placeOf x.gs pos
  if lvl = 1 ∧ pl.1 = x.g ∧ (x.shard x.k).contains u then some (b.stage1 x pl.2 u)
  else if lvl = 2 ∧ pl.2 = x.k ∧ x.own.contains u then some (b.stage2 x pl.1 u)
  else none

/-- Whether this member awaits a gathered unit from a position (R334). -/
def Shape.gathersFrom (x : Shape) (pos u : Nat) : Bool :=
  let pl := placeOf x.gs pos
  pos != x.me &&
    ((pl.2 == x.k && (x.sub x.k pl.1).contains u) || (pl.1 == x.g && (x.shard pl.2).contains u && pl.2 != x.k))

/-- A unit arrives for an active bucket (R326, R327, R334, R339): placed, or late when its slot is filled or not awaited.
-/
def State.ceUnit (s : State) (b : Bucket) (x : Shape) (lvl pos u : Nat) (data : List Word) : Arrival × State :=
  let placed := fun (s : State) =>
    (Arrival.acked, (s.noteUnit b lvl pos (x.base + u)).bumpWrap CE_BYTES_IN.BYTES b.hub (8 * (1 + data.length)))
  if b.got.contains (lvl, pos, x.base + u) then s.ceLate b.hub
  else if lvl = 0 then
    if b.gathers && x.gathersFrom pos u then placed (s.placeUnit b x u data) else s.ceLate b.hub
  else
    match b.slotOf x lvl pos u with
    | none => s.ceLate b.hub
    | some va => placed (s.ceWrite b va (x.mask u) (BitVec.ofNat 512 (leNat (wordBytes data))))

/-- Whether a COLL's CODE is one that R279 defines, or the 0 of a unit that is only placed (R346, R358, log entry 38). -/
def collCode (code : Nat) : Bool := code == 0 || (mopSize code).isSome || (cellFmt code).isSome

/-- A collective message reaches an engine (R331, R339): its fate, and the state. A unit of a later pass finds the
bucket not ready for it (log entry 38). -/
def State.ceArrive (s : State) (port : Nat) (m : Msg) : Arrival × State :=
  let a := m.addr.toNat
  let epoch := bitsOf a 31 0
  let bucket := bitsOf a 47 32
  let lvl := bitsOf a 49 48
  let w := (m.data.headD 0).toNat
  let pos := bitsOf w 15 0
  let unit := bitsOf w 47 16
  match s.buckets.find? (fun b => b.epoch == epoch && b.bucket == bucket) with
  | none =>
    if !collCode m.code then (.unsupported, s)
    else if s.endedBuckets.contains (epoch, bucket) then s.ceLate (hubOfPort port)
    else s.ceNotReady (hubOfPort port)
  | some b =>
    let x := s.shape b
    if !collCode m.code then (.unsupported, s)
    else if lvl = 3 then if Desc.ea b.desc then s.ceDoneMsg b pos else s.ceLate b.hub
    else if unit < x.base then s.ceLate b.hub
    else if x.base + x.units ≤ unit then s.ceNotReady b.hub
    else
      let u := unit - x.base
      let r := if Desc.ea b.desc ∧ lvl ≠ 0 then
          let r := s.ceCells b x m.code pos u m.data.tail
          if r.1 = .acked then (r.1, r.2.bumpWrap CE_BYTES_IN.BYTES b.hub (8 * m.data.length)) else r
        else s.ceUnit b x lvl pos u m.data.tail
      (r.1, r.2.ceGo b)

/-! ### Responses (R339, R340) -/

/-- What a response to a collective message brings: an acknowledgement, after which a DONE may be due; a NOT_READY, after which the message is sent again;
another refusal; or the loss of the message (R331, R339, R340). -/
def State.ceDone (s : State) (r : PeerReq) (hub q i : Nat) (code : Option Nat) : State :=
  match s.buckets.find? (fun b => b.q == q && b.i == i) with
  | none => s
  | some b =>
    match code with
    | some 0 => if b.contributes && b.level != 0 then s.sendDones b (s.shape b) else s
    | some 5 => { s with resends := s.resends ++ [⟨hub, s.now + s.rd CE_CFG.RETRY_US * 1000, r.win, r.msg⟩] }
    | some _ => s.setBucket { b with badTo := b.badTo ++ [r.msg.dst] }
    | none => s.setBucket { b with badTo := b.badTo ++ [r.msg.dst], lost := b.lost + 1 }

/-- A refused message is sent again; without a route its line is lost (R339, R340). -/
def State.resend (s : State) (r : Resend) : State :=
  let s := { s with resends := dropFirst (fun (x : Resend) => decide (x = r)) s.resends }
  match s.buckets.find? (fun b => r.msg.addr.toNat % 2 ^ 48 == b.epoch + b.bucket * 2 ^ 32) with
  | none => s
  | some b =>
    match s.sendReq r.win (peerBase + r.win * 2 ^ 40) 1 (s.qClass b.q) r.msg.dst (.ce b.hub b.q b.i) 5 r.msg.code r.msg.addr
        r.msg.data with
    | some s => s.bumpWrap CE_BYTES_OUT.BYTES b.hub (8 * r.msg.data.length)
    | none =>
      (s.bump LK_STATUS.LOST 0).setBucket { b with lost := b.lost + 1, badTo := b.badTo ++ [r.msg.dst] }

/-- COLL_RESEND (R339): RETRY_US has passed since a hub's oldest message was refused as NOT_READY. -/
def execCollResend (t h : Nat) (s : State) : Res :=
  s.live t fun s =>
    match s.resends.find? (fun r => r.hub == h && decide (r.due ≤ s.now)) with
    | none => s
    | some r => s.resend r

/-! ### The end of a bucket (R335, R340) -/

/-- Whether a bucket is complete (R335): it has done all its own work, the DONEs of R331 among it (log entry 38), no line of it is
lost, and with GATHER set every
line it sent has been acknowledged. -/
def State.bucketWhole (s : State) (b : Bucket) : Bool :=
  b.level == 4 && b.lost == 0 && s.toldAll b (s.shape b) &&
    (!Desc.gather b.desc || (b.badTo.isEmpty && s.owed (.ce b.hub b.q b.i) == 0 &&
      !s.resends.any (fun r => r.msg.addr.toNat % 2 ^ 48 == b.epoch + b.bucket * 2 ^ 32)))

/-- The bucket of a COLLECTIVE. -/
def State.bucketAt (s : State) (q i : Nat) : Option Bucket := s.buckets.find? (fun b => b.q == q && b.i == i)

/-- The tick at which a bucket's window ends (R340). -/
def State.bucketDue (s : State) (b : Bucket) : Nat := b.start + 2 ^ s.rd CE_CFG.TIMEOUT_LOG2

/-- BUCKET_COMPLETE (R335): within the window of its bucket (R340). -/
def execBucketComplete (t q i : Nat) (found : Found) (s : State) : Res :=
  s.live t fun s =>
    match s.bucketAt q i with
    | none => s
    | some b =>
      s.reads found 0 (0xA000 + b.hub) fun s =>
        let s := s.ceGo b
        let b := s.again b
        if s.bucketWhole b && decide (s.now < s.bucketDue b) then s.ceEnd b 0 0 else s

/-- BUCKET_TIMEOUT (R340): the bucket's window has ended. -/
def execBucketTimeout (t q i : Nat) (s : State) : Res :=
  s.live t fun s =>
    match s.bucketAt q i with
    | none => s
    | some b => if s.bucketDue b ≤ s.now then s.ceEnd b 8 (s.ceMissing b) else s

end Sys2Proof.Machine
end

