-- ==== Sys2Proof/Machine/Commands.lean ====
section
/-! DEFINITION. The walk of a command at HEAD and the commands that the queue engines carry out: COPY, INLINE_WRITE,
SIGNAL, WAIT, MIGRATE, HINT and FENCE, and their completion entries (R209–R218, R226–R233). -/

namespace Sys2Proof.Machine

/-- A started command of a queue is changed. -/
def State.onFlight (s : State) (q i : Nat) (f : InFlight → InFlight) : State :=
  s.mapFlights fun x => if x.q = q ∧ x.i = i then f x else x

/-! ### COPY: its descriptors (R209, R233) -/

/-- Source address, destination address and LENGTH of a COPY. -/
def copySrc (w : List Word) : Nat := bitsOf (w.getD 1 0).toNat 47 0

/-- Destination address. -/
def copyDst (w : List Word) : Nat := bitsOf (w.getD 2 0).toNat 47 0

/-- LENGTH. -/
def copyLen (w : List Word) : Nat := bitsOf (w.getD 3 0).toNat 39 0

/-- SRC_SP. -/
def copySrcSp (w : List Word) : Bool := (w.getD 3 0).toNat.testBit 40

/-- DST_SP. -/
def copyDstSp (w : List Word) : Bool := (w.getD 3 0).toNat.testBit 41

/-- One side of a prefix: the extents up to an offset, extended by the leaf at an address; the bytes that the leaf still
covers. A scratchpad takes no extent. None when the look at the page fails (R233). -/
def State.lookSide (s : State) (hub tag va : Nat) (sp wr : Bool) (exts : List Extent) :
    Option (Nat × (Nat → List Extent)) × State :=
  if sp then (some (2 ^ 40, fun _ => exts), s)
  else
    match s.walk1 hub tag va wr true with
    | (.fault _ _, s) => (none, s)
    | (.leaf pa size w, s) => (some (size - va % size, fun n => addRun exts va pa n (w && wr)), s)

/-- The longest prefix from an offset whose two sides fit in eight extents each (R233): fuel bounds the leaves. -/
def State.prefixFrom (s : State) (hub tag : Nat) (w : List Word) (pos stop : Nat) :
    Nat → Nat → List Extent → List Extent → Nat × State
  | 0, at_, _, _ => (at_, s)
  | n + 1, at_, se, de =>
    if stop ≤ at_ then (stop, s)
    else
      match s.lookSide hub tag (copySrc w + at_) (copySrcSp w) false se with
      | (none, s) => (at_, s)
      | (some (a, fa), s) =>
        match s.lookSide hub tag (copyDst w + at_) (copyDstSp w) true de with
        | (none, s) => (at_, s)
        | (some (b, fb), s) =>
          let run := min (min a b) (stop - at_)
          let se' := fa run
          let de' := fb run
          if 8 < se'.length ∨ 8 < de'.length then (at_, s) else s.prefixFrom hub tag w pos stop n (at_ + run) se' de'

/-- Where a descriptor that begins at an offset of a COPY ends: its first page is always walked. -/
def State.descEnd (s : State) (hub tag : Nat) (w : List Word) (pos : Nat) : Nat × State :=
  let stop := copyLen w
  let (e, s) := s.prefixFrom hub tag w pos stop (2 * ((stop - pos) / 4096 + 2)) pos [] []
  let page := fun (va : Nat) (sp : Bool) => if sp then stop else 4096 - va % 4096
  if e ≤ pos then
    (min stop (pos + min (page (copySrc w + pos) (copySrcSp w)) (page (copyDst w + pos) (copyDstSp w))), s)
  else (e, s)

/-- One side of a descriptor is walked. -/
def State.walkSide (s : State) (hub tag va len : Nat) (sp wr : Bool) : XlateRes × State :=
  if sp then (.ok [], s)
  else
    match s.translate hub tag va len wr with
    | (.ok es, s) =>
      (match es.find? (fun e => s.region e.pa == .regs) with
       | some e => (.denied e.va, s)
       | none => (.ok es, s))
    | r => r

/-- A core that a COPY names and that runs no launch of the command's context, the lowest (R174). -/
def State.badCopyCore (s : State) (ctx : Nat) (w : List Word) : Option Nat :=
  let runs := fun (c : Nat) => s.usable c && s.rd TC_STATUS.STATE c == 2 && (match (s.core c).launch with
    | some l => l.ctx == ctx
    | none => false)
  ((copyCores w).filter (fun c => !runs c)).min?

/-- A COPY's walk was refused at an address: it completes with DENIED once its started descriptors are complete. -/
def State.copyDenied (s : State) (q : Nat) (f : Fetched) (va : Nat) : State :=
  match s.flight q f.i with
  | none => s.failHead q 5 va
  | some x => ((s.setFlight { x with denied := some (x.denied.getD va), whole := true }).passHead q).cmdSettle q f.i

/-- A descriptor of a COPY starts; after the last one HEAD passes the command (R233). -/
def State.startDesc (s : State) (q : Nat) (f : Fetched) (d : CopyDesc) : State :=
  let s := if (s.flight q f.i).isSome then s else s.startHead q f []
  let last := decide (copyLen f.words ≤ d.pos + d.len)
  let s := s.onFlight q f.i fun x => { x with begun := true, descs := x.descs ++ [d], whole := last }
  if last then s.passHead q else s.setQueue q { s.queue q with copyDone := d.pos + d.len }

/-- The next descriptor of the COPY at HEAD of a queue is walked and starts (R209, R233). -/
def State.copyStart (s : State) (q : Nat) (f : Fetched) : State :=
  let hub := hubOfQueue q
  let tag := s.headTag q
  let w := f.words
  let first := (s.flight q f.i).isNone
  if copyLen w = 0 then ((s.startHead q f []).finish q f.i 0).passHead q
  else
    match if first then s.badCopyCore tag w else none with
    | some c => s.failHead q 3 c
    | none =>
      let pos := (s.queue q).copyDone
      let (e, s) := s.descEnd hub tag w pos
      match s.walkSide hub tag (copySrc w + pos) (e - pos) (copySrcSp w) false with
      | (.fault k l va, s) => s.walkFails q k l va
      | (.denied va, s) => s.copyDenied q f va
      | (.ok se, s) =>
        match s.walkSide hub tag (copyDst w + pos) (e - pos) (copyDstSp w) true with
        | (.fault k l va, s) => s.walkFails q k l va
        | (.denied va, s) => s.copyDenied q f va
        | (.ok de, s) => s.startDesc q f ⟨pos, e - pos, se, de, false⟩

/-! ### The other commands' starts (R210–R212) -/

/-- An INLINE_WRITE is walked and starts: its payload is one descriptor (R210, R232). -/
def State.inlineStart (s : State) (q : Nat) (f : Fetched) : State :=
  let va := bitsOf (f.words.getD 1 0).toNat 47 0
  let len := bitsOf (f.words.getD 2 0).toNat 6 0
  match s.walkSide (hubOfQueue q) (s.rd QE_Q_CFG.CONTEXT q) va len false true with
  | (.fault k l a, s) => s.walkFails q k l a
  | (.denied a, s) => s.failHead q 5 a
  | (.ok es, s) =>
    let s := s.startHead q f es
    (s.onFlight q f.i fun x => { x with descs := [⟨0, len, [], es, false⟩], whole := true }).passHead q

/-- A command with no address starts. -/
def State.plainStart (s : State) (q : Nat) (f : Fetched) : State := (s.startHead q f []).passHead q

/-- A SIGNAL or WAIT whose object the dike table does not admit completes with DENIED (R211). -/
def State.objStart (s : State) (q : Nat) (f : Fetched) : State :=
  let obj := bitsOf (f.words.getD 1 0).toNat 12 0
  if s.objAdmits (s.rd QE_Q_CFG.CONTEXT q) obj then s.plainStart q f else s.failHead q 5 obj

/-- A MIGRATE is checked (R308): NOT_VALID, DENIED, or it starts. -/
def State.migrateStart (s : State) (q : Nat) (f : Fetched) : State :=
  let obj := bitsOf (f.words.getD 1 0).toNat 15 0
  match s.migCause obj (s.rd QE_Q_CFG.CONTEXT q) with
  | 0 => s.plainStart q f
  | 3 => (s.wr TIER_OBJ_CFG.LAST obj 3).failHead q 2 8
  | c => (s.wr TIER_OBJ_CFG.LAST obj c).failHead q 5 obj

/-! ### WALK (R226, R228) -/

/-- The chosen command at HEAD of a queue is walked and starts, by its kind, while the hub's limits allow. -/
def State.walkHead (s : State) (q : Nat) (f : Fetched) : State :=
  if f.status ≠ 0 then s.failHead q f.status f.detail
  else if !s.hubTakes (hubOfQueue q) (kindOf f.words) then
    if (s.flight q f.i).isSome then s else s.setQueue q { s.queue q with chosen := false }
  else
    match kindOf f.words with
    | 1 => s.launchStart q f
    | 2 => s.copyStart q f
    | 3 => s.inlineStart q f
    | 4 => s.objStart q f
    | 5 => s.objStart q f
    | 6 => if s.bucketFree q then s.collStart q f else s.setQueue q { s.queue q with chosen := false }
    | 7 => s.migrateStart q f
    | _ => s.plainStart q f

/-- Whether the command at HEAD of a queue is walked: the queue runs; or the command has started, and the queue is disabled
or parked for another reason meanwhile (R192, R199, R233). -/
def State.walksHead (s : State) (q : Nat) : Bool :=
  s.qRuns q || (s.headBusy q && s.save.phase == 0 && (s.qActive q || s.qParked q && s.rd QE_Q_STATUS.REASON q != 3))

/-- The walk of a chosen queue: one parked with XLATE becomes ACTIVE for it (R242). -/
def State.walkQueue (s : State) (q : Nat) : State :=
  let s := if s.qParked q && s.rd QE_Q_STATUS.REASON q == 3 then s.activate q else s
  if s.walksHead q then
    match (s.queue q).fetched with
    | [] => s
    | f :: _ => s.headWalk q fun s => s.walkHead q f
  else s

/-- WALK (R228): the ranges of the chosen command of a queue are translated; it starts, completes with an error, waits for
a migration, or parks the queue with XLATE. -/
def execWalk (t q : Nat) (found : Found) (s : State) : Res :=
  s.live t fun s =>
    if (s.queue q).chosen ∧ s.save.phase = 0 then s.reads found 0 (0x4000 + q) fun s => s.walkQueue q else s

/-! ### Moving bytes (R174–R176, R182, R209) -/

/-- The bytes of a side's extent from an address on; all that is asked where no extent holds it. -/
def segLen (exts : List Extent) (va n : Nat) : Nat :=
  match exts.find? (fun e => decide (e.va ≤ va) && decide (va < e.va + e.len)) with
  | some e => min n (e.va + e.len - va)
  | none => n

/-- A descriptor's bytes cut at the ends of its extents: offset in the copy and length. -/
def segments (w : List Word) (d : CopyDesc) : Nat → Nat → List (Nat × Nat)
  | 0, _ => []
  | n + 1, o =>
    if d.pos + d.len ≤ o then []
    else
      let k := segLen d.src (copySrc w + o) (segLen d.dst (copyDst w + o) (d.pos + d.len - o))
      (o, k) :: segments w d n (o + k)

/-- The segments of a descriptor. -/
def segmentsOf (w : List Word) (d : CopyDesc) : List (Nat × Nat) := segments w d (d.src.length + d.dst.length + 1) d.pos

/-- The traffic class of a COPY or INLINE_WRITE, raised to its queue's (R193). -/
def State.cmdCls (s : State) (x : InFlight) : Nat :=
  max (if x.kind = 2 then bitsOf (x.words.getD 3 0).toNat 43 42 else bitsOf (x.words.getD 2 0).toNat 9 8) (s.qClass x.q)

/-- Bytes read from plain memory, each line once, and the offset ranges that were poison. -/
def State.readSeg (s : State) (pa len : Nat) : List Byte × List (Nat × Nat) × State :=
  (linesOf pa len).foldl
    (fun (a : List Byte × List (Nat × Nat) × State) l =>
      let (d, p, s) := a.2.2.engLine l
      let lo := max pa (64 * l)
      let n := min (pa + len) (64 * l + 64) - lo
      (a.1 ++ (List.range n).map (fun j => Line.byte d (lo - 64 * l + j)),
        if p then a.2.1 ++ [(lo - pa, n)] else a.2.1, s))
    ([], [], s)

/-- Bytes written to plain memory, and the lines that ranges of poison touch marked. -/
def State.writeSeg (s : State) (pa : Nat) (b : List Byte) (bad : List (Nat × Nat)) : State :=
  (s.engWrite pa b).each (bad.flatMap fun r => linesOf (pa + r.1) r.2) fun s l => s.setPoison l true

/-- Bytes of a COPY that lie in both its ranges become free values (R209). -/
def State.overlapFree (s : State) (w : List Word) (o : Nat) (b : List Byte) : List Byte × State :=
  let src := copySrc w
  let dst := copyDst w
  let len := copyLen w
  let both := fun (va : Nat) => decide (src ≤ va) && decide (va < src + len)
  if copySrcSp w ∨ copyDstSp w ∨ dst + len ≤ src ∨ src + len ≤ dst then (b, s)
  else
    ((b.zipIdx.map fun e =>
        if both (dst + o + e.2) then (Config.freeWord (s.freeIdx + e.2)).setWidth 8 else e.1),
      { s with freeIdx := s.freeIdx + b.length })

/-- The lines of a range of plain memory that will not be written are noted at their command: those behind a DOWN port as
lost, those that no repair can serve or whose site is not ACTIVE as poison (R44, R291, R299; log entry 136). -/
def State.noteFailed (s : State) (q i pa len : Nat) : State :=
  let ls := linesOf pa len
  s.onFlight q i fun x =>
    { x with gone := addNew x.gone (ls.filter s.lostLine), poison := addNew x.poison (ls.filter s.deadLine) }

/-- Bytes at an offset of a COPY reach its destination (R174, R176, R182): a scratchpad, if its launch has not ended; plain
memory; or the egress of a peer window's link. -/
def State.deposit (s : State) (q i : Nat) (d : CopyDesc) (o : Nat) (b : List Byte) (bad : List (Nat × Nat)) : State :=
  match s.flight q i with
  | none => s
  | some x =>
    let va := copyDst x.words + o
    if x.kind = 2 ∧ copyDstSp x.words then
      let c := va % 2 ^ 32 / spBytes
      let sp := va % spBytes
      if x.spGone.contains c then
        s.onFlight q i fun x => { x with aborted := addNew x.aborted (linesOf (va % 2 ^ 32) b.length) }
      else s.copyIn c sp b (bad.map fun r => (sp + r.1, r.2))
    else
      match physIn d.dst va b.length true with
      | none => s
      | some pa =>
        if s.isPeer pa then
          let (s, lost) := s.peerWrite (s.cmdCls x) (.cmd q i d.pos) pa b
          s.onFlight q i fun x => { x with lost := x.lost + lost }
        else (s.noteFailed q i pa b.length).writeSeg pa b bad

/-- One segment of a COPY's descriptor moves (R174, R176, R209): read from a scratchpad, from plain memory, or asked of a
peer; lines that are poison are counted. What the reads find is given (R175, R274). -/
def State.moveSeg (s : State) (q i : Nat) (found : Found) (d : CopyDesc) (g : Nat × Nat) : State :=
  match s.flight q i with
  | none => s
  | some x =>
    let va := copySrc x.words + g.1
    if copySrcSp x.words then
      let c := va % 2 ^ 32 / spBytes
      let sp := va % spBytes
      if x.spGone.contains c then
        let s := if copyDstSp x.words ∧ x.spGone.contains (copyDst x.words % 2 ^ 32 / spBytes) then s
          else s.onFlight q i fun x => { x with aborted := addNew x.aborted (linesOf (va % 2 ^ 32) g.2) }
        s.deposit q i d g.1 (List.replicate g.2 0) [(0, g.2)]
      else
        let s := s.spParity c found.sp [(sp, g.2)]
        let k := s.core c
        let bad := k.badLines sp g.2
        let sent := addNew x.spSent (bad.map (c * 65536 + ·))
        let s := s.bump TC_SP_POISON.POISON_OUT c (sent.length - x.spSent.length)
        let s := s.onFlight q i fun x => { x with spSent := sent }
        s.deposit q i d g.1 (k.spBytes sp g.2) (bad.map fun l =>
          (max sp (64 * l) - sp, min (sp + g.2) (64 * l + 64) - max sp (64 * l)))
    else
      match physIn d.src va g.2 false with
      | none => s
      | some pa =>
        if s.isPeer pa then
          let (s, lost) := s.peerRead (s.cmdCls x) (.cmd q i d.pos) pa g.2
          s.onFlight q i fun x => { x with lost := x.lost + lost }
        else
          let (b, bad, s) := s.readSeg pa g.2
          let s := s.onFlight q i fun x => { x with poison := addNew x.poison (bad.map fun r => (pa + r.1) / 64) }
          let (b, s) := s.overlapFree x.words g.1 b
          s.deposit q i d g.1 b bad

/-- The oldest descriptor of a COPY that has not moved moves. -/
def State.moveDesc (s : State) (q i : Nat) (found : Found) (x : InFlight) : State :=
  match x.descs.find? (fun d => !d.moved) with
  | none => s.cmdSettle q i
  | some d =>
    let s := s.onFlight q i fun x =>
      { x with descs := x.descs.map (fun e => if e.pos = d.pos then { e with moved := true } else e), done := x.done + d.len }
    (s.each (segmentsOf x.words d) fun s g => s.moveSeg q i found d g).cmdSettle q i

/-- The started command of a queue with an index and a kind that is not complete. -/
def State.running (s : State) (q i kind : Nat) : Option InFlight :=
  (s.flight q i).filter fun x => x.kind == kind && x.status.isNone

/-- COPY (R209): the hub copy engines move the bytes of a started descriptor. -/
def execCopy (t q i : Nat) (found : Found) (s : State) : Res :=
  s.live t fun s =>
    match s.running q i 2 with
    | none => s
    | some x => s.reads found 0 (0x4000 + q) fun s => s.moveDesc q i found x

/-- The payload of an INLINE_WRITE. -/
def inlineBytes (w : List Word) : List Byte := (wordBytes (w.drop 3)).take (bitsOf (w.getD 2 0).toNat 6 0)

/-- One piece of an INLINE_WRITE's payload reaches its destination, inside one extent. -/
def State.inlineSeg (s : State) (x : InFlight) (g : Nat × Nat) : State :=
  let va := bitsOf (x.words.getD 1 0).toNat 47 0 + g.1
  let b := ((inlineBytes x.words).drop g.1).take g.2
  match physIn x.exts va g.2 true with
  | none => s
  | some pa =>
    if s.isPeer pa then
      let (s, lost) := s.peerWrite (s.cmdCls x) (.cmd x.q x.i 0) pa b
      s.onFlight x.q x.i fun x => { x with lost := x.lost + lost }
    else (s.noteFailed x.q x.i pa b.length).writeSeg pa b []

/-- The payload of an INLINE_WRITE cut at the ends of its extents. -/
def inlineSegs (x : InFlight) : List (Nat × Nat) :=
  let va := bitsOf (x.words.getD 1 0).toNat 47 0
  let n := bitsOf (x.words.getD 2 0).toNat 6 0
  let k := segLen x.exts va n
  if k < n then [(0, k), (k, n - k)] else [(0, n)]

/-- The payload of an INLINE_WRITE is written. -/
def State.doInline (s : State) (q i : Nat) (x : InFlight) : State :=
  let s := s.onFlight q i fun x => { x with begun := true, descs := x.descs.map fun d => { d with moved := true } }
  (s.each (inlineSegs x) fun s g => s.inlineSeg x g).cmdSettle q i

/-- INLINE_WRITE (R210): the payload is written, each line in one step. -/
def execInlineWrite (t q i : Nat) (found : Found) (s : State) : Res :=
  s.live t fun s =>
    match s.running q i 3 with
    | none => s
    | some x =>
      if x.begun then s
      else s.reads found 0 (0x4000 + q) fun s => s.doInline q i x

/-! ### SIGNAL, WAIT, MIGRATE, HINT, FENCE (R211, R212) -/

/-- A SIGNAL performs its operation at its object and is complete. -/
def State.doSignal (s : State) (q i : Nat) (x : InFlight) : State :=
  let w := (x.words.getD 1 0).toNat
  let obj := bitsOf w 12 0
  let set := bitsOf w 14 13 == 1
  let v := x.words.getD 2 0
  let val := syNew set (s.reg (SY_VAL.VALUE.off obj)) v
  ((s.syPerform obj set v).offerQueue 6 q (signalArg obj val) (hdrLayer x.words) (hdrOpid x.words)).finish q i 0

/-- SIGNAL (R211). -/
def execSignal (t q i : Nat) (s : State) : Res :=
  s.live t fun s =>
    match s.running q i 4 with
    | none => s
    | some x => s.doSignal q i x

/-- WAIT (R211): the waiter is registered and evaluated at once (R249). -/
def execWait (t q i : Nat) (s : State) : Res :=
  s.live t fun s =>
    match s.running q i 5 with
    | none => s
    | some x => if x.begun then s else (s.onFlight q i fun x => { x with begun := true }).registerWait q x

/-- MIGRATE (R212, R303): the migration enters its object's pending list. -/
def execMigrate (t q i : Nat) (s : State) : Res :=
  s.live t fun s =>
    match s.running q i 7 with
    | none => s
    | some x =>
      if x.begun then s
      else
        let w := (x.words.getD 1 0).toNat
        (s.onFlight q i fun x => { x with begun := true }).submitMig
          ⟨bitsOf w 15 0, bitsOf w 16 16, some (q, i), none, none, hubOfQueue q, (hdrLayer x.words, hdrOpid x.words), 0,
            none, [], [], 0, 0, false⟩

/-- The polders of a HINT command: P0–P3 when it names none (R212). -/
def hintPolders (w : Nat) : List Nat :=
  let p := bitsOf w 39 32
  (List.range 8).filter fun n => if p = 0 then decide (n < 4) else p.testBit n

/-- The Sluice receives a HINT command (R205, R212, R457). -/
def State.doHint (s : State) (q i : Nat) (x : InFlight) : State :=
  let w := (x.words.getD 1 0).toNat
  let h : HintReq := ⟨x.ctx, s.qClass q, q, hdrLayer x.words, hdrOpid x.words, bitsOf w 2 0, bitsOf w 15 4, bitsOf w 31 16,
    x.start, none⟩
  let s := s.each (hintPolders w) fun s p => s.hintOn h p
  (s.offerQueue 8 q (packBits [(0, h.pclass), (4, h.start), (16, h.len)]) h.layer h.opid).finish q i 0

/-- HINT_COMMAND (R212). -/
def execHintCommand (t q i : Nat) (s : State) : Res :=
  s.live t fun s =>
    match s.running q i 8 with
    | none => s
    | some x => s.doHint q i x

/-- Whether writes of a queue's commands into peer windows await their acknowledgement (R421). -/
def State.queueOwes (s : State) (q : Nat) : Bool :=
  s.peerReqs.any fun r => match r.who with
    | .cmd q' _ _ => q' == q && r.msg.kind != 3
    | _ => false

/-- FENCE_COMMAND (R212, R421): every earlier command is complete when it starts; with RC the queue's writes into peer
windows have been performed too. -/
def execFenceCommand (t q i : Nat) (s : State) : Res :=
  s.live t fun s =>
    match s.running q i 9 with
    | none => s
    | some x => if (x.words.getD 1 0).toNat.testBit 0 && s.queueOwes q then s else s.finish q i 0

/-! ### Completion entries (R217) -/

/-- The completed command of a queue whose entry is due: the first to have completed (R217). -/
def State.nextDone (s : State) (q : Nat) : Option InFlight :=
  s.inflight.find? (fun f => f.q == q && f.status.isSome)

/-- A completed command's entry is written, unless QUIET suppresses it; with STOP_ON_ERR an error parks the queue; a
disable under way may end (R192, R199, R217, R218). -/
def State.complete (s : State) (q : Nat) (x : InFlight) (status : Nat) : State :=
  let s := { s with inflight := s.inflight.filter fun f => !(f.q == q && f.i == x.i) }
  let s := s.offerQueue 4 q (packBits [(0, status), (32, x.i)]) (hdrLayer x.words) (hdrOpid x.words)
  let s :=
    if status = 0 ∧ (x.words.headD 0).toNat.testBit 26 then s
    else s.cqPut q (entryWords x.kind status x.exc (hdrLayer x.words) (hdrOpid x.words) x.i x.flags x.fin x.detail)
  (if status ≠ 0 ∧ s.flag QE_Q_CFG.STOP_ON_ERR q then s.park q 5 else s).tryDisable q

/-- COMMAND_COMPLETE (R217): the entry of the completed command that is next. -/
def execCommandComplete (t q i : Nat) (s : State) : Res :=
  s.live t fun s =>
    match s.nextDone q with
    | none => s
    | some x =>
      match x.status with
      | some st => if x.i = i then s.complete q x st else s
      | none => s

end Sys2Proof.Machine
end

