-- ==== Sys2Proof/Machine/Links.lean ====
section
/-! DEFINITION. Links: flits, credits, replay, tokens, training and loss, and the end of a request to a peer
(R344–R360). -/

namespace Sys2Proof.Machine

/-! ### The end of a request (R354, R358, R360) -/

/-- How a request to a peer ends: performed, with the words of its response; refused with a code of R358; or LOST. -/
inductive ReqEnd
  | ok (data : List Word) | refused (code : Nat) | lost
  deriving DecidableEq, Repr

/-- The bytes of physical addresses lo to hi − 1 in the data of a READ from an address. -/
def dataBytes (base : Nat) (data : List Word) (lo hi : Nat) : List Byte :=
  ((wordBytes data).drop (lo - base)).take (hi - lo)

/-- The lines that a COPY asked of a peer have come: each part reaches its destination (R174, R182). -/
def State.gotLines (s : State) (q i : Nat) (d : CopyDesc) (w : List Word) (r : PeerReq) (data : List Word) : State :=
  s.each (segmentsOf w d) fun s g =>
    match physIn d.src (copySrc w + g.1) g.2 false with
    | none => s
    | some pa =>
      let lo := max pa r.pa
      let hi := min (pa + g.2) (r.pa + 64 * r.lines)
      if lo < hi then s.deposit q i d (g.1 + (lo - pa)) (dataBytes r.pa data lo hi) [] else s

/-- The virtual address that extents give a physical one. -/
def vaOfPa (exts : List Extent) (pa : Nat) : Nat :=
  match exts.find? (fun e => decide (e.pa ≤ pa) && decide (pa < e.pa + e.len)) with
  | some e => e.va + (pa - e.pa)
  | none => 0

/-- A request of a queue's command has ended. -/
def State.cmdReqEnd (s : State) (q i pos : Nat) (r : PeerReq) (e : ReqEnd) : State :=
  match s.flight q i, e with
  | none, _ => s
  | some x, .ok data =>
    (match if r.msg.kind = 3 then x.descs.find? (fun (d : CopyDesc) => d.pos == pos) else none with
     | some d => s.gotLines q i d x.words r data
     | none => s).cmdSettle q i
  | some x, .refused _ =>
    let va := vaOfPa (if r.msg.kind = 3 then x.descs.flatMap CopyDesc.src else x.descs.flatMap CopyDesc.dst ++ x.exts) r.pa
    (s.onFlight q i fun x => { x with denied := some (x.denied.getD va) }).cmdSettle q i
  | some _, .lost => (s.onFlight q i fun x => { x with lost := x.lost + r.lines }).cmdSettle q i

/-- The part of a burst at a physical address that a request covers: addresses lo to hi − 1. -/
def Burst.part (b : Burst) (pa : Nat) (r : PeerReq) : Option (Nat × Nat) :=
  let lo := max pa r.pa
  let hi := min (pa + b.len) (r.pa + 64 * r.lines)
  if lo < hi then some (lo, hi) else none

/-- The virtual address of the first byte of a copy that a request carries. -/
def CopyOp.vaOf (o : CopyOp) (exts : List Extent) (r : PeerReq) : Nat :=
  (o.bursts.findSome? fun b =>
    let pa := b.pa exts o.out
    (b.part pa r).map fun p => b.va + (p.1 - pa)).getD o.ux

/-- The cause of R186 for a request that failed. -/
def ReqEnd.copyCause : ReqEnd → Nat
  | .refused 1 => 2
  | .refused 2 => 2
  | .refused _ => 1
  | _ => 3

/-- A request of a core's tile copy has ended (R182, R186, R187). -/
def State.copyReqEnd (s : State) (c n : Nat) (r : PeerReq) (e : ReqEnd) : State :=
  let k := s.core c
  match (k.copies ++ k.acking ++ k.dropped).find? (fun o => o.k == n) with
  | none => s
  | some o =>
    match e with
    | .ok data =>
      if k.dropped.any (fun x => x.k == n) then s
      else if o.out then
        if s.owed (.copy c n) = 0 then s.setCore c { k with acking := k.acking.filter (fun x => x.k != n) } else s
      else
        s.each o.bursts fun s b =>
          let pa := b.pa k.exts false
          match b.part pa r with
          | some (lo, hi) => s.copyIn c (b.sp + (lo - pa)) (dataBytes r.pa data lo hi) []
          | none => s
    | _ => let va := o.vaOf k.exts r; s.copyFault c o e.copyCause (o.rowOf va) va

/-- The virtual address of the first byte of a core's loads that a request carries. -/
def State.loadVa (s : State) (c : Nat) (l : LaunchRef) (r : PeerReq) : Nat :=
  let va := vaOfPa l.exts r.pa
  match (s.loadRanges c l).find? fun e => decide (va < e.1 + e.2) && decide (e.1 < va + 64 * r.lines) with
  | some e => max va e.1
  | none => va

/-- Lines of a core's loads have come from a peer, or have failed; the loads go on (R129). -/
def State.loadReqEnd (s : State) (c : Nat) (r : PeerReq) (e : ReqEnd) : State :=
  let k := s.core c
  match k.launch with
  | none => s
  | some l =>
    (match e with
     | .ok data => s.setCore c { k with loadBuf := k.loadBuf ++ (List.range r.lines).map fun j =>
         (r.pa / 64 + j, BitVec.ofNat 512 (leNat (wordBytes ((data.drop (8 * j)).take 8)))) }
     | _ => s.loadFails c (s.loadVa c l r)).askLoads c 64

/-- The line that eight words spell. -/
def wordsLine (l : List Word) : Line := BitVec.ofNat 512 (leNat (wordBytes (l.take 8)))

/-- A request of a customer site's agent ends: its data, an acknowledgement, a refusal, or poison when it is lost. -/
def State.siteReqEnd (s : State) (agent pa size : Nat) (r : PeerReq) (e : ReqEnd) : State :=
  match e with
  | .ok data =>
    if r.msg.kind = 3 then
      s.answerLine agent (BitVec.ofNat 512 (leNat (dataBytes r.pa data pa (pa + size)))) false
    else s.answer agent 0
  | .refused code => s.answer agent 0 (if code = 4 then 6 else 5)
  | .lost => s.answer agent 0 0 true

/-- A request ends, and its requester learns how (R354, R358, R360). -/
def State.reqEnd (s : State) (r : PeerReq) (e : ReqEnd) : State :=
  let s := { s with peerReqs := dropFirst (fun (x : PeerReq) => decide (x.id = r.id)) s.peerReqs }
  let s := if e = .lost then s.bump LK_STATUS.LOST 0 else s
  match r.who with
  | .gone => s
  | .cmd q i pos => s.cmdReqEnd q i pos r e
  | .copy c n => s.copyReqEnd c n r e
  | .load c => s.loadReqEnd c r e
  | .hostStore c pa =>
    (match e with
     | .ok _ => s.storeEnds c pa 0
     | .lost => s.storeEnds c pa 1
     | .refused _ => s.storeEnds c pa 2)
  | .hostLoad c size =>
    (match e with
     | .ok data => s.peerLoadDone c (r.pa / 64) size (wordsLine data) false
     | _ => s.peerLoadDone c (r.pa / 64) size 0 true)
  | .ce hub q i =>
    (match e with
     | .ok _ => s.ceDone r hub q i (some 0)
     | .refused code => s.ceDone r hub q i (some code)
     | .lost => s.ceDone r hub q i none)
  | .site agent pa size => s.siteReqEnd agent pa size r e

/-- Something is done with a request as it now stands, if it has not ended. -/
def State.withReq (s : State) (r : PeerReq) (f : State → PeerReq → State) : State :=
  match s.peerReqs.find? (fun x => x.id == r.id) with
  | some r => f s r
  | none => s

/-- Requests complete LOST (R354). -/
def State.loseReqs (s : State) (rs : List PeerReq) : State := s.each rs fun s r => s.withReq r fun s r => s.reqEnd r .lost

/-- PEER_TIMEOUT in ticks. -/
def State.peerTicks (s : State) : Nat := s.rd LK_CFG.PEER_TIMEOUT * 1000

/-- Whether the window of a request has ended (R360). -/
def State.overdue (s : State) (r : PeerReq) : Bool :=
  match r.sent with
  | some t0 => decide (t0 + s.peerTicks ≤ s.now)
  | none => false

/-- PEER_TIMEOUT (R360): the window of a request has ended. -/
def execPeerTimeout (t tag : Nat) (s : State) : Res :=
  s.live t fun s =>
    match s.peerReqs.find? (fun r => r.tag == tag && r.sent.isSome) with
    | some r => if s.overdue r then s.reqEnd r .lost else s
    | none => s

/-! ### Sending flits (R344–R350) -/

/-- The credits of a pool: class × 2 + response (R348). -/
def poolSize (k : Nat) : Nat := if k < 2 then 64 else if k % 2 = 0 then 448 else 192

/-- Credits of a pool that a link's sender has used. -/
def Link.usedOf (x : Link) (k : Nat) : Nat := Tab.get (fun _ => 0) x.used k

/-- An egress queue of a link. -/
def Link.queueOf (x : Link) (k : Nat) : List Msg := Tab.get (fun _ => []) x.egress k

/-- The egress queue of a class of a link that can send: responses first, then requests, with a credit and a first message
that may leave (R348, R360; the order of the two log entry 39). -/
def State.poolOf (s : State) (l cls : Nat) : Option Nat :=
  let x := s.link l
  [2 * cls + 1, 2 * cls].find? fun k => decide (x.usedOf k < poolSize k) && (match x.queueOf k with
    | m :: _ => s.mayLeave m
    | [] => false)

/-- Whole messages from the front that may leave and fit in so many slots (R347, R360); no two of them carry one TAG. -/
def State.packMsgs (s : State) : Nat → List Nat → List Msg → List Msg
  | _, _, [] => []
  | room, tags, m :: r =>
    if Msg.slots m ≤ room ∧ s.mayLeave m ∧ (isResponse m.kind ∨ !tags.contains m.tag) then
      m :: s.packMsgs (room - Msg.slots m) (if isResponse m.kind then tags else m.tag :: tags) r
    else []

/-- LK_CLASS_WEIGHT of a class. -/
def State.weight (s : State) (cls : Nat) : Nat :=
  match cls with
  | 1 => s.rd LK_CLASS_WEIGHT.W1
  | 2 => s.rd LK_CLASS_WEIGHT.W2
  | _ => s.rd LK_CLASS_WEIGHT.W3

/-- What a flit boundary picks after the replay (R347): the pool, whether a token is used, and the class whose turn is
spent. -/
structure Pick where
  /-- pool -/
  pool : Nat
  /-- a class-0 token -/
  token : Bool
  /-- class of the turn, 0 none -/
  turn : Nat
  deriving DecidableEq, Repr

/-- The pool that a turn of classes 1–3 sends from: in class 1's turns the class-0 messages without a reservation go
first (R347). -/
def State.turnPool (s : State) (l cls : Nat) : Option Nat :=
  if cls = 1 then (match s.poolOf l 0 with
    | some k => some k
    | none => s.poolOf l 1)
  else s.poolOf l cls

/-- The turns of classes 1–3 by the weights. -/
def State.fullTurns (s : State) : Tab Nat := [(1, s.weight 1), (2, s.weight 2), (3, s.weight 3)]

/-- A class whose turns are left and that can send. -/
def State.turnOf (s : State) (l : Nat) (turns : Tab Nat) : Option (Nat × Nat) :=
  [1, 2, 3].findSome? fun c =>
    if 0 < Tab.get (fun _ => 0) turns c then (s.turnPool l c).map (fun k => (c, k)) else none

/-- The choice of a new flit (R347, R350): class 0 with a token, then the weighted round robin, whose turns begin anew
when no class with turns left can send. -/
def State.pickFlit (s : State) (l : Nat) : Option (Pick × Tab Nat) :=
  let x := s.link l
  let reserved := s.rd LK_LINK_CFG.C0_PCT l != 0 && decide (x.tokensOut < 32)
  match if reserved then s.poolOf l 0 else none with
  | some k => some (⟨k, true, 0⟩, x.turns)
  | none =>
    match s.turnOf l x.turns with
    | some (c, k) => some (⟨k, false, c⟩, x.turns)
    | none =>
      match s.turnOf l s.fullTurns with
      | some (c, k) => some (⟨k, false, c⟩, s.fullTurns)
      | none => none

/-- A LAT_BOUND event of a link (R510); the ticks taken by this end are a free value (log entry 39). -/
def State.latBound (s : State) (l reason : Nat) : State :=
  let (v, s) := s.free
  (s.offer 17 0 (0x9000 + l) (l / 12) (packBits [(0, reason), (8, l), (32, v.toNat % 2 ^ 32)])).pmcHub (l / 12) 75

/-- Requests have left: their windows begin, and commands whose lines the link has now accepted may be complete (R182,
R205, R360). -/
def State.leaveMsgs (s : State) (ms : List Msg) : State :=
  let who := ((s.reqsOf ms).map (·.who)).eraseDups
  (s.markSent ms).each who fun s w => match w with
    | .cmd q i _ => s.cmdSettle q i
    | _ => s

/-- The credits that a link returns with its next flit: class, pool and count, and what is left to return. -/
def Link.returns (x : Link) : Nat × Nat × List (Nat × Nat) :=
  match x.giveBack with
  | [] => (0, 0, [])
  | (k, n) :: r => if n ≤ 1023 then (k, n, r) else (k, 1023, (k, n - 1023) :: r)

/-- A flit leaves: its words are on the link's lanes (R345). -/
def State.onLanes (s : State) (l : Nat) (f : Flit) : State :=
  { s with lanes := Tab.put (fun _ => []) s.lanes l (flitWords f) }

/-- A sequenced flit leaves and is counted (R366, R513). -/
def State.countFlit (s : State) (l : Nat) (f : Flit) : State :=
  ((s.onLanes l f).bump LK_LINK_TX_FLITS.COUNT l).pmcHub (l / 12) (71 + f.cls)

/-- The earning of tokens counted up to a tick: whole tokens, and the rest in 1/128 of a token; a flit time is 1.28 ticks
(R344, R350). -/
def Link.earnedBy (x : Link) (pct now : Nat) : Nat × Nat :=
  let n := (now - x.earned.1) * pct + x.earned.2
  (n / 128, n % 128)

/-- A link whose first token is taken: what it would have earned meanwhile is no more than 32 (R350). -/
def Link.takeToken (x : Link) (pct now : Nat) : Link :=
  { x with tokensOut := x.tokensOut + 1, earned := if x.tokensOut = 0 then (now, (x.earnedBy pct now).2) else x.earned }

/-- The LAT_BOUND event of a class-0 flit that leaves: without a token each of its messages writes one; with a token, when its
first message had waited at the head longer than stage 1 takes, 1.3 ticks (R351, R510; log entry 139). -/
def State.sentBound (s : State) (l : Nat) (token : Bool) (head : Nat) (ms : List Msg) : State :=
  if !token then (s.bump LK_LINK_REPLAY.OVER_RESERVE l).each ms fun s _ => s.latBound l 1
  else if head + 1 < s.now then s.latBound l 2
  else s

/-- A new flit of a pick leaves (R344–R351). -/
def State.sendNew (s : State) (l : Nat) (p : Pick) (turns : Tab Nat) : State :=
  let x := s.link l
  let ms := s.packMsgs 30 [] (x.queueOf p.pool)
  let (k, n, back) := x.returns
  let f : Flit := ⟨x.txSeq, x.rxSeq, x.nak, p.pool / 2, false, k / 2, k % 2 == 1, n, ms⟩
  let spent := if p.turn = 0 then turns else Tab.put (fun _ => 0) turns p.turn (Tab.get (fun _ => 0) turns p.turn - 1)
  let x' : Link :=
    { x with txSeq := (x.txSeq + 1) % 65536, nak := false, giveBack := back,
             replay := x.replay ++ [f], ackAt := if x.replay.isEmpty then s.now else x.ackAt,
             egress := Tab.put (fun _ => []) x.egress p.pool ((x.queueOf p.pool).drop ms.length),
             headAt := if p.pool < 2 then Tab.put (fun _ => 0) x.headAt p.pool s.now else x.headAt,
             used := Tab.put (fun _ => 0) x.used p.pool (x.usedOf p.pool + 1), turns := spent }
  let x' := if p.token then x'.takeToken (s.rd LK_LINK_CFG.C0_PCT l) s.now else x'
  let s := (s.setLink l x').countFlit l f
  let s := if p.pool < 2 then s.sentBound l p.token (Tab.get (fun _ => 0) x.headAt p.pool) ms else s
  s.leaveMsgs ms

/-- A flit of the replay leaves again, with the present ACK, NAK and credits to return (R347, R349). -/
def State.sendAgain (s : State) (l : Nat) (f : Flit) : State :=
  let x := s.link l
  let (k, n, back) := x.returns
  (s.setLink l { x with again := x.again.tail, nak := false, giveBack := back }).countFlit l
    { f with ack := x.rxSeq, nak := x.nak, crClass := k / 2, crRsp := k % 2 == 1, crCount := n }

/-- A NULL flit leaves: it carries ACK, NAK and the credits to return; its SEQ and CLASS are free values (R345, R347, log
entry 137). -/
def State.sendNull (s : State) (l : Nat) : State :=
  let x := s.link l
  let (k, n, back) := x.returns
  let (v, s) := s.free
  (s.setLink l { x with nak := false, giveBack := back }).onLanes l
    ⟨v.toNat % 65536, x.rxSeq, x.nak, v.toNat / 65536 % 4, true, k / 2, k % 2 == 1, n, []⟩

/-- FLIT_SEND (R347): at a flit boundary an ACTIVE link sends a flit of the replay, a class-0 flit that the reservation
allows, one of the weighted classes, or a NULL flit; the replay buffer holds 1,024 flits (R344). No egress during a save
(R478). -/
def execFlitSend (t link : Nat) (s : State) : Res :=
  s.live t fun s =>
    if link < 24 ∧ s.linkState link = 2 ∧ s.save.phase = 0 then
      match (s.link link).again with
      | f :: _ => s.sendAgain link f
      | [] =>
        if 1024 ≤ (s.link link).replay.length then s.sendNull link
        else
          match s.pickFlit link with
          | some (p, turns) => s.sendNew link p turns
          | none => s.sendNull link
    else s

/-! ### Receiving flits (R346–R349, R359) -/

/-- Flits after the one with a SEQ; all where none has it. -/
def afterSeq (a : Nat) (l : List Flit) : List Flit :=
  if l.any (fun f => f.seq == a) then (l.dropWhile (fun f => f.seq != a)).drop 1 else l

/-- A replay starts: every flit kept is sent again (R349). -/
def State.startReplay (s : State) (l : Nat) : State :=
  let x := s.link l
  let w := s.winNum 1000000
  let n := if x.replayWin.1 = w then x.replayWin.2 + 1 else 1
  (s.setLink l { x with again := x.replay, ackAt := s.now, replayWin := (w, n) }).bump LK_LINK_REPLAY.REPLAYS l

/-- The ACK, the NAK and the credits of an intact flit take effect (R348, R349). -/
def State.flitHeader (s : State) (l : Nat) (f : Flit) : State :=
  let x := s.link l
  let k := 2 * f.crClass + bit f.crRsp
  let moved := x.replay.any (fun g => g.seq == f.ack)
  let x : Link :=
    { x with acked := f.ack, replay := afterSeq f.ack x.replay, again := afterSeq f.ack x.again,
             ackAt := if moved then s.now else x.ackAt, used := Tab.put (fun _ => 0) x.used k (x.usedOf k - f.crCount) }
  let s := s.setLink l x
  if f.nak && !x.replay.isEmpty then s.startReplay l else s

/-- A flit is discarded: after the first discard a NAK is sent (R349). -/
def State.discardFlit (s : State) (l : Nat) : State :=
  let x := s.link l
  s.setLink l { x with nak := x.nak || !x.discarding, discarding := true }

/-- The class of a request arriving on a link, raised to IN_FLOOR (R359). -/
def State.inClass (s : State) (l cls : Nat) (m : Msg) : Nat :=
  if isResponse m.kind then cls else max cls (s.rd LK_LINK_CFG.IN_FLOOR l)

/-- Whether a KIND is defined (R346). -/
def knownKind (k : Nat) : Bool := (decide (1 ≤ k) && decide (k ≤ 6)) || isResponse k

/-- A message is delivered to its port's queue; one of an undefined KIND is refused (R346, R358). -/
def State.deliver (s : State) (port entry cls : Nat) (m : Msg) (c0 : Bool := false) : State :=
  let x : RxMsg := ⟨cls, entry, m, s.now, s.tb, c0, false⟩
  if knownKind m.kind then
    { s with rx := Tab.put (fun _ => []) s.rx port (Tab.get (fun _ => []) s.rx port ++ [x]) }
  else s.respond port x 0x44 (if m.dst = s.deviceId then 6 else 2) []

/-- Whether a message goes to a channel whose class-0 bound is suspended (R289). -/
def State.suspends (s : State) (m : Msg) : Bool :=
  let pa := m.addr.toNat
  s.region pa == .hbm && (m.kind == 1 || m.kind == 2 || m.kind == 4) && s.flag HM_CH_STATUS.SUSPENDED (s.chanOf pa)

/-- The SUSPENDED event of a class-0 message whose channel is suspended, at most once per link per 1 µs window (R510). -/
def State.suspended (s : State) (l : Nat) (m : Msg) : State :=
  let x := s.link l
  if s.suspends m && x.suspWin != s.winNum 1000 + 1 then
    (s.setLink l { x with suspWin := s.winNum 1000 + 1 }).latBound l 4
  else s

/-- The messages of a flit received in order are delivered together, and its credit is to be returned (R346, R348). -/
def State.acceptFlit (s : State) (l : Nat) (f : Flit) : State :=
  let x := s.link l
  let k := 2 * f.cls + bit (f.msgs.any (fun m => isResponse m.kind))
  let back := if x.giveBack.any (fun e => e.1 == k) then x.giveBack.map (fun e => if e.1 = k then (k, e.2 + 1) else e)
    else x.giveBack ++ [(k, 1)]
  let s := (s.setLink l { x with rxSeq := f.seq, discarding := false, giveBack := back }).bump LK_LINK_RX_FLITS.COUNT l
  s.each f.msgs fun s m =>
    (if f.cls = 0 then s.suspended l m else s).deliver (0x9000 + l) 0 (s.inClass l f.cls m) m
      (f.cls == 0)

/-- FLIT_RECEIVE (R345, R349): 32 words come from a link's lanes, after the FEC; they are checked, and the flit is delivered,
or discarded and answered with NAK. -/
def execFlitReceive (t link : Nat) (words : List Word) (fecCorr : Nat) (fecBad : Bool) (s : State) : Res :=
  s.live t fun s =>
    if link < 24 ∧ s.linkState link = 2 then
      let s := s.bump LK_LINK_ERR.FEC_CORR link fecCorr
      let f := flitOf words
      if fecBad then (s.bump LK_LINK_ERR.FEC_UNCORR link).discardFlit link
      else if !flitIntact words then (s.bump LK_LINK_ERR.CRC_FAIL link).discardFlit link
      else if f.null then s.flitHeader link f
      else if f.seq = ((s.link link).rxSeq + 1) % 65536 then (s.flitHeader link f).acceptFlit link f
      else s.discardFlit link
    else s

/-- REPLAY_TIMEOUT (R349): ACK has not advanced for 2 µs. -/
def execReplayTimeout (t link : Nat) (s : State) : Res :=
  s.live t fun s =>
    let x := s.link link
    if s.linkState link = 2 ∧ !x.replay.isEmpty ∧ x.ackAt + 2000 ≤ s.now then s.startReplay link else s

/-- TOKEN_EARN (R350): a token is earned every 100 / C0_PCT flit times, and never a 33rd. -/
def execTokenEarn (t link : Nat) (s : State) : Res :=
  s.live t fun s =>
    let x := s.link link
    let (n, rest) := x.earnedBy (s.rd LK_LINK_CFG.C0_PCT link) s.now
    if link < 24 ∧ 0 < n ∧ 0 < x.tokensOut then
      s.setLink link { x with tokensOut := x.tokensOut - min n x.tokensOut, earned := (s.now, rest) }
    else s

/-! ### Training and loss (R352–R354, R357) -/

/-- A request that has not left takes another usable link of its window, or is LOST at once (R354, R357). -/
def State.reroute (s : State) (r : PeerReq) : State :=
  match s.winPort r.win (r.pa % 2 ^ 40) with
  | none => s.reqEnd r .lost
  | some port =>
    let s := { s with peerReqs := s.peerReqs.map fun (x : PeerReq) => if x.id = r.id then { x with port := port } else x }
    s.pushMsg port (s.rd LK_WIN_DEV.EPEER r.win) r.cls r.msg

/-- The windows that name a link. -/
def State.linkWins (s : State) (l : Nat) : List Nat :=
  (List.range 256).filter fun w => s.flag LK_WIN.VALID w && (s.rd LK_WIN.LINKS w).testBit l

/-- The requests that a link has delivered will not be answered (R354). -/
def State.muteRx (s : State) (l : Nat) : State :=
  let mine := Tab.get (fun _ => []) s.rx (0x9000 + l)
  { s with rx := Tab.put (fun _ => []) s.rx (0x9000 + l) (mine.map fun (x : RxMsg) => { x with mute := true }) }

/-- A link becomes DOWN (R354, R357): its link-layer state is lost, it leaves its windows' lists, requests that have left
complete LOST, those that have not take another link or are LOST, and those that it delivered are not answered. -/
def State.linkDown (s : State) (l : Nat) : State :=
  let mine := s.peerReqs.filter (fun r => r.port == 0x9000 + l)
  let s := ((s.setLink l { linkInit l with since := s.now }).wr LK_LINK_STATUS.STATE l 4).wr LK_LINK_STATUS.C0_SUSPENDED l 0
  let gone := (s.linkWins l).map (fun w => (w, l))
  let s := { s.muteRx l with rejoin := s.rejoin ++ gone.filter (fun e => !s.rejoin.contains e) }
  (s.loseReqs (mine.filter (fun r => r.sent.isSome))).each (mine.filter (fun r => r.sent.isNone)) fun s r =>
    s.withReq r State.reroute

/-- Initial training of a link begins (R352). -/
def State.beginTraining (s : State) (l : Nat) : State :=
  (s.setLink l { s.link l with since := s.now }).wr LK_LINK_STATUS.STATE l 1

/-- A link becomes ACTIVE with fresh state (R352). -/
def State.activeFresh (s : State) (l peer : Nat) : State :=
  let s := s.setLink l { linkInit l with
    resume := true, egress := (s.link l).egress, headAt := (s.link l).headAt, earned := (s.now, 0) }
  ((s.wr LK_LINK_STATUS.STATE l 2).wr LK_LINK_STATUS.C0_SUSPENDED l 0).wr LK_LINK_STATUS.PEER_ID l peer

/-- ENABLE of a link as it now stands takes effect: 1 starts initial training of a DISABLED link (R352); 0 takes the link
down as R354 does and leaves it DISABLED (log entry 39). -/
def State.linkConfigured (s : State) (l : Nat) : State :=
  if s.flag LK_LINK_CFG.ENABLE l then
    if s.linkState l = 0 then s.beginTraining l else s
  else if s.linkState l = 0 then s
  else (s.linkDown l).wr LK_LINK_STATUS.STATE l 0

/-- A store to LK_LINK_CFG. -/
def State.linkStore (s : State) (agent l : Nat) (v : Word) : State :=
  (s.storeReg agent (LK_LINK_CFG.ENABLE.off l) v).linkConfigured l

/-- LINK_ENABLE (R352): a write of LK_LINK_CFG. -/
def execLinkEnable (t agent link : Nat) (v : Word) (s : State) : Res :=
  s.live t fun s =>
    if link < 24 then
      let off := LK_LINK_CFG.ENABLE.off link
      s.gate agent off true fun s => s.txnWrite agent off v fun s => s.linkStore agent link v
    else s

/-- Both ends resume after a retrain: each replays from the other's last good SEQ + 1 (R353). -/
def State.resumeLink (s : State) (l peer lastSeq : Nat) : State :=
  let x := s.link l
  let kept := afterSeq lastSeq x.replay
  let x : Link :=
    { x with acked := lastSeq, replay := kept, again := kept, ackAt := s.now, nak := false, discarding := false }
  (((s.setLink l x).wr LK_LINK_STATUS.STATE l 2).wr LK_LINK_STATUS.C0_SUSPENDED l 0).wr LK_LINK_STATUS.PEER_ID l peer

/-- TRAINING_DONE (R352, R353): a link in TRAINING becomes ACTIVE with fresh state; one in RETRAIN resumes when both ends
hold their state, and otherwise is handled as DOWN before it becomes ACTIVE. -/
def execTrainingDone (t link peer : Nat) (resume : Bool) (lastSeq : Nat) (s : State) : Res :=
  s.live t fun s =>
    match s.linkState link with
    | 1 => s.activeFresh link peer
    | 3 =>
      if resume && (s.link link).resume then s.resumeLink link peer lastSeq
      else ((s.linkDown link).bump LK_LINK_STATUS.LINK_RESETS link).activeFresh link peer
    | _ => s

/-- TRAINING_TIMEOUT (R352): training has not reached ACTIVE within 100 ms. -/
def execTrainingTimeout (t link : Nat) (s : State) : Res :=
  s.live t fun s =>
    if s.linkState link = 1 ∧ (s.link link).since + 100000000 ≤ s.now then s.linkDown link else s

/-- An ACTIVE link enters RETRAIN (R353). -/
def State.enterRetrain (s : State) (l : Nat) : State :=
  let s := s.setLink l { s.link l with since := s.now }
  ((s.wr LK_LINK_STATUS.STATE l 3).wr LK_LINK_STATUS.C0_SUSPENDED l 1).bump LK_LINK_STATUS.RETRAINS l

/-- A write of LK_LINK_CTRL.RETRAIN (R353). -/
def State.retrainLink (s : State) (l : Nat) : State := if s.linkState l = 2 then s.enterRetrain l else s

/-- LINK_RETRAIN (R353): more than REPLAY_LIMIT replays in one 1 ms window (0), a lane (1), the neighbour (2), or a write
of LK_LINK_CTRL.RETRAIN (3). -/
def execLinkRetrain (t link cause agent : Nat) (s : State) : Res :=
  s.live t fun s =>
    let go := fun (s : State) => s.retrainLink link
    if 24 ≤ link then s
    else if cause = 3 then s.gate agent (LK_LINK_CTRL.RETRAIN.off link) true go
    else if cause = 0 then
      let w := (s.link link).replayWin
      if w.1 = s.winNum 1000000 ∧ s.rd LK_LINK_CFG.REPLAY_LIMIT link < w.2 then go s else s
    else go s

/-- RETRAIN_TIMEOUT (R353): a link in RETRAIN is not ACTIVE within 1 ms. -/
def execRetrainTimeout (t link : Nat) (s : State) : Res :=
  s.live t fun s =>
    if s.linkState link = 3 ∧ (s.link link).since + 1000000 ≤ s.now then s.linkDown link else s

/-- AUTO_TRAIN (R354): 100 ms after it became DOWN, a link with AUTO_TRAIN set trains again. -/
def execAutoTrain (t link : Nat) (s : State) : Res :=
  s.live t fun s =>
    if s.linkState link = 4 ∧ s.flag LK_LINK_CFG.AUTO_TRAIN link ∧ (s.link link).since + 100000000 ≤ s.now then
      s.beginTraining link
    else s

/-- A write of LK_LINK_CTRL.TRAIN (R354). -/
def State.trainLink (s : State) (l : Nat) : State := if s.linkState l = 4 then s.beginTraining l else s

/-- TRAIN (R354): a write of LK_LINK_CTRL.TRAIN trains a DOWN link. -/
def execTrain (t agent link : Nat) (s : State) : Res :=
  s.live t fun s =>
    if link < 24 then
      s.gate agent (LK_LINK_CTRL.TRAIN.off link) true fun s => s.trainLink link
    else s

/-! ### Windows (R356, R357) -/

/-- The check of a window whose VALID was written to 1 (R356). -/
def State.winCheck (s : State) (w : Nat) : State :=
  let via := s.flag LK_WIN.VIA w
  let bad := s.rd LK_WIN_DEV.DEVICE w == s.deviceId || (!via && s.rd LK_WIN.LINKS w == 0) ||
    (via && !s.flag LK_EPEER_CFG.VALID (s.rd LK_WIN_DEV.EPEER w))
  s.wr LK_WIN.REFUSED w (bit bad)

/-- A store to LK_WIN: a VALID of 1 checks the window (R356). -/
def State.winStore (s : State) (agent w : Nat) (v : Word) : State :=
  let s := s.storeReg agent (LK_WIN.VALID.off w) v
  if LK_WIN.VALID.get v = 1 then s.winCheck w else s

/-- WINDOW_VALID (R356): a write of LK_WIN. -/
def execWindowValid (t agent w : Nat) (v : Word) (s : State) : Res :=
  s.live t fun s =>
    if w < 256 then
      let off := LK_WIN.VALID.off w
      s.gate agent off true fun s => s.txnWrite agent off v fun s => s.winStore agent w v
    else s

/-- LINK_REJOIN (R357): a link that has returned to ACTIVE rejoins a window at a 1 µs boundary at which the window has no
request outstanding. -/
def execLinkRejoin (t w link : Nat) (s : State) : Res :=
  s.live t fun s =>
    if s.linkState link = 2 ∧ s.edge 1000 ∧ !s.peerReqs.any (fun r => r.win == w) then
      { s with rejoin := s.rejoin.filter (fun e => decide (e ≠ (w, link))) }
    else s

end Sys2Proof.Machine
end

