-- ==== Sys2Proof/Machine/Power.lean ====
section
/-! DEFINITION. Measurements and throttling: power samples, gate duties, HCLK, caps, sags and temperatures
(R453–R455, R464–R469, R476). -/

namespace Sys2Proof.Machine

/-! ### Limits of a polder (R453, R455, R465) -/

/-- A limit as a measurement stands to it: the reason of R473, the measurement and the limit. -/
structure Limit where
  /-- reason -/
  reason : Nat
  /-- measurement -/
  value : Rat
  /-- limit -/
  most : Nat
  deriving DecidableEq, Repr

/-- A measurement is above its limit. -/
def Limit.passed (l : Limit) : Bool := decide ((l.most : Rat) < l.value)

/-- A measurement is below 95 % of its limit. -/
def Limit.low (l : Limit) : Bool := decide (l.value * 20 < (l.most : Rat) * 19)

/-- The mean VIN current of a polder's converters over 10 µs, in A. -/
def State.ampsOf (s : State) (p : Nat) : Rat := meanOf ((s.recent us10).map fun x => x.amps.getD p 0)

/-- The limits of a polder (R453). -/
def State.polderLimits (s : State) (p : Nat) : List Limit :=
  [⟨1, s.meanW ms100 p, s.rd SLU_POLDER_CFG.BUDGET_W p⟩, ⟨1, max (s.meanW us10 p) (s.meanW ms1 p), s.peakOf p⟩,
   ⟨2, s.ampsOf p, s.rd SLU_POLDER_CFG.IMAX_A p⟩]

/-- The limits of the package (R455). -/
def State.pkgLimits (s : State) : List Limit :=
  [⟨1, s.meanW ms100 15, s.rd SLU_PKG_CFG.SUSTAIN_W⟩, ⟨1, s.meanW us10 15, s.rd SLU_PKG_CFG.PKG_PEAK_W⟩,
   ⟨2, s.vinA10, 2100⟩]

/-- More samples than EXCURSION_MS allows lie above SUSTAIN_W (R455). -/
def State.excursion (s : State) : Bool := decide (1000 * s.rd SLU_PKG_CFG.EXCURSION_MS < s.excUs)

/-- The tensor polder with the highest M10, the lowest number among equals (R465). -/
def State.hottest (s : State) : Nat :=
  [1, 2, 3].foldl (fun a p => if s.meanW us10 a < s.meanW us10 p then p else a) 0

/-- Whether a throttle action is in force for a reason and polder. -/
def State.acting (s : State) (reason polder : Nat) : Bool := s.thrEvents.any fun e => e.is reason polder && e.act

/-- The events of limits that are passed open or stay open, as throttle actions. -/
def State.openLimits (s : State) (p : Nat) (l : List Limit) : State :=
  s.each (l.filter Limit.passed) fun s x => s.openEvent x.reason p nobodys 0 x.most true

/-- The throttle actions of a polder for power and current are undone. -/
def State.endLimits (s : State) (p : Nat) : State := (s.endAct 1 p).endAct 2 p

/-! ### Gate duty (R464, R465, R467, R468, R476) -/

/-- The highest duty that a sag and a die's temperature allow. -/
def State.dutyCap (s : State) (p : Nat) : Nat :=
  if 105 ≤ s.rd SLU_POLDER_THR.TEMP_C p then 4 else if s.flag SLU_PKG_STATUS.SAG then 8 else 16

/-- A die's gate duty becomes n, as far as it is allowed. -/
def State.setDuty (s : State) (p n : Nat) : State := s.gateDuty p (min n (s.dutyCap p))

/-- Whether a tensor die's duty may rise again: no action for power or current is in force on it, no throttle action for
its temperature, and no ramp (R464, R465). -/
def State.mayRise (s : State) (p : Nat) : Bool :=
  !s.acting 3 p && !Tab.get (fun _ => false) s.ramps p

/-- The duty of a tensor die after a sample (R465): halved by a 1 µs sample above 1.2 × IMAX_A; 1/16 lower while a limit is
passed; 1/16 higher once every limit is below 95 %, and the actions are undone at full duty. -/
def State.dutyStep (s : State) (p : Nat) (pkgOver pkgLow : Bool) (amps : Nat) : State :=
  let l := s.polderLimits p
  let d := s.duty p
  let s := s.openLimits p l
  if 6 * s.rd SLU_POLDER_CFG.IMAX_A p < 5 * amps then
    (s.openEvent 2 p nobodys 0 (s.rd SLU_POLDER_CFG.IMAX_A p) true).setDuty p (d / 2)
  else if l.any Limit.passed || pkgOver then s.setDuty p (d - 1)
  else if l.all Limit.low && pkgLow then
    let s := if s.mayRise p then s.setDuty p (d + 1) else s
    if s.duty p = 16 then s.endLimits p else s
  else s

/-! ### Caps of P5–P7 (R465, R468) -/

/-- Eighths of full rate taken from a polder. -/
def State.cap (s : State) (p : Nat) : Nat := Tab.get (fun _ => 0) s.caps p

/-- The eighths taken from a polder; half at 105 °C. -/
def State.setCap (s : State) (p n : Nat) : State :=
  let least := if 105 ≤ s.rd SLU_POLDER_THR.TEMP_C p then 4 else 0
  { s with caps := Tab.put (fun _ => 0) s.caps p (max least (min n 8)) }

/-- The cap of a polder at a 10 µs boundary (R465). -/
def State.capStep (s : State) (p : Nat) : State :=
  let l := s.polderLimits p
  let s := s.openLimits p l
  if !s.edge 10000 then s
  else if l.any Limit.passed then s.setCap p (s.cap p + 1)
  else if l.all Limit.low && !s.acting 3 p then
    let s := s.setCap p (s.cap p - 1)
    if s.cap p = 0 then s.endLimits p else s
  else s

/-- P4's limits (R465): while one is passed the action, a step of HCLK per 10 µs, is in force. -/
def State.hostPower (s : State) : State :=
  let l := s.polderLimits 4
  let s := s.openLimits 4 l
  if l.all Limit.low then s.endLimits 4 else s

/-! ### Sag (R476) -/

/-- What a VIN sample does to a sag (R476): below 95 % of 1.8 V it opens, with every tensor duty at most 8/16; after 10 µs
at or above 97 % it is undone. -/
def State.sagStep (s : State) (mv : Nat) : State :=
  if mv < 1710 then
    let s := ((s.wr SLU_PKG_STATUS.SAG 0 1).openEvent 4 15 nobodys 0 mv true)
    ({ s with vinOkAt := none }).each (List.range 4) fun s p => s.setDuty p (s.duty p)
  else if s.flag SLU_PKG_STATUS.SAG then
    if mv < 1746 then { s with vinOkAt := none }
    else
      let t := s.vinOkAt.getD s.now
      if t + us10 ≤ s.now then
        let s := ((s.wr SLU_PKG_STATUS.SAG 0 0).endAct 4 15)
        ({ s with vinOkAt := none }).each (List.range 4) fun s p =>
          if s.acting 1 p || s.acting 2 p || s.acting 1 15 || s.acting 2 15 || !s.mayRise p then s else s.setDuty p 16
      else { s with vinOkAt := some t }
  else s

/-! ### Guarantees that give way (R470, R471) -/

/-- What a launch draws on a die at full duty, in 0.1 W: its need, shared evenly by its cores. -/
def InFlight.drawOn (f : InFlight) (die : Nat) : Nat :=
  let cores := launchCores f.words
  f.need * (cores.filter fun c => dieOf c == die).length / max cores.length 1

/-- An action breaks a class's floor: the class's launches draw less, at their dies' duties, than both the floor and their
need (log entry 59). -/
def State.floorBroken (s : State) (cls : Nat) : Bool :=
  let l := s.classLaunches cls
  let now := ((List.range 4).map fun d => (l.map fun f => f.drawOn d).sum * s.duty d).sum / 16
  decide (now < min (s.classFloor cls) (l.map (·.need)).sum)

/-- The rank that gives way where dies run at a lowered duty: 5 when a launch of class 0 runs there, 6 when another class's
floor is broken there, 0 none (log entry 59). -/
def State.yieldRank (s : State) (dies : List Nat) : Nat :=
  let low := dies.filter fun d => decide (s.duty d < 16)
  let hit := fun (k : Nat) => (s.classLaunches k).any fun f =>
    f.begun && (launchCores f.words).any fun c => low.contains (dieOf c)
  if hit 0 then 5 else if [1, 2].any fun k => hit k && s.floorBroken k then 6 else 0

/-- A throttle action that caps class 0 or breaks a class floor makes its event a YIELD of the higher rank that it touched
(R471–R473). -/
def State.noteYields (s : State) : State :=
  { s with thrEvents := s.thrEvents.map fun (e : ThrEvent) =>
      let r := if e.act then s.yieldRank (if e.polder = 15 then List.range 4 else [e.polder]) else 0
      if r = 0 then e else { e with yield := true, rank := if e.yield then min e.rank r else r } }

/-! ### The sample (R454) -/

/-- A sample is kept, its VIN shown and its energy counted (R454, R483). -/
def State.keepSample (s : State) (x : PowerSample) : State :=
  let s := { s with samples := ⟨s.now, x⟩ :: s.samples.filter (fun (r : SampleRec) => decide (s.now ≤ r.tick + ms100)) }
  let s := s.wr SLU_PKG_EXC.VIN_MV 0 x.vinMv
  let s := s.each (List.range 8) fun s p => s.bumpWrap SLU_POLDER_ENERGY.UJ p (x.watts.getD p 0)
  if s.save.phase = 1 ∨ s.save.phase = 2 then { s with save := { s.save with minVin := min s.save.minVin x.vinMv } } else s

/-- What the measurements at a boundary do (R465, R476). -/
def State.actOn (s : State) (x : PowerSample) : State :=
  let pkg := s.pkgLimits
  let over_ := pkg.any Limit.passed || s.excursion
  let low := pkg.all Limit.low
  let hot := s.hottest
  let s := s.openLimits 15 pkg
  let s := if s.excursion then s.openEvent 1 15 nobodys 0 (s.rd SLU_PKG_CFG.SUSTAIN_W) true else s
  let s := s.each [0, 1, 2, 3] fun s p => s.dutyStep p (over_ && p == hot) low (x.amps.getD p 0)
  let s := if !over_ && low then s.endLimits 15 else s
  let s := s.each [5, 6, 7] State.capStep
  (s.hostPower.sagStep x.vinMv).noteYields.closeEvents

/-- POWER_SAMPLE (R454): at a 1,000-tick boundary of the timebase the converters are sampled, once, and the Sluice acts; it
stops during a save (R478). -/
def execPowerSample (t : Nat) (x : PowerSample) (s : State) : Res :=
  .next <|
    let s := s.advance t
    if s.edge 1000 ∧ !s.samples.any (fun r => r.tick == s.now) then
      let s := s.keepSample x
      if s.save.phase = 0 then s.actOn x else s
    else s

/-- DUTY_RAMP (R464): each µs a ramping die's duty rises by 1/16, but while a throttle action holds it. -/
def execDutyRamp (t die : Nat) (s : State) : Res :=
  s.live t fun s =>
    if s.edge 1000 ∧ Tab.get (fun _ => false) s.ramps die ∧ !s.acting 1 die ∧ !s.acting 2 die ∧ !s.acting 3 die then
      let s := s.setDuty die (s.duty die + 1)
      if s.duty die = 16 then { s with ramps := Tab.put (fun _ => false) s.ramps die false } else s
    else s

/-! ### HCLK (R465, R466, R468) -/

/-- Whether a cluster's HCLK is to come down: an action is in force on P4, the ceiling is lower, or the host die is at
105 °C. -/
def State.hclkDown (s : State) (c : Nat) : Bool :=
  s.acting 1 4 || s.acting 2 4 || s.acting 3 4 || decide (s.rd SLU_HCLK.MAX c < s.rd SLU_HCLK.CUR c) ||
    decide (105 ≤ s.rd SLU_POLDER_THR.TEMP_C 4)

/-- The least time between two steps of a cluster's HCLK: 100 µs when the throttle temperature alone asks for them (R466,
R468). -/
def State.hclkGap (s : State) (c : Nat) : Nat :=
  if s.acting 3 4 && !s.acting 1 4 && !s.acting 2 4 && decide (s.rd SLU_HCLK.CUR c ≤ s.rd SLU_HCLK.MAX c) &&
      decide (s.rd SLU_POLDER_THR.TEMP_C 4 < 105) then 100000
  else us10

/-- HCLK_STEP (R466): one 100 MHz step of a cluster, at most one per 10 µs, between 1.0 GHz and its ceiling; a sag holds
HCLK (R476). -/
def execHclkStep (t cluster : Nat) (up : Bool) (s : State) : Res :=
  s.live t fun s =>
    let last := Tab.get (fun _ => 0) s.hclkAt cluster
    let cur := s.rd SLU_HCLK.CUR cluster
    let go := fun (n : Nat) =>
      { s.wr SLU_HCLK.CUR cluster n with hclkAt := Tab.put (fun _ => 0) s.hclkAt cluster (s.now + 1) }
    if 12 ≤ cluster ∨ s.flag SLU_PKG_STATUS.SAG ∨ s.save.phase ≠ 0 ∨ (last ≠ 0 ∧ s.now < last - 1 + s.hclkGap cluster) then s
    else if up then if !s.hclkDown cluster && decide (cur < min 32 (s.rd SLU_HCLK.MAX cluster)) then go (cur + 1) else s
    else if s.hclkDown cluster && decide (10 < cur) then go (cur - 1) else s

/-! ### Temperatures (R468) -/

/-- The throttle action of a polder for its temperature: once per 100 µs while it holds, from the event's opening (R468). -/
def State.thermalAct (s : State) (p : Nat) : State :=
  match s.thrEvents.find? (·.is 3 p) with
  | none => s
  | some e =>
    if s.now % 100000 = e.cont % 100000 then
      if p < 4 then s.setDuty p (s.duty p - 1) else if p = 4 then s else s.setCap p (s.cap p + 1)
    else s

/-- The throttle action for a polder's temperature is undone below THROTTLE_C − 2 °C. -/
def State.thermalEnd (s : State) (p : Nat) : State :=
  if s.acting 3 p then
    let s := s.endAct 3 p
    if p < 4 then
      if s.acting 1 p || s.acting 2 p || s.acting 1 15 || s.acting 2 15 || !s.mayRise p then s else s.setDuty p 16
    else if p = 4 then s
    else if s.acting 1 p || s.acting 2 p then s else s.setCap p 0
  else s

/-- One polder's hottest reading (R468). -/
def State.readTemp (s : State) (p temp : Nat) : State :=
  let c := min temp 255
  let s := s.wr SLU_POLDER_THR.TEMP_C p c
  let limit := s.rd SLU_CFG.THROTTLE_C
  let s := if limit ≤ c then (s.openEvent 3 p nobodys 0 c true).thermalAct p
    else if c + 2 < limit then s.thermalEnd p
    else s
  if p < 4 then s.setDuty p (s.duty p) else if p = 4 then s else s.setCap p (s.cap p)

end Sys2Proof.Machine
end

