-- ==== Sys2Proof/Machine/Records.lean ====
section
/-! DEFINITION. The items of reset records and of the save area: queues, objects, descriptors, cores, buckets and
migrations (R496–R499). -/

namespace Sys2Proof.Machine

/-- Words cut or filled up with zeros to a length. -/
def padWords (n : Nat) (l : List Word) : List Word := (l ++ List.replicate n 0).take n

/-- The timebase count of an elapsed tick, by the present adjustment. -/
def State.tbOf (s : State) (tick : Nat) : Nat := ((tick : Int) + s.tbAdj).toNat

/-- A QUEUE item (R498): the QE_Q_ registers, the number, the indices and the STATE given. -/
def State.queueItem (s : State) (q state : Nat) : List Word :=
  let off := QE_Q_RING.BASE.off q
  padWords 32 ((List.range 6).map (fun k => s.view (off + 8 * k)) ++
    [0, 0, BitVec.ofNat 64 q, packWord [(0, s.rd QE_DB_TAIL.TAIL q), (32, s.rd QE_DB_CQ_HEAD.CQ_HEAD q)],
     packWord [(0, s.rd QE_DB_STATUS.CQ_TAIL q), (32, state)]])

/-- The SY_ registers of an object, with SY_ADD and SY_SET as 0 (R498). -/
def State.objRegs (s : State) (obj : Nat) : List Word :=
  let off := SY_VAL.VALUE.off obj
  [s.view off, 0, 0, s.view (off + 0x18), s.view (off + 0x20), s.view (off + 0x28), s.view (off + 0x30)]

/-- An OBJECT item (R498). -/
def State.objItem (s : State) (obj : Nat) : List Word := s.objRegs obj ++ [BitVec.ofNat 64 obj]

/-- A descriptor in its 1 KiB format (R499): its command, extents, bytes confirmed and state code. -/
def State.descItem (s : State) (x : InFlight) (exts : List Extent) (done state seq : Nat) : List Word :=
  padWords 128
    ([packWord [(0, 3), (8, 1), (32, seq)], packWord [(0, x.q), (16, x.kind), (24, state), (32, x.i)],
      packWord [(0, hdrLayer x.words), (16, hdrOpid x.words), (32, exts.length)], BitVec.ofNat 64 done,
      BitVec.ofNat 64 (s.tbOf x.start), 0, 0, 0] ++ padWords 16 x.words ++
     (exts.take 16).flatMap fun e => [packWord [(0, e.va), (48, bit e.w)], BitVec.ofNat 64 e.pa, BitVec.ofNat 64 e.len])

/-- The bytes of a descriptor confirmed performed (R499): those that have moved, less the lines that await a response. -/
def State.descConfirmed (s : State) (x : InFlight) (d : CopyDesc) : Nat :=
  if d.moved then d.len - 64 * ((s.peerReqs.filter fun r => r.who == .cmd x.q x.i d.pos).map (·.lines)).sum else 0

/-- The descriptors that a started command holds (R232, R233, R499), in its format. -/
def State.cmdDescs (s : State) (x : InFlight) (seq : Nat) : List (List Word) :=
  if x.status.isSome then []
  else if x.kind = 2 ∨ x.kind = 3 then
    x.descs.map fun d => s.descItem x (d.src ++ d.dst) (s.descConfirmed x d) (bit d.moved) seq
  else
    match s.buckets.find? (fun b => b.q == x.q && b.i == x.i) with
    | some b => [s.descItem x b.exts x.done 1 seq]
    | none => if x.exts.isEmpty then [] else [s.descItem x x.exts x.done (bit x.begun) seq]

/-- A CORE item (R498). -/
def State.coreItem (s : State) (c : Nat) : List Word :=
  let k := s.core c
  let rank := (k.launch.map (·.rank)).getD 0
  let q := (k.launch.map (·.q)).getD 0
  [packWord [(0, c), (8, rank), (16, s.rd TC_PC.PC c), (32, s.rd TC_EXC.CODE c), (40, s.rd TC_FLAGS.FLAGS c),
     (48, k.copies.length)],
   s.reg (TC_EXC_UADDR.VA.off c), packWord [(0, k.layer), (16, k.opid), (32, q)], 0] ++
  (List.range 4).map fun n => packWord [(0, (k.counter (2 * n)).toNat), (32, (k.counter (2 * n + 1)).toNat)]

/-- A BUCKET item (R498). -/
def State.bucketItem (s : State) (b : Bucket) : List Word :=
  padWords 8 [packWord [(0, b.epoch), (32, b.bucket)], packWord [(0, b.q), (16, min b.level 3)],
    BitVec.ofNat 64 (s.ceMissing b)]

/-- A MIGRATION item (R498). -/
def migItem (m : Mig) : List Word :=
  padWords 8 [packWord [(0, m.obj), (16, m.target), (18, m.phase), (20, bit (m.phase != 0))],
    BitVec.ofNat 64 ((m.cmd.map Prod.fst).getD 0x3FFF)]

/-! ### Records (R496–R498) -/

/-- What a reset record lists. -/
structure RstItems where
  /-- QUEUE items -/
  queues : List (List Word)
  /-- OBJECT items -/
  objs : List (List Word)
  /-- DESC entries -/
  descs : List (List Word)
  /-- CORE items -/
  cores : List (List Word)
  /-- BUCKET items -/
  buckets : List (List Word)
  /-- MIGRATION items -/
  migs : List (List Word)
  deriving DecidableEq, Repr

/-- Items packed into entries of 1 KiB from offset 0x40, so many an entry (R498): fuel bounds the entries. -/
def packItems (kind per seq : Nat) : Nat → List (List Word) → List (List Word)
  | 0, _ => []
  | n + 1, l =>
    if l.isEmpty then []
    else
      let now := l.take per
      padWords 128 ([packWord [(0, kind), (8, now.length), (32, seq)], 0, 0, 0, 0, 0, 0, 0] ++ now.flatten) ::
        packItems kind per seq n (l.drop per)

/-- The item entries of a record, in the order of R498. -/
def RstItems.entries (x : RstItems) (seq : Nat) : List (List Word) :=
  let pack := fun (kind per : Nat) (l : List (List Word)) => packItems kind per seq l.length l
  pack 1 3 x.queues ++ pack 2 15 x.objs ++ x.descs ++ pack 4 15 x.cores ++ pack 5 15 x.buckets ++ pack 6 15 x.migs

/-- The header entry of a record (R497). -/
def RstItems.header (x : RstItems) (ctx cause start stop agent seq entries : Nat) (truncated : Bool) : List Word :=
  padWords 128
    [packWord [(16, ctx), (28, cause), (32, bit truncated)], BitVec.ofNat 64 start, BitVec.ofNat 64 stop,
     packWord [(0, x.queues.length % 65536), (16, x.objs.length % 65536), (32, x.descs.length % 65536),
       (48, x.cores.length % 65536)],
     packWord [(0, x.buckets.length % 512), (16, x.migs.length % 128), (32, entries)], packWord [(0, agent), (32, seq)]]

/-- The numbers of a row's registers that do not hold their reset values. -/
def State.changed (s : State) (f : Fld) (count : Nat) : List Nat :=
  ((Tab.keys s.regs).filter fun o => decide (f.base ≤ o) && decide (o < f.base + f.stride * count) &&
    (o - f.base) % f.stride == 0).map fun o => (o - f.base) / f.stride

/-- Numbers without repeats, in ascending order. -/
def sorted (l : List Nat) : List Nat := l.eraseDups.mergeSort fun a b => decide (a ≤ b)

/-- The queues of a context that a reset touches: those with ENABLE 1, and those with commands in flight (R492). -/
def State.ctxQueues (s : State) (ctx : Nat) : List Nat :=
  (sorted (s.changed QE_Q_CFG.ENABLE 16384 ++ s.inflight.map InFlight.q)).filter fun q =>
    s.rd QE_Q_CFG.CONTEXT q == ctx && (s.flag QE_Q_CFG.ENABLE q || s.inflight.any (fun f => f.q == q))

/-- The cores that run a launch of a context. -/
def State.ctxCores (s : State) (ctx : Nat) : List Nat :=
  (Tab.keys s.cores).filter fun c => match (s.core c).launch with
    | some l => l.ctx == ctx
    | none => false

/-- The context of a waiter. -/
def State.waiterCtx (s : State) (w : Waiter) : Nat :=
  match w.who with
  | .core c => ((s.core c).launch.map (·.ctx)).getD 0x1000
  | .queue q => s.rd QE_Q_CFG.CONTEXT q

/-- The objects on which a context has a waiter, or whose armed trigger targets one of its queues (R492). -/
def State.ctxObjs (s : State) (ctx : Nat) : List Nat :=
  let armed := (s.changed SY_TRIG_CFG.ARM 8192).filter fun o => s.flag SY_TRIG_CFG.ARM o &&
    !s.flag SY_TRIG_CFG.ACTION o && s.rd QE_Q_CFG.CONTEXT (s.rd SY_TRIG_CFG.TARGET o) == ctx
  sorted (armed ++ (s.waiters.filter fun w => s.waiterCtx w == ctx).map (·.obj))

/-- The migrations of a context's objects. -/
def State.ctxMigs (s : State) (ctx : Nat) : List Mig := s.migs.filter fun m => s.rd TIER_OBJ_CFG.CONTEXT m.obj == ctx

/-- What a record of a context lists as the device stands (R492, R498); the STATE of each queue is given. -/
def State.rstItems (s : State) (ctx seq : Nat) (state : Nat → Nat) : RstItems :=
  { queues := (s.ctxQueues ctx).map fun q => s.queueItem q (state q)
    objs := (s.ctxObjs ctx).map s.objItem
    descs := (s.inflight.filter fun x => x.ctx == ctx).flatMap fun x => s.cmdDescs x seq
    cores := (s.ctxCores ctx).map s.coreItem
    buckets := (s.buckets.filter fun b => b.ctx == ctx).map s.bucketItem
    migs := (s.ctxMigs ctx).map migItem }

end Sys2Proof.Machine
end

