-- ==== Sys2Proof/Machine/Save.lean ====
section
/-! DEFINITION. Package reset and the hold-up save: the save area, its two header lines, the events that start and end a
save, and the thermal trip (R469, R477–R482, R484, R519, R525, R527). -/

namespace Sys2Proof.Machine

/-! ### Package reset (R484) -/

/-- Whether a byte lies in the keep store, which package reset keeps (R484). -/
def keepByte (pa : Nat) : Bool := decide (keepBase ≤ pa) && decide (pa < keepBase + 0x4000000)

/-- The device right after a package reset is released: the keep store, the flash and OTP are kept (R484), and with them
what lies outside the package; the contents of HBM and the far tier are undefined (log entry 42). -/
def State.packageReset (s : State) : State :=
  { State.reset with
    pending := s.pending
    fuses := s.fuses
    flash := s.flash
    mem := s.mem.filter fun (e : Host.Cell) => keepByte e.1
    poison := s.poison.filter fun (e : Nat × Bool) => keepByte (64 * e.1)
    holdVin := s.holdVin
    testMode := s.testMode
    inReset := s.testMode
    freeIdx := s.freeIdx }

/-- A package reset is due: it is held while a save runs (R481). -/
def State.resetDue (s : State) : State :=
  if s.save.phase = 1 ∨ s.save.phase = 2 then { s with save := { s.save with held := true } } else s.packageReset

/-- Whether a source starts a package reset (R25, R519): RST_N for 1 µs, PWR_GOOD for 100 ns, or a loss of the reference
or of a hub's PLLs. -/
def startsReset : ResetSource → Bool
  | .rstN ns => decide (1000 ≤ ns)
  | .pwrGood ns => decide (100 ≤ ns)
  | .pllLoss => true
  | .hubLoss => true

/-- PACKAGE_RESET (R484). A held package leaves reset only after TEST_MODE has been lowered (R531); the loss of a hub is
not held for a save, that of the reference is (R481, R490, R527). -/
def execPackageReset (t : Nat) (src : ResetSource) (s : State) : Res :=
  .next <|
    let s := s.advance t
    if startsReset src then
      match src with
      | .hubLoss => s.packageReset
      | _ => s.resetDue
    else s

/-! ### CRC-32 (R480) -/

/-- One bit of the reflected IEEE 802.3 polynomial. -/
def crcBit (c : Nat) : Nat := if c % 2 = 1 then (c / 2) ^^^ 0xEDB88320 else c / 2

/-- The CRC register after some bytes. -/
def crcRun : Nat → List Byte → Nat
  | c, [] => c
  | c, b :: r => crcRun ((List.range 8).foldl (fun c _ => crcBit c) (c ^^^ b.toNat)) r

/-- CRC-32 of some bytes. -/
def crc32 (l : List Byte) : Nat := crcRun 0xFFFFFFFF l ^^^ 0xFFFFFFFF

/-- A header line: seven words, and the CRC of their bytes in the eighth (R480). -/
def saveLine (l : List Word) : List Word :=
  let w := padWords 7 l
  w ++ [BitVec.ofNat 64 (crc32 (wordBytes w))]

/-! ### The sections (R479) -/

/-- An entry of a section: the registers that R479 names, in their format and order, and then, for the rest of its words, an
uninterpreted layout of the other values it holds (log entry 43). -/
def saveEntry (section_ words : Nat) (regs content : List Word) : List Word :=
  regs ++ (List.range (words - regs.length)).map fun w => Config.saveWord section_ (regs.length + w) content

/-- A number as a word. -/
def w64 (n : Nat) : Word := BitVec.ofNat 64 n

/-- The entry of a context: TR_CTX_c, QE_CTX_SEED_c, its partition, and the state of its reset. -/
def State.saveCtx (s : State) (c : Nat) : List Word :=
  saveEntry 0 32 [s.view (TR_CTX.VALID.off c), s.view (QE_CTX_SEED.SEED.off c)]
    [w64 (s.partOfCtx c), w64 (bit (s.ctxReqs.any fun r => r.ctx == c))]

/-- The entry of a queue: its registers, its indices and its fetch state. -/
def State.saveQueue (s : State) (q : Nat) : List Word :=
  let off := QE_Q_RING.BASE.off q
  let x := s.queue q
  saveEntry 1 32 ((List.range 6).map fun k => s.view (off + 8 * k)) <|
    [w64 (s.rd QE_DB_TAIL.TAIL q), w64 (s.rd QE_DB_CQ_HEAD.CQ_HEAD q), w64 (s.rd QE_DB_STATUS.CQ_TAIL q),
     w64 x.fetched.length, w64 (bit x.enableKept), w64 x.heldCq.length] ++
    x.fetched.flatMap (fun f => w64 f.i :: w64 f.status :: w64 f.detail :: f.words) ++ x.heldCq.flatten

/-- The values of a waiter's entry. -/
def waiterWords (w : Waiter) : List Word :=
  let who := match w.who with
    | .core c => 0x1000 + c
    | .queue q => 0x4000 + q
  [packWord [(0, who), (16, w.obj), (32, w.cond), (40, w.tlog2)], w.v, w64 w.start]

/-- The values of the rills' state. -/
def State.saveRills (s : State) : List Word :=
  (s.rillIssued.map fun e => w64 e.1) ++ (s.rillBad.map fun e => w64 e.1)

/-- The entry of a residency object (R309): its TIER_OBJ_ registers, its pending migrations, and the rills' state. -/
def State.saveObj (s : State) (n : Nat) : List Word :=
  let off := TIER_OBJ_CFG.VALID.off n
  saveEntry 5 8 ((List.range 4).map fun k => s.view (off + 8 * k))
    (((s.migs.filter fun m => m.obj == n).map migItem).flatten ++ s.saveRills)

/-- The values of the Sluice's section after the log of 8,192 records: reservations, windows and energy counters. -/
def State.saveSluice (s : State) : List Word :=
  s.reservs.flatMap (fun r => [w64 r.ctx, w64 r.polder, w64 r.layer, w64 r.opid, w64 r.pclass, w64 r.lo, w64 r.hi,
    w64 r.amount, w64 r.granted, w64 r.claimed, w64 r.glo, w64 r.ghi]) ++
  s.samples.flatMap (fun r => w64 r.tick :: w64 r.x.vinMv :: r.x.watts.map w64) ++
  (List.range 8).map (fun p => w64 (s.rd SLU_POLDER_ENERGY.UJ p))

/-- The values of the fault section: the open-fault table. -/
def State.saveFaults (s : State) : List Word :=
  s.faults.flatMap fun f => [w64 f.slot, w64 f.tag, w64 f.page, w64 f.level, w64 f.kinds, w64 f.seq, w64 f.time] ++
    f.queues.map w64

/-- The words of the eight sections after the header, with their offsets, in table order (R479). A descriptor has the format
of R499, whose SEQ the manual does not give here, an object its registers and a word that is not given (log entry 43). -/
def State.saveSections (s : State) : List (Nat × List Word) :=
  let seq := (Config.saveWord 2 0 []).toNat % 2 ^ 32
  let descs := s.inflight.flatMap fun x => s.cmdDescs x seq
  let objs := (List.range 8192).map fun o => s.objRegs o ++ [Config.saveWord 3 7 (s.objRegs o)]
  [(0x0100000, (List.range 4096).flatMap s.saveCtx),
   (0x0200000, (List.range 16384).flatMap s.saveQueue),
   (0x0600000, padWords (128 * 16384) descs.flatten),
   (0x1600000, objs.flatten),
   (0x1680000, padWords 196608 (s.waiters.flatMap fun w => saveEntry 4 4 [] (waiterWords w))),
   (0x1800000, (List.range 65536).flatMap s.saveObj),
   (0x1C00000, saveEntry 6 65536 (padWords 32768 s.thrLog.flatten) s.saveSluice),
   (0x1C80000, saveEntry 7 524288 [] s.saveFaults)]

/-! ### The steps of a save (R477, R478) -/

/-- Whether a save can start: after SYS_PROT_LOCK, not in NO_IMAGE, not while TEST_MODE is high, and once only until package
reset (R477, R481, R531). -/
def State.maySave (s : State) : Bool :=
  s.save.phase == 0 && s.locked && decide (s.rd BOOT_STATUS.STAGE ≠ 5) && !s.testMode && !s.inReset

/-- A save starts at tick S (R478 step 1): the gates close, and the transaction is lost without a result (R77). A sag of R477,
be it the board's warning or the monitor's finding, opens a SAG event (R472). -/
def State.startSave (s : State) (cause : Nat) : State :=
  if s.maySave then
    let mv := s.rd SLU_PKG_EXC.VIN_MV
    let s := if cause < 2 then s.openEvent 4 15 nobodys 0 mv true else s
    let s := ((s.wr TXN_STATUS.STATE 0 0).wr TXN_STATUS.OWNER 0 0).wr TXN_STATUS.OVERFLOW 0 0
    { s with txn := ⟨[], 0, 0, 0, false, 0⟩, save := ⟨1, s.tb, cause, 0, mv, false, s.now⟩ }
  else s

/-- SAVE_START (R477): SAG_WARN_N has been low for 100 ns, or the monitor has seen VIN below 92 % for 2 µs. -/
def execSaveStart (t cause : Nat) (s : State) : Res := .next ((s.advance t).startSave cause)

/-- Stores still in the buffers are abandoned and counted (R386, R478 step 3). -/
def State.abandonStores (s : State) : State :=
  let left := (s.hosts.map fun e => e.2.sb.length).sum
  let s := { s with save := { s.save with abandoned := left } }
  s.each (Tab.keys s.hosts) fun s c => s.setHost c { s.host c with sb := [] }

/-- The SEQ of the save (R480). -/
def State.saveSeq (s : State) : Nat := if s.flag BOOT_SAVE.FOUND then s.rd BOOT_SAVE.SEQ + 1 else 1

/-- SAVE_DRAIN_END (R478 steps 3 and 4): 20 µs after S, or earlier when VIN falls below 1.2 V; header line 0 is written. -/
def execSaveDrainEnd (t : Nat) (s : State) : Res :=
  .next <|
    let s := s.advance t
    if s.save.phase = 1 ∧ (s.save.began + 20000 ≤ s.now ∨ s.rd SLU_PKG_EXC.VIN_MV < 1200) then
      let s := s.abandonStores
      let s := { s with save := { s.save with phase := 2 } }
      s.engWrite keepBase (wordBytes (saveLine
        [packWord [(0, 0x5356), (16, 1), (32, s.save.cause)], w64 (s.saveSeq % 2 ^ 32), w64 s.save.start]))
    else s

/-- The three words of SECTION_CRC: eight CRCs of 24 bits (R480). -/
def crcWords (l : List (Nat × List Word)) : List Word :=
  let n := packBits (l.zipIdx.map fun e => (24 * e.2, crc32 (wordBytes e.1.2) % 2 ^ 24))
  (List.range 3).map fun k => BitVec.ofNat 64 (n >>> (64 * k))

/-- A save has ended: the package reset that it held is performed (R481). -/
def State.saveEnds (s : State) (phase : Nat) : State :=
  let s := { s with save := { s.save with phase := phase } }
  if s.save.held then s.packageReset else s

/-- SAVE_COMPLETE (R478 steps 5 and 6): the sections, then header line 1. -/
def execSaveComplete (t : Nat) (s : State) : Res :=
  .next <|
    let s := s.advance t
    if s.save.phase = 2 then
      let l := s.saveSections
      let s := s.each l fun s e => s.engWrite (keepBase + e.1) (wordBytes e.2)
      let s := s.engWrite (keepBase + 0x40) (wordBytes (saveLine
        ([1, w64 s.tb, packWord [(0, s.save.abandoned), (32, s.save.minVin)], w64 (s.saveSeq % 2 ^ 32)] ++ crcWords l)))
      s.saveEnds 3
    else s

/-- HOLD_VIN_LOSS (R481): HOLD_VIN falls below 7 V and the save stops. -/
def execHoldVinLoss (t : Nat) (s : State) : Res :=
  .next <|
    let s := s.advance t
    let s := { s with holdVin := min s.holdVin 6999 }
    if s.save.phase = 1 ∨ s.save.phase = 2 then s.saveEnds 4 else s

/-- HOLD_OK_CHANGE (R482): HOLD_VIN in mV. -/
def execHoldOkChange (t mv : Nat) (s : State) : Res := .next { s.advance t with holdVin := mv }

/-! ### Temperatures (R468, R469) -/

/-- THERMAL_SAMPLE (R468): every 10 µs the hottest reading of each polder; at 115 °C the trip asserts THERMTRIP_N and
starts a save with cause THERMAL (R469). -/
def execThermalSample (t : Nat) (temps : List Nat) (s : State) : Res :=
  .next <|
    let s := s.advance t
    if !s.edge 10000 ∨ s.inReset then s
    else
      let s := if s.save.phase = 0 then
          (s.each (List.range 8) fun s p => s.readTemp p (temps.getD p 0)).noteYields.closeEvents
        else s
      if temps.any (fun x => decide (115 ≤ x)) then ({ s with thermtrip := true }).startSave 2 else s

end Sys2Proof.Machine
end

