-- ==== Sys2Proof/Machine/Txn.lean ====
section
/-! DEFINITION. Setting transactions: claim, commit, rollback, abort, expiry and their end (R67–R79). The step that
applies the entries stands in Machine/RegAccess.lean, beside the writes that it makes. -/

namespace Sys2Proof.Machine

/-- A transaction ends with a result at a tick (R78): IDLE, the result, the time, the trace event, and the end add of
APPLIED, REFUSED or OVERFLOW when its commit asked for it. -/
def State.txnEnd (s : State) (result tick : Nat) : State :=
  let owner := s.rd TXN_STATUS.OWNER
  let x := s.txn
  let s := (((s.wr TXN_STATUS.STATE 0 0).wr TXN_STATUS.OVERFLOW 0 0).wr TXN_STATUS.RESULT 0 result).wr
    TXN_STATUS.OWNER 0 0
  let s := (s.setReg (TXN_LAST_TIME.TICK.off 0) (BitVec.ofNat 64 tick)).offer 19 3 0 0
    (packBits [(0, result), (16, owner)])
  let s := { s with txn := ⟨[], 0, 0, 0, false, 0⟩ }
  if x.signal ∧ (result = 1 ∨ result = 3 ∨ result = 4) then s.notify owner x.sync else s

/-- Whether an agent can own a transaction (R68). -/
def ownsTxn (agent : Nat) : Bool := isHost agent || isService agent

/-- A read of TXN_BEGIN (R68). -/
def State.txnBegin (s : State) (agent : Nat) : State :=
  if !ownsTxn agent then s.answer agent 0xFFFF
  else if s.rd TXN_STATUS.STATE = 0 then
    let s := (s.wr TXN_STATUS.STATE 0 1).wr TXN_STATUS.OWNER 0 agent
    ({ s with txn := ⟨[], s.now, s.rd TXN_CFG.LEASE, 0, false, 0⟩ }).answer agent 0
  else if s.rd TXN_STATUS.OWNER = agent then s.answer agent 0
  else s.answer agent (BitVec.ofNat 64 (s.rd TXN_STATUS.OWNER))

/-- TXN_BEGIN (R68): an 8 B read of the register. -/
def execTxnBegin (t agent : Nat) (s : State) : Res :=
  s.live t fun s => s.gate agent 0x10000 false fun s => s.txnBegin agent

/-- The first multiple of 1,000 ticks after a timebase count (R73). -/
def nextBoundary (tb : Nat) : Nat := (tb / 1000 + 1) * 1000

/-- A write of TXN_COMMIT (R73, R75, R76). -/
def State.txnCommit (s : State) (agent : Nat) (v : Word) : State :=
  match s.rd TXN_STATUS.STATE with
  | 0 => s
  | 1 =>
    if s.rd TXN_STATUS.OWNER = agent then
      { s.wr TXN_STATUS.STATE 0 2 with
        txn := { s.txn with boundary := nextBoundary s.tb, signal := TXN_COMMIT.SIGNAL.get v == 1,
                            sync := TXN_COMMIT.SYNC.get v } }
    else s.bump TXN_STATUS.FOREIGN 0
  | _ => s.bump TXN_STATUS.FOREIGN 0

/-- TXN_COMMIT (R73): a write of the register. -/
def execTxnCommit (t agent : Nat) (v : Word) (s : State) : Res :=
  s.live t fun s => s.gate agent 0x10008 true fun s => (s.storeReg agent 0x10008 v).txnCommit agent v

/-- A write of TXN_ROLLBACK (R75, R76). -/
def State.txnRollback (s : State) (agent : Nat) (v : Word) : State :=
  match s.rd TXN_STATUS.STATE with
  | 0 => s
  | 1 =>
    if s.rd TXN_STATUS.OWNER ≠ agent then s.bump TXN_STATUS.FOREIGN 0
    else if TXN_ROLLBACK.GO.get v = 1 then s.txnEnd 2 s.tb else s
  | _ => s.bump TXN_STATUS.FOREIGN 0

/-- TXN_ROLLBACK (R76): a write of the register. -/
def execTxnRollback (t agent : Nat) (v : Word) (s : State) : Res :=
  s.live t fun s => s.gate agent 0x10010 true fun s => (s.storeReg agent 0x10010 v).txnRollback agent v

/-- A write of TXN_ABORT by a service processor (R77). -/
def State.txnAbort (s : State) (v : Word) : State :=
  if TXN_ABORT.GO.get v = 1 ∧ s.rd TXN_STATUS.STATE ≠ 0 then s.txnEnd 6 s.tb else s

/-- TXN_ABORT (R77): a write of the register, which the standard dike rules give to service processors. -/
def execTxnAbort (t agent : Nat) (v : Word) (s : State) : Res :=
  s.live t fun s => s.gate agent 0x10038 true fun s => (s.storeReg agent 0x10038 v).txnAbort v

/-- LEASE_EXPIRY (R77): the lease of an OPEN transaction passes without a commit. -/
def execLeaseExpiry (t : Nat) (s : State) : Res :=
  s.live t fun s =>
    if s.rd TXN_STATUS.STATE = 1 ∧ s.txn.begun + s.txn.lease * 1000 ≤ s.now then s.txnEnd 5 s.tb else s

/-- The transaction of an agent that is reset or fenced ends OWNER_RESET (R77). -/
def State.txnOwnerReset (s : State) (agent : Nat) : State :=
  if s.rd TXN_STATUS.STATE ≠ 0 ∧ s.rd TXN_STATUS.OWNER = agent then s.txnEnd 7 s.tb else s

end Sys2Proof.Machine
end

