-- ==== Sys2Proof/Machine/Resets.lean ====
section
/-! DEFINITION. Context resets, fences, the cofferdam and the reset of the host die (R484–R499, R404, R405). -/

namespace Sys2Proof.Machine

/-! ### The reset ring (R496) -/

/-- A record's entries are written at the tail of the reset ring, TAIL passes them all at once, and the NOTIFY add
follows; whether every entry was admitted (R285, R496). -/
def State.rstPut (s : State) (es : List (List Word)) : Bool × State :=
  let r := ringOf 3
  let agent := Tab.get (fun _ => 0) s.ringAgent r.num
  let tail := s.rd r.tail r.idx
  let at_ := fun (k : Nat) => s.rd r.base r.idx * 4096 + (tail + k) % max (s.rd r.entries r.idx) 1 * r.size
  if (List.range es.length).all fun k => s.plainOk (s.subject agent) true (at_ k) r.size then
    let s := s.each es.zipIdx fun s e => s.engWrite (at_ e.2) (wordBytes e.1)
    let s := s.wr r.tail r.idx (tail + es.length)
    (true, if s.flag r.notify r.idx then s.notify agent (s.rd r.sync r.idx) else s)
  else (false, s)

/-- A reset record reaches its ring: whole; its header alone when the ring lacks room for the rest, and then counted in
LOST; or not at all, and counted (R496). -/
def State.rstRecord (s : State) (x : RstItems) (ctx cause start agent seq : Nat) : State :=
  let r := ringOf 3
  let es := x.entries seq
  let lose := fun (s : State) => s.bump r.lost r.idx
  let head := fun (n : Nat) (cut : Bool) => x.header ctx cause start s.tb agent seq n cut
  if !s.ringInUse r ∨ s.ringFree r = 0 then lose s
  else if es.length < s.ringFree r then
    match s.rstPut (head (es.length + 1) false :: es) with
    | (true, s) => s
    | (false, s) => lose s
  else lose (s.rstPut [head 1 true]).2

/-! ### Context reset (R491, R492) -/

/-- A request for a context's reset: it joins one that waits, or enters the queue; a 17th write is ignored (R491). A
cofferdam's requests are never ignored (log entry 44). -/
def State.requestReset (s : State) (r : CtxReq) : State :=
  if s.ctxReqs.any fun x => x.ctx == r.ctx then
    { s with ctxReqs := s.ctxReqs.map fun (x : CtxReq) =>
        if x.ctx = r.ctx then { x with adds := x.adds ++ r.adds, dies := x.dies ++ r.dies } else x }.bump
      DBG_CTXRST_STATUS.JOINED 0
  else if 16 ≤ s.ctxReqs.length ∧ r.dies = [] then s.bump DBG_CTXRST_STATUS.REFUSED 0
  else { s with ctxReqs := s.ctxReqs ++ [r] }

/-- A write of DBG_CTXRST (R491). -/
def State.ctxrstWrite (s : State) (agent : Nat) (v : Word) : State :=
  s.requestReset ⟨DBG_CTXRST.CONTEXT.get v, agent, 0,
    if DBG_CTXRST.SIGNAL.get v = 1 then [(DBG_CTXRST.SYNC.get v, agent)] else [], []⟩

/-- DBG_CTXRST (R491): a write of the register. -/
def execDbgCtxrst (t agent : Nat) (v : Word) (s : State) : Res :=
  s.live t fun s =>
    let off := DBG_CTXRST.CONTEXT.off 0
    s.gate agent off true fun s => (s.storeReg agent off v).ctxrstWrite agent v

/-- A scratchpad whose lines are zero-marked (R173). -/
def Core.zeroSp (k : Core) : Core := { k with sp := [], spUsed := [], spPoison := [] }

/-- The array work of a core stops for good: the pass that streams is abandoned, queued operations are discarded,
recirculation stops, and both banks are cleared (R91). -/
def State.stopArray (s : State) (c : Nat) : State :=
  let s := (s.dropArr c).stopRecirc c
  s.setCore c (s.core c).clearBanks

/-- A context reset, a cofferdam or a fence reaches a core (R91, R173, R188, R486, R492): its array work stops, it raises
ABORTED and its scratchpad is zero-marked. -/
def State.abortCore (s : State) (c : Nat) : State :=
  let s := s.stopArray c
  let s := (s.raise c 16 (s.rd TC_PC.PC c) 0).tryEnd c
  s.setCore c (s.core c).zeroSp

/-- Step 1 of R492: the context's enabled queues park, and the Sluice drops its reservations. -/
def State.ctxPark (s : State) (c : Nat) : State :=
  let qs := (s.ctxQueues c).filter fun q => s.flag QE_Q_CFG.ENABLE q
  let s := s.each qs fun s q => (s.leaveFault q).park q 7
  { s with reservs := s.reservs.filter fun (r : Reservation) => r.ctx != c }.leaveChoice

/-- Step 3 of R492: cores stop, waiters go, buckets end, migrations before CHECK end; those past it go on without their
commands (R308). -/
def State.ctxStop (s : State) (c : Nat) : State :=
  let cores := s.ctxCores c
  let stay := s.waiters.filter fun w => s.waiterCtx w != c
  let s := { s with waiters := stay }
  let s := s.each cores State.abortCore
  let s := s.each (s.buckets.filter fun b => b.ctx == c) fun s b => s.ceEnd b 10 0
  let mine := s.ctxMigs c
  let s := s.each (mine.filter fun m => m.phase == 0) fun s m => (s.wr TIER_OBJ_CFG.LAST m.obj 4).endMig m 10 0 true
  s.each (mine.filter fun m => m.phase != 0) fun s m => s.setMig m { m with ended := true }

/-- A started command of a reset context ends ABORTED, with EXC 16 for a LAUNCH; a COPY still at HEAD is passed (R492). -/
def State.abortCmd (s : State) (x : InFlight) : State :=
  let s := if x.kind = 1 then s.endClaims x else s
  let s := s.finish x.q x.i 10 0 (if x.kind = 1 then 16 else 0) (x.ends.foldl (fun a e => a ||| e.flags) 0)
  match (s.queue x.q).fetched with
  | f :: _ => if f.i = x.i ∧ x.kind = 2 ∧ !x.whole then s.passHead x.q else s
  | [] => s

/-- Every completed command of a queue writes its entry (R217): fuel bounds the commands. -/
def State.completeAll (s : State) (q : Nat) : Nat → State
  | 0 => s
  | n + 1 =>
    match s.nextDone q with
    | none => s
    | some x => (s.complete q x (x.status.getD 0)).completeAll q n

/-- Step 4 of R492: the context's started commands write their completion entries. -/
def State.ctxEnd (s : State) (c : Nat) : State :=
  let mine := s.inflight.filter fun x => x.ctx == c
  let s := s.each (mine.filter fun x => x.status.isNone) fun s x => s.abortCmd ((s.flight x.q x.i).getD x)
  s.each (mine.map InFlight.q).eraseDups fun s q => s.completeAll q s.inflight.length

/-- A context's reset, from step 1 to step 5 (R492). -/
def State.resetContext (s : State) (r : CtxReq) : State :=
  let c := r.ctx
  let start := s.tb
  let seq := s.rstSeq + 1
  let states := fun (q : Nat) => s.rd QE_Q_STATUS.STATE q
  let s := s.ctxPark c
  let items := s.rstItems c seq states
  let s := (s.ctxStop c).ctxEnd c
  let s := { s with rstSeq := seq }.rstRecord items c r.cause start r.agent seq
  let s := s.faultRecord 11 0 c r.agent 0 seq
  let s := s.each r.adds fun s a => s.notify a.2 a.1
  s.each r.dies.eraseDups fun s d =>
    { s with dieWaits := Tab.put (fun _ => []) s.dieWaits d ((Tab.get (fun _ => []) s.dieWaits d).filter (· != c)) }.bump
      DBG_TDIE_STATUS.CONTEXTS d

/-- CONTEXT_RESET (R492): the oldest request is carried out. -/
def execContextReset (t : Nat) (s : State) : Res :=
  s.live t fun s =>
    match s.ctxReqs with
    | [] => s
    | r :: rest => if s.save.phase = 0 then { s with ctxReqs := rest }.resetContext r else s

/-! ### Fencing a tensor core (R486) -/

/-- Core c is fenced. -/
def State.fenceCore (s : State) (c : Nat) : State :=
  let ctx := ((s.core c).launch.map (·.ctx)).getD 0xFFF
  let s := (s.abortCore c).wr TC_STATUS.STATE c 3
  (s.ceLoseCore c).faultRecord 8 c ctx (0x1000 + c) 0 1

/-- Core c returns to IDLE. -/
def State.unfenceCore (s : State) (c : Nat) : State :=
  (s.wr TC_STATUS.STATE c 1).faultRecord 8 c 0xFFF (0x1000 + c) 0 0

/-- A write of DBG_FENCE_TC_n: the bits of disabled and walled-off cores are ignored; those of walled-off cores are
reported (R485, R486). -/
def State.tcFenceStore (s : State) (agent n : Nat) (v : Word) : State :=
  let off := DBG_FENCE_TC.FENCE.off n
  let live := if s.walled n then 0 else (s.fuses.enable.getD n 0) % 2 ^ 52
  let old := s.rd DBG_FENCE_TC.FENCE n
  let lost := s.walled n && (v.toNat &&& ((s.fuses.enable.getD n 0) % 2 ^ 52)) != 0
  let w := BitVec.ofNat 64 ((v.toNat &&& live) + v.toNat / 2 ^ 52 * 2 ^ 52)
  let s := s.storeReg agent off w
  let s := if v.toNat < 2 ^ 52 then s.report agent off lost false else s
  let new := s.rd DBG_FENCE_TC.FENCE n
  s.each (List.range 52) fun s i =>
    if new.testBit i && !old.testBit i then s.fenceCore (n * 64 + i)
    else if old.testBit i && !new.testBit i then s.unfenceCore (n * 64 + i)
    else s

/-- DBG_FENCE_TC_n (R486): a write of the register. -/
def execTcFence (t agent n : Nat) (v : Word) (s : State) : Res :=
  s.live t fun s =>
    if 4 ≤ n then s else s.gate agent (DBG_FENCE_TC.FENCE.off n) true fun s => s.tcFenceStore agent n v

/-! ### Fencing a host core, and the host die (R386, R404, R405, R487) -/

/-- The registers of a host core as reset leaves them. -/
def State.resetHostRegs (s : State) (c : Nat) : State :=
  s.each (List.range 5) fun s k => let off := HC_L2LOCK.WAYS.base + HC_L2LOCK.WAYS.stride * c + 8 * k; s.setReg off (regReset off)

/-- Core c's state is lost and it counts as not released; its transaction and mailboxes end (R77, R264, R386, R404,
R487). -/
def State.resetHost (s : State) (c : Nat) : State :=
  let s := (s.loseCore c).resetHostRegs c
  let h := s.host c
  let s := s.setHost c { hostInit c with entry := h.entry, nextAcc := h.nextAcc, halted := h.halted, debugged := h.debugged }
  (s.txnOwnerReset (0x100 + c)).mbOwnerReset (0x100 + c)

/-- Whether host core c is fenced (R487). -/
def State.hostFenced (s : State) (c : Nat) : Bool :=
  if c < 64 then (s.rd DBG_FENCE_HC_0.FENCE).testBit c else (s.rd DBG_FENCE_HC_1.FENCE).testBit (c - 64)

/-- A write of DBG_FENCE_HC_n: a core whose bit becomes 1 stops and is lost; one whose bit becomes 0 is held in reset
(R487). -/
def State.hcFenceStore (s : State) (agent n : Nat) (v : Word) : State :=
  let off := if n = 0 then DBG_FENCE_HC_0.FENCE.off 0 else DBG_FENCE_HC_1.FENCE.off 0
  let s' := s.storeReg agent off v
  s'.each ((List.range 64).map (64 * n + ·)) fun a c =>
    if s'.hostFenced c && !s.hostFenced c then (a.resetHost c).faultRecord 9 c 0xFFF (0x100 + c) 0 1
    else if s.hostFenced c && !s'.hostFenced c then a.faultRecord 9 c 0xFFF (0x100 + c) 0 0
    else a

/-- DBG_FENCE_HC_n (R487): a write of the register. -/
def execHcFence (t agent n : Nat) (v : Word) (s : State) : Res :=
  s.live t fun s =>
    let off := if n = 0 then DBG_FENCE_HC_0.FENCE.off 0 else DBG_FENCE_HC_1.FENCE.off 0
    if 2 ≤ n then s else s.gate agent off true fun s => s.hcFenceStore agent n v

/-- The host die is reset (R405, R484): every core's state is lost, SHARED and BROADCAST entries are freed, EXCLUSIVE ones
become LOST, and the contents of SY_EVENT_c are lost; 0 clock loss, 1 software. -/
def State.resetHostDie (s : State) (cause agent : Nat) : State :=
  let own := (s.dir.filter fun e => e.state == 3).map (·.line)
  let s := { s with dir := s.dir.filter (fun (e : DirEntry) => e.state == 3 || e.state == 4), grants := [], invq := [],
                    events := [], eventLost := [], eventIrq := [] }
  let s := s.linesLost own
  let s := s.each (List.range 96) State.resetHost
  s.faultRecord 10 0 0xFFF agent 0 cause

/-- HOST_DIE_RESET (R405): a write of DBG_HOSTDIE_RESET. -/
def execHostDieReset (t agent : Nat) (v : Word) (s : State) : Res :=
  s.live t fun s =>
    let off := DBG_HOSTDIE_RESET.GO.off 0
    s.gate agent off true fun s =>
      let s := s.storeReg agent off v
      if DBG_HOSTDIE_RESET.GO.get v = 1 then s.resetHostDie 1 agent else s

/-! ### The cofferdam (R488, R489) -/

/-- STATE of a tensor die: 0 RUNNING, 1 WALLED, 2 RESETTING, 3 HELD, 4 FAILED. -/
def State.dieState (s : State) (d : Nat) : Nat := s.rd DBG_TDIE_STATUS.STATE d

/-- A die enters a STATE, with its fault record (R500). -/
def State.setDie (s : State) (d st : Nat) : State := (s.wr DBG_TDIE_STATUS.STATE d st).faultRecord 7 d 0xFFF 0 0 st

/-- A bit of a field of SYS_CLK_STATUS. -/
def State.clkBit (s : State) (f : Fld) (k : Nat) (b : Bool) : State :=
  let v := s.rd f
  s.wr f 0 (if b then v ||| 2 ^ k else v - (v &&& 2 ^ k))

/-- The contexts that a cofferdam on a die resets, in ascending order (R488 step 4). -/
def State.dieContexts (s : State) (d : Nat) : List Nat :=
  let here := fun (c : Nat) => dieOf c == d
  sorted (((Tab.keys s.cores).filter here).filterMap (fun c => (s.core c).launch.map (·.ctx)) ++
    (s.inflight.filter fun x => x.kind == 2 && x.status.isNone && (copyCores x.words).any here).map (·.ctx) ++
    (s.buckets.filter fun b => (factorCores b.desc).any here).map (·.ctx))

/-- A tensor die is walled off (R488 steps 1 to 4): its requests that are not ordered are discarded, its scratchpads answer
with poison, its reservations go, and the resets of its contexts are requested; 0 PLL loss, 1 software. -/
def State.wallDie (s : State) (d cause agent : Nat) : State :=
  let here := fun (c : Nat) => dieOf c == d
  let s := (s.clkBit SYS_CLK_STATUS.TDIE_WALLED d true).faultRecord 6 d 0xFFF agent 0 cause
  let s := (s.setDie d 1).wr DBG_FENCE_TC.FENCE d 0
  let ctxs := s.dieContexts d
  let s := s.each ((List.range 52).map (64 * d + ·)) fun s c => s.ceLoseCore c
  let s := s.each ((Tab.keys s.cores).filter here) fun s c =>
    let s := (s.dropUnsent ((s.core c).flies c)).stopArray c
    s.setCore c { s.core c with copies := [], held := [], acking := [] }
  let s := s.mapFlights fun f =>
    if f.kind = 2 ∧ f.status.isNone then { f with spGone := f.spGone ++ (copyCores f.words).filter here } else f
  let s := { s with reservs := s.reservs.filter (fun (r : Reservation) => r.polder != d),
                    dieWaits := Tab.put (fun _ => []) s.dieWaits d ctxs }.closeEvents
  s.each ctxs fun s c => s.requestReset ⟨c, 0, 1, [], [d]⟩

/-- A die that runs or is held is walled off (R488); any other is behind its cofferdam already. -/
def State.cofferdam (s : State) (d cause agent : Nat) : State :=
  if s.dieState d = 0 ∨ s.dieState d = 3 then s.wallDie d cause agent else s

/-- A PLL of a tensor die has lost lock (R25). -/
def State.dieLoss (s : State) (d : Nat) : State := (s.clkBit SYS_CLK_STATUS.TDIE_LOCK d false).cofferdam d 0 0

/-- COFFERDAM (R488): a PLL of the die has lost lock, or software has written DBG_TDIE_CTRL_n.RESET. -/
def execCofferdam (t die : Nat) (software : Bool) (agent : Nat) (s : State) : Res :=
  s.live t fun s =>
    let off := DBG_TDIE_CTRL.RESET.off die
    if 4 ≤ die then s
    else if software then s.gate agent off true fun s => (s.storeReg agent off 1).cofferdam die 1 agent
    else s.dieLoss die

/-- A die's cores and the registers of their blocks as reset leaves them; TC_STATUS still names the last context (R488). -/
def State.clearDie (s : State) (d : Nat) : State :=
  let here := fun (off : Nat) => decide (0x10000000 + 0x10000 * (64 * d) ≤ off) && decide (off < 0x10000000 + 0x10000 * (64 * d + 64))
  let last := ((List.range 64).map (64 * d + ·)).filterMap fun c =>
    let x := s.rd TC_STATUS.CONTEXT c
    if x = 0 then none else some (c, x)
  let s := { s with cores := s.cores.filter (fun e => dieOf e.1 != d), regs := s.regs.filter (fun e => !here e.1) }
  s.each last fun s e => s.wr TC_STATUS.CONTEXT e.1 e.2

/-- DIE_RESETTING (R27, R488 step 5): every reset of the die's contexts is done, and its PLLs give up their lock to relock. -/
def execDieResetting (t die : Nat) (s : State) : Res :=
  s.live t fun s =>
    if 4 ≤ die ∨ s.dieState die ≠ 1 ∨ Tab.get (fun _ => []) s.dieWaits die ≠ [] then s
    else (((s.clkBit SYS_CLK_STATUS.TDIE_LOCK die false).setDie die 2).bump DBG_TDIE_STATUS.RESETS die).clearDie die

/-- DIE_RESET_DONE (R488 step 6): the PLLs have locked, and the cores' cycle counters start from 0 (R103: the word of
TC_CYC_IDLE is the count of cycles at that moment); or one has not. -/
def execDieResetDone (t die : Nat) (locked : Bool) (s : State) : Res :=
  s.live t fun s =>
    if 4 ≤ die ∨ s.dieState die ≠ 2 then s
    else if locked then
      let s := (s.clkBit SYS_CLK_STATUS.TDIE_LOCK die true).setDie die 3
      s.each (s.dieCores die) fun s c => s.setReg (TC_CYC_IDLE.COUNT.off c) (BitVec.ofNat 64 (aclkOf s.now))
    else s.setDie die 4

/-- A die returns to use: its enabled cores are IDLE with no resident program (R489). -/
def State.readmitDie (s : State) (d : Nat) : State :=
  let s := (s.clkBit SYS_CLK_STATUS.TDIE_WALLED d false).setDie d 0
  s.each (s.dieCores d) fun s c => s.setReg (TC_STATUS.STATE.off c) (packWord [(0, 1)])

/-- A write of DBG_TDIE_CTRL_n: READMIT in any state but HELD is ignored and reported (R489). -/
def State.readmitStore (s : State) (agent d : Nat) : State :=
  if s.dieState d = 3 then s.readmitDie d else s.report agent (DBG_TDIE_CTRL.RESET.off d) true false

/-- READMIT (R489): a write of DBG_TDIE_CTRL_n.READMIT. -/
def execReadmit (t agent die : Nat) (s : State) : Res :=
  s.live t fun s =>
    if 4 ≤ die then s
    else s.gate agent (DBG_TDIE_CTRL.RESET.off die) true fun s => s.readmitStore agent die

/-- HUB_CONTROL_ERROR (R490): an uncorrectable error in a hub's control state resets the package, with no save. -/
def execHubControlError (t hub : Nat) (s : State) : Res := s.live t fun s => let _ := hub; s.packageReset

end Sys2Proof.Machine
end

