-- ==== Sys2Proof/Machine/Clocks.lean ====
section
/-! DEFINITION. Losses of PLLs, parity on the die-to-die ports, the alignment of the timebase, and the supply of the
customer sites (R21, R25–R36, R43, R44). -/

namespace Sys2Proof.Machine

/-! ### PLLs (R25) -/

/-- The channels of a stack. -/
def stackChans (stack : Nat) : List Nat := (List.range 32).map (32 * stack + ·)

/-- The MCLK of a stack is lost: its requests are held (R25, R289). -/
def State.holdStack (s : State) (stack : Nat) : State :=
  let s := { s with mclkHeld := Tab.put (fun _ => 0) s.mclkHeld stack (s.now + 1) }
  (s.clkBit SYS_CLK_STATUS.HBM_LOCK stack false).each (stackChans stack) fun s c =>
    s.holdChan c 2

/-- A PLL whose loss resets the package, whatever the device does: of a hub or of the timebase (R25, R484, R490). -/
def Pll.ofPackage : Pll → Bool
  | .fclkHub _ => true
  | .sclkHub _ => true
  | .tbclk => true
  | _ => false

/-- A PLL whose loss resets the host die (R25). -/
def Pll.ofHost : Pll → Bool
  | .hclk _ => true
  | .fclkHost => true
  | _ => false

/-- Whether a PLL is one of a tensor die's (R25). -/
def Pll.ofDie (d : Nat) : Pll → Bool
  | .aclk k => k == d
  | .fclkTdie k => k == d
  | _ => false

/-- What losses of one tick do while the device runs, those of the package apart: the host die is reset, the dies are walled
off in ascending order, and the stacks are held (R25, R26, R27). -/
def State.losePlls (s : State) (l : List Pll) : State :=
  let s := if l.any Pll.ofHost then (s.wr SYS_CLK_STATUS.HOST_LOCK 0 0).resetHostDie 0 0 else s
  let s := s.each ((List.range 4).filter fun d => l.any (Pll.ofDie d)) State.dieLoss
  s.each ((List.range 12).filter fun k => l.contains (.mclk k)) State.holdStack

/-- PLL_LOCK_LOSS (R25, R26): the PLLs whose losses are detected in one tick. A package reset absorbs all others; it waits
for the end of a save only when nothing but the reference is lost (R484, R527). -/
def execPllLockLoss (t : Nat) (l : List Pll) (s : State) : Res :=
  .next <|
    let s := s.advance t
    if l.any Pll.ofPackage then (if s.inReset then s else s.packageReset)
    else if l.contains .refclk then s.resetDue
    else if s.awake then s.losePlls l else s

/-- MCLK_RELOCK (R25): the stack's controller has relocked, and all its channels retrain; or it has not, and the package is
reset. -/
def execMclkRelock (t stack : Nat) (locked : Bool) (s : State) : Res :=
  s.live t fun s =>
    if Tab.get (fun _ => 0) s.mclkHeld stack = 0 then s
    else if locked then
      let s := { s with mclkHeld := Tab.put (fun _ => 0) s.mclkHeld stack 0 }
      (s.clkBit SYS_CLK_STATUS.HBM_LOCK stack true).each (stackChans stack) fun s c =>
        if s.rd HM_CH_STATUS.STATE c = 2 then s.holdChan c 1 else s
    else s.packageReset

/-! ### Die-to-die ports (R21) -/

/-- D2D_PARITY_ERROR (R21): the receiver asks for the transfer again. -/
def execD2dParityError (t port : Nat) (s : State) : Res :=
  s.live t fun s =>
    if 12 ≤ port then s else { s with d2dWait := Tab.put (fun _ => false) s.d2dWait port true }

/-- The data of a transfer reaches its receiver as poison (R21): an agent that waits for an answer, memory that is written, a
line of a host core's cache, a scratchpad line, or a line that a COPY has moved, whose count of R176 it enters. -/
def State.poisonInto (s : State) (agent pa : Nat) : D2dInto → State
  | .answer => s.answer agent 0 0 true
  | .memory => match s.region pa with
    | .hbm => s.setPoison (pa / 64) true
    | .far => s.setPoison (pa / 64) true
    | .keep => s.setPoison (pa / 64) true
    | _ => s
  | .cache c =>
    let h := s.host c
    s.setHost c { h with cache := h.cache.map fun (x : CacheLine) => if x.line = pa / 64 then { x with poison := true } else x }
  | .scratchpad c ln =>
    let k := s.core c
    (s.setCore c (k.spMark ln true)).bump TC_SP_POISON.POISON_IN c (bit (!k.spBad ln))
  | .command q i =>
    ({ s with inflight := s.inflight.map fun (x : InFlight) =>
        if x.q = q ∧ x.i = i ∧ x.status.isNone then { x with poison := addNew x.poison [pa / 64] } else x }).setPoison (pa / 64) true

/-- D2D_RESENT_TRANSFER (R21): the resent transfer is delivered; as poison to what it feeds when it fails too, with a fault
record that names the port (log entry 45). -/
def execD2dResentTransfer (t port agent pa : Nat) (into : D2dInto) (failed : Bool) (s : State) : Res :=
  s.live t fun s =>
    if !Tab.get (fun _ => false) s.d2dWait port then s
    else
      let s := { s with d2dWait := Tab.put (fun _ => false) s.d2dWait port false }
      if failed then
        let n := Tab.get (fun _ => 0) s.d2dPoison port + 1
        let s := { s with d2dPoison := Tab.put (fun _ => 0) s.d2dPoison port n }
        (s.poisonInto agent pa into).faultRecord 1 port 0xFFF agent pa n
      else s

/-! ### The timebase (R30–R36) -/

/-- OFFSET as a signed number. -/
def State.tbOffset (s : State) : Int := (BitVec.ofNat 16 (s.rd SYS_TB_STATUS.OFFSET)).toInt

/-- The trace event of a change of STATE or of a setting of ALIGN_FAULT (R36, R509). -/
def State.traceTb (s : State) (fault : Bool) : State :=
  s.offer 18 2 0 0 (packBits [(0, s.rd SYS_TB_STATUS.STATE), (3, bit fault), (32, (s.tbOffset % 2 ^ 32).toNat)])

/-- The alignment enters a STATE. -/
def State.tbState (s : State) (st : Nat) : State :=
  if s.rd SYS_TB_STATUS.STATE = st then s else (s.wr SYS_TB_STATUS.STATE 0 st).traceTb false

/-- ACQUIRE begins: no exchange of it has completed, and the next begins at the next multiple (R31, R36). -/
def State.acquire (s : State) : State :=
  { s with tbGood := 0, tbStepped := false, tbFrom := s.tb, tbXchg := none, tbRef := none }.tbState 1

/-- The device runs on its own reference from now on: no correction is left. -/
def State.ownRate (s : State) : State := { s with slew := 0, slewAt := s.now, rateAt := s.now }

/-- What a write of SYS_TB_CFG changes (R31, R36), from its value before. -/
def State.tbConfigured (s : State) (old : Word) : State :=
  let new := s.reg (SYS_TB_CFG.ENABLE.off 0)
  let was := SYS_TB_CFG.ENABLE.get old == 1
  let root := SYS_TB_CFG.ROOT.get new == 1
  if SYS_TB_CFG.ENABLE.get new = 0 then s.ownRate.tbState 0
  else if root then
    if was && SYS_TB_CFG.ROOT.get old == 1 then s
    else (s.ownRate.wr SYS_TB_STATUS.OFFSET 0 0).tbState 2
  else if !was || SYS_TB_CFG.ROOT.get old == 1 || SYS_TB_CFG.REF_LINK.get old != SYS_TB_CFG.REF_LINK.get new then s.acquire
  else s

/-- A store to SYS_TB_CFG. -/
def State.tbStore (s : State) (agent : Nat) (v : Word) : State :=
  let off := SYS_TB_CFG.ENABLE.off 0
  let old := s.reg off
  (s.storeReg agent off v).tbConfigured old

/-- SYS_TB_CFG_WRITE (R31): a write of the register. -/
def execSysTbCfgWrite (t agent : Nat) (v : Word) (s : State) : Res :=
  s.live t fun s => s.gate agent (SYS_TB_CFG.ENABLE.off 0) true fun s => s.tbStore agent v

/-- A step: the count is set to the parent's time (R33). What runs already keeps its length: windows by `tbSteps`, and the
wait of a sealed transaction, whose boundary moves with the count (R34). -/
def State.tbStep (s : State) (offset : Int) : State :=
  let wait := s.txn.boundary
  { s with
    tbAdj := s.tbAdj + offset, slew := 0, slewAt := s.now, tbStepped := true, tbSteps := (s.now, s.tb) :: s.tbSteps,
    txn := { s.txn with boundary := ((wait : Int) + offset).toNat } }.bump SYS_TB_STATUS.STEPS 0

/-- A slew: the measured offset is spread over the ticks to come (R33, log entry 17). -/
def State.tbSlew (s : State) (offset : Int) : State := { s with slew := offset, slewAt := s.now }

/-- An exchange with the parent completes with an offset and a rate (R29, R33, R36). One that ends HOLDOVER in LOCKED sets no
ALIGN_FAULT, whatever its offset (R35, log entry 142). -/
def State.exchange (s : State) (offset : Int) (rate : Option (Bool × Nat)) : State :=
  let shown := max (-32767) (min 32767 offset)
  let s := s.wr SYS_TB_STATUS.OFFSET 0 (shown % 65536).toNat
  let s := { s with tbLast := s.now, tbGood := if offset.natAbs ≤ 2 then s.tbGood + 1 else 0, tbRate := rate }
  match s.rd SYS_TB_STATUS.STATE with
  | 1 =>
    let s := if s.tbStepped then s.tbSlew offset else s.tbStep offset
    if 3 ≤ s.tbGood then s.tbState 2 else s
  | 2 =>
    let s := s.tbSlew offset
    if 8 < offset.natAbs then (s.wr SYS_TB_STATUS.ALIGN_FAULT 0 1).traceTb true else s
  | 3 =>
    if offset.natAbs ≤ 1000 then (s.tbSlew offset).tbState 2
    else
      let s := s.acquire
      { s with tbStepped := true }.tbStep offset
  | _ => s

/-- Whether the device exchanges timing flits: alignment runs, it is no root, and its link is ACTIVE (R31). -/
def State.exchanges (s : State) : Bool :=
  s.flag SYS_TB_CFG.ENABLE && !s.flag SYS_TB_CFG.ROOT && s.linkState (s.rd SYS_TB_CFG.REF_LINK) == 2

/-- The rate between two exchanges: the parent's count has moved by more or less than the elapsed ticks, so that it gains or
loses one tick in so many (R29, log entry 125). -/
def rateOf (elapsed : Nat) (moved : Int) : Option (Bool × Nat) :=
  let d := moved - (elapsed : Int)
  if d = 0 then none else some (decide (0 < d), elapsed / d.natAbs)

/-- The parent's message has come: the offset takes the time of flight as half the round trip, and the rate is that since the
last exchange with this parent (R29, log entry 125). -/
def State.measured (s : State) (t1 t2 t3 t4 : Nat) : State :=
  let offset := (((t2 : Int) - t1) + ((t3 : Int) - t4)) / 2
  let parent := (s.tb : Int) + offset
  let rate := match s.tbRef with
    | none => s.tbRate
    | some (n, p) => if n < s.now then rateOf (s.now - n) (parent - p) else s.tbRate
  { s with tbXchg := none, tbRef := some (s.now, parent) }.exchange offset rate

/-- An exchange begins: a class-0 TIME message with the own count leaves toward the parent (R29, R346, log entry 125). -/
def State.askTime (s : State) : State :=
  let l := s.rd SYS_TB_CFG.REF_LINK
  let tag := s.nextTag % 65536
  { s with nextTag := s.nextTag + 1, tbFrom := s.tb, tbXchg := some ⟨tag, s.tb, none⟩ }.pushMsg (0x9000 + l) 0 0
    ⟨6, 0, tag, s.rd LK_LINK_STATUS.PEER_ID l, s.deviceId, 0, 0, [BitVec.ofNat 64 s.tb, 0]⟩

/-- TIMING_EXCHANGE (R29, R31, R33, R36): an exchange whose message has come back completes; otherwise one begins, at a
multiple of 2^SYNC_LOG2 ticks at which none has begun and that comes after the last change of the configuration. -/
def execTimingExchange (t : Nat) (s : State) : Res :=
  s.live t fun s =>
    if !s.exchanges then s
    else match s.tbXchg with
      | some ⟨_, t1, some (t2, t3, t4)⟩ => s.measured t1 t2 t3 t4
      | _ => if s.tb % 2 ^ s.rd SYS_TB_CFG.SYNC_LOG2 = 0 ∧ s.tb ≠ s.tbFrom then s.askTime else s

/-- HOLDOVER_ENTRY (R36): no exchange has completed within 4 intervals while LOCKED. -/
def execHoldoverEntry (t : Nat) (s : State) : Res :=
  s.live t fun s =>
    if s.flag SYS_TB_CFG.ENABLE ∧ !s.flag SYS_TB_CFG.ROOT ∧ s.rd SYS_TB_STATUS.STATE = 2 ∧
        s.tbLast + 4 * 2 ^ s.rd SYS_TB_CFG.SYNC_LOG2 ≤ s.now then s.tbState 3
    else s

/-! ### Customer sites (R43, R44) -/

/-- The polder of a site's hub (R43, R453). -/
def sitePolder (site : Nat) : Nat := 5 + site

/-- SITE_POWER_WINDOW (R41, R43): a site's mean draw over the complete 1 ms window, in 10 mW. Above 40 W it sets OVER, opens
a CURRENT event and sends a throttle request over sideband. -/
def execSitePowerWindow (t site mean : Nat) (s : State) : Res :=
  s.live t fun s =>
    if 2 ≤ site then s
    else
      let p := sitePolder site
      let s := s.wr SYS_CDS_STATUS_n.POWER site (min mean 65535)
      if 4000 < mean then
        let s := { s with siteThrottle := Tab.put (fun _ => 0) s.siteThrottle site (Tab.get (fun _ => 0) s.siteThrottle site + 1) }
        (s.wr SYS_CDS_STATUS_n.OVER site 1).openEvent 2 p nobodys 0 40 true
      else if s.cap p = 0 then (s.endAct 2 p).closeEvents else s

/-- A request was issued by an agent of a site. -/
def Requester.ofSite (site : Nat) : Requester → Bool
  | .site agent _ _ => agent / 16 == 0x800 + site
  | _ => false

/-- The requests of a site that are not performed are discarded (R44): those held for the lock, those that wait in an egress
queue, and the answers of those already sent. -/
def State.dropSite (s : State) (site : Nat) : State :=
  { s.recallReqs (Requester.ofSite site) with siteHeld := s.siteHeld.filter fun r => r.site != site }

/-- A site leaves ACTIVE (R44): 0 the cut, 1 a link loss, 2 an uncorrectable error. -/
def State.downSite (s : State) (site cause : Nat) : State :=
  if s.rd SYS_CDS_STATUS_n.STATE site = 4 then
    ((s.dropSite site).wr SYS_CDS_STATUS_n.STATE site 5).faultRecord 13 site 0xFFF 0 0 cause
  else s

/-- SITE_SUPPLY_CUT (R43): the draw has stayed above 48 W for 100 µs; the site is DOWN whatever its STATE was. -/
def execSiteSupplyCut (t site : Nat) (s : State) : Res :=
  s.live t fun s =>
    if 2 ≤ site then s
    else ((s.wr SYS_CDS_STATUS_n.CUT site 1).downSite site 0).wr SYS_CDS_STATUS_n.STATE site 5

/-- SITE_DOWN (R44). -/
def execSiteDown (t site cause : Nat) (s : State) : Res :=
  s.live t fun s => if 2 ≤ site then s else s.downSite site cause

end Sys2Proof.Machine
end

