-- ==== Sys2Proof/Machine/Ethernet.lean ====
section
/-! DEFINITION. Ethernet ports: fabric packets and their peer entries, management frames (R362–R365, R369). -/

namespace Sys2Proof.Machine

/-! ### Fabric packets (R363, R364) -/

/-- The VALID peer entry of a source address (R364), the lowest. -/
def State.entryOf (s : State) (hi lo : Word) : Option Nat :=
  ((Tab.keys s.regs).filterMap fun off =>
    if 0x30040010 ≤ off ∧ off < 0x30060000 ∧ (off - 0x30040010) % 0x20 = 0 then some ((off - 0x30040010) / 0x20)
    else none).find? fun n => s.flag LK_EPEER_CFG.VALID n && s.reg (LK_EPEER_IP_HI.IP.off n) == hi &&
      s.reg (LK_EPEER_IP_LO.IP.off n) == lo

/-- Packets not acknowledged are sent again, with the present ACK (R364). -/
def State.resendPackets (s : State) (e cls : Nat) : State :=
  let x := s.stream e cls
  (s.setStream e cls { x with nak := false }).emit e cls
    (x.unacked.map fun (k : Packet) => { k with ack := (x.rxSeq + 2 ^ 32 - 1) % 2 ^ 32, nak := x.nak })

/-- Messages that wait enter packets in order, as far as they can leave; their windows begin (R360, R364). -/
def State.drainFrom (s : State) (e cls : Nat) : Nat → State
  | 0 => s
  | n + 1 =>
    let x := s.stream e cls
    match x.waiting with
    | [] => s
    | m :: r =>
      if s.packetGoes e cls m then
        let s := (s.setStream e cls { x with waiting := r }).sendPacket e cls [m]
        (if isResponse m.kind then s else s.leaveMsgs [m]).drainFrom e cls n
      else s

/-- The messages that wait at a stream leave, as far as they can. -/
def State.drainStream (s : State) (e cls : Nat) : State := s.drainFrom e cls (s.stream e cls).waiting.length

/-- The packets up to an ACK are acknowledged: progress, and room for messages that wait (R364). -/
def State.ackPackets (s : State) (e cls ack : Nat) : State :=
  let x := s.stream e cls
  if x.unacked.any (fun k => k.seq == ack) then
    let left := (x.unacked.dropWhile (fun k => k.seq != ack)).drop 1
    ((s.setStream e cls { x with unacked := left, progress := s.now }).wr LK_EPEER_CFG.STATE e 1).drainStream e cls
  else s

/-- A packet's sequence is checked: the next one is delivered and acknowledged; a gap is answered with NAK; one delivered
before is acknowledged again (R364). RESTART makes its SEQ the one expected, but for a packet sent again (log entry 121). -/
def State.takePacket (s : State) (port e : Nat) (k : Packet) : State :=
  let x := s.stream e k.cls
  let fresh := k.restart && x.restarted != some (k.seq, k.msgs)
  let want := if fresh then k.seq else x.rxSeq
  let ackNow := fun (s : State) => s.sendPacket e k.cls [] true
  if k.seq = want then
    let x := { x with rxSeq := (want + 1) % 2 ^ 32,
                      restarted := if fresh then some (k.seq, k.msgs) else x.restarted }
    let s := (s.setStream e k.cls x).wr LK_EPEER_CFG.STATE e 1
    ackNow (s.each k.msgs fun s m => s.deliver (0x9100 + port) e k.cls m)
  else if (k.seq + 2 ^ 32 - want) % 2 ^ 32 < 2 ^ 31 then ackNow (s.setStream e k.cls { x with nak := true })
  else ackNow s

/-- RTO_RESEND (R364): RTO_US has passed without progress; what a pause has held and may leave by now leaves too (R362, log
entry 138). -/
def execRtoResend (t peer cls : Nat) (s : State) : Res :=
  s.live t fun s =>
    let s := s.drainStream peer cls
    let x := s.stream peer cls
    if !x.unacked.isEmpty ∧ x.progress + s.rd LK_ETH_CFG.RTO_US (s.rd LK_EPEER_CFG.PORT peer) * 1000 ≤ s.now then
      s.resendPackets peer cls
    else s

/-- The requests that go through an Ethernet peer entry. -/
def State.entryReqs (s : State) (e : Nat) : List PeerReq :=
  s.peerReqs.filter fun r => decide (0x9100 ≤ r.port) && s.rd LK_WIN_DEV.EPEER r.win == e

/-- The streams of an entry begin anew, with RESTART on the next packet of each or not. -/
def State.clearStreams (s : State) (e : Nat) (restart : Bool) : State :=
  s.each (List.range 4) fun s c => s.setStream e c { streamInit 0 with restart := restart }

/-- EPEER_DOWN (R364): an entry has made no progress for PEER_TIMEOUT; its outstanding requests complete LOST. -/
def execEpeerDown (t peer : Nat) (s : State) : Res :=
  s.live t fun s =>
    let stuck := (List.range 4).any fun c =>
      let x := s.stream peer c
      !x.unacked.isEmpty && decide (x.progress + s.peerTicks ≤ s.now)
    if s.peerUp peer ∧ stuck then
      let rs := s.entryReqs peer
      ((s.wr LK_EPEER_CFG.STATE peer 2).clearStreams peer false).loseReqs rs
    else s

/-- LK_EPEER_CFG takes a word: writing VALID to 1 restarts the entry with RESTART set (R364). -/
def State.epeerStore (s : State) (agent e : Nat) (v : Word) : State :=
  let s := s.storeReg agent (LK_EPEER_CFG.VALID.off e) v
  if LK_EPEER_CFG.VALID.get v = 1 then (s.wr LK_EPEER_CFG.STATE e 0).clearStreams e true else s

/-- EPEER_VALID (R364): a write of LK_EPEER_CFG. -/
def execEpeerValid (t agent peer : Nat) (v : Word) (s : State) : Res :=
  s.live t fun s =>
    if peer < 4096 then s.gate agent (LK_EPEER_CFG.VALID.off peer) true fun s => s.epeerStore agent peer v else s

/-! ### Management frames (R365) -/

/-- Whether a frame of so many bytes without its FCS has 64 B to MTU with it (R362; log entry 138). -/
def State.frameFits (s : State) (p len : Nat) : Bool := decide (64 ≤ len + 4) && decide (len + 4 ≤ s.rd LK_ETH_CFG.MTU p)

/-- The address of a descriptor of a management ring. -/
def mgmtSlot (base log n : Nat) : Nat := base * 4096 + 16 * (n % 2 ^ log)

/-- A descriptor read by a port: its two words, none when the dike table does not admit the port or the line is
poisoned. -/
def State.readMgmt (s : State) (p a : Nat) : Option (Word × Word) × State :=
  if s.plainOk (s.subject (0x9100 + p)) false a 16 then
    match s.engWords a 2 with
    | ([x, y], false, s) => (some (x, y), s)
    | (_, _, s) => (none, s)
  else (none, s)

/-- The bytes of a management ring, by its base and the log of its size. -/
def mgmtRing (base log : Nat) : Nat × Nat := (base * 4096, 16 * 2 ^ log)

/-- Whether the receive or the transmit ring of a port passes the check of R64 as the port begins to use it: the port reads its
descriptors, and writes those it receives into (R369; log entry 140). -/
def State.mgmtOk (s : State) (p : Nat) (rx : Bool) : Bool :=
  let a := s.subject (0x9100 + p)
  let r := if rx then mgmtRing (s.rd LK_ETH_MRX.BASE p) (s.rd LK_ETH_MCFG.RX_LOG2 p)
    else mgmtRing (s.rd LK_ETH_MTX.BASE p) (s.rd LK_ETH_MCFG.TX_LOG2 p)
  s.plainOk a false r.1 r.2 && (!rx || s.plainOk a true r.1 r.2)

/-- Whether a port uses its receive (0) or transmit (1) ring: the last check has not refused it (R64). -/
def State.mgmtUsed (s : State) (p way : Nat) : Bool := !Tab.get (fun _ => false) s.mgmtBad (2 * p + way)

/-- The rings of a port are put into use (R64, R369). -/
def State.mgmtCheck (s : State) (p : Nat) : State :=
  { s with mgmtBad := Tab.put (fun _ => false) (Tab.put (fun _ => false) s.mgmtBad (2 * p) (!s.mgmtOk p true)) (2 * p + 1)
             (!s.mgmtOk p false) }

/-- The next receive descriptor whose OWN bit is 1, looking round the ring once: its number and words. -/
def State.findRx (s : State) (p : Nat) : Nat → Nat → Option (Nat × Word × Word) × State
  | 0, _ => (none, s)
  | k + 1, n =>
    match s.readMgmt p (mgmtSlot (s.rd LK_ETH_MRX.BASE p) (s.rd LK_ETH_MCFG.RX_LOG2 p) n) with
    | (some (x, y), s) => if y.toNat.testBit 63 then (some (n, x, y), s) else s.findRx p k (n + 1)
    | (none, s) => (none, s)

/-- A frame goes to a port's management receive ring, without its FCS (R365): into the next descriptor that the device owns, whose length
becomes the frame's and whose ERROR says that the frame did not fit (log entry 40). -/
def State.mgmtFrame (s : State) (p : Nat) (b : List Byte) : State :=
  let log := s.rd LK_ETH_MCFG.RX_LOG2 p
  let agent := 0x9100 + p
  match if s.mgmtUsed p 0 then s.findRx p (2 ^ log) (Tab.get (fun _ => 0) s.mrxNext p) else (none, s) with
  | (none, s) => s.bump LK_ETH_STATUS.RX_DROP p
  | (some (n, x, y), s) =>
    let room := bitsOf y.toNat 13 0
    let put := b.take room
    let pa := bitsOf x.toNat 51 0
    let slot := mgmtSlot (s.rd LK_ETH_MRX.BASE p) log n
    if (put.isEmpty || s.plainOk (s.subject agent) true pa put.length) && s.plainOk (s.subject agent) true slot 16 then
      let s := s.engWrite pa put
      let s := s.engWrite (slot + 8) (natLE 8 (packBits [(0, b.length % 16384), (62, bit (decide (room < b.length)))]))
      let s := { s with mrxNext := Tab.put (fun _ => 0) s.mrxNext p ((n + 1) % 2 ^ 32) }
      if s.flag LK_ETH_MCFG.NOTIFY p then s.notify agent (s.rd LK_ETH_MCFG.NOTIFY_SYNC p) else s
    else s.bump LK_ETH_STATUS.RX_DROP p

/-- One posted descriptor is sent as it stands, with the FCS, at the priority of class 3 (R365); one that the port may not
read, or whose frame has not 64 B to MTU, is passed over (R362; log entry 138). -/
def State.mtxOne (s : State) (p n : Nat) : State :=
  match s.readMgmt p (mgmtSlot (s.rd LK_ETH_MTX.BASE p) (s.rd LK_ETH_MCFG.TX_LOG2 p) n) with
  | (none, s) => s
  | (some (x, y), s) =>
    let pa := bitsOf x.toNat 51 0
    let len := bitsOf y.toNat 13 0
    if s.frameFits p len && s.plainOk (s.subject (0x9100 + p)) false pa len then
      let (b, bad, s) := s.engRead pa len
      if bad then s else { s with mtxSent := (0x9100 + p, s.rd LK_ETH_CLASS.PRIO_3 p, b) :: s.mtxSent }
    else s

/-- A running port sends the descriptors posted up to TAIL, at most a ring of them, unless the priority is paused (R362,
R365). -/
def State.mtxSend (s : State) (p : Nat) : State :=
  let tail := s.rd LK_ETH_MTX_TAIL.TAIL p
  let from_ := Tab.get (fun _ => 0) s.mtxNext p
  if s.ethRuns p && s.mgmtUsed p 1 && !s.paused p 3 then
    let n := min (idxDiff tail from_) (2 ^ s.rd LK_ETH_MCFG.TX_LOG2 p)
    let s := s.each ((List.range n).map fun k => from_ + k) fun s i => s.mtxOne p i
    { s with mtxNext := Tab.put (fun _ => 0) s.mtxNext p tail }
  else s

/-- MTX_TAIL (R365): a write of LK_ETH_MTX_TAIL. -/
def execMtxTail (t agent port : Nat) (v : Word) (found : Found) (s : State) : Res :=
  s.live t fun s =>
    if port < 4 then
      let off := LK_ETH_MTX_TAIL.TAIL.off port
      s.gate agent off true fun s => s.reads found 0 (0x9100 + port) fun s => (s.storeReg agent off v).mtxSend port
    else s

/-- LK_ETH_CFG takes a word; a port that begins to run has its rings checked and sends what is posted (R64, R369). -/
def State.ethCfgStore (s : State) (agent p : Nat) (v : Word) : State :=
  let s := s.storeReg agent (LK_ETH_CFG.ENABLE.off p) v
  (if LK_ETH_CFG.ENABLE.get v = 1 then s.mgmtCheck p else s).mtxSend p

/-- ETH_LINK_UP (R362, R369): a port's link comes up or goes down. -/
def execEthLinkUp (t port : Nat) (up : Bool) (s : State) : Res :=
  s.live t fun s =>
    if port < 4 then (s.wr LK_ETH_STATUS.UP port (bit up)).mtxSend port else s

/-! ### Frames that a port receives (R362–R365) -/

/-- A priority's pause in quanta of 512 bit times, in ticks, rounded up (R362): 800 or 400 Gb/s. -/
def State.pauseTicks (s : State) (p quanta : Nat) : Nat :=
  (quanta * (if s.flag LK_ETH_CFG.RATE p then 128 else 64) + 99) / 100

/-- A priority flow control frame pauses the priorities that it names, or lets them go on (R362, 802.1Qbb; log entry 138). -/
def State.pause (s : State) (p : Nat) (b : List Byte) : State :=
  let on := beNat ((b.drop 2).take 2)
  let s := s.each ((List.range 8).filter on.testBit) fun s n =>
    { s with pfcUntil := Tab.put (fun _ => 0) s.pfcUntil (8 * p + n)
               (s.now + s.pauseTicks p (beNat ((b.drop (4 + 2 * n)).take 2))) }
  (s.each (Tab.keys s.estreams) fun s k =>
    if s.rd LK_EPEER_CFG.PORT (k / 4) = p then s.drainStream (k / 4) (k % 4) else s).mtxSend p

/-- A packet addressed to the port (R363, R364): one whose checksum fails is dropped and counted, as is one of no peer entry;
one of a DOWN entry is dropped (log entry 39). -/
def State.takeFabric (s : State) (port : Nat) (d : Datagram) : State :=
  if !d.sound then s.bump LK_ETH_STATUS.CSUM_DROP port
  else
    match s.entryOf d.src.1 d.src.2 with
    | none => s.bump LK_ETH_STATUS.NO_PEER port
    | some e =>
      if s.rd LK_EPEER_CFG.STATE e = 2 then s
      else
        let k := packetOf d.data
        let s := s.ackPackets e k.cls k.ack
        let s := if k.nak then s.resendPackets e k.cls else s
        if k.ackOnly then s else s.takePacket port e k

/-- The datagram of a frame, if the frame is a fabric packet addressed to the port (R363, R365). -/
def State.fabricOf (s : State) (p : Nat) (f : FrameParts) : Option Datagram :=
  (datagramOf f).filter fun d =>
    d.dst.1 == s.reg (LK_ETH_IP_HI.IP.off p) && d.dst.2 == s.reg (LK_ETH_IP_LO.IP.off p) &&
      d.port == s.rd LK_ETH_CFG.UDP_PORT p

/-- A frame reaches a port, without its FCS (R362–R365): one that the MAC does not support is dropped; with priority flow
control its frames are obeyed; a fabric packet addressed to the port is taken; any other goes to the management ring (log
entry 138). -/
def State.frameIn (s : State) (p : Nat) (b : List Byte) : State :=
  let f := frameParts b
  if !s.frameFits p b.length || decide (1 < f.tags) then s
  else if s.flag LK_ETH_CFG.PFC p && f.type == 0x8808 && beNat (f.body.take 2) == 0x0101 then s.pause p f.body
  else
    match s.fabricOf p f with
    | some d => s.takeFabric p d
    | none => s.mgmtFrame p b

/-- A frame reaches a port that runs; what its reads find is given (R274). -/
def State.receiveFrame (s : State) (port : Nat) (bytes : List Byte) (found : Found) : State :=
  if port < 4 ∧ s.ethRuns port then s.reads found 0 (0x9100 + port) fun s => s.frameIn port bytes else s

/-- FABRIC_PACKET (R363–R365). -/
def execFabricPacket (t port : Nat) (bytes : List Byte) (found : Found) (s : State) : Res :=
  s.live t fun s => s.receiveFrame port bytes found

/-- MANAGEMENT_FRAME (R363–R365): which of the two a frame is, the port decides. -/
def execManagementFrame (t port : Nat) (bytes : List Byte) (found : Found) (s : State) : Res :=
  s.live t fun s => s.receiveFrame port bytes found

end Sys2Proof.Machine
end

