-- ==== Sys2Proof/Machine/HostRegs.lean ====
section
/-! DEFINITION. The implementation system registers of host cores (R374, R384, R388, R390). -/

namespace Sys2Proof.Machine

/-! ### HC_STRICT (R387, R388) -/

/-- Whether every access that a core has made is performed. -/
def HostCore.settled (h : HostCore) : Bool := h.sb.isEmpty && h.loads.isEmpty && h.scPend.isNone

/-- A core writes HC_STRICT (R388): a 0 ends the forces whose condition for it holds, and is ignored while one holds. -/
def State.strictStore (s : State) (c : Nat) (v : Word) : State :=
  let want := HC_STRICT.STRICT.get v
  let h := s.host c
  let s := if want = 0 then
      s.setHost c { h with start := h.start && !s.locked, recov := h.recov && !h.synRead }
    else s
  s.setStrict c want

/-! ### HC_L2LOCK (R374) -/

/-- Where the lines of a core lie once WAYS goes from one number to another: the manual does not say which way of its set
a line is in, so which lines' ways become locked or unlocked is free, as far as the ways have room; a WAYS of 0 unlocks
every line (log entry 46). -/
def relock (old new idx : Nat) (l : List CacheLine) : List CacheLine :=
  (l.zipIdx.foldl
    (fun (a : List (CacheLine × Bool)) (e : CacheLine × Nat) =>
      let x := e.1
      let coin := (Config.freeWord (idx + e.2)).toNat % 2 == 1
      let mates := a.filter fun y => y.1.line % 2048 == x.line % 2048
      let y : CacheLine × Bool :=
        if new < old then
          ({ x with locked := x.locked && coin && decide ((mates.filter (·.1.locked)).length < new) }, false)
        else if !x.locked && coin && decide ((mates.filter (·.2)).length < new - old) then ({ x with locked := true }, true)
        else (x, false)
      a ++ [y]) []).map Prod.fst

/-- A core writes HC_L2LOCK (R374, R390). -/
def State.l2lockStore (s : State) (c : Nat) (v : Word) : State :=
  let off := HC_L2LOCK.WAYS.off c
  let old := s.rd HC_L2LOCK.WAYS c
  let s := s.setReg off (s.written off v false).word
  let new := s.rd HC_L2LOCK.WAYS c
  if new = old then s
  else
    let h := s.host c
    { s.setHost c { h with cache := relock old new s.freeIdx h.cache } with freeIdx := s.freeIdx + h.cache.length }

/-! ### HC_DEVSYN (R384) -/

/-- The handler of a precise exception has returned: the lost stores that waited for it are taken (R384); the first raises
the exception, the others are counted. -/
def State.takeLost (s : State) (c : Nat) : State :=
  match (s.host c).lostQ with
  | [] => s
  | (addr, cause, n) :: q =>
    let s := s.setHost c { s.host c with lostQ := [] }
    let s := (s.wr HC_DEVSYN.COUNT c 0).hostExc c 3 cause addr
    s.bump HC_DEVSYN.COUNT c ((n :: q.map fun e => 1 + e.2.2).sum)

/-- A core reads HC_DEVSYN: the read returns it and clears it (R384, R390). -/
def State.devsynRead (s : State) (c : Nat) : State :=
  let off := HC_DEVSYN.KIND.off c
  let s := (s.answer (0x100 + c) (s.reg off)).setReg off 0
  s.setHost c { s.host c with synRead := true }

/-- A core's instruction that accesses a system register issues behind no barrier that has not completed (R382); where the
handler of an earlier precise exception has returned, the lost stores that waited are taken first (R384). -/
def State.systemTurn (s : State) (c : Nat) (returned : Bool) (f : State → State) : State :=
  if s.hostRuns c && (s.host c).barrier == 0 then f (if returned then s.takeLost c else s) else s

/-- A core writes one of its system registers (R390); a number that is none of them has no effect here (R16). -/
def State.systemWrite (s : State) (c num : Nat) (v : Word) : State :=
  match num with
  | 0xC00 => s.l2lockStore c v
  | 0xC01 => let off := HC_PFCTL.NEXTLINE.off c; s.setReg off (s.written off v false).word
  | 0xC02 => s.strictStore c v
  | _ => s

/-- HC_DEVSYN_READ (R384). -/
def execHcDevsynRead (t core : Nat) (returned : Bool) (s : State) : Res :=
  s.live t fun s => s.systemTurn core returned fun s => s.devsynRead core

/-- HC_STRICT_WRITE (R388): it waits until every earlier access has been performed (R387). -/
def execHcStrictWrite (t core : Nat) (returned : Bool) (v : Word) (s : State) : Res :=
  s.live t fun s => if (s.host core).settled then s.systemTurn core returned fun s => s.strictStore core v else s

/-- HC_L2LOCK_WRITE (R374). -/
def execHcL2lockWrite (t core : Nat) (v : Word) (s : State) : Res :=
  s.live t fun s => s.systemTurn core false fun s => s.l2lockStore core v

end Sys2Proof.Machine
end

