-- ==== Sys2Proof/Machine/TraceDebug.lean ====
section
/-! DEFINITION. The trace writers, counters and debug registers (R506–R517). -/

namespace Sys2Proof.Machine

/-! ### Trace rings (R506–R512) -/

/-- Whether trace ring n admits an event (R506, R507). -/
def State.ringAdmits (s : State) (n : Nat) (e : TraceRec) : Bool :=
  s.ringInUse (ringOf (5 + n)) && (s.rd TRC_RING_EVENTS.MASK n).testBit e.event &&
    (!s.flag TRC_RING_FILTER.CTX_EN n || e.ctx == s.rd TRC_RING_FILTER.CONTEXT n) &&
    (!s.flag TRC_RING_FILTER.LAYER_EN n || e.layer == s.rd TRC_RING_FILTER.LAYER n) &&
    (s.rd TRC_RING_FILTER.SRCKINDS n).testBit e.srcKind

/-- The words of a trace record (R509). -/
def TraceRec.words (e : TraceRec) : List Word :=
  [BitVec.ofNat 64 e.time, packWord [(0, e.event), (8, e.srcKind), (12, e.src), (28, e.ctx)],
   packWord [(0, e.layer), (16, e.opid)], e.arg]

/-- Bytes that a hub's trace writer may write in a window (R511). -/
def State.traceBudget (s : State) : Nat := s.rd TRC_CFG.BUDGET_PERMILLE * 12288

/-- Bytes that a hub's trace writer has written in the present window. -/
def State.traceUsed (s : State) (hub : Nat) : Nat := Tab.get (fun _ => 0) s.budget hub

/-- Why a record cannot be written to ring n: 0 it can, 1 FULL, 2 BUDGET (R512). -/
def State.traceBar (s : State) (n hub : Nat) : Nat :=
  if s.ringFree (ringOf (5 + n)) = 0 then 1 else if s.traceBudget < s.traceUsed hub + 32 then 2 else 0

/-- A record is written to ring n against a hub's budget; whether the ring took it. -/
def State.tracePut (s : State) (n : Nat) (e : TraceRec) : Bool × State :=
  match s.ringPut (ringOf (5 + n)) e.words with
  | (ok, s) => (ok, { s with budget := Tab.put (fun _ => 0) s.budget e.hub (s.traceUsed e.hub + 32) })

/-- Whether a drop count is a source's in a ring. -/
def Drop.of (d : Drop) (n : Nat) (e : TraceRec) : Bool := d.ring == n && d.srcKind == e.srcKind && d.src == e.src

/-- A record is dropped and counted at its source (R512). -/
def State.traceDrop (s : State) (n bar : Nat) (e : TraceRec) : State :=
  let s := (s.pmcHub e.hub 76)
  let s := if bar = 2 then { s with overWin := true } else s
  match s.drops.find? (fun d => d.of n e) with
  | some d =>
    let d' := { d with count := min (d.count + 1) (2 ^ 32 - 1), cause := d.cause ||| bar, last := e.time, layer := e.layer,
                       opid := e.opid }
    { s with drops := s.drops.map fun x => if x.of n e then d' else x }
  | none => { s with drops := s.drops ++ [⟨n, e.srcKind, e.src, 1, bar, e.time, e.time, e.layer, e.opid⟩] }

/-- The spillway record of a source's drops in a ring (R509, R512). -/
def Drop.record (d : Drop) (hub : Nat) : TraceRec :=
  ⟨d.last, 63, d.srcKind, d.src, 0xFFF, d.layer, d.opid,
    packWord [(0, d.count), (32, d.cause), (34, min (d.last - d.first) (2 ^ 30 - 1))], hub⟩

/-- A spillway record that is due is written first; none while it cannot be (R512). -/
def State.spill (s : State) (n : Nat) (e : TraceRec) : Option State :=
  match s.drops.find? (fun d => d.of n e) with
  | none => some s
  | some d =>
    if s.traceBar n e.hub ≠ 0 then none
    else
      match s.tracePut n (d.record e.hub) with
      | (true, s) => some ({ s with drops := s.drops.filter fun x => !x.of n e }.bump TRC_RING_STATUS.SPILLS n)
      | (false, _) => none

/-- An event reaches the lowest ring that admits it: written, after its source's spillway record, or dropped (R506,
R512). -/
def State.traceWrite (s : State) (e : TraceRec) : State :=
  match (List.range 16).find? (fun n => s.ringAdmits n e) with
  | none => s
  | some n =>
    match s.spill n e with
    | none => s.traceDrop n (s.traceBar n e.hub) e
    | some s =>
      if s.traceBar n e.hub ≠ 0 then s.traceDrop n (s.traceBar n e.hub) e
      else
        match s.tracePut n e with
        | (true, s) => s
        | (false, s) => s.traceDrop n 0 e

/-- TRACE_EVENT (R506): the trace writer serves the oldest event offered (R511). -/
def execTraceEvent (t : Nat) (s : State) : Res :=
  s.live t fun s =>
    match s.offers with
    | [] => s
    | e :: r => { s with offers := r }.traceWrite e

/-- TRACE_BUDGET_WINDOW (R511): a window of 1,000 ticks begins with a whole budget; one in which a record was dropped for
budget is counted (R517). -/
def execTraceBudgetWindow (t : Nat) (s : State) : Res :=
  s.live t fun s =>
    if !s.edge 1000 then s
    else
      let s := if s.overWin then s.bump TRC_STATUS.OVER 0 else s
      { s with budget := [], overWin := false }

/-- TRC_MARK (R509): a write of the register offers a MARK event of the writer. -/
def execTrcMark (t agent : Nat) (v : Word) (s : State) : Res :=
  s.live t fun s =>
    let off := TRC_MARK.VALUE.off 0
    s.gate agent off true fun s => (s.storeReg agent off v).offer 9 0 agent 0 v.toNat

/-! ### Samples (R513) -/

/-- A SAMPLE event of a counter whose selection is at an offset. -/
def State.sampleOne (s : State) (off src hub k : Nat) : State :=
  let sel := s.reg off
  let ctx := if TRC_HPMC_SEL.CTX_EN.get sel = 1 then TRC_HPMC_SEL.CONTEXT.get sel else 0xFFF
  let layer := if TRC_HPMC_SEL.LAYER_EN.get sel = 1 then TRC_HPMC_SEL.LAYER.get sel else 0
  s.offer 32 4 src hub (packBits [(0, k), (8, (s.reg (off + 8)).toNat % 2 ^ 56)]) ctx layer 0

/-- COUNTER_SAMPLE (R513): with SAMPLE_EN set, every SAMPLE_US µs each counter offers a SAMPLE event. -/
def execCounterSample (t : Nat) (s : State) : Res :=
  s.live t fun s =>
    if !s.flag TRC_CFG.SAMPLE_EN ∨ !s.edge (1000 * s.rd TRC_CFG.SAMPLE_US) then s
    else
      let cores := ([0, 1, 2, 3].filter fun d => !s.walled d).flatMap s.dieCores
      let s := s.each cores fun s c =>
        s.each (List.range 4) fun s k => s.sampleOne (0x10000300 + 0x10000 * c + 0x10 * k) c (hubOfCore c) k
      s.each [0, 1] fun s h =>
        s.each (List.range 16) fun s k => s.sampleOne (0x40002000 + 0x100 * h + 0x10 * k) (0x100 + h) h k

/-! ### Debug registers (R514, R515) -/

/-- Whether an agent may read a core's scratchpad through the debug registers: a host core only when the core's context
belongs to its partition (R514). -/
def State.spReadable (s : State) (agent c : Nat) : Bool :=
  !isHost agent || s.partOfCtx (s.rd TC_STATUS.CONTEXT c) == s.partOfHost (agent - 0x100)

/-- The result of a read of DBG_SP_DATA: its data, POISON and DENIED. -/
def State.spResult (s : State) (agent : Nat) (v : Word) (poison denied : Bool) : State :=
  ((s.setReg (DBG_SP_DATA.DATA.off 0) v).setReg (DBG_SP_STAT.DONE.off 0)
    (packWord [(0, bit poison), (1, bit denied), (2, 1)])).answer agent v

/-- A read of DBG_SP_DATA (R514): eight bytes of the scratchpad that DBG_SP_ADDR names; a walled-off core's are poison, of no
stated value; a disabled core's read as zero (R5). Reserved bits of the address are dropped (R49, log entry 143). -/
def State.spRead (s : State) (agent : Nat) (spBad : List Nat) : State :=
  let a := 8 * s.rd DBG_SP_ADDR.ADDR
  let c := a / spSize % 256
  let o := a % spSize
  if !s.spReadable agent c then s.spResult agent 0 false true
  else if !s.coreEnabled c then s.spResult agent 0 false false
  else if s.walled (dieOf c) then let (v, s) := s.free; s.spResult agent v true false
  else
    let s := s.spParity c spBad [(o, 8)]
    let k := s.core c
    s.spResult agent (BitVec.ofNat 64 (leNat (k.spBytes o 8))) (k.spBad (o / 64)) false

/-- DBG_SP_DATA_READ (R514): the read may fail a parity check (R175). -/
def execDbgSpDataRead (t agent : Nat) (spBad : List Nat) (s : State) : Res :=
  s.live t fun s => s.gate agent (DBG_SP_DATA.DATA.off 0) false fun s => s.spRead agent spBad

/-- The halt of a host core changes (R388, R515): halted, strict order is forced; released, STRICT is as it was. -/
def State.haltHost (s : State) (c : Nat) (on : Bool) : State :=
  let h := s.host c
  if on then
    (s.setHost c { h with halted := true, soft := if h.debugged then h.soft else s.strict c }).setStrict c 1
  else
    (s.setHost c { h with halted := false, debugged := false }).setStrict c (bit h.soft)

/-- A write of DBG_HC_HALT_n (R515). -/
def State.haltStore (s : State) (agent n : Nat) (v : Word) : State :=
  let f := if n = 0 then DBG_HC_HALT_0.HALT else DBG_HC_HALT_1.HALT
  let s' := s.storeReg agent (f.off 0) v
  s'.each (List.range f.w) fun a k =>
    let c := 64 * n + k
    let on := (s'.rd f).testBit k
    if on == (a.host c).halted then a else a.haltHost c on

/-- DBG_HC_HALT_n (R515): a write of the register. -/
def execDbgHcHalt (t agent n : Nat) (v : Word) (s : State) : Res :=
  s.live t fun s =>
    let off := if n = 0 then DBG_HC_HALT_0.HALT.off 0 else DBG_HC_HALT_1.HALT.off 0
    if 2 ≤ n then s else s.gate agent off true fun s => s.haltStore agent n v

end Sys2Proof.Machine
end

