-- ==== Sys2Proof/Machine/RegAccess.lean ====
section
/-! DEFINITION. A write or a read of any register of register space, with the effect that its own row gives it (R51–R61),
and the step that applies a transaction (R73, R74, R78). -/

namespace Sys2Proof.Machine

/-- The number of the register of a row that lies at an offset, of n registers. -/
def Fld.idx (f : Fld) (n off : Nat) : Option Nat :=
  let k := (off - f.base) / f.stride
  if f.base ≤ off ∧ f.off k = off ∧ k < n then some k else none

/-- A row of registers whose writes do more than store: a field of it, how many there are, and what a write does. -/
structure Hook where
  /-- a field of the row -/
  fld : Fld
  /-- how many registers -/
  count : Nat
  /-- their effect, by number -/
  act : Nat → State → State

/-- The effect of the first row that holds an offset. -/
def runHooks (off : Nat) (s : State) : List Hook → Option State
  | [] => none
  | h :: r =>
    match h.fld.idx h.count off with
    | some k => some (h.act k s)
    | none => runHooks off s r

/-! ### Writes -/

/-- The writes of the SYS, TXN, SLU, QE and SY blocks that act. -/
def coreHooks (agent off : Nat) (v : Word) : List Hook := [
  ⟨SYS_TB_CFG.ENABLE, 1, fun _ s => s.tbStore agent v⟩,
  ⟨TXN_COMMIT.SYNC, 1, fun _ s => (s.storeReg agent off v).txnCommit agent v⟩,
  ⟨TXN_ROLLBACK.GO, 1, fun _ s => (s.storeReg agent off v).txnRollback agent v⟩,
  ⟨TXN_ABORT.GO, 1, fun _ s => (s.storeReg agent off v).txnAbort v⟩,
  ⟨SLU_LOG_CFG.ENABLE, 1, fun _ s => s.ringStore agent 2 v⟩,
  ⟨QE_DB_TAIL.TAIL, 16384, fun q s => (s.storeReg agent off v).tailTo q (v.toNat % 2 ^ 32)⟩,
  ⟨QE_DB_CQ_HEAD.CQ_HEAD, 16384, fun q s => (s.storeReg agent off v).cqHeadTo q (v.toNat % 2 ^ 32)⟩,
  ⟨QE_Q_CFG.ENABLE, 16384, fun q s => s.queueCfg agent q v⟩,
  ⟨QE_Q_CTRL.RESUME, 16384, fun q s => (s.storeReg agent off v).queueCtrl q v⟩,
  ⟨SY_ADD.V, 8192, fun o s => s.syPerform o false v⟩,
  ⟨SY_SET.V, 8192, fun o s => s.syPerform o true v⟩,
  ⟨SY_TRIG_CFG.ARM, 8192, fun o s => s.trigStore agent o v⟩]

/-- The writes of the MB and TR blocks that act. -/
def mailHooks (agent off : Nat) (v : Word) : List Hook := [
  ⟨MB_RELEASE.GO, 64, fun m s => (s.storeReg agent off v).mbReleaseWrite agent m v⟩,
  ⟨MB_REQ.WORD, 64, fun m s => s.mbReqPush agent m v⟩,
  ⟨MB_RSP.WORD, 64, fun m s => s.mbRspPush agent m v⟩,
  ⟨MB_SEND.CMD, 64, fun m s => (s.storeReg agent off v).mbSendWrite agent m v⟩,
  ⟨MB_ACK.CODE, 64, fun m s => s.mbAckWrite agent m v⟩,
  ⟨TR_CTX.VALID, 4096, fun c s => s.rootStore agent c v⟩,
  ⟨TR_INVAL_AST.TAG, 1, fun _ s => (s.storeReg agent off v).invalAst agent v⟩,
  ⟨TR_FAULT_CFG.ENABLE, 1, fun _ s => s.ringStore agent 0 v⟩,
  ⟨TR_FAULT_RESOLVE.SLOT, 1, fun _ s => (s.storeReg agent off v).faultResolve v⟩]

/-- HM_CH_CTRL (R286, R290, R294). -/
def State.chanCtrl (s : State) (agent c : Nat) (v : Word) : State :=
  let s := s.storeReg agent (HM_CH_CTRL.RETRAIN.off c) v
  let s := if HM_CH_CTRL.RETRAIN.get v = 1 then s.retrainWrite c else s
  if HM_CH_CTRL.RETIRE.get v = 1 then s.retireWrite agent c else s

/-- LK_LINK_CTRL (R353, R354). -/
def State.linkCtrl (s : State) (agent l : Nat) (v : Word) : State :=
  let s := s.storeReg agent (LK_LINK_CTRL.RETRAIN.off l) v
  let s := if LK_LINK_CTRL.RETRAIN.get v = 1 then s.retrainLink l else s
  if LK_LINK_CTRL.TRAIN.get v = 1 then s.trainLink l else s

/-- The writes of the HM, TIER, CE, LK and DIR blocks that act. -/
def memHooks (agent off : Nat) (v : Word) : List Hook := [
  ⟨HM_CH_CTRL.RETRAIN, 384, fun c s => s.chanCtrl agent c v⟩,
  ⟨HM_ERR_CFG.ENABLE, 1, fun _ s => s.ringStore agent 1 v⟩,
  ⟨TIER_RILL_CFG.ENABLE, 64, fun n s => s.rillStore agent n v⟩,
  ⟨TIER_OBJ_CFG.VALID, 65536, fun n s => s.objStore agent n v⟩,
  ⟨CE_EPOCH_CFG.EPOCH, 16, fun n s => s.epochStore agent n v⟩,
  ⟨LK_LINK_CFG.ENABLE, 24, fun l s => s.linkStore agent l v⟩,
  ⟨LK_LINK_CTRL.RETRAIN, 24, fun l s => s.linkCtrl agent l v⟩,
  ⟨LK_WIN.VALID, 256, fun w s => s.winStore agent w v⟩,
  ⟨LK_ETH_CFG.ENABLE, 4, fun p s => s.ethCfgStore agent p v⟩,
  ⟨LK_ETH_MTX_TAIL.TAIL, 4, fun p s => (s.storeReg agent off v).mtxSend p⟩,
  ⟨LK_EPEER_CFG.VALID, 4096, fun e s => s.epeerStore agent e v⟩,
  ⟨DIR_PROBE.LINE, 1, fun _ s => (s.storeReg agent off v).probeLine (bitsOf v.toNat 51 6)⟩]

/-- DBG_TDIE_CTRL_n (R488, R489). -/
def State.dieCtrl (s : State) (agent d : Nat) (v : Word) : State :=
  let s := s.storeReg agent (DBG_TDIE_CTRL.RESET.off d) v
  let s := if DBG_TDIE_CTRL.RESET.get v = 1 then s.cofferdam d 1 agent else s
  if DBG_TDIE_CTRL.READMIT.get v = 1 then s.readmitStore agent d else s

/-- DBG_HOSTDIE_RESET (R405). -/
def State.hostDieCtrl (s : State) (agent : Nat) (v : Word) : State :=
  let s := s.storeReg agent (DBG_HOSTDIE_RESET.GO.off 0) v
  if DBG_HOSTDIE_RESET.GO.get v = 1 then s.resetHostDie 1 agent else s

/-- BOOT_RELEASE (R446, R388): a host core that is held in reset and not fenced starts, in strict order; the host die's PLLs
are locked again by then (R27, log entry 126). -/
def State.releaseCore (s : State) (c : Nat) : State :=
  if decide (c < 96) && !(s.host c).released && !s.hostFenced c then
    ((s.wr SYS_CLK_STATUS.HOST_LOCK 0 1).setHost c { s.host c with released := true, start := true }).setStrict c 1
  else s

/-- A store to BOOT_RELEASE (R452): CORE clamps to 95. -/
def State.releaseStore (s : State) (agent : Nat) (v : Word) : State :=
  let s := s.storeReg agent (BOOT_RELEASE.CORE.off 0) v
  if BOOT_RELEASE.GO.get v = 1 then s.releaseCore (min (BOOT_RELEASE.CORE.get v) 95) else s

/-- The writes of the TRC, DBG and BOOT blocks that act. -/
def debugHooks (agent off : Nat) (v : Word) : List Hook := [
  ⟨TRC_MARK.VALUE, 1, fun _ s => (s.storeReg agent off v).offer 9 0 agent 0 v.toNat⟩,
  ⟨TRC_RING_CFG.ENABLE, 16, fun n s => s.ringStore agent (5 + n) v⟩,
  ⟨DBG_CTXRST.CONTEXT, 1, fun _ s => (s.storeReg agent off v).ctxrstWrite agent v⟩,
  ⟨DBG_RST_CFG.ENABLE, 1, fun _ s => s.ringStore agent 3 v⟩,
  ⟨DBG_FLT_CFG.ENABLE, 1, fun _ s => s.ringStore agent 4 v⟩,
  ⟨DBG_FENCE_HC_0.FENCE, 1, fun _ s => s.hcFenceStore agent 0 v⟩,
  ⟨DBG_FENCE_HC_1.FENCE, 1, fun _ s => s.hcFenceStore agent 1 v⟩,
  ⟨DBG_FENCE_TC.FENCE, 4, fun n s => s.tcFenceStore agent n v⟩,
  ⟨DBG_HOSTDIE_RESET.GO, 1, fun _ s => s.hostDieCtrl agent v⟩,
  ⟨DBG_TDIE_CTRL.RESET, 4, fun d s => s.dieCtrl agent d v⟩,
  ⟨DBG_HC_HALT_0.HALT, 1, fun _ s => s.haltStore agent 0 v⟩,
  ⟨DBG_HC_HALT_1.HALT, 1, fun _ s => s.haltStore agent 1 v⟩,
  ⟨BOOT_RELEASE.CORE, 1, fun _ s => s.releaseStore agent v⟩]

/-- A write of a register of a tensor core's block: ignored for a core that is disabled or walled off (R5, R53, R488). -/
def State.tcWrite (s : State) (agent off : Nat) (v : Word) : State :=
  let c := (off - 0x10000000) / 0x10000
  if s.coreEnabled c && !s.walled (dieOf c) then s.storeReg agent off v else s

/-- A live write of a register by an agent that has been admitted, with the effect of its own row. -/
def State.regLive (s : State) (agent off : Nat) (v : Word) : State :=
  if 0x10000000 ≤ off ∧ off < 0x11000000 then s.tcWrite agent off v
  else
    let hooks :=
      if off < 0x9000000 then coreHooks agent off v
      else if off < 0x20000000 then mailHooks agent off v
      else if off < 0x40000000 then memHooks agent off v
      else debugHooks agent off v
    (runHooks off s hooks).getD (s.storeReg agent off v)

/-- A write of a register by an agent that has been admitted: live, or as the open transaction has it (R70–R75). -/
def State.regWrite (s : State) (agent off : Nat) (v : Word) : State :=
  s.txnWrite agent off v fun s => s.regLive agent off v

/-! ### Reads -/

/-- The reads that act (R68, R258, R262, R263, R514). -/
def readHooks (agent : Nat) : List Hook := [
  ⟨TXN_BEGIN.RESULT, 1, fun _ s => s.txnBegin agent⟩,
  ⟨SY_EVENT.OBJ, 96, fun c s => s.eventRead agent c⟩,
  ⟨MB_LOCK.RESULT, 64, fun m s => s.mbLockRead agent m⟩,
  ⟨MB_REQ.WORD, 64, fun m s => s.mbReqPop agent m⟩,
  ⟨MB_RSP.WORD, 64, fun m s => s.mbRspPop agent m⟩,
  ⟨DBG_SP_DATA.DATA, 1, fun _ s => s.spRead agent []⟩]

/-- A read of a register by an agent that has been admitted: its answer, and its side effect. -/
def State.regRead (s : State) (agent off : Nat) : State :=
  (runHooks off s (readHooks agent)).getD (s.answer agent (s.ownerView agent off))

/-- Whether the keep store takes an access of a size at an address: 1, 2, 4 or 8 B naturally aligned, or 64 B aligned
(R47). -/
def keepShape (pa size : Nat) : Bool := ([1, 2, 4, 8, 64] : List Nat).contains size && pa % size == 0

/-- The cause of R57 that the size and alignment of an access give in a region, 0 for none (R47, R56): in register space,
holes of it included; in the keep store the model's choice of codes (log entry 129). -/
def shapeCause (r : Region) (pa size : Nat) : Nat :=
  if inRegSpace pa then if size ≠ 8 then 1 else if pa % 8 ≠ 0 then 2 else 0
  else if r = .keep ∧ !keepShape pa size then if ([1, 2, 4, 8, 64] : List Nat).contains size then 2 else 1
  else 0

/-- Whether an access meets a hole, or the repair spare, which is refused as one (R45, R46, R48). -/
def State.meetsHole (s : State) (pa size : Nat) : Bool :=
  [pa, pa + (size - 1)].any fun a => decide (s.region a = .hole ∨ s.region a = .spare)

/-- The cause of R57 for an access of an agent, the lowest that applies but that a hole is reported as HOLE and not as
DENIED: 0 when it is performed (R46). -/
def State.accessCause (s : State) (agent : Nat) (wr : Bool) (pa size : Nat) : Nat :=
  match shapeCause (s.region pa) pa size with
  | 0 => if s.meetsHole pa size then 6 else if s.admits agent wr pa size then 0 else 5
  | c => c

/-! ### REGISTER_WRITE (R60) -/

/-- A host core writes one of its own system registers; no other agent does (R390). -/
def State.systemBy (s : State) (agent c num : Nat) (v : Word) : State :=
  if agent = 0x100 + c ∧ !(num = 0xC02 ∧ !(s.host c).settled) then s.systemTurn c false fun s => s.systemWrite c num v
  else s

/-- Software writes a register (R60). -/
def State.registerWrite (s : State) (agent : Nat) (reg : RegTarget) (v : Word) : State :=
  match reg with
  | .system c num => s.systemBy agent c num v
  | .space off =>
    if !s.issues agent then s
    else
      match s.accessCause agent true (regBase + off) 8 with
      | 0 => (s.answer agent 0).regWrite agent off v
      | cause => s.refuse agent cause (regBase + off)

/-- BOOT_RELEASE (R446, R452): a write of the register. -/
def execBootRelease (t agent : Nat) (v : Word) (s : State) : Res :=
  s.live t fun s => s.gate agent (BOOT_RELEASE.CORE.off 0) true fun s => s.releaseStore agent v

/-! ### The end of a transaction (R71, R73, R74, R78) -/

/-- What SY_TRIG_CFG of an object holds after the commit: the shadow's writable fields over the live word. -/
def State.trigAfter (s : State) (obj : Nat) : Word :=
  let off := SY_TRIG_CFG.ARM.off obj
  match s.shadowOf off with
  | some v => (s.written off v true).word
  | none => s.reg off

/-- The object whose trigger a register belongs to (R260). -/
def trigOf (off : Nat) : Option Nat :=
  if 0x8000000 ≤ off ∧ off < 0x8080000 ∧ 0x18 ≤ off % 0x40 ∧ off % 0x40 ≤ 0x28 then some ((off - 0x8000000) / 0x40) else none

/-- The epoch slot that a register belongs to (R343). -/
def slotOf (off : Nat) : Option Nat :=
  if 0x22001000 ≤ off ∧ off < 0x22001200 then some ((off - 0x22001000) / 0x20) else none

/-- The offset that fails for a trigger with entries among the shadow: its SY_TRIG_CFG, or else its first-written entry
(R74). -/
def trigFails (l : List (Nat × Word)) (obj : Nat) : Nat :=
  let cfg := SY_TRIG_CFG.ARM.off obj
  if l.any (fun e => e.1 == cfg) then cfg else ((l.find? fun e => trigOf e.1 == some obj).map Prod.fst).getD cfg

/-- Whether the member array that a shadow entry of CE_EPOCH_LIST names is admitted to the owner, the one entry of a
transaction that carries an address (R64, R74, R318). -/
def State.listOk (s : State) (owner n : Nat) (v : Word) : Bool :=
  let cfg := (s.shadowOf (CE_EPOCH_CFG.EPOCH.off n)).getD (s.reg (CE_EPOCH_CFG.EPOCH.off n))
  s.plainOk (s.subject owner) false (CE_EPOCH_LIST.BASE.get v * 4096) (8 * CE_EPOCH_CFG.MEMBERS.get cfg)

/-- The entries whose check fails, in the order of their first writes (R74). -/
def State.txnFails (s : State) : List Nat :=
  let l := s.txn.shadow
  let owner := s.rd TXN_STATUS.OWNER
  let bad := fun (e : Nat × Word) =>
    match trigOf e.1 with
    | some o => e.1 == trigFails l o && SY_TRIG_CFG.ARM.get (s.trigAfter o) == 1 && !s.trigOk o (s.trigAfter o)
    | none =>
      match CE_EPOCH_LIST.BASE.idx 16 e.1 with
      | some n => !s.listOk owner n e.2
      | none => false
  (l.filter bad).map Prod.fst

/-- What follows the store of an entry at the boundary: links and rills whose ENABLE it carries, windows whose VALID it
writes to 1 (R310, R352, R356). -/
def State.entryActs (s : State) (e : Nat × Word) : State :=
  match LK_LINK_CFG.ENABLE.idx 24 e.1, LK_WIN.VALID.idx 256 e.1, TIER_RILL_CFG.ENABLE.idx 64 e.1 with
  | some l, _, _ => s.linkConfigured l
  | _, some w, _ => if LK_WIN.VALID.get e.2 = 1 then s.winCheck w else s
  | _, _, some n => if TIER_RILL_CFG.ENABLE.get e.2 = 1 then s.rillEnabled n else s
  | _, _, _ => s

/-- Every entry is applied in one step, then what their registers set off: trigger checks and evaluations, and the checks
of epoch slots (R73, R257, R318). -/
def State.applyTxn (s : State) : State :=
  let l := s.txn.shadow
  let owner := s.rd TXN_STATUS.OWNER
  let trigs := (l.filterMap fun e => trigOf e.1).eraseDups
  let slots := (l.filterMap fun e => slotOf e.1).eraseDups.filter fun n => !s.buckets.any (fun b => b.slot == n)
  let before := trigs.map fun o => (o, s.reg (SY_TRIG_CFG.ARM.off o))
  let s := s.each l fun s e => s.storeReg owner e.1 e.2 true
  let s := s.each l State.entryActs
  let s := s.each before fun s b => s.trigChanged b.1 b.2
  s.each slots fun s n => s.useEpoch owner n

/-- The boundary of a SEALED transaction: OVERFLOW, REFUSED with the first failing entry, or APPLIED (R71, R73, R74). -/
def State.txnBoundary (s : State) : State :=
  if s.flag TXN_STATUS.OVERFLOW then s.txnEnd 3 s.tb
  else
    match s.txnFails with
    | off :: _ => (s.setReg (TXN_REFUSED_ADDR.OFFSET.off 0) (BitVec.ofNat 64 off)).txnEnd 4 s.tb
    | [] => s.applyTxn.txnEnd 1 s.txn.boundary

/-- TXN_APPLY (R73, R74, R78): the boundary of a SEALED transaction has come. -/
def execTxnApply (t : Nat) (s : State) : Res :=
  s.live t fun s => if s.rd TXN_STATUS.STATE = 2 ∧ s.txn.boundary ≤ s.tb then s.txnBoundary else s

end Sys2Proof.Machine
end

