-- ==== Sys2Proof/Machine/CustomerDie.lean ====
section
/-! DEFINITION. Requests of customer sites (R39, R44, R46, R442), the setting of SYS_PROT_LOCK (R445), and writes of any
register (R60). -/

namespace Sys2Proof.Machine

/-- The low bytes of a line. -/
def lineBytes (d : Line) (n : Nat) : List Byte := (List.range n).map (fun k => Line.byte d k)

/-- A request of a site's agent into a peer window: it is answered when its responses come, or at once when the window
has no usable link (R354, R357). -/
def State.sitePeer (s : State) (agent cls pa size : Nat) (wr : Bool) (data : Line) : State :=
  let who := Requester.site agent pa size
  let r := if wr then s.peerWrite cls who pa (lineBytes data size) else s.peerRead cls who pa size
  if r.2 = 0 then r.1 else r.1.answer agent 0 0 true

/-- An access of an agent to plain memory, answered; with poison where a write cannot be performed (R44, R291). -/
def State.plainAccess (s : State) (agent pa size : Nat) (wr : Bool) (data : Line) : State :=
  if wr then
    let bad := (linesOf pa size).any s.failedLine
    (s.engWrite pa (lineBytes data size)).answer agent 0 0 bad
  else
    let (b, bad, s) := s.engRead pa size
    if bad then s.answer agent 0 0 true else s.answerLine agent (lineAt 0 b) false

/-- A request of a site's agent to any region, performed or refused under R57. -/
def State.performAccess (s : State) (r : SiteReq) : State :=
  match s.accessCause r.agent r.wr r.pa r.size with
  | 0 =>
    match s.region r.pa with
    | .regs =>
      if r.wr then (s.answer r.agent 0).regWrite r.agent (r.pa - regBase) (r.data.setWidth 64)
      else s.regRead r.agent (r.pa - regBase)
    | .peer => s.sitePeer r.agent r.cls r.pa r.size r.wr r.data
    | _ => s.plainAccess r.agent r.pa r.size r.wr r.data
  | c => s.answer r.agent 0 c

/-- A request of a site's agent arrives at its hub: refused unless the site is ACTIVE (R44, R46). -/
def State.siteRequest (s : State) (r : SiteReq) : State :=
  if s.rd SYS_CDS_STATUS_n.STATE r.site = 4 then s.performAccess r else s.answer r.agent 0 5

/-- Whether a site's descriptor gives it an agent and a traffic class (R39). -/
def State.siteIssues (s : State) (site a cls : Nat) : Bool :=
  let word := fun (k : Nat) => (s.reg (SYS_CDS_DESC.WORD.off (8 * site + k))).toNat
  decide (a < bitsOf (word 0) 31 24) && decide (cls < 4) && (bitsOf (word 1) 19 16).testBit cls

/-- The requests that the sites held until the lock are performed in order (R442). -/
def State.releaseSites (s : State) : State :=
  if s.locked then ({ s with siteHeld := [] }).each s.siteHeld State.siteRequest else s

/-- CUSTOMER_DIE_REQUEST (R39, R46, R442): a request of agent a of a site in a traffic class, both as its descriptor gives
them; held until SYS_PROT_LOCK is set. -/
def execCustomerDieRequest (t site a cls pa size : Nat) (isWrite : Bool) (data : Line) (found : Found) (s : State) : Res :=
  s.live t fun s =>
    let r : SiteReq := ⟨site, 0x8000 + 16 * site + a, cls, pa, size, isWrite, data⟩
    if 2 ≤ site ∨ 16 ≤ a ∨ size = 0 ∨ 64 < size ∨ !s.siteIssues site a cls then s
    else if s.locked then s.reads found 0 r.agent fun s => s.siteRequest r
    else { s with siteHeld := s.siteHeld ++ [r] }

/-- SYS_PROT_LOCK (R445): a write of the register. -/
def execSysProtLock (t agent : Nat) (v : Word) (s : State) : Res :=
  s.live t fun s =>
    (s.gate agent (SYS_PROT_LOCK.LOCK.off 0) true fun s => s.storeReg agent (SYS_PROT_LOCK.LOCK.off 0) v).releaseSites

/-- REGISTER_WRITE (R60): software writes a register; one that sets SYS_PROT_LOCK lets the sites' requests go. -/
def execRegisterWrite (t agent : Nat) (reg : RegTarget) (v : Word) (s : State) : Res :=
  s.live t fun s => (s.registerWrite agent reg v).releaseSites

end Sys2Proof.Machine
end

