-- ==== Sys2Proof/Machine/Image.lean ====
section
/-! DEFINITION. Images: the layout, the structural check and the checks of a slot (R427–R443). -/

namespace Sys2Proof.Machine

/-- An image, or any bytes that are read as one: byte by offset. -/
abbrev Img := Nat → Byte

/-- Bytes of an image. -/
def imgBytes (f : Img) (o n : Nat) : List Byte := (List.range n).map fun k => f (o + k)

/-- A little-endian number of n bytes. -/
def imgNat (f : Img) (o n : Nat) : Nat := leNat (imgBytes f o n)

/-- Whether n bytes are zero. -/
def imgZero (f : Img) (o n : Nat) : Bool := (List.range n).all fun k => f (o + k) == 0

/-- An erased byte of the flash (log entry 47). -/
def flashDefault (_ : Nat) : Byte := 0xFF

/-- The bytes of a slot of the flash (R428). -/
def State.slotImg (s : State) (slot : Nat) : Img := fun k => Tab.get flashDefault s.flash (slot * 0x4000000 + k)

/-! ### The header (R430, R431) -/

/-- IMAGE_LEN. -/
def imgLen (f : Img) : Nat := imgNat f 0x08 4

/-- SECTIONS. -/
def imgSections (f : Img) : Nat := bitsOf (imgNat f 0x08 8) 38 32

/-- KEY_INDEX. -/
def imgKey (f : Img) : Nat := bitsOf (imgNat f 0x08 8) 41 40

/-- ROLLBACK. -/
def imgRollback (f : Img) : Nat := bitsOf (imgNat f 0x10 8) 8 0

/-- MEASUREMENT. -/
def imgMeasure (f : Img) : List Byte := imgBytes f 0x28 64

/-- The values of R431 and the zero bytes of R430, but for the fields of the part check. -/
def headerOk (f : Img) : Bool :=
  let w1 := imgNat f 0x08 8
  let w2 := imgNat f 0x10 8
  imgNat f 0x00 4 == 0x4D454F54 && imgNat f 0x04 2 == 1 && imgNat f 0x06 2 == 256 &&
    decide (0x2100 ≤ imgLen f) && decide (imgLen f ≤ 0x4000000) && imgLen f % 64 == 0 &&
    decide (1 ≤ imgSections f) && decide (imgSections f ≤ 64) && bitsOf w1 39 39 == 0 && bitsOf w1 63 42 == 0 &&
    decide (imgRollback f ≤ 256) && bitsOf w2 15 9 == 0 && bitsOf w2 34 32 != 0 && bitsOf w2 39 35 == 0 &&
    bitsOf w2 63 48 == 0 && imgZero f 0x68 0x98 && imgZero f 0x8C0 64 && imgZero f 0x162D 723

/-- MEMBER, GRADES and MIN_STEPPING admit this part. -/
def State.partOk (s : State) (f : Img) : Bool :=
  let w2 := imgNat f 0x10 8
  bitsOf w2 31 16 == 5 && (bitsOf w2 34 32).testBit (s.fuses.grade - 1) && decide (bitsOf w2 47 40 ≤ s.fuses.stepping)

/-- ED_PK. -/
def imgEdPk (f : Img) : List Byte := imgBytes f 0x100 32

/-- ML_PK. -/
def imgMlPk (f : Img) : List Byte := imgBytes f 0x120 1952

/-- The key slot of an image is programmed, not revoked, and holds the hashes of its keys (R433). -/
def State.keyOk (s : State) (f : Img) : Bool :=
  let k := imgKey f
  s.fuses.programmed.testBit k && !s.fuses.revoked.testBit k &&
    Config.sha512 (imgEdPk f) == s.fuses.edHash.getD k [] && Config.sha512 (imgMlPk f) == s.fuses.mlHash.getD k []

/-- The checks of R435 up to and including ROLLBACK: 0 when they pass, else the RESULT code. -/
def State.headerCode (s : State) (f : Img) (readError : Bool) : Nat :=
  if readError then 2
  else if !headerOk f then 3
  else if !s.partOk f then 4
  else if !s.keyOk f then 5
  else if imgRollback f < s.fuses.rollback then 6
  else 0

/-! ### Sections (R432) -/

/-- An entry of the section table. -/
structure Section where
  /-- TYPE -/
  type : Nat
  /-- TARGET -/
  target : Nat
  /-- START -/
  start : Bool
  /-- bits 63 to 17 of word 0 -/
  rest : Nat
  /-- OFFSET -/
  off : Nat
  /-- LENGTH -/
  len : Nat
  /-- LOAD_ADDR -/
  load : Nat
  /-- ENTRY -/
  entry : Nat
  deriving DecidableEq, Repr

/-- Entry i of the section table. -/
def imgSection (f : Img) (i : Nat) : Section :=
  let a := 0x1900 + 32 * i
  let w0 := imgNat f a 8
  ⟨bitsOf w0 7 0, bitsOf w0 15 8, bitOf w0 16, bitsOf w0 63 17, imgNat f (a + 8) 4, imgNat f (a + 12) 4,
    bitsOf (imgNat f (a + 16) 8) 51 0, bitsOf (imgNat f (a + 24) 8) 51 0⟩

/-- The section table entries in use. -/
def imgTable (f : Img) : List Section := (List.range (imgSections f)).map (imgSection f)

/-- The sections of a type, in table order. -/
def imgOf (f : Img) (type : Nat) : List Section := (imgTable f).filter (fun x => x.type == type)

/-- The base of the staging area (R437). -/
def stagingBase : Nat := 0xBE7C000000

/-- The end of usable HBM (R45). -/
def hbmEnd : Nat := 0xBE80000000

/-- Whether a TARGET is one that a section's TYPE takes. -/
def Section.targetOk (x : Section) : Bool :=
  match x.type with
  | 3 => decide (x.target < 2)
  | 4 => decide (x.target < 4)
  | 5 => if x.start then decide (x.target < 96) else x.target == 0
  | _ => x.target == 0

/-- Whether a section table entry keeps R432 by itself. -/
def Section.ok (x : Section) (imageLen : Nat) : Bool :=
  decide (1 ≤ x.type) && decide (x.type ≤ 6) && x.targetOk && (x.type == 5 || !x.start) && x.rest == 0 &&
    decide (0x2100 ≤ x.off) && x.off % 64 == 0 && decide (x.off + x.len ≤ imageLen) &&
    (x.type == 5 || x.load == 0) && ((x.type == 5 && x.start) || x.entry == 0) &&
    (x.type != 4 || decide (x.len ≤ 0x100000)) &&
    (x.type != 5 || decide (x.load + x.len ≤ stagingBase))

/-- Whether ranges, base and bytes, are pairwise apart. -/
def apart : List (Nat × Nat) → Bool
  | [] => true
  | a :: r => r.all (fun b => a.2 == 0 || b.2 == 0 || decide (a.1 + a.2 ≤ b.1) || decide (b.1 + b.2 ≤ a.1)) && apart r

/-- Whether no number occurs twice. -/
def distinct (l : List Nat) : Bool := l.eraseDups.length == l.length

/-- The counts of R432. -/
def countsOk (f : Img) : Bool :=
  let n := fun (k : Nat) => (imgOf f k).length
  decide (n 1 ≤ 8) && n 2 == 1 && distinct ((imgOf f 3).map (·.target)) && distinct ((imgOf f 4).map (·.target)) &&
    decide (1 ≤ n 5) && decide (n 5 ≤ 16) && ((imgOf f 5).filter (·.start)).length == 1

/-! ### Bodies (R438, R440–R442) -/

/-- The entries of a CONFIG body: offset and value. -/
def configEntries (f : Img) (x : Section) : List (Nat × Word) :=
  (List.range (x.len / 16)).map fun k =>
    (imgNat f (x.off + 16 * k) 4, BitVec.ofNat 64 (imgNat f (x.off + 16 * k + 8) 8))

/-- Whether a CONFIG body satisfies R438. -/
def configOk (f : Img) (x : Section) : Bool :=
  x.len % 16 == 0 && decide (16 ≤ x.len) && decide (x.len ≤ 65536) &&
    (List.range (x.len / 16)).all fun k =>
      let o := imgNat f (x.off + 16 * k) 4
      imgNat f (x.off + 16 * k + 4) 4 == 0 && o % 8 == 0 && inBlock o &&
        !(decide (0x70000000 ≤ o) && decide (o < 0x71000000)) && o != 0x300

/-- The two words of a rule at an offset. -/
def ruleWords (f : Img) (o : Nat) : Nat × Nat := (imgNat f o 8, imgNat f (o + 8) 8)

/-- The rule that two words spell (R441). -/
def ruleOf (w : Nat × Nat) : DikeRule :=
  ⟨bitOf w.1 0, bitOf w.1 1, bitsOf w.1 3 2, bitsOf w.1 51 12, bitsOf w.2 31 0, bitsOf w.2 47 32, bitsOf w.2 63 48⟩

/-- Whether two words are a valid rule (R441); a PARTITION lies below NPART (R440). -/
def ruleOk (npart : Nat) (w : Nat × Nat) : Bool :=
  let r := ruleOf w
  bitsOf w.1 11 4 == 0 && bitsOf w.1 63 52 == 0 && decide (1 ≤ r.pages) && decide (r.base + r.pages ≤ 2 ^ 40) &&
    (match r.subj with
     | 0 => decide (r.lo ≤ r.hi)
     | 1 => r.hi == 0 && decide (r.lo < npart)
     | 2 => decide (r.lo ≤ r.hi) && decide (r.hi < 4096)
     | _ => false)

/-- Item n of a map of four bits an item. -/
def nibble (f : Img) (o n : Nat) : Nat :=
  let b := (f (o + n / 2)).toNat
  if n % 2 = 0 then b % 16 else b / 16

/-- A partition map as a table. -/
def partMap (f : Img) (o n : Nat) : Tab Nat :=
  (List.range n).filterMap fun k => if nibble f o k = 0 then none else some (k, nibble f o k)

/-- NPART of a DIKE body. -/
def dikeParts (f : Img) (x : Section) : Nat := bitsOf (imgNat f x.off 8) 4 0

/-- NRULES of a DIKE body. -/
def dikeRules (f : Img) (x : Section) : Nat := bitsOf (imgNat f x.off 8) 17 8

/-- Whether a DIKE body satisfies R440. -/
def dikeOk (f : Img) (x : Section) : Bool :=
  let w := imgNat f x.off 8
  let np := dikeParts f x
  let below := fun (o n : Nat) => (List.range n).all fun k => decide (nibble f (x.off + o) k < np)
  x.len == 0x3880 + 16 * dikeRules f x && decide (1 ≤ np) && decide (np ≤ 16) && decide (dikeRules f x ≤ 952) &&
    bitsOf w 7 5 == 0 && bitsOf w 19 18 == 0 && bitsOf w 63 25 == 0 && decide (bitsOf w 23 20 < np) &&
    imgZero f (x.off + 8) 56 && below 0x40 4096 && below 0x840 16384 && below 0x2840 8192 && below 0x3840 96 &&
    imgZero f (x.off + 0x3870) 16 &&
    (List.range (dikeRules f x)).all fun k => ruleOk np (ruleWords f (x.off + 0x3880 + 16 * k))

/-- Whether a rule of a site covers only its window, or names only its agents (R442). -/
def siteRuleOk (site : Nat) (r : DikeRule) : Bool :=
  let lo := (siteBase + site * 0x100000000) / 4096
  let a := 0x8000 + 16 * site
  (decide (lo ≤ r.base) && decide (r.base + r.pages ≤ lo + 0x100000)) ||
    (r.subj == 0 && decide (a ≤ r.lo) && decide (r.hi ≤ a + 15))

/-- Whether a CDS body satisfies R442. -/
def cdsOk (f : Img) (npart : Nat) (x : Section) : Bool :=
  x.len % 16 == 0 && decide (x.len ≤ 512) &&
    (List.range (x.len / 16)).all fun k =>
      let w := ruleWords f (x.off + 16 * k)
      ruleOk npart w && siteRuleOk x.target (ruleOf w)

/-- The rules of a body from an offset. -/
def rulesAt (f : Img) (o n : Nat) : List DikeRule := (List.range n).map fun k => ruleOf (ruleWords f (o + 16 * k))

/-- The structural check (R436). -/
def structureOk (f : Img) : Bool :=
  let l := imgTable f
  let np := ((imgOf f 2).map (dikeParts f)).headD 0
  l.all (fun x => x.ok (imgLen f)) && imgZero f (0x1900 + 32 * imgSections f) (32 * (64 - imgSections f)) &&
    apart (l.map fun x => (x.off, x.len)) && countsOk f && apart ((imgOf f 5).map fun x => (x.load, x.len)) &&
    (imgOf f 1).all (configOk f) && (imgOf f 2).all (dikeOk f) && (imgOf f 3).all (cdsOk f np)

/-! ### A slot's check (R435) -/

/-- "meoth-image-v1". -/
def imageCtx : List Byte := [0x6D, 0x65, 0x6F, 0x74, 0x68, 0x2D, 0x69, 0x6D, 0x61, 0x67, 0x65, 0x2D, 0x76, 0x31]

/-- The whole check of an image: a RESULT code, 1 when it is accepted. No fault is injected into a comparison, so the second
decision agrees (log entry 48). -/
def State.checkImage (s : State) (f : Img) (hdrError bodyError : Bool) : Nat :=
  match s.headerCode f hdrError with
  | 0 =>
    let head := imgBytes f 0 256
    if bodyError then 2
    else if Config.sha512 (imgBytes f 0x1900 (imgLen f - 0x1900)) ≠ imgMeasure f then 7
    else if !structureOk f then 10
    else if !Config.ed25519Verify (imgEdPk f) head (imgBytes f 0x900 64) then 8
    else if !Config.mldsa65Verify (imgMlPk f) head (imgBytes f 0x940 3309) imageCtx then 9
    else 1
  | c => c

end Sys2Proof.Machine
end

