-- ==== Sys2Proof/Machine/Boot.lean ====
section
/-! DEFINITION. The start-up of the package by the boot ROM (R38–R42, R296, R297, R427–R448). -/

namespace Sys2Proof.Machine

/-! ### The boot area (R447, R448) -/

/-- The address of the boot-next record. -/
def bootNext : Nat := keepBase + 0x3FF0000

/-- The boot-next record, if it is valid: SLOT and ONCE (R447). -/
def State.bootNextRec (s : State) : Option (Nat × Bool) :=
  let b := s.bytes bootNext 64
  let w := s.readLE bootNext 8
  let zero := (List.range 48).all fun k => s.byte (bootNext + 8 + k) == 0
  if w % 65536 = 0x4E58 ∧ w / 2 ^ 18 = 0 ∧ zero ∧ s.readLE (bootNext + 0x38) 4 = crc32 (b.take 56) ∧
      s.readLE (bootNext + 0x3C) 4 = 0 then
    some (bitsOf w 16 16, bitOf w 17)
  else none

/-- Whether a header line of the save record is intact (R480). -/
def State.lineIntact (s : State) (pa : Nat) : Bool := s.readLE (pa + 0x38) 8 == crc32 (s.bytes pa 56)

/-- BOOT_SAVE as the ROM reports it (R448, R480). -/
def State.reportSave (s : State) : State :=
  let seq := s.readLE (keepBase + 8) 4
  let found := s.lineIntact keepBase && s.readLE keepBase 2 == 0x5356 && s.readLE (keepBase + 2) 2 == 1
  let complete := s.lineIntact (keepBase + 0x40) && bitOf (s.readLE (keepBase + 0x40) 8) 0 &&
    s.readLE (keepBase + 0x58) 4 == seq
  if found then s.setReg (BOOT_SAVE.FOUND.off 0) (packWord [(0, 1), (1, bit complete), (32, seq)]) else s

/-! ### The choice of a slot (R435, R439) -/

/-- RESULT_A or RESULT_B. -/
def State.slotResult (s : State) (slot code : Nat) : State :=
  s.wr (if slot = 0 then BOOT_STATUS.RESULT_A else BOOT_STATUS.RESULT_B) 0 code

/-- The slots in the order in which they are checked completely; without a valid boot-next record, those whose header
fails are rejected (R439). -/
def State.slotOrder (s : State) (env : BootEnv) : List Nat × State :=
  match s.bootNextRec with
  | some (n, once) => ([n, 1 - n], if once then s.setBytes bootNext (List.replicate 64 0) else s)
  | none =>
    let a := s.headerCode (s.slotImg 0) env.hdrErrA
    let b := s.headerCode (s.slotImg 1) env.hdrErrB
    let s := if a = 0 then s else s.slotResult 0 a
    let s := if b = 0 then s else s.slotResult 1 b
    let both := if imgRollback (s.slotImg 0) < imgRollback (s.slotImg 1) then [1, 0] else [0, 1]
    (both.filter fun n => (if n = 0 then a else b) == 0, s)

/-- The first slot of a list that is accepted (R439). -/
def State.chooseSlot (s : State) (env : BootEnv) : List Nat → Option Nat × State
  | [] => (none, s)
  | n :: r =>
    let c := s.checkImage (s.slotImg n) (if n = 0 then env.hdrErrA else env.hdrErrB)
      (if n = 0 then env.bodyErrA else env.bodyErrB)
    let s := s.slotResult n c
    if c = 1 then (some n, s) else s.chooseSlot env r

/-! ### The image in the staging area (R437) -/

/-- The staged image: its bytes lie at their image offsets from the base of the staging area (log entry 49). -/
def State.staged (s : State) : Img := fun k => s.byte (stagingBase + k)

/-- An image is streamed into the staging area. -/
def State.stage (s : State) (f : Img) : State := s.setBytes stagingBase (imgBytes f 0 (imgLen f))

/-- The staging area is zeros. -/
def State.clearStaging (s : State) : State :=
  let here := fun (pa : Nat) => decide (stagingBase ≤ pa) && decide (pa < hbmEnd)
  { s with mem := s.mem.filter fun (e : Host.Cell) => !here e.1,
           poison := s.poison.filter fun (e : Nat × Bool) => !here (64 * e.1) }

/-! ### The steps of R446 -/

/-- Steps 1 and 2: the PLLs lock. -/
def State.lockPlls (s : State) : State :=
  (((s.wr SYS_CLK_STATUS.TDIE_LOCK 0 15).wr SYS_CLK_STATUS.HOST_LOCK 0 1).wr SYS_CLK_STATUS.HUB_LOCK 0 3).wr
    SYS_CLK_STATUS.HBM_LOCK 0 4095

/-- SYS_PROT_LOCK is set, and BOOT_LOCK_TIME written (R446 step 10). -/
def State.setLock (s : State) : State :=
  (s.wr SYS_PROT_LOCK.LOCK 0 1).setReg (BOOT_LOCK_TIME.TICK.off 0) (BitVec.ofNat 64 s.tb)

/-- No slot is accepted (R439): NO_IMAGE, with an empty image part of the dike table, and the lock. -/
def State.noImage (s : State) : State :=
  let s := { s with dike := ⟨true, 0, 0, false, [], [], [], [], []⟩, romHalted := true }
  (s.clearStaging.wr BOOT_STATUS.STAGE 0 5).setLock

/-- A stack has not trained in time: HBM_FAIL, and the ROM halts (R446). -/
def State.hbmFail (s : State) : State := { s.wr BOOT_STATUS.STAGE 0 6 with romHalted := true }

/-- Step 6, first half: the DIKE body is written (R440, R444). -/
def State.writeDike (s : State) : State :=
  let f := s.staged
  match imgOf f 2 with
  | [] => s
  | x :: _ =>
    let w := imgNat f x.off 8
    { s with dike := ⟨true, dikeParts f x, bitsOf w 23 20, bitOf w 24, partMap f (x.off + 0x40) 4096,
        partMap f (x.off + 0x840) 16384, partMap f (x.off + 0x2840) 8192, partMap f (x.off + 0x3840) 96,
        rulesAt f (x.off + 0x3880) (dikeRules f x)⟩ }

/-- Step 6, second half: the CONFIG entries are stored by agent 0x0001 (R438). -/
def State.applyConfig (s : State) : State :=
  let f := s.staged
  s.each ((imgOf f 1).flatMap (configEntries f)) fun s e => s.regLive 1 e.1 e.2

/-- The ranges that endpoints decode, one after another from a base, each of its capacity in whole GiB (R296). -/
def hdmRanges : Nat → List Nat → List (Nat × Nat)
  | _, [] => []
  | base, cap :: rest =>
    let size := cap / 2 ^ 30 * 2 ^ 30
    (base, size) :: hdmRanges (base + size) rest

/-- Step 7 for a CXL port that has finished (R296): its endpoints' decoders and those of its switch take their ranges. -/
def State.cxlPort (s : State) (p : Nat) (b : CxlBring) : State :=
  let n := b.caps.length
  let map := hdmRanges 0 b.caps
  if b.state = 0 then s.wr TIER_PORT_STATUS.STATE p 0
  else if b.state ≠ 2 ∨ 2 ≤ b.width ∨ 3 ≤ b.rate ∨ n = 0 ∨ 4 < n then s.wr TIER_PORT_STATUS.STATE p 1
  else
    let s := { s with cxlMap := Tab.put (fun _ => []) s.cxlMap p map }
    ((((s.wr TIER_PORT_STATUS.STATE p 2).wr TIER_PORT_STATUS.RATE p b.rate).wr TIER_PORT_STATUS.WIDTH p b.width).wr
      TIER_PORT_STATUS.ENDPOINTS p n).wr TIER_PORT_STATUS.CAP_GIB p (min ((map.map Prod.snd).sum / 2 ^ 30) 65535)

/-- Whether a site's descriptor is accepted (R39, R40). -/
def descOk (d : List Word) : Bool :=
  let w := fun (k : Nat) => (d.getD k 0).toNat
  bitsOf (w 0) 15 0 == 0x7C1D && bitsOf (w 0) 23 16 == 1 && decide (1 ≤ bitsOf (w 0) 31 24) &&
    decide (bitsOf (w 0) 31 24 ≤ 16) && decide (bitsOf (w 1) 7 0 ≤ 40) && decide (12 ≤ bitsOf (w 1) 15 8) &&
    decide (bitsOf (w 1) 15 8 ≤ 32) && bitsOf (w 1) 63 20 == 0 && bitsOf (w 7) 63 32 == 0 &&
    bitsOf (w 7) 31 0 == crc32 (wordBytes ((List.range 7).map fun k => d.getD k 0))

/-- The image's rules for a site (R442). -/
def siteRules (f : Img) (n : Nat) : List DikeRule :=
  ((imgOf f 3).filter (fun x => x.target == n)).flatMap fun x => rulesAt f x.off (x.len / 16)

/-- Step 7 for a site that has finished (R38, R40, R42, R442). -/
def State.siteUp (s : State) (n : Nat) (b : SiteBring) : State :=
  if !b.partner then s.wr SYS_CDS_STATUS_n.STATE n 0
  else if !b.trained then s.wr SYS_CDS_STATUS_n.STATE n 2
  else
    let s := s.each (List.range 8) fun s k => s.setReg (SYS_CDS_DESC.WORD.off (8 * n + k)) (b.desc.getD k 0)
    let s := (s.wr SYS_CDS_STATUS_n.RATE n (min b.rate 5)).wr SYS_CDS_STATUS_n.LANES_REPAIRED n (min b.lanes 8)
    if descOk b.desc then
      { s.wr SYS_CDS_STATUS_n.STATE n 4 with dike := { s.dike with rules := s.dike.rules ++ siteRules s.staged n } }
    else s.wr SYS_CDS_STATUS_n.STATE n 3

/-- The ports that boot brings up (R296). -/
def State.cxlPorts (s : State) : List Nat := List.range (2 ^ s.rd TIER_CFG.WAYS_LOG2)

/-- The populated far tier at the end of step 7 (R297). -/
def State.farSize (s : State) : Nat :=
  let l := s.cxlPorts
  if l.all (fun p => s.rd TIER_PORT_STATUS.STATE p == 2) then
    min (l.length * ((l.map (fun p => s.rd TIER_PORT_STATUS.CAP_GIB p)).min?.getD 0)) 8192
  else 0

/-- Step 8: the firmware of the service processors. -/
def State.loadSpfw (s : State) : State :=
  let f := s.staged
  { s with sram := (imgOf f 4).map fun x => (x.target + 1, imgBytes f x.off x.len) }

/-- Step 9: the HOST_LOAD sections. -/
def State.loadHost (s : State) : State :=
  let f := s.staged
  s.each (imgOf f 5) fun s x => s.setBytes x.load (imgBytes f x.off x.len)

/-- Steps 8 to 11 of R446: loads, the lock and the release of the START core. -/
def State.finishBoot (s : State) : State :=
  let s := s.wr TIER_STATUS.FAR_GIB 0 s.farSize
  let start := ((imgOf s.staged 5).filter (·.start)).head?
  let s := (s.loadSpfw.loadHost.clearStaging.wr BOOT_STATUS.STAGE 0 4).setLock
  let s := { s with booted := true, bringup := none }
  let s := match start with
    | some x => (s.setHost x.target { s.host x.target with entry := x.entry }).releaseCore x.target
    | none => s
  s.releaseSites

/-- BOOT_STATUS and BOOT_MEASURE_k of an accepted slot. -/
def State.bootedSlot (s : State) (slot : Nat) (f : Img) : State :=
  let s := (((s.wr BOOT_STATUS.STAGE 0 3).wr BOOT_STATUS.SLOT 0 slot).wr BOOT_STATUS.KEY_INDEX 0 (imgKey f)).wr
    BOOT_STATUS.IMAGE_ROLLBACK 0 (imgRollback f)
  s.each (List.range 8) fun s k => s.setReg (BOOT_MEASURE.BYTES.off k) (BitVec.ofNat 64 (imgNat f (0x28 + 8 * k) 8))

/-- Steps 6 and 7 of R446 for an accepted slot. What the ports and sites found is given for those that have finished; with
all of them boot goes on, and otherwise it waits for BRINGUP_TIMEOUT. -/
def State.runImage (s : State) (env : BootEnv) (slot : Nat) : State :=
  let f := s.slotImg slot
  let s := ((s.bootedSlot slot f).stage f).writeDike.applyConfig
  let ports := s.cxlPorts
  let s := s.each ports fun s p => match env.cxl[p]? with
    | some b => s.cxlPort p b
    | none => s
  let s := s.each [0, 1] fun s n => match env.sites[n]? with
    | some b => s.siteUp n b
    | none => s.wr SYS_CDS_STATUS_n.STATE n 1
  let left := ports.filter fun p => decide (env.cxl.length ≤ p)
  if left.isEmpty ∧ 2 ≤ env.sites.length then s.finishBoot else { s with bringup := some (s.now, left) }

/-- Whether boot has not begun, or begins again after a package reset. -/
def State.mayBoot (s : State) : Bool := !s.booted && !s.romHalted && s.bringup.isNone && !s.locked

/-- The ROM's steps from the release of package reset (R446). -/
def State.boot (s : State) (env : BootEnv) : State :=
  let s := s.lockPlls.reportSave
  let (order, s) := s.slotOrder env
  if 50000 < env.hbmTrainedUs then s.hbmFail
  else
    match s.chooseSlot env order with
    | (some n, s) => s.runImage env n
    | (none, s) => s.noImage

/-- BOOT (R446): from the release of package reset to the release of the START core, at tick t. -/
def execBoot (t : Nat) (env : BootEnv) (s : State) : Res :=
  s.live t fun s => if s.mayBoot then s.boot env else s

/-- HBM_TRAINING_TIMEOUT (R446): a stack has not trained within 50,000 µs of the release of RST_N. -/
def execHbmTrainingTimeout (t stack : Nat) (s : State) : Res :=
  s.live t fun s => if s.mayBoot && decide (stack < 12) && decide (50000000 ≤ s.now) then s.hbmFail else s

/-- BRINGUP_TIMEOUT (R446): step 7 has lasted 200,000 µs; a port or a site that has not finished training has failed (log
entry 50). -/
def execBringupTimeout (t : Nat) (s : State) : Res :=
  s.live t fun s =>
    match s.bringup with
    | some (since, left) =>
      if since + 200000000 ≤ s.now then
        let s := s.each left fun s p => s.wr TIER_PORT_STATUS.STATE p 1
        let s := s.each [0, 1] fun s n =>
          if s.rd SYS_CDS_STATUS_n.STATE n = 1 then s.wr SYS_CDS_STATUS_n.STATE n 2 else s
        s.finishBoot
      else s
    | none => s

end Sys2Proof.Machine
end

