-- ==== Sys2Proof/Machine/Firmware.lean ====
section
/-! DEFINITION. The commands that service firmware answers over mailboxes: attestation, certificates, images, rollback and
the throttle log (R447–R451, R475). -/

namespace Sys2Proof.Machine

/-! ### How firmware answers (R261–R266, R450) -/

/-- Whether a mailbox's service processor pair runs firmware (R389, R432). -/
def State.pairRuns (s : State) (m : Nat) : Bool := s.sram.any fun e => pairOf m e.1

/-- Whether a mailbox holds a command for firmware that has a code: SENT by a host core to a pair that runs. -/
def State.fwHolds (s : State) (m code : Nat) : Bool :=
  decide (m < 64) && s.mbState m == 2 && isHost (s.mbOwner m) && (s.mbox m).cmd == code && s.pairRuns m

/-- The agent of a pair that answers. -/
def pairAgent (m : Nat) : Nat := if m < 32 then 1 else 3

/-- Firmware takes n words of a request; a missing one reads as 0 and sets EMPTY_READ (R263). -/
def State.takeReq (s : State) (m n : Nat) : List Word × State :=
  let x := s.mbox m
  let s := s.setMbox m { x with req := x.req.drop n }
  (padWords n x.req, if x.req.length < n then s.wr MB_STATUS.EMPTY_READ m 1 else s)

/-- Firmware pushes its response and acknowledges with a code of R266. -/
def State.fwAnswer (s : State) (m code : Nat) (ws : List Word) : State :=
  let a := pairAgent m
  (s.each ws fun s w => s.mbRspPush a m w).mbAckWrite a m (BitVec.ofNat 64 code)

/-- Whether a destination is a range of HBM that the owner of a mailbox may write (R450). -/
def State.fwMay (s : State) (owner pa len : Nat) : Bool :=
  s.region pa == .hbm && s.region (pa + (max len 1 - 1)) == .hbm && s.admits owner true pa len

/-- The response of a command: its code of R266 and its words, and the state it leaves. -/
abbrev FwRes := Nat × List Word × State

/-- Firmware carries out a command of n request words that only hub 0's mailboxes know; others answer UNKNOWN_COMMAND
(R450, R475). -/
def State.fwHub0 (s : State) (m code n : Nat) (f : List Word → Nat → State → FwRes) : State :=
  if s.fwHolds m code then
    if 32 ≤ m then s.fwAnswer m 2 []
    else
      let (w, s) := s.takeReq m n
      let (c, ws, s) := f w (s.mbOwner m) s
      s.fwAnswer m c ws
  else s

/-! ### ATTEST and GET_CERTS (R449–R451) -/

/-- "slozer-attest-v1". -/
def attestCtx : List Byte :=
  [0x73, 0x6C, 0x6F, 0x7A, 0x65, 0x72, 0x2D, 0x61, 0x74, 0x74, 0x65, 0x73, 0x74, 0x2D, 0x76, 0x31]

/-- Bytes cut or filled up with zeros to a length. -/
def fitBytes (n : Nat) (l : List Byte) : List Byte := (l ++ List.replicate n 0).take n

/-- The signed part of a report (R451). -/
def State.reportBody (s : State) (nonce : List Word) : List Byte :=
  wordBytes (padWords 64
    ([packWord [(0, 0x52455054), (32, 1)], s.view 0x0, s.view 0x8, w64 s.deviceId, w64 s.tb,
      s.reg (BOOT_LOCK_TIME.TICK.off 0),
      packWord [(0, s.rd BOOT_STATUS.IMAGE_ROLLBACK), (32, s.fuses.rollback)],
      packWord [(0, s.rd BOOT_STATUS.SLOT), (1, s.rd BOOT_STATUS.KEY_INDEX), (4, s.rd BOOT_STATUS.RESULT_A),
        (8, s.rd BOOT_STATUS.RESULT_B)]] ++
     (List.range 8).map (fun k => s.reg (BOOT_MEASURE.BYTES.off k)) ++ padWords 8 nonce ++
     (List.range 16).map (fun k => s.reg (SYS_CDS_DESC.WORD.off k)) ++
     (List.range 4).map (fun n => s.view (SYS_TC_ENABLE_n.EN.off n)) ++
     [s.view (SYS_CLK_STATUS.TDIE_LOCK.off 0), s.view (HM_STATUS.LOSSES.off 0), w64 (s.rd TIER_STATUS.FAR_GIB)]))

/-- A report (R451). -/
def State.report451 (s : State) (nonce : List Word) : List Byte :=
  let b := s.reportBody nonce
  fitBytes 4096 (b ++ fitBytes 64 (Config.identitySignEd b) ++ fitBytes 3309 (Config.identitySignMl b attestCtx))

/-- ATTEST (R451). -/
def execAttest (t m : Nat) (s : State) : Res :=
  s.live t fun s => s.fwHub0 m 0x100 9 fun w owner s =>
    let pa := (w.getD 8 0).toNat
    if pa % 4096 ≠ 0 then (3, [], s)
    else if !s.fwMay owner pa 4096 then (4, [], s)
    else (1, [4096], s.engWrite pa (s.report451 (w.take 8)))

/-- GET_CERTS (R450). -/
def execGetCerts (t m : Nat) (s : State) : Res :=
  s.live t fun s => s.fwHub0 m 0x101 2 fun w owner s =>
    let pa := (w.getD 0 0).toNat
    let cap := (w.getD 1 0).toNat
    let n := Config.certificates.length
    if cap < n then (3, [], s)
    else if !s.fwMay owner pa cap then (4, [], s)
    else (1, [w64 n], s.engWrite pa Config.certificates)

/-! ### Images, boot-next and rollback (R434, R443, R447, R450) -/

/-- Whether an owner of a mailbox is admitted to the three commands (R443). -/
def State.isAdmin (s : State) (owner : Nat) : Bool :=
  isService owner || (isHost owner && s.dike.adminValid && s.partOfHost (owner - 0x100) == s.dike.admin)

/-- Whether a mailbox holds one of the three commands. -/
def State.imageCmd (s : State) (m : Nat) : Bool := [0x102, 0x103, 0x104].any fun c => s.fwHolds m c

/-- Firmware performs the three commands in the order of their SEND ticks (R450). -/
def State.imageTurn (s : State) (m : Nat) : Bool :=
  decide (32 ≤ m) || (List.range 32).all fun k => !s.imageCmd k || decide ((s.mbox m).sentAt ≤ (s.mbox k).sentAt)

/-- One of the three commands is carried out in its turn, for an admitted owner. -/
def State.fwImage (s : State) (m code n : Nat) (f : List Word → Nat → State → FwRes) : State :=
  if s.imageTurn m then
    s.fwHub0 m code n fun w owner s => if s.isAdmin owner then f w owner s else (4, [], s)
  else s

/-- The flash with bytes from an offset replaced. -/
def State.flashPut (s : State) (off : Nat) (b : List Byte) : State :=
  { s with flash := b.zipIdx.foldl (fun f e => Tab.put flashDefault f (off + e.2) e.1) s.flash }

/-- The end of what IMAGE_WRITE erases of a slot: its first 64 KiB, and whole blocks as far as the image reaches. -/
def eraseEnd (len : Nat) : Nat :=
  let b := Config.eraseBlock + 1
  min 0x4000000 (max 0x10000 ((len + Config.eraseBlock) / b * b))

/-- A slot after IMAGE_WRITE has erased and programmed it (R450). -/
def State.programSlot (s : State) (slot : Nat) (image : List Byte) : State :=
  s.flashPut (slot * 0x4000000) (image ++ List.replicate (eraseEnd image.length - image.length) 0xFF)

/-- A slot of which a programmed block reads back different: what its erased blocks hold is free (log entry 51). -/
def State.spoilSlot (s : State) (slot len : Nat) : State :=
  let n := eraseEnd len
  let s' := s.flashPut (slot * 0x4000000) ((List.range n).map fun k => (Config.freeWord (s.freeIdx + k)).setWidth 8)
  { s' with freeIdx := s.freeIdx + n }

/-- The image that IMAGE_WRITE was given. -/
def stagedImg (b : List Byte) : Img := fun k => b.getD k 0

/-- IMAGE_WRITE (R450). -/
def execImageWrite (t m : Nat) (readBackOk : Bool) (found : Found) (s : State) : Res :=
  s.live t fun s => s.reads found 0 1 fun s => s.fwImage m 0x102 3 fun w owner s =>
    let pa := (w.getD 0 0).toNat
    let len := (w.getD 1 0).toNat
    let slot := (w.getD 2 0).toNat
    if 2 ≤ slot ∨ slot = s.rd BOOT_STATUS.SLOT then (3, [], s)
    else if !s.fwMay owner pa len then (4, [], s)
    else
      let (b, bad, s) := s.engRead pa len
      let f := stagedImg b
      match s.checkImage f bad false with
      | 1 =>
        if len < imgLen f then (3, [], s)
        else
          let image := b.take (imgLen f)
          if readBackOk then (1, [], s.programSlot slot image) else (5, [0xFF], s.spoilSlot slot image.length)
      | c => (5, [w64 c], s)

/-- The boot-next record of a slot (R447). -/
def bootNextWords (slot : Nat) (once : Bool) : List Word :=
  saveLine [packWord [(0, 0x4E58), (16, slot), (17, bit once)]]

/-- SET_NEXT (R447). -/
def execSetNext (t m : Nat) (s : State) : Res :=
  s.live t fun s => s.fwImage m 0x103 1 fun w _ s =>
    let v := (w.getD 0 0).toNat
    (1, [], s.engWrite bootNext (wordBytes (bootNextWords (v % 2) (bitOf v 1))))

/-- ROLLBACK_COMMIT (R434): the counter rises to the running image's ROLLBACK. -/
def execRollbackCommit (t m : Nat) (s : State) : Res :=
  s.live t fun s => s.fwImage m 0x104 0 fun _ _ s =>
    (1, [], { s with fuses := { s.fuses with rollback := max s.fuses.rollback (s.rd BOOT_STATUS.IMAGE_ROLLBACK) } })

/-! ### The throttle log (R475) -/

/-- THROTTLE_LOG (R475): the internal records, oldest first, as many as fit. -/
def execThrottleLog (t m : Nat) (s : State) : Res :=
  s.live t fun s => s.fwHub0 m 0x200 2 fun w owner s =>
    let pa := (w.getD 0 0).toNat
    let cap := (w.getD 1 0).toNat
    if pa % 4096 ≠ 0 ∨ cap < 32 then (3, [], s)
    else if !s.fwMay owner pa cap then (4, [], s)
    else
      let l := s.thrLog.take (cap / 32)
      (1, [w64 l.length, w64 s.thrOver], s.engWrite pa (wordBytes l.flatten))

end Sys2Proof.Machine
end

