-- ==== Sys2Proof/Machine/HostCore.lean ====
section
/-! DEFINITION. What host cores execute: loads, stores and how they leave the buffer, atomics, reservations, barriers and TLB
invalidations (R371–R384, R402, R411–R414). -/

namespace Sys2Proof.Machine

/-! ### What an access is refused for (R46, R47, R56, R57) -/

/-- The cause that register space gives an access of a kind, 0 for none: the lowest that applies (R56, R57). -/
def kindCause (kind : AccessKind) (pa size : Nat) : Nat :=
  if kind = .vector ∨ kind = .pair ∨ size ≠ 8 then 1
  else if pa % 8 ≠ 0 then 2
  else
    match kind with
    | .cmo => 3
    | .fetch => 4
    | _ => 0

/-- The cause of R57 with which an access of a host core faults, 0 when it is performed: the lowest that applies, in holes of
register space too. -/
def State.hostCause (s : State) (c : Nat) (wr : Bool) (pa size : Nat) (kind : AccessKind) : Nat :=
  match (if inRegSpace pa then kindCause kind pa size else 0) with
  | 0 => s.accessCause (0x100 + c) wr pa size
  | n => n

/-- The cause of R57 with which an atomic, a load-reserved or a store-conditional of a core faults, 0 when it is performed: only
HBM and the far tier take them, and a load-reserved only reads; anywhere else ATOMIC is the lowest cause but for SIZE and
ALIGN in register space (R47, R57, R359, R380). -/
def State.atomicCause (s : State) (c : Nat) (wr : Bool) (pa size : Nat) : Nat :=
  if (s.region pa).coherent then
    if s.meetsHole pa size then 3 else if s.admits (0x100 + c) wr pa size then 0 else 5
  else if inRegSpace pa then if size ≠ 8 then 1 else if pa % 8 ≠ 0 then 2 else 3
  else 3

/-- A core takes the device-access fault: the access is not performed (R56, R384). -/
def State.accessFault (s : State) (c cause pa : Nat) : State := s.refuse (0x100 + c) cause pa

/-- A core takes the poison exception for a line: the data reaches no register (R384). -/
def State.poisonFault (s : State) (c line : Nat) : State := (s.hostExc c 2 0 (64 * line)).answer (0x100 + c) 0 0 true

/-- Whether a core issues memory accesses: it runs, and SYS_PROT_LOCK is set (R445). -/
def State.hostIssues (s : State) (c : Nat) : Bool := s.hostRuns c && s.issues (0x100 + c)

/-! ### Lines in the caches (R371–R375, R400) -/

/-- A demand miss also asks for the next line, of the same page, when NEXTLINE is 1 and the core is not in strict order; it
enters at the least recently used place and raises nothing (R375, R387). -/
def State.prefetchNext (s : State) (c line : Nat) : State :=
  let n := line + 1
  if s.flag HC_PFCTL.NEXTLINE c && !s.strict c && n % 64 != 0 && !((s.host c).copy n).isSome then
    match s.readShared c n with
    | none => s
    | some (_, _, s) =>
      let h := s.host c
      let mine := fun (x : CacheLine) => x.line == n
      s.setHost c { h with cache := h.cache.filter (fun x => !mine x) ++ h.cache.filter mine }
  else s

/-- An instruction fetch that misses L1I also asks for the next line there, under the same rules (R375). -/
def State.prefetchFetch (s : State) (c line : Nat) : State :=
  let n := line + 1
  if s.flag HC_PFCTL.NEXTLINE c && !s.strict c && n % 64 != 0 then
    let s := s.prefetchNext c line
    let h := s.host c
    if h.cache.any (fun x => x.line == n) then s.setHost c { h with l1i := l1Low h.l1i n } else s
  else s

/-- A core reads a line of HBM or the far tier: from its caches, or from its home, into L1I for a fetch and into L1D for any
other access; none while the home's set has no room (R371). -/
def State.cachedLine (s : State) (c line : Nat) (fetch : Bool) : Option (Line × Bool × State) :=
  let s := s.settle line
  let missed := fetch && !(s.host c).l1i.contains line
  let next := fun (s : State) => if missed then s.prefetchFetch c line else s
  match (s.host c).cache.find? (fun x => x.line == line) with
  | some x => some (x.data, x.poison, next ((s.placeLine c x).touchL1 c line fetch))
  | none =>
    match s.readShared c line with
    | none => none
    | some (d, p, s) => some (d, p, next ((s.touchL1 c line fetch).prefetchNext c line))

/-- A core reads a line of memory. -/
def State.hostLine (s : State) (c line : Nat) (fetch : Bool) : Option (Line × Bool × State) :=
  if s.cacheable line then s.cachedLine c line fetch else some (s.engLine line)

/-- The bytes of a range as a core reads them, one access for each line (R410), and the first line of it that was poison; none
when a line has to wait. -/
def State.hostBytes (s : State) (c pa size : Nat) (fetch : Bool := false) : Option (List Byte × Option Nat × State) :=
  (linesOf pa size).foldl
    (fun (a : Option (List Byte × Option Nat × State)) line =>
      match a with
      | none => none
      | some (b, bad, s) =>
        match s.hostLine c line fetch with
        | none => none
        | some (d, p, s) =>
          let m := (lineMask line pa size).toNat
          let more := ((List.range 64).filter (fun k => m.testBit k)).map (fun k => Line.byte d k)
          some (b ++ more, if bad.isNone && p then some line else bad, s))
    (some ([], none, s))

/-! ### Loads (R379, R387, R411) -/

/-- The youngest store in a core's buffer that covers an address. -/
def HostCore.youngest (h : HostCore) (a : Nat) : Option SbEntry :=
  h.sb.reverse.find? fun e => decide (e.pa ≤ a) && decide (a < e.pa + e.size)

/-- Whether a store in the buffer overlaps a range. -/
def HostCore.overlaps (h : HostCore) (pa size : Nat) : Bool :=
  (List.range size).any fun k => (h.youngest (pa + k)).isSome

/-- The bytes that a core's buffer forwards to a load: of the youngest stores, when they cover every byte and all target HBM
or the far tier; a core in strict order forwards nothing (R379, R387). -/
def State.forwarded (s : State) (c pa size : Nat) : Option (List Byte) :=
  let h := s.host c
  if s.strict c then none
  else (List.range size).mapM fun k =>
    match h.youngest (pa + k) with
    | some e => if (s.region e.pa).coherent then some (Line.byte e.data (pa + k - e.pa)) else none
    | none => none

/-- A load's data reaches its register; a fetch's is executed. -/
def State.loaded (s : State) (c : Nat) (kind : AccessKind) (b : List Byte) : State :=
  let v := lineAt 0 b
  (if kind = .fetch then s else s.setHost c { s.host c with loadData := v }).answerLine (0x100 + c) v false

/-- A load from a peer window, one request for each line: it returns when its response comes, or as poison (R354, R425). -/
def State.peerLoad (s : State) (c pa size tag : Nat) : State :=
  s.each (linesOf pa size) fun s line =>
    let lo := max pa (64 * line)
    let n := min (pa + size) (64 * line + 64) - lo
    let h := s.host c
    let s := s.setHost c { h with loads := h.loads ++ [⟨lo, n, h.nextAcc, tag⟩], nextAcc := h.nextAcc + 1 }
    match s.peerRead (hostCls c) (.hostLoad c n) lo n with
    | (s, 0) => s
    | (s, _) => s.peerLoadDone c line n 0 true

/-- A load that nothing holds back is performed. -/
def State.doLoad (s : State) (c pa size tag : Nat) (kind : AccessKind) : State :=
  match s.region pa with
  | .peer => s.peerLoad c pa size tag
  | .regs =>
    let s := s.regRead (0x100 + c) (pa - regBase)
    s.setHost c { s.host c with loadData := s.reply.value }
  | _ =>
    match s.hostBytes c pa size (kind == .fetch) with
    | none => s
    | some (_, some line, s) => s.poisonFault c line
    | some (b, none, s) => s.loaded c kind b

/-- Whether a load of a core stalls: behind a barrier other than RELEASE or an outstanding store-conditional, and in strict
order behind any access that has not been performed (R380, R382, R387). -/
def State.loadStalls (s : State) (c : Nat) : Bool :=
  let h := s.host c
  (h.barrier != 0 && h.barrier != 2) || h.scPend.isSome || (s.strict c && !h.settled)

/-- A load of a core executes (R379): it takes forwarded data, waits for overlapping stores, or is performed. -/
def State.load (s : State) (c pa size tag : Nat) (kind : AccessKind) : State :=
  if s.loadStalls c then s
  else
    match s.hostCause c false pa size kind with
    | 0 =>
      if kind = .cmo then s
      else if kind != .fetch && (s.host c).overlaps pa size then
        match s.forwarded c pa size with
        | some b => s.loaded c kind b
        | none => s
      else s.doLoad c pa size tag kind
    | cause => s.accessFault c cause pa

/-- The parity checks of a core's own caches on lines that one of its accesses reads (R372). -/
def State.ownParity (s : State) (c : Nat) (lines : List Nat) (found : Found) : State :=
  s.each (lines.filter fun l => found.cache.contains (c, l)) fun s l => s.cacheParity c l

/-- Whether a load reads the core's caches now, rather than stalling, faulting or taking forwarded data (R379). -/
def State.readsCaches (s : State) (c pa size : Nat) (kind : AccessKind) : Bool :=
  !s.loadStalls c && s.hostCause c false pa size kind == 0 && kind != .cmo &&
    (kind == .fetch || !(s.host c).overlaps pa size)

/-- HOST_CORE_LOAD (R372, R376, R379). -/
def execHostCoreLoad (t core pa size tag : Nat) (kind : AccessKind) (found : Found) (s : State) : Res :=
  s.live t fun s =>
    if s.hostIssues core && decide (1 ≤ size) && decide (size ≤ 64) then
      s.reads found 0 (0x100 + core) fun s =>
        let s := if s.readsCaches core pa size kind then s.ownParity core (linesOf pa size) found else s
        (s.tlbUse core tag).load core pa size tag kind
    else s

/-! ### Stores (R378, R386, R412) -/

/-- The entries of a store, one for each line (R378, R410). -/
def storePieces (pa size : Nat) (data : Line) : List (Nat × Nat × Line) :=
  (linesOf pa size).map fun line =>
    let lo := max pa (64 * line)
    (lo, min (pa + size) (64 * line + 64) - lo, BitVec.ofNat 512 (data.toNat >>> (8 * (lo - pa))))

/-- A store enters the buffer of its core; a reservation on its granule is lost (R378, R380). -/
def State.pushStore (s : State) (c tag : Nat) (p : Nat × Nat × Line) : State :=
  let h := s.host c
  s.setHost c { h with sb := h.sb ++ [⟨p.1, p.2.1, p.2.2, h.nextAcc, false, tag⟩], nextAcc := h.nextAcc + 1,
                       resv := if h.resv = some (p.1 / 64) then none else h.resv }

/-- Whether a store of a core stalls: behind any barrier, an outstanding store-conditional or a full buffer, and in strict
order behind any access that has not been performed (R378, R382, R387). -/
def State.storeStalls (s : State) (c n : Nat) : Bool :=
  let h := s.host c
  h.barrier != 0 || h.scPend.isSome || decide (64 < h.sb.length + n) || (s.strict c && !h.settled)

/-- A store of a core executes (R378); cache maintenance by address changes no memory. -/
def State.store (s : State) (c pa size tag : Nat) (kind : AccessKind) (data : Line) : State :=
  let ps := storePieces pa size data
  if s.storeStalls c ps.length then s
  else
    match s.hostCause c true pa size kind with
    | 0 => if kind = .cmo ∨ kind = .fetch then s else (s.each ps fun s p => s.pushStore c tag p).issuePeers c
    | cause => s.accessFault c cause pa

/-- HOST_CORE_STORE (R376, R378). -/
def execHostCoreStore (t core pa size tag : Nat) (kind : AccessKind) (data : Line) (s : State) : Res :=
  s.live t fun s =>
    if s.hostIssues core && decide (1 ≤ size) && decide (size ≤ 64) then
      (s.tlbUse core tag).store core pa size tag kind data
    else s

/-- The block of a register offset (R51). -/
def blockOf (off : Nat) : Option Nat := (regBlocks.find? fun b => decide (b.1 ≤ off) && decide (off < b.2.1)).map Prod.fst

/-- Whether a store must be performed after an earlier one of its core: both go to HBM or the far tier, to one register block,
or to one line of another target (R411). -/
def State.storeAfter (s : State) (x e : SbEntry) : Bool :=
  match s.region e.pa with
  | .hbm => (s.region x.pa).coherent
  | .far => (s.region x.pa).coherent
  | .regs => s.region x.pa = .regs && blockOf (x.pa - regBase) == blockOf (e.pa - regBase)
  | _ => x.pa / 64 == e.pa / 64

/-- Whether the entry i of a core's buffer may be performed: after every earlier load, and every earlier store that it is
ordered behind (R378, R411). -/
def State.mayStore (s : State) (c i : Nat) (e : SbEntry) : Bool :=
  let h := s.host c
  !h.loads.any (fun l => decide (l.seq < e.seq)) && !(h.sb.take i).any (fun x => s.storeAfter x e)

/-- A buffered store has been performed and leaves the buffer (R378). -/
def State.storeDone (s : State) (c : Nat) (e : SbEntry) : State :=
  let h := s.host c
  (s.setHost c { h with sb := h.sb.filter (fun x => x.seq != e.seq) }).tryBarriers c

/-- A store into a line that the core holds with write permission is performed in its L1D (R412); none while it does not. -/
def State.performCached (s : State) (c : Nat) (e : SbEntry) : Option State :=
  let line := e.pa / 64
  if (s.host c).cache.any (fun x => x.line == line && x.excl) then
    let d : Line := BitVec.ofNat 512 (e.data.toNat <<< (8 * (e.pa % 64)))
    some (((s.storeCached c line (maskOf (e.pa % 64) e.size) d).touchL1 c line false).storeDone c e)
  else none

/-- A store to HBM or the far tier: the core asks for write permission where it has none, and keeps the entry until the grant
comes; during a save no new request is made (R400, R412, R478). -/
def State.ackCached (s : State) (c : Nat) (e : SbEntry) : State :=
  let line := e.pa / 64
  let s := s.settle line
  match s.performCached c e with
  | some s => s
  | none =>
    if s.save.phase ≠ 0 then s
    else
      let missed := !(s.host c).cache.any (fun x => x.line == line)
      match s.readOwn c line with
      | none => s
      | some s =>
        let s := if missed then s.prefetchNext c line else s
        (s.performCached c e).getD s

/-- A store to register space, the keep store or a customer window is performed at its target and acknowledged (R378). -/
def State.ackTarget (s : State) (c : Nat) (e : SbEntry) : State :=
  let s :=
    match s.region e.pa with
    | .regs => (s.regWrite (0x100 + c) (e.pa - regBase) (e.data.setWidth 64)).releaseSites
    | .site _ => s.engWrite e.pa (lineBytes e.data e.size)
    | .keep => s.engWrite e.pa (lineBytes e.data e.size)
    | _ => s
  s.storeDone c e

/-- A store into a peer window that has been sent ends as its target says (R354, R358, R378). -/
def State.ackPeer (s : State) (c : Nat) (e : SbEntry) (ack : AckKind) : State :=
  match s.peerReqs.find? (fun (r : PeerReq) => r.who == .hostStore c e.pa) with
  | none => s
  | some r =>
    s.reqEnd r
      (match ack with
       | .ok => .ok []
       | .lost => .lost
       | .refused => .refused 3)

/-- STORE_ACK (R378): entry i of the buffer. Only a store into a peer window is LOST or refused. -/
def execStoreAck (t core i : Nat) (ack : AckKind) (found : Found) (s : State) : Res :=
  s.live t fun s =>
    match (if core < 96 then (s.host core).sb[i]? else none) with
    | none => s
    | some e =>
      if s.region e.pa = .peer ∨ e.sent then if e.sent then s.ackPeer core e ack else s
      else if ack ≠ .ok ∨ !s.mayStore core i e then s
      else if (s.region e.pa).coherent then
        s.reads found 0 (0x100 + core) fun s => (s.ownParity core [e.pa / 64] found).ackCached core e
      else s.ackTarget core e

/-! ### Atomics (R381, R402, R411) -/

/-- Whether an atomic or a store-conditional of a core waits: as a store does, and until every earlier load has returned and
every earlier store to HBM or the far tier has been performed (R411). -/
def State.atomicStalls (s : State) (c : Nat) : Bool :=
  let h := s.host c
  h.barrier != 0 || h.scPend.isSome || !h.loads.isEmpty || h.sb.any (fun e => (s.region e.pa).coherent) ||
    (s.strict c && !h.settled)

/-- An atomic with no code in R279 is performed at the home as a read of memory, the operation, and a write (R402). -/
def State.homeAtomic (s : State) (c pa size op : Nat) (a b : Word) : State :=
  let line := pa / 64
  let (d, p, s) := (s.coTake line).fetchLine line
  if p then s.poisonFault c line
  else
    let o := pa % 64
    let old : Word := BitVec.ofNat 64 ((d.toNat >>> (8 * o)) % 2 ^ (8 * size))
    let new := Config.coreAtomic op old a b
    (s.storeLine line (maskOf o size) (BitVec.ofNat 512 (new.toNat <<< (8 * o)))).loaded c .plain (natLE size old.toNat)

/-- The operand line of a core's atomic: a compare-and-swap's two values side by side, else one (R279). -/
def hostOperand (size op : Nat) (a b : Word) : Line :=
  let w := 8 * size
  BitVec.ofNat 512 (if 0x20 ≤ op ∧ op < 0x22 then a.toNat % 2 ^ w + b.toNat % 2 ^ w * 2 ^ w else a.toNat)

/-- An atomic with a code of R279 is performed by the line's adder (R402). -/
def State.adderAtomic (s : State) (c pa size op : Nat) (a b : Word) : State :=
  let (r, s) := s.mop (0x100 + c) op ⟨.scalar, pa, true, hostOperand size op a b, 0, 0, 0, .none, none⟩
  match r with
  | some (.ok old) => s.loaded c .plain (natLE size old.toNat)
  | some .poison => s.poisonFault c (pa / 64)
  | _ => s

/-- HOST_ATOMIC (R402): an element of 1, 2, 4 or 8 bytes, naturally aligned. An op of R279 has the size that its code names;
others are the core instruction set's (log entry 14). -/
def execHostAtomic (t core pa size tag op : Nat) (a b : Word) (found : Found) (s : State) : Res :=
  s.live t fun s =>
    if !s.hostIssues core || s.atomicStalls core then s
    else
      match s.atomicCause core true pa size with
      | 0 =>
        if !([1, 2, 4, 8] : List Nat).contains size || pa % size != 0 then s
        else if mopSize op = some size then
          s.reads found 2 (0x100 + core) fun s => (s.tlbUse core tag).adderAtomic core pa size op a b
        else if (mopSize op).isSome then s
        else s.reads found 0 (0x100 + core) fun s => (s.tlbUse core tag).homeAtomic core pa size op a b
      | cause => s.accessFault core cause pa

/-! ### Load-reserved and store-conditional (R380) -/

/-- LOAD_RESERVED (R380): inside one 64 B granule; it waits for stores of the core that overlap it. -/
def execLoadReserved (t core pa size tag : Nat) (found : Found) (s : State) : Res :=
  s.live t fun s =>
    if !s.hostIssues core || s.loadStalls core then s
    else
      match s.atomicCause core false pa size with
      | 0 =>
        if size = 0 ∨ pa / 64 ≠ (pa + size - 1) / 64 ∨ (s.host core).overlaps pa size then s
        else
          s.reads found 0 (0x100 + core) fun s =>
            match ((s.ownParity core [pa / 64] found).tlbUse core tag).hostBytes core pa size with
            | none => s
            | some (_, some line, s) => s.poisonFault core line
            | some (b, none, s) => (s.setHost core { s.host core with resv := some (pa / 64) }).loaded core .plain b
      | cause => s.accessFault core cause pa

/-- A store-conditional that finds no reservation on its granule fails in the core; in a line held EXCLUSIVE it succeeds;
otherwise the home decides its conditional request (R380, R402). -/
def State.conditional (s : State) (c pa size : Nat) (data : Word) : State :=
  let line := pa / 64
  let h := s.host c
  if h.resv ≠ some line then s.setHost c { h with resv := none, scOk := false }
  else if h.cache.any (fun x => x.line == line && x.excl) then
    (s.setHost c { h with scPend := some (pa, size, data) }).scStore c line
  else s.setHost c { h with scPend := some (pa, size, data) }

/-- STORE_CONDITIONAL (R380): an exception or interrupt that the core has taken meanwhile has lost its reservation. -/
def execStoreConditional (t core pa size tag : Nat) (data : Word) (broken : Bool) (s : State) : Res :=
  s.live t fun s =>
    if !s.hostIssues core || s.atomicStalls core then s
    else
      let s := if broken then s.setHost core { s.host core with resv := none } else s
      match s.atomicCause core true pa size with
      | 0 => if size = 0 ∨ 8 < size ∨ pa / 64 ≠ (pa + size - 1) / 64 then s else (s.tlbUse core tag).conditional core pa size data
      | cause => s.accessFault core cause pa

/-! ### Barriers and TLB invalidation (R376, R382) -/

/-- ACQUIRE (R382). -/
def execAcquire (t core : Nat) (s : State) : Res := s.live t fun s => s.barrier core 1

/-- RELEASE (R382). -/
def execRelease (t core : Nat) (s : State) : Res := s.live t fun s => s.barrier core 2

/-- FULL (R382). -/
def execFull (t core : Nat) (s : State) : Res := s.live t fun s => s.barrier core 3

/-- DEVICE (R382). -/
def execDevice (t core : Nat) (s : State) : Res := s.live t fun s => s.barrier core 4

/-- RC (R382). -/
def execRc (t core : Nat) (s : State) : Res := s.live t fun s => s.barrier core 5

/-- TLB_INVALIDATION (R376): every core drops its entries of the tag; it is complete once a DEVICE barrier that follows it
is, which waits for the accesses that those entries translated. -/
def execTlbInvalidation (t core tag : Nat) (s : State) : Res :=
  s.live t fun s =>
    if s.hostRuns core && (s.host core).barrier == 0 then
      let marks := s.tlbMarks tag
      let s := s.tlbDrop tag
      let h := s.host core
      s.setHost core { h with tlbi := h.tlbi ++ [marks] }
    else s

end Sys2Proof.Machine
end

