-- ==== Sys2Proof/Machine/Messages.lean ====
section
/-! DEFINITION. What the device does with a message that a link or an Ethernet port has delivered (R346, R354, R358–R361). -/

namespace Sys2Proof.Machine

/-! ### Requests (R358, R359, R361) -/

/-- The messages that a port has delivered and that wait. -/
def State.rxOf (s : State) (port : Nat) : List RxMsg := Tab.get (fun _ => []) s.rx port

/-- The LAT_BOUND event of a class-0 request whose stages at this end have taken more than 29.4 ticks; while its channel is
suspended the bound does not hold (R351, R510; log entry 139). -/
def State.doneBound (s : State) (port : Nat) (x : RxMsg) : State :=
  if x.c0 && decide (port < 0x9018) && decide (x.tick + 29 < s.now) && !s.suspends x.msg then s.latBound (port - 0x9000) 3 else s

/-- The oldest message of a port is handled if it is one of those that a command takes; while a save runs none is (R478; log
entry 41). -/
def State.handle (s : State) (port : Nat) (takes : Msg → Bool) (f : RxMsg → State → State) : State :=
  if s.save.phase ≠ 0 then s
  else
    match s.rxOf port with
    | [] => s
    | x :: r => if takes x.msg then f x { s with rx := Tab.put (fun _ => []) s.rx port r } else s

/-- A request is refused with a CODE of R358. -/
def State.refuseMsg (s : State) (port : Nat) (x : RxMsg) (code : Nat) : State := s.respond port x 0x44 code []

/-- Whether the guard admits a sender: GUARD is 0, or the member array of a READY epoch slot names it (R361). -/
def State.guardAdmits (s : State) (src : Nat) : Bool :=
  !s.flag LK_CFG.GUARD || (List.range 16).any fun n =>
    s.rd CE_EPOCH_STATUS.STATE n == 2 && (s.membersOf n).any (fun x => x.device == src)

/-- An arriving request: for another device it is refused as NO_DEVICE; one that the guard does not admit as DENIED, and
counted; any other is performed (R358, R361). -/
def State.arrive (s : State) (port : Nat) (x : RxMsg) (f : State → State) : State :=
  if x.msg.dst ≠ s.deviceId then s.refuseMsg port x 2
  else if !s.guardAdmits x.msg.src then (s.bump LK_STATUS.GUARDED 0).refuseMsg port x 3
  else (f s).doneBound port x

/-- A request of a KIND that its port has delivered is performed, with what its reads find (R274, R358, R359). -/
def State.request (s : State) (port kind : Nat) (found : Found) (f : State → RxMsg → State) : State :=
  s.reads found 0 port fun s => s.handle port (fun m => m.kind == kind) fun x s => s.arrive port x fun s => f s x

/-- The destination address of a message. -/
def msgAddr (m : Msg) : Nat := m.addr.toNat % 2 ^ 52

/-- Whether a line access finds a hole: one of R45, register space, which takes no line (R56), or a peer window, since the
device forwards nothing (R358; log entry 39). -/
def State.lineHole (s : State) (pa : Nat) : Bool :=
  match s.region pa with
  | .hole => true
  | .spare => true
  | .regs => true
  | .peer => true
  | _ => false

/-- The CODE with which a range of lines is refused, 0 for none (R358, R359). -/
def State.rangeCode (s : State) (agent : Nat) (wr : Bool) (pa len : Nat) : Nat :=
  if s.lineHole pa || s.lineHole (pa + len - 1) then 4 else if s.admits agent wr pa len then 0 else 3

/-- Whether LINES and the address name 1 to 3 whole lines inside one granule (R346). -/
def msgLinesOk (m : Msg) : Bool :=
  decide (1 ≤ m.lines) && decide (m.lines ≤ 3) && (msgAddr m) % 64 == 0 && (msgAddr m) / 4096 == ((msgAddr m) + 64 * m.lines - 1) / 4096

/-- Writes to lines that cannot be performed are discarded; those behind a DOWN port are counted (R299). -/
def State.failWrites (s : State) (lines : List Nat) : State :=
  s.each (lines.filter s.lostLine) fun s l => s.bump TIER_PORT_STATUS.LOST_WR (s.portOf (64 * l)).1

/-- A WRITE is performed, all of its lines or none (R346); one that is not formed as R346 says is UNSUPPORTED (log
entry 39), and one with a line that cannot be written is DENIED (log entry 136). -/
def State.msgWrite (s : State) (port : Nat) (x : RxMsg) : State :=
  let m := x.msg
  let lines := linesOf (msgAddr m) (64 * m.lines)
  if !msgLinesOk m || m.data.length != 8 * m.lines then s.refuseMsg port x 6
  else
    match s.rangeCode port true (msgAddr m) (64 * m.lines) with
    | 0 =>
      if lines.any s.failedLine then (s.failWrites lines).refuseMsg port x 3
      else (s.engWrite (msgAddr m) (wordBytes m.data)).respond port x 0x41 0 []
    | code => s.refuseMsg port x code

/-- The register word that a byte mask over a line names: its place in the line, if the mask is that of 8 aligned bytes. -/
def maskWord (mask : Word) : Option Nat := (List.range 8).find? fun k => mask == maskOf (8 * k) 8

/-- A masked write into register space: of 8 aligned bytes it is one register store; any other breaks R56 (R355). -/
def State.msgRegister (s : State) (port : Nat) (x : RxMsg) (mask : Word) (data : List Word) : State :=
  match maskWord mask with
  | none => s.refuseMsg port x 4
  | some k =>
    let pa := msgAddr x.msg + 8 * k
    match s.accessCause port true pa 8 with
    | 0 => ((s.regWrite port (pa - regBase) (data.getD k 0)).releaseSites).respond port x 0x41 0 []
    | 5 => s.refuseMsg port x 3
    | _ => s.refuseMsg port x 4

/-- Whether a byte mask over a line is one that the keep store takes: the whole line, or 1, 2, 4 or 8 aligned bytes (R47). -/
def keepMask (mask : Word) : Bool :=
  mask == fullMask || [1, 2, 4, 8].any fun n => (List.range (64 / n)).any fun k => mask == maskOf (n * k) n

/-- A WRITE_MASKED is performed (R346); one that the keep store does not take breaks R47 as R56 is broken (log entry 129). -/
def State.msgMasked (s : State) (port : Nat) (x : RxMsg) : State :=
  let m := x.msg
  let line := msgAddr m / 64
  if (msgAddr m) % 64 ≠ 0 ∨ m.data.length ≠ 9 then s.refuseMsg port x 6
  else
    let mask := m.data.headD 0
    let data := m.data.tail
    if s.region (msgAddr m) = .regs then s.msgRegister port x mask data
    else
      match s.rangeCode port true (msgAddr m) 64 with
      | 0 =>
        if s.failedLine line then (s.failWrites [line]).refuseMsg port x 3
        else if s.region (msgAddr m) = .keep ∧ !keepMask mask then s.refuseMsg port x 4
        else (s.engStore line mask (wordsLine data)).respond port x 0x41 0 []
      | code => s.refuseMsg port x code

/-- The words of some lines; those of a line read as poison are free, since a DATA message has no mark for it (log
entry 39). -/
def State.linesRead (s : State) (line : Nat) : Nat → List Word × State
  | 0 => ([], s)
  | n + 1 =>
    let (d, bad, s) := s.engLine line
    let free := (List.range 8).map fun k => Config.freeWord (s.freeIdx + k)
    let s := if bad then { s with freeIdx := s.freeIdx + 8 } else s
    let r := s.linesRead (line + 1) n
    ((if bad then free else lineWords d) ++ r.1, r.2)

/-- A READ is answered with DATA (R346). -/
def State.msgRead (s : State) (port : Nat) (x : RxMsg) : State :=
  let m := x.msg
  if !msgLinesOk m then s.refuseMsg port x 6
  else
    match s.rangeCode port false (msgAddr m) (64 * m.lines) with
    | 0 => let r := s.linesRead ((msgAddr m) / 64) m.lines; r.2.respond port x 0x42 0 r.1
    | code => s.refuseMsg port x code

/-- The memory-side request of a MOP message: how its slots lie is the model's (log entry 39). A CAS gives the compare value
then the swap value; an EA operation its contributions; a SETTLE its target then n; eight slots make a line operation on the
whole line, one slot a scalar operation that fetches. -/
def msgMopReq (m : Msg) : MopReq :=
  let x := leNat (wordBytes m.data)
  if m.code = 0x20 ∨ m.code = 0x21 then
    let w := if m.code = 0x20 then 32 else 64
    ⟨.scalar, (msgAddr m), true, BitVec.ofNat 512 ((m.data.headD 0).toNat % 2 ^ w + (m.data.getD 1 0).toNat % 2 ^ w * 2 ^ w), 0, 0, 0, .none, none⟩
  else if isSettle m.code then
    ⟨.cells, (msgAddr m), false, 0, 0, (m.data.getD 1 0).toNat, (m.data.headD 0).toNat % 2 ^ 52, .none, none⟩
  else
    match cellFmt m.code with
    | some f => ⟨.cells, (msgAddr m), false, BitVec.ofNat 512 x, 0, 64 * m.data.length / f.width, 0, .none, none⟩
    | none =>
      if m.data.length = 8 then ⟨.line, (msgAddr m), false, BitVec.ofNat 512 x, fullMask, 0, 0, .none, none⟩
      else ⟨.scalar, (msgAddr m), true, BitVec.ofNat 512 x, 0, 0, 0, .none, none⟩

/-- Whether a MOP message is formed as the model reads it: a code of R279 and its number of slots. -/
def msgMopFormed (m : Msg) : Bool :=
  let n := m.data.length
  if m.code = 0x20 ∨ m.code = 0x21 ∨ isSettle m.code then n == 2
  else if (cellFmt m.code).isSome then decide (1 ≤ n) && decide (n ≤ 8)
  else (mopSize m.code).isSome && (n == 1 || (n == 8 && decide (m.code < 0x20)))

/-- A MOP is performed at the line's adder (R359); a refusal of R281 in a hole is HOLE, otherwise UNSUPPORTED; poison is
reported as DENIED (log entry 39). -/
def State.msgMop (s : State) (port : Nat) (x : RxMsg) : State :=
  let m := x.msg
  if !msgMopFormed m then s.refuseMsg port x 6
  else if s.lineHole (msgAddr m) then s.refuseMsg port x 4
  else
    let r := msgMopReq m
    match s.mop port m.code r with
    | (some (.refused 5), s) => s.refuseMsg port x 3
    | (some (.refused _), s) => s.refuseMsg port x 6
    | (some .poison, s) => s.refuseMsg port x 3
    | (some (.ok v), s) => if r.fetch then s.respond port x 0x43 0 [v] else s.respond port x 0x41 0 []
    | (none, s) => s

/-- Whether a COLL is a DONE message (R331). -/
def isDone (m : Msg) : Bool := m.kind == 5 && bitsOf m.addr.toNat 49 48 == 3

/-- A COLL reaches the port's collective engine (R339); one of an undefined CODE is UNSUPPORTED (R358). -/
def State.msgColl (s : State) (port : Nat) (x : RxMsg) : State :=
  match s.ceArrive port x.msg with
  | (.acked, s) => s.respond port x 0x41 0 []
  | (.notReady, s) => s.refuseMsg port x 5
  | (.refused, s) => s.refuseMsg port x 3
  | (.unsupported, s) => s.refuseMsg port x 6

/-- WRITE (R346). -/
def execWrite (t port : Nat) (found : Found) (s : State) : Res := s.live t fun s => s.request port 1 found fun s x => s.msgWrite port x

/-- WRITE_MASKED (R346). -/
def execWriteMasked (t port : Nat) (found : Found) (s : State) : Res :=
  s.live t fun s => s.request port 2 found fun s x => s.msgMasked port x

/-- READ (R346). -/
def execRead (t port : Nat) (found : Found) (s : State) : Res := s.live t fun s => s.request port 3 found fun s x => s.msgRead port x

/-- MOP (R359). -/
def execMop (t port : Nat) (found : Found) (s : State) : Res := s.live t fun s => s.request port 4 found fun s x => s.msgMop port x

/-- COLL (R339): a message other than a DONE. -/
def execColl (t port : Nat) (found : Found) (s : State) : Res :=
  s.live t fun s => s.reads found 0 port fun s =>
    s.handle port (fun m => m.kind == 5 && !isDone m) fun x s => s.arrive port x fun s => s.msgColl port x

/-- DONE_MESSAGE (R331): a COLL with LEVEL 3. -/
def execDoneMessage (t port : Nat) (found : Found) (s : State) : Res :=
  s.live t fun s => s.reads found 0 port fun s =>
    s.handle port isDone fun x s => s.arrive port x fun s => s.msgColl port x

/-- A child's TIME message is answered over the link that it came by: the count at its receipt and the count now (R29, log
entry 125). -/
def State.answerTime (s : State) (port : Nat) (x : RxMsg) : State :=
  s.pushMsg port 0 0 ⟨6, 0, x.msg.tag, x.msg.src, s.deviceId, 0, 0, [BitVec.ofNat 64 x.count, BitVec.ofNat 64 s.tb]⟩

/-- A TIME message for this device: the parent's answer to the exchange under way completes the measurement; any other that a
link has brought is a child's (R29, log entry 125). -/
def State.takeTime (s : State) (port : Nat) (x : RxMsg) : State :=
  let mine := port == 0x9000 + s.rd SYS_TB_CFG.REF_LINK && !s.flag SYS_TB_CFG.ROOT
  match s.tbXchg with
  | some ⟨tag, t1, none⟩ =>
    if mine && tag == x.msg.tag then
      { s with tbXchg := some ⟨tag, t1, some ((x.msg.data.headD 0).toNat, (x.msg.data.getD 1 0).toNat, x.count)⟩ }
    else if port < 0x9100 then s.answerTime port x else s
  | _ => if port < 0x9100 then s.answerTime port x else s

/-- TIME (R29, R346, R361): a part of a timebase exchange; the guard does not look at it. -/
def execTime (t port : Nat) (s : State) : Res :=
  s.live t fun s => s.handle port (fun m => m.kind == 6) fun x s =>
    if x.msg.dst ≠ s.deviceId then s.refuseMsg port x 2 else s.takeTime port x

/-! ### Responses (R346, R358, R360) -/

/-- A response: for another device it is dropped; to a request that no longer waits, or at or after the end of its window,
it is discarded and counted in LATE; any other ends its request (R358, R360). -/
def State.response (s : State) (m : Msg) (e : ReqEnd) : State :=
  if m.dst ≠ s.deviceId then s
  else
    match s.peerReqs.find? (fun r => r.tag == m.tag && r.sent.isSome) with
    | none => s.bump LK_STATUS.LATE 0
    | some r => if s.overdue r then s.bump LK_STATUS.LATE 0 else s.reqEnd r e

/-- The oldest message of a port, if it is of a KIND, is a response. -/
def State.handleResponse (s : State) (port kind : Nat) (f : Msg → State → State) : State :=
  s.handle port (fun m => m.kind == kind) fun x s => f x.msg s

/-- ACK (R346). -/
def execAck (t port : Nat) (s : State) : Res :=
  s.live t fun s => s.handleResponse port 0x41 fun m s => s.response m (.ok [])

/-- DATA (R346). -/
def execData (t port : Nat) (s : State) : Res :=
  s.live t fun s => s.handleResponse port 0x42 fun m s => s.response m (.ok m.data)

/-- MOP_RSP (R346). -/
def execMopRsp (t port : Nat) (s : State) : Res :=
  s.live t fun s => s.handleResponse port 0x43 fun m s => s.response m (.ok m.data)

/-- REFUSE (R358): every one received is counted. -/
def execRefuse (t port : Nat) (s : State) : Res :=
  s.live t fun s => s.handleResponse port 0x44 fun m s =>
    (if m.dst = s.deviceId then s.bump LK_STATUS.REFUSED 0 else s).response m (.refused m.code)

end Sys2Proof.Machine
end

