-- ==== Sys2Proof/Machine/SignalsTest.lean ====
section
/-! DEFINITION. Output pins (R519), the I3C port (R529), debug access over JTAG (R516, R530) and TEST_MODE (R531). -/

namespace Sys2Proof.Machine

/-! ### Pins (R519) -/

/-- The level of CXL_PERST_N_p (R519): high while the port is up, low before the boot ROM brings it up and while it is DOWN. -/
def State.perstN (s : State) (p : Nat) : Bool := s.rd TIER_PORT_STATUS.STATE p == 2

/-- The level of THERMTRIP_N (R469, R519): low from a trip until package reset. -/
def State.thermtripN (s : State) : Bool := !s.thermtrip

/-! ### The I3C port (R529) -/

/-- Whether the port answers: from 200 µs after the release of package reset, also after a save (R529). -/
def State.i3cOn (s : State) : Bool := !s.inReset && decide (200000 ≤ s.now)

/-- The item at an index (R529). -/
def State.i3cItem (s : State) (k : Nat) : Word :=
  match k with
  | 0 => s.view (SYS_ID.VENDOR.off 0)
  | 1 => s.view (SYS_PART_INFO.PRESENTED_WIDTH.off 0)
  | 2 => if s.rd BOOT_STATUS.STAGE = 5 ∨ s.rd BOOT_STATUS.STAGE = 6 then s.view (BOOT_STATUS.STAGE.off 0) else 0
  | 3 => s.view (SLU_PKG_STATUS.HOLD_OK.off 0)
  | 4 => s.view (SLU_PKG_EXC.EXC_US.off 0)
  | 13 => s.view (SYS_TIMEBASE.COUNT.off 0)
  | 14 => packWord [(0, bit s.thermtrip), (1, bit (s.save.phase == 1 || s.save.phase == 2)),
      (2, bit (decide (11400 ≤ s.holdVin)))]
  | _ => if 5 ≤ k ∧ k ≤ 12 then s.view (SLU_POLDER_THR.DUTY.off (k - 5)) else 0

/-- I3C_WRITE (R529): one byte selects an index. -/
def execI3cWrite (t : Nat) (index : Byte) (s : State) : Res :=
  .next <|
    let s := s.advance t
    if s.i3cOn then { s with i3cIndex := index.toNat } else s

/-- I3C_READ (R529): the selected item, answered as agent 0 of the model; the index moves on, after 255 to 0. -/
def execI3cRead (t : Nat) (s : State) : Res :=
  .next <|
    let s := s.advance t
    if s.i3cOn then { (s.answer 0 (s.i3cItem s.i3cIndex)) with i3cIndex := (s.i3cIndex + 1) % 256 } else s

/-- I3C_DYNAMIC_ADDRESS (R529): a 7-bit address, which the port keeps until package reset. -/
def execI3cDynamicAddress (t addr : Nat) (s : State) : Res :=
  .next <|
    let s := s.advance t
    if s.i3cOn then { s with i3cAddr := some (addr % 128) } else s

/-! ### JTAG (R516, R530) -/

/-- What a debug access is recorded with once SYS_PROT_LOCK is set (R500, R516): its host core or none, its address or
0, and whether it writes. -/
def State.jtagRecord (s : State) (isWrite : Bool) (target : JtagTarget) : State :=
  if s.locked then
    match target with
    | .address pa => s.faultRecord 14 0xFFFF 0xFFF 2 pa (bit isWrite)
    | .hostRegs c => s.faultRecord 14 c 0xFFF 2 0 (bit isWrite)
  else s

/-- A debug access to a host core's architectural registers: strict order is forced until the core leaves halt (R388). The
registers are the Torlo Core Instruction Set Reference's, so what is read is free (log entry 53). -/
def State.jtagHost (s : State) (c : Nat) : State :=
  if 96 ≤ c then s.answer 2 0 5
  else
    let h := s.host c
    let s := (s.setHost c { h with debugged := true, soft := if h.halted || h.debugged then h.soft else s.strict c }).setStrict c 1
    let (v, s) := s.free
    s.answer 2 v

/-- A debug request performed by service processor 0x0002, in a class that is a free value (R516, log entry 53). -/
def State.jtagAccess (s : State) (isWrite : Bool) (target : JtagTarget) (v : Word) : State :=
  match target with
  | .address pa =>
    let (cls, s) := s.free
    s.performAccess ⟨2, 2, cls.toNat % 4, pa, 8, isWrite, v.setWidth 512⟩
  | .hostRegs c => s.jtagHost c

/-- JTAG_DEBUG_ACCESS (R516): after the lock refused unless EXT_DEBUG, and recorded. -/
def execJtagDebugAccess (t : Nat) (isWrite : Bool) (target : JtagTarget) (v : Word) (found : Found)
    (s : State) : Res :=
  s.live t fun s =>
    if s.locked && !s.flag DBG_CFG.EXT_DEBUG then s.answer 2 0 5
    else s.reads found 0 2 fun s => ((s.jtagRecord isWrite target).jtagAccess isWrite target v).releaseSites

/-! ### TEST_MODE (R531) -/

/-- TEST_MODE: high, the package is held in reset, also during a save; lowered, the package reset that follows completes
when RST_N is next released (R531). -/
def execTestMode (t : Nat) (high : Bool) (s : State) : Res :=
  .next <|
    let s := s.advance t
    if high then { s with testMode := true }.packageReset
    else { s with testMode := false }

end Sys2Proof.Machine
end

