-- ==== Sys2Proof/Machine/WaitGraph.lean ====
section
/-! DEFINITION. The wait-for graph and the state collection that firmware makes (R497–R499, R502, R503). -/

namespace Sys2Proof.Machine

/-! ### Nodes (R502) -/

/-- A node: KIND, the number that tells it from others of its kind, ID, CONTEXT and STATE. -/
structure WNode where
  /-- KIND -/
  kind : Nat
  /-- number within the kind -/
  key : Nat
  /-- ID -/
  id : Nat
  /-- CONTEXT, 0xFFF none -/
  ctx : Nat
  /-- STATE -/
  state : Nat
  deriving DecidableEq, Repr

/-- An edge: FROM and TO as kind and number, REL, and the tick since which FROM has waited where the device holds it. -/
structure WEdge where
  /-- FROM -/
  src : Nat × Nat
  /-- TO -/
  dst : Nat × Nat
  /-- REL -/
  rel : Nat
  /-- the tick since which it has waited -/
  since : Option Nat
  deriving DecidableEq, Repr

/-- The queues that are not DISABLED. -/
def State.liveQueues (s : State) : List Nat :=
  (s.changed QE_Q_STATUS.STATE 16384).filter fun q => s.rd QE_Q_STATUS.STATE q != 0

/-- The cores that run a launch. -/
def State.runningCores (s : State) : List Nat := (Tab.keys s.cores).filter fun c => (s.core c).launch.isSome

/-- Everything that is sampled (R502). Objects are those that a waiter waits for. -/
def State.allNodes (s : State) : List WNode :=
  s.liveQueues.map (fun q => ⟨1, q, q, s.rd QE_Q_CFG.CONTEXT q, s.rd QE_Q_STATUS.STATE q⟩) ++
  s.runningCores.map (fun c => ⟨2, c, c, ((s.core c).launch.map (·.ctx)).getD 0xFFF, s.rd TC_STATUS.STATE c⟩) ++
  ((s.waiters.map (·.obj)).eraseDups.map fun o => (⟨3, o, o, 0xFFF, 0⟩ : WNode)) ++
  s.buckets.zipIdx.map (fun b => ⟨4, b.2, b.1.bucket, b.1.ctx, b.1.level⟩) ++
  (s.migs.filter fun m => m.phase != 0).map (fun m => ⟨5, m.obj, m.obj, s.rd TIER_OBJ_CFG.CONTEXT m.obj, m.phase⟩) ++
  s.invals.map (fun x => ⟨6, x.k, x.k, x.tag, 0⟩) ++
  s.faults.map (fun f => ⟨7, f.slot, f.slot, f.tag, f.kinds⟩) ++
  ((s.buckets.flatMap s.ceOwing).eraseDups.map fun d => (⟨8, d, d, 0xFFF, 0⟩ : WNode))

/-- The nodes of a context, with those that have none; all for 0xFFFF. -/
def State.graphNodes (s : State) (ctx : Nat) : List WNode :=
  s.allNodes.filter fun n => ctx == 0xFFFF || n.ctx == ctx || n.ctx == 0xFFF

/-! ### Edges (R503) -/

/-- A word of memory as a coherent read gives it. -/
def State.peekWord (s : State) (pa : Nat) : Word :=
  BitVec.ofNat 64 ((s.engLine (pa / 64)).1.toNat >>> (8 * (pa % 64)))

/-- The headers and first words of a queue's commands between two indices: fuel bounds the slots. -/
def State.ringCmds (s : State) (q : Nat) : Nat → Nat → List (Word × Word)
  | 0, _ => []
  | n + 1, i =>
    let a := s.rd QE_Q_RING.BASE q * 4096 + i % max (s.rd QE_Q_CFG.SLOTS q) 1 * 64
    let h := s.peekWord a
    (h, s.peekWord (a + 8)) :: (if slotsOf h = 2 then s.ringCmds q (n - 1) (i + 2) else s.ringCmds q n (i + 1))

/-- Whether a queue holds a SIGNAL to an object between HEAD and TAIL. -/
def State.willSignal (s : State) (q obj : Nat) : Bool :=
  (s.ringCmds q (min (s.qAvail q) (s.rd QE_Q_CFG.SLOTS q)) (s.qHead q)).any fun e =>
    bitsOf e.1.toNat 23 16 == 4 && bitsOf e.2.toNat 12 0 == obj

/-- WAITS_ON. -/
def State.waitEdges (s : State) : List WEdge :=
  s.waiters.map fun w =>
    ⟨(match w.who with | .queue q => (1, q) | .core c => (2, c)), (3, w.obj), 1, some (s.tbOf w.start)⟩

/-- SIGNALLED_BY. -/
def State.signalEdges (s : State) : List WEdge :=
  (s.waiters.map (·.obj)).eraseDups.flatMap fun o =>
    ((s.liveQueues.filter fun q => s.willSignal q o).map fun q => (⟨(3, o), (1, q), 2, none⟩ : WEdge)) ++
    ((s.runningCores.filter fun c => match (s.core c).launch with
        | some l => s.objAdmits l.ctx o
        | none => false).map fun c => (⟨(3, o), (2, c), 2, none⟩ : WEdge))

/-- NEEDS_CORE. -/
def State.coreEdges (s : State) : List WEdge :=
  s.liveQueues.flatMap fun q =>
    match (s.queue q).fetched with
    | [] => []
    | f :: _ =>
      if kindOf f.words = 1 ∧ f.status = 0 then
        ((launchCores f.words).filter fun c => !s.coreFree c).map fun c =>
          (⟨(1, q), (2, c), 3, (s.queue q).refusedAt.map s.tbOf⟩ : WEdge)
      else []

/-- PARKED_ON. -/
def State.parkEdges (s : State) : List WEdge :=
  s.faults.flatMap fun f => f.queues.map fun q => (⟨(1, q), (7, f.slot), 4, some f.time⟩ : WEdge)

/-- The queue or the cores that hold a descriptor: the cores of a launch that has begun and not ended on them, or else the
queue. -/
def State.descHolders (s : State) (q i : Nat) : List (Nat × Nat) :=
  match s.flight q i with
  | some f =>
    if f.kind = 1 ∧ f.begun then
      ((launchCores f.words).filter fun c => !f.ends.any fun e => e.core == c).map fun c => (2, c)
    else [(1, q)]
  | none => [(1, q)]

/-- HELD_BY. -/
def State.heldEdges (s : State) : List WEdge :=
  (s.invals.flatMap fun x =>
    ((x.marked.filter s.stillHeld).flatMap fun e => s.descHolders e.1 e.2.1).eraseDups.map fun d =>
      (⟨(6, x.k), d, 5, none⟩ : WEdge)) ++
  (s.migs.filterMap fun m =>
    if m.phase = 1 then m.inval.map fun k => (⟨(5, m.obj), (6, k), 5, none⟩ : WEdge) else none) ++
  (s.liveQueues.flatMap fun q =>
    if s.gated q then
      (s.migs.filter fun m => m.gate.isSome && (match m.rill with
        | some (n, _) => s.rd TIER_RILL_CFG.QUEUE n == q
        | none => false)).map fun m => (⟨(1, q), (5, m.obj), 5, ((s.queue q).gates.map Prod.snd).min?.map s.tbOf⟩ : WEdge)
    else [])

/-- REMOTE. -/
def State.remoteEdges (s : State) : List WEdge :=
  s.buckets.zipIdx.flatMap fun b => (s.ceOwing b.1).map fun d => (⟨(4, b.2), (8, d), 6, some (s.tbOf b.1.start)⟩ : WEdge)

/-- The edges between nodes of a list, as node indices, REL and since. -/
def State.graphEdges (s : State) (ns : List WNode) : List (Nat × Nat × Nat × Option Nat) :=
  let idx := fun (k : Nat × Nat) => ns.findIdx? fun n => n.kind == k.1 && n.key == k.2
  (s.waitEdges ++ s.signalEdges ++ s.coreEdges ++ s.parkEdges ++ s.heldEdges ++ s.remoteEdges).filterMap fun e =>
    match idx e.src, idx e.dst with
    | some i, some j => some (i, j, e.rel, e.since)
    | _, _ => none

/-! ### Cycles -/

/-- The nodes that some nodes reach in so many more steps, themselves among them. -/
def reachIn (es : List (Nat × Nat)) : Nat → List Nat → List Nat
  | 0, l => l
  | n + 1, l => reachIn es n (l ++ (es.filter fun e => l.contains e.1).map Prod.snd).eraseDups

/-- Whether a node reaches another by at least one edge. -/
def reaches (es : List (Nat × Nat)) (n i j : Nat) : Bool :=
  (reachIn es n ((es.filter fun e => e.1 == i).map Prod.snd)).contains j

/-- The nodes of n that lie on a cycle. -/
def cycleNodes (es : List (Nat × Nat)) (n : Nat) : List Nat := (List.range n).filter fun i => reaches es n i i

/-- How many cycles there are, those that share a node counted as one. -/
def cycleCount (es : List (Nat × Nat)) (n : Nat) : Nat :=
  let l := cycleNodes es n
  (l.filter fun i => !l.any fun j => decide (j < i) && reaches es n i j && reaches es n j i).length

/-! ### WAIT_GRAPH and STATE_COLLECT -/

/-- A graph as it is written: nodes and edges of 16 B, as many as fit, after a header (R502). The tick since which a node has
waited is free where the device does not hold it (log entry 52). -/
def State.graphWords (s : State) (ctx cap first last free : Nat) : List Word × Nat :=
  let ns := s.graphNodes ctx
  let es := s.graphEdges ns
  let pairs := es.map fun e => (e.1, e.2.1)
  let cyc := cycleNodes pairs ns.length
  let room := (cap - 64) / 16
  let nodes := (ns.zipIdx.map fun n =>
    [packWord [(0, n.1.kind), (4, n.1.id % 2 ^ 24), (28, n.1.ctx), (40, n.1.state % 256), (48, bit (cyc.contains n.2))],
     w64 first]).take room
  let edges := (es.zipIdx.map fun e =>
    [packWord [(0, e.1.1), (24, e.1.2.1), (48, e.1.2.2.1)],
     match e.1.2.2.2 with
     | some t => w64 t
     | none => Config.freeWord (free + e.2)]).take (room - nodes.length)
  let cut := decide (room < ns.length + es.length)
  ([packWord [(0, 0x5747), (16, bit cut)], packWord [(0, nodes.length), (32, edges.length)], w64 first, w64 last, 0, 0, 0, 0]
    ++ (nodes ++ edges).flatten, cycleCount pairs ns.length)

/-- WAIT_GRAPH (R502): firmware of any mailbox samples from tick t to tick t2 and writes the graph. -/
def execWaitGraph (t m t2 : Nat) (s : State) : Res :=
  s.live t fun s =>
    if s.fwHolds m 0x300 then
      let (w, s) := s.takeReq m 3
      let pa := (w.getD 0 0).toNat
      let cap := (w.getD 1 0).toNat
      if !s.fwMay (s.mbOwner m) pa cap then s.fwAnswer m 4 []
      else
        let first := s.tb
        let last := (s.advance t2).tb
        let (g, n) := s.graphWords (w.getD 2 0).toNat cap first last s.freeIdx
        let s := { s.advance t2 with freeIdx := s.freeIdx + g.length }
        let b := if cap < 64 then [] else wordBytes g
        (s.engWrite pa b).fwAnswer m 1 [w64 b.length, w64 n]
    else s

/-- The record of a context that STATE_COLLECT writes (R497–R499), with CAUSE COLLECT; its header alone where the rest does
not fit (log entry 52). -/
def State.collectWords (s : State) (ctx owner cap : Nat) : List Word :=
  let seq := s.rstSeq
  let x := s.rstItems ctx seq fun q => s.rd QE_Q_STATUS.STATE q
  let es := x.entries seq
  if 1024 * (es.length + 1) ≤ cap then (x.header ctx 2 s.tb s.tb owner seq (es.length + 1) false :: es).flatten
  else x.header ctx 2 s.tb s.tb owner seq 1 true

/-- STATE_COLLECT (R503): firmware writes a record of a context and changes no state. -/
def execStateCollect (t m : Nat) (s : State) : Res :=
  s.live t fun s =>
    if s.fwHolds m 0x301 then
      let (w, s) := s.takeReq m 3
      let pa := (w.getD 0 0).toNat
      let cap := (w.getD 1 0).toNat
      let ctx := (w.getD 2 0).toNat
      let owner := s.mbOwner m
      if cap < 1024 ∨ 4096 ≤ ctx then s.fwAnswer m 3 []
      else if !s.fwMay owner pa cap then s.fwAnswer m 4 []
      else
        let b := wordBytes (s.collectWords ctx owner cap)
        (s.engWrite pa b).fwAnswer m 1 [w64 b.length]
    else s

end Sys2Proof.Machine
end

