-- ==== Sys2Proof/Machine/Dispatch.lean ====
section
/-! DEFINITION. The meaning of every command of the table, one arm per constructor. -/

namespace Sys2Proof.Machine

def exec (i : Instr) (s : State) : Host.Outcome State Fault Refusal :=
  match i with
  | .packageReset t src => Sys2Proof.Machine.execPackageReset t src s
  | .boot t env => Sys2Proof.Machine.execBoot t env s
  | .hbmTrainingTimeout t stack => Sys2Proof.Machine.execHbmTrainingTimeout t stack s
  | .bringupTimeout t => Sys2Proof.Machine.execBringupTimeout t s
  | .sysProtLock t agent v => Sys2Proof.Machine.execSysProtLock t agent v s
  | .bootRelease t agent v => Sys2Proof.Machine.execBootRelease t agent v s
  | .registerWrite t agent reg v => Sys2Proof.Machine.execRegisterWrite t agent reg v s
  | .pllLockLoss t plls => Sys2Proof.Machine.execPllLockLoss t plls s
  | .mclkRelock t stack locked => Sys2Proof.Machine.execMclkRelock t stack locked s
  | .d2dParityError t port => Sys2Proof.Machine.execD2dParityError t port s
  | .d2dResentTransfer t port agent pa into failed => Sys2Proof.Machine.execD2dResentTransfer t port agent pa into failed s
  | .sysTbCfgWrite t agent v => Sys2Proof.Machine.execSysTbCfgWrite t agent v s
  | .timingExchange t => Sys2Proof.Machine.execTimingExchange t s
  | .holdoverEntry t => Sys2Proof.Machine.execHoldoverEntry t s
  | .sitePowerWindow t site mean => Sys2Proof.Machine.execSitePowerWindow t site mean s
  | .siteSupplyCut t site => Sys2Proof.Machine.execSiteSupplyCut t site s
  | .siteDown t site cause => Sys2Proof.Machine.execSiteDown t site cause s
  | .txnBegin t agent => Sys2Proof.Machine.execTxnBegin t agent s
  | .txnCommit t agent v => Sys2Proof.Machine.execTxnCommit t agent v s
  | .txnRollback t agent v => Sys2Proof.Machine.execTxnRollback t agent v s
  | .txnAbort t agent v => Sys2Proof.Machine.execTxnAbort t agent v s
  | .txnApply t => Sys2Proof.Machine.execTxnApply t s
  | .leaseExpiry t => Sys2Proof.Machine.execLeaseExpiry t s
  | .ringEnable t agent ring v => Sys2Proof.Machine.execRingEnable t agent ring v s
  | .hostCoreLoad t core pa size tag kind found => Sys2Proof.Machine.execHostCoreLoad t core pa size tag kind found s
  | .hostCoreStore t core pa size tag kind data => Sys2Proof.Machine.execHostCoreStore t core pa size tag kind data s
  | .storeAck t core k ack found => Sys2Proof.Machine.execStoreAck t core k ack found s
  | .hostAtomic t core pa size tag op a b found => Sys2Proof.Machine.execHostAtomic t core pa size tag op a b found s
  | .loadReserved t core pa size tag found => Sys2Proof.Machine.execLoadReserved t core pa size tag found s
  | .storeConditional t core pa size tag data broken => Sys2Proof.Machine.execStoreConditional t core pa size tag data broken s
  | .acquire t core => Sys2Proof.Machine.execAcquire t core s
  | .release t core => Sys2Proof.Machine.execRelease t core s
  | .full t core => Sys2Proof.Machine.execFull t core s
  | .device t core => Sys2Proof.Machine.execDevice t core s
  | .rc t core => Sys2Proof.Machine.execRc t core s
  | .tlbInvalidation t core tag => Sys2Proof.Machine.execTlbInvalidation t core tag s
  | .hcDevsynRead t core returned => Sys2Proof.Machine.execHcDevsynRead t core returned s
  | .hcStrictWrite t core returned v => Sys2Proof.Machine.execHcStrictWrite t core returned v s
  | .hcL2lockWrite t core v => Sys2Proof.Machine.execHcL2lockWrite t core v s
  | .l2Eviction t core line parityOk => Sys2Proof.Machine.execL2Eviction t core line parityOk s
  | .notice t core line => Sys2Proof.Machine.execNotice t core line s
  | .writeBack t core line => Sys2Proof.Machine.execWriteBack t core line s
  | .readShared t core line found => Sys2Proof.Machine.execReadShared t core line found s
  | .readForOwnership t core line found => Sys2Proof.Machine.execReadForOwnership t core line found s
  | .conditionalReadForOwnership t core line found => Sys2Proof.Machine.execConditionalReadForOwnership t core line found s
  | .coherentRead t agent line found => Sys2Proof.Machine.execCoherentRead t agent line found s
  | .nonCachingWrite t agent line mask data found => Sys2Proof.Machine.execNonCachingWrite t agent line mask data found s
  | .invalidation t cluster => Sys2Proof.Machine.execInvalidation t cluster s
  | .dirProbe t agent v => Sys2Proof.Machine.execDirProbe t agent v s
  | .launch t q k found => Sys2Proof.Machine.execLaunch t q k found s
  | .launchDispatch t q k => Sys2Proof.Machine.execLaunchDispatch t q k s
  | .programLoadDone t core found => Sys2Proof.Machine.execProgramLoadDone t core found s
  | .launchComplete t q k => Sys2Proof.Machine.execLaunchComplete t q k s
  | .sibling t core => Sys2Proof.Machine.execSibling t core s
  | .watchdog t core => Sys2Proof.Machine.execWatchdog t core s
  | .nop t core body => Sys2Proof.Machine.execNop t core body s
  | .end_ t core body => Sys2Proof.Machine.execEnd t core body s
  | .mpass t core body => Sys2Proof.Machine.execMpass t core body s
  | .mdrain t core body => Sys2Proof.Machine.execMdrain t core body s
  | .fillDone t core conflicts parityOk spBad => Sys2Proof.Machine.execFillDone t core conflicts parityOk spBad s
  | .streamEnd t core stalls gated conflicts parityOk spBad => Sys2Proof.Machine.execStreamEnd t core stalls gated conflicts parityOk spBad s
  | .recirculationEnd t core cycles => Sys2Proof.Machine.execRecirculationEnd t core cycles s
  | .drainDone t core conflicts parityOk => Sys2Proof.Machine.execDrainDone t core conflicts parityOk s
  | .vop t core body parityOk => Sys2Proof.Machine.execVop t core body parityOk s
  | .vld t core body spBad => Sys2Proof.Machine.execVld t core body spBad s
  | .vst t core body => Sys2Proof.Machine.execVst t core body s
  | .smove t core body spBad => Sys2Proof.Machine.execSmove t core body spBad s
  | .tcopy t core body spBad => Sys2Proof.Machine.execTcopy t core body spBad s
  | .tcopyComplete t core k conflicts only found => Sys2Proof.Machine.execTcopyComplete t core k conflicts only found s
  | .copyFault t core k cause row va => Sys2Proof.Machine.execCopyFault t core k cause row va s
  | .ccwait t core body => Sys2Proof.Machine.execCcwait t core body s
  | .ccset t core body => Sys2Proof.Machine.execCcset t core body s
  | .ssig t core body => Sys2Proof.Machine.execSsig t core body s
  | .swait t core body => Sys2Proof.Machine.execSwait t core body s
  | .fence t core body => Sys2Proof.Machine.execFence t core body s
  | .tag t core body => Sys2Proof.Machine.execTag t core body s
  | .hint t core body => Sys2Proof.Machine.execHint t core body s
  | .aop t core body => Sys2Proof.Machine.execAop t core body s
  | .aopi t core body => Sys2Proof.Machine.execAopi t core body s
  | .ali t core body => Sys2Proof.Machine.execAli t core body s
  | .ard t core body => Sys2Proof.Machine.execArd t core body s
  | .br t core body => Sys2Proof.Machine.execBr t core body s
  | .brc t core body => Sys2Proof.Machine.execBrc t core body s
  | .loop t core body => Sys2Proof.Machine.execLoop t core body s
  | .queueEnable t agent q v => Sys2Proof.Machine.execQueueEnable t agent q v s
  | .queueDisable t agent q v => Sys2Proof.Machine.execQueueDisable t agent q v s
  | .tailWrite t agent q v => Sys2Proof.Machine.execTailWrite t agent q v s
  | .resume t agent q => Sys2Proof.Machine.execResume t agent q s
  | .abandon t agent q => Sys2Proof.Machine.execAbandon t agent q s
  | .slotRead t q k found => Sys2Proof.Machine.execSlotRead t q k found s
  | .slotReread t q k found => Sys2Proof.Machine.execSlotReread t q k found s
  | .sluiceChoice t => Sys2Proof.Machine.execSluiceChoice t s
  | .walk t q found => Sys2Proof.Machine.execWalk t q found s
  | .walkAhead t q va found => Sys2Proof.Machine.execWalkAhead t q va found s
  | .copy t q k found => Sys2Proof.Machine.execCopy t q k found s
  | .inlineWrite t q k found => Sys2Proof.Machine.execInlineWrite t q k found s
  | .signal t q k => Sys2Proof.Machine.execSignal t q k s
  | .wait t q k => Sys2Proof.Machine.execWait t q k s
  | .collective t q k found => Sys2Proof.Machine.execCollective t q k found s
  | .migrate t q k => Sys2Proof.Machine.execMigrate t q k s
  | .hintCommand t q k => Sys2Proof.Machine.execHintCommand t q k s
  | .fenceCommand t q k => Sys2Proof.Machine.execFenceCommand t q k s
  | .commandComplete t q k => Sys2Proof.Machine.execCommandComplete t q k s
  | .trCtxWrite t agent ctx v => Sys2Proof.Machine.execTrCtxWrite t agent ctx v s
  | .trInvalAst t agent v => Sys2Proof.Machine.execTrInvalAst t agent v s
  | .invalidationComplete t k => Sys2Proof.Machine.execInvalidationComplete t k s
  | .continuationRecord t slot => Sys2Proof.Machine.execContinuationRecord t slot s
  | .trFaultResolve t agent v => Sys2Proof.Machine.execTrFaultResolve t agent v s
  | .syAdd t agent obj v => Sys2Proof.Machine.execSyAdd t agent obj v s
  | .sySet t agent obj v => Sys2Proof.Machine.execSySet t agent obj v s
  | .advance t => Sys2Proof.Machine.execAdvance t s
  | .syTrigCfg t agent obj v => Sys2Proof.Machine.execSyTrigCfg t agent obj v s
  | .syEventRead t agent core => Sys2Proof.Machine.execSyEventRead t agent core s
  | .waitTimeout t w => Sys2Proof.Machine.execWaitTimeout t w s
  | .mbLock t agent m => Sys2Proof.Machine.execMbLock t agent m s
  | .mbRelease t agent m v => Sys2Proof.Machine.execMbRelease t agent m v s
  | .mbReqWrite t agent m v => Sys2Proof.Machine.execMbReqWrite t agent m v s
  | .mbReqRead t agent m => Sys2Proof.Machine.execMbReqRead t agent m s
  | .mbRspWrite t agent m v => Sys2Proof.Machine.execMbRspWrite t agent m v s
  | .mbRspRead t agent m => Sys2Proof.Machine.execMbRspRead t agent m s
  | .mbSend t agent m v => Sys2Proof.Machine.execMbSend t agent m v s
  | .mbAck t agent m v => Sys2Proof.Machine.execMbAck t agent m v s
  | .mailboxTimeout t m => Sys2Proof.Machine.execMailboxTimeout t m s
  | .attest t m => Sys2Proof.Machine.execAttest t m s
  | .getCerts t m => Sys2Proof.Machine.execGetCerts t m s
  | .imageWrite t m readBackOk found => Sys2Proof.Machine.execImageWrite t m readBackOk found s
  | .setNext t m => Sys2Proof.Machine.execSetNext t m s
  | .rollbackCommit t m => Sys2Proof.Machine.execRollbackCommit t m s
  | .throttleLog t m => Sys2Proof.Machine.execThrottleLog t m s
  | .waitGraph t m t2 => Sys2Proof.Machine.execWaitGraph t m t2 s
  | .stateCollect t m => Sys2Proof.Machine.execStateCollect t m s
  | .iadd32 t agent r => Sys2Proof.Machine.execIadd32 t agent r s
  | .iadd64 t agent r => Sys2Proof.Machine.execIadd64 t agent r s
  | .smin32 t agent r => Sys2Proof.Machine.execSmin32 t agent r s
  | .smin64 t agent r => Sys2Proof.Machine.execSmin64 t agent r s
  | .smax32 t agent r => Sys2Proof.Machine.execSmax32 t agent r s
  | .smax64 t agent r => Sys2Proof.Machine.execSmax64 t agent r s
  | .umin32 t agent r => Sys2Proof.Machine.execUmin32 t agent r s
  | .umin64 t agent r => Sys2Proof.Machine.execUmin64 t agent r s
  | .umax32 t agent r => Sys2Proof.Machine.execUmax32 t agent r s
  | .umax64 t agent r => Sys2Proof.Machine.execUmax64 t agent r s
  | .fadd32 t agent r => Sys2Proof.Machine.execFadd32 t agent r s
  | .faddbf16 t agent r => Sys2Proof.Machine.execFaddbf16 t agent r s
  | .fadd16 t agent r => Sys2Proof.Machine.execFadd16 t agent r s
  | .eaFp32 t agent r => Sys2Proof.Machine.execEaFp32 t agent r s
  | .eaBf16 t agent r => Sys2Proof.Machine.execEaBf16 t agent r s
  | .eaFp16 t agent r => Sys2Proof.Machine.execEaFp16 t agent r s
  | .settleFp32 t agent r => Sys2Proof.Machine.execSettleFp32 t agent r s
  | .settleBf16 t agent r => Sys2Proof.Machine.execSettleBf16 t agent r s
  | .cas32 t agent r => Sys2Proof.Machine.execCas32 t agent r s
  | .cas64 t agent r => Sys2Proof.Machine.execCas64 t agent r s
  | .swap32 t agent r => Sys2Proof.Machine.execSwap32 t agent r s
  | .swap64 t agent r => Sys2Proof.Machine.execSwap64 t agent r s
  | .lineStoreWriteback t line => Sys2Proof.Machine.execLineStoreWriteback t line s
  | .scrub t line ecc => Sys2Proof.Machine.execScrub t line ecc s
  | .retrain t ch cause agent => Sys2Proof.Machine.execRetrain t ch cause agent s
  | .retrainDone t ch => Sys2Proof.Machine.execRetrainDone t ch s
  | .retrainFail t ch => Sys2Proof.Machine.execRetrainFail t ch s
  | .retrainRetry t ch => Sys2Proof.Machine.execRetrainRetry t ch s
  | .retire t ch cause agent => Sys2Proof.Machine.execRetire t ch cause agent s
  | .granuleMove t answers ecc => Sys2Proof.Machine.execGranuleMove t answers ecc s
  | .cxlLinkRecovery t port => Sys2Proof.Machine.execCxlLinkRecovery t port s
  | .cxlPortDown t port => Sys2Proof.Machine.execCxlPortDown t port s
  | .tierObjCfg t agent n v => Sys2Proof.Machine.execTierObjCfg t agent n v s
  | .migrationCheck t n found => Sys2Proof.Machine.execMigrationCheck t n found s
  | .migrationDrain t n => Sys2Proof.Machine.execMigrationDrain t n s
  | .migrationCopy t n only found => Sys2Proof.Machine.execMigrationCopy t n only found s
  | .rillEnable t agent n v => Sys2Proof.Machine.execRillEnable t agent n v s
  | .rillEvaluation t q found => Sys2Proof.Machine.execRillEvaluation t q found s
  | .ceEpochCfg t agent n v => Sys2Proof.Machine.execCeEpochCfg t agent n v s
  | .epochCheckDone t n found => Sys2Proof.Machine.execEpochCheckDone t n found s
  | .bucketComplete t q k found => Sys2Proof.Machine.execBucketComplete t q k found s
  | .bucketTimeout t q k => Sys2Proof.Machine.execBucketTimeout t q k s
  | .collResend t h => Sys2Proof.Machine.execCollResend t h s
  | .doneMessage t port found => Sys2Proof.Machine.execDoneMessage t port found s
  | .flitSend t link => Sys2Proof.Machine.execFlitSend t link s
  | .flitReceive t link words fecCorr fecBad => Sys2Proof.Machine.execFlitReceive t link words fecCorr fecBad s
  | .replayTimeout t link => Sys2Proof.Machine.execReplayTimeout t link s
  | .tokenEarn t link => Sys2Proof.Machine.execTokenEarn t link s
  | .write t port found => Sys2Proof.Machine.execWrite t port found s
  | .writeMasked t port found => Sys2Proof.Machine.execWriteMasked t port found s
  | .read t port found => Sys2Proof.Machine.execRead t port found s
  | .mop t port found => Sys2Proof.Machine.execMop t port found s
  | .coll t port found => Sys2Proof.Machine.execColl t port found s
  | .time t port => Sys2Proof.Machine.execTime t port s
  | .ack t port => Sys2Proof.Machine.execAck t port s
  | .data t port => Sys2Proof.Machine.execData t port s
  | .mopRsp t port => Sys2Proof.Machine.execMopRsp t port s
  | .refuse t port => Sys2Proof.Machine.execRefuse t port s
  | .linkEnable t agent link v => Sys2Proof.Machine.execLinkEnable t agent link v s
  | .trainingDone t link peer resume lastSeq => Sys2Proof.Machine.execTrainingDone t link peer resume lastSeq s
  | .trainingTimeout t link => Sys2Proof.Machine.execTrainingTimeout t link s
  | .linkRetrain t link cause agent => Sys2Proof.Machine.execLinkRetrain t link cause agent s
  | .retrainTimeout t link => Sys2Proof.Machine.execRetrainTimeout t link s
  | .autoTrain t link => Sys2Proof.Machine.execAutoTrain t link s
  | .train t agent link => Sys2Proof.Machine.execTrain t agent link s
  | .peerTimeout t tag => Sys2Proof.Machine.execPeerTimeout t tag s
  | .windowValid t agent w v => Sys2Proof.Machine.execWindowValid t agent w v s
  | .linkRejoin t w link => Sys2Proof.Machine.execLinkRejoin t w link s
  | .fabricPacket t port bytes found => Sys2Proof.Machine.execFabricPacket t port bytes found s
  | .rtoResend t peer cls => Sys2Proof.Machine.execRtoResend t peer cls s
  | .epeerDown t peer => Sys2Proof.Machine.execEpeerDown t peer s
  | .epeerValid t agent peer v => Sys2Proof.Machine.execEpeerValid t agent peer v s
  | .managementFrame t port bytes found => Sys2Proof.Machine.execManagementFrame t port bytes found s
  | .mtxTail t agent port v found => Sys2Proof.Machine.execMtxTail t agent port v found s
  | .powerSample t x => Sys2Proof.Machine.execPowerSample t x s
  | .dutyRamp t die => Sys2Proof.Machine.execDutyRamp t die s
  | .hclkStep t cluster up => Sys2Proof.Machine.execHclkStep t cluster up s
  | .reservationGrant t k => Sys2Proof.Machine.execReservationGrant t k s
  | .reservationEnd t k => Sys2Proof.Machine.execReservationEnd t k s
  | .starve t q => Sys2Proof.Machine.execStarve t q s
  | .throttleCont t => Sys2Proof.Machine.execThrottleCont t s
  | .thermalSample t temps => Sys2Proof.Machine.execThermalSample t temps s
  | .saveStart t cause => Sys2Proof.Machine.execSaveStart t cause s
  | .saveDrainEnd t => Sys2Proof.Machine.execSaveDrainEnd t s
  | .saveComplete t => Sys2Proof.Machine.execSaveComplete t s
  | .holdVinLoss t => Sys2Proof.Machine.execHoldVinLoss t s
  | .dbgCtxrst t agent v => Sys2Proof.Machine.execDbgCtxrst t agent v s
  | .contextReset t => Sys2Proof.Machine.execContextReset t s
  | .tcFence t agent n v => Sys2Proof.Machine.execTcFence t agent n v s
  | .hcFence t agent n v => Sys2Proof.Machine.execHcFence t agent n v s
  | .hostDieReset t agent v => Sys2Proof.Machine.execHostDieReset t agent v s
  | .cofferdam t die software agent => Sys2Proof.Machine.execCofferdam t die software agent s
  | .dieResetting t die => Sys2Proof.Machine.execDieResetting t die s
  | .dieResetDone t die locked => Sys2Proof.Machine.execDieResetDone t die locked s
  | .readmit t agent die => Sys2Proof.Machine.execReadmit t agent die s
  | .hubControlError t hub => Sys2Proof.Machine.execHubControlError t hub s
  | .traceEvent t => Sys2Proof.Machine.execTraceEvent t s
  | .traceBudgetWindow t => Sys2Proof.Machine.execTraceBudgetWindow t s
  | .trcMark t agent v => Sys2Proof.Machine.execTrcMark t agent v s
  | .counterSample t => Sys2Proof.Machine.execCounterSample t s
  | .dbgSpDataRead t agent spBad => Sys2Proof.Machine.execDbgSpDataRead t agent spBad s
  | .dbgHcHalt t agent n v => Sys2Proof.Machine.execDbgHcHalt t agent n v s
  | .jtagDebugAccess t isWrite target v found => Sys2Proof.Machine.execJtagDebugAccess t isWrite target v found s
  | .i3cWrite t index => Sys2Proof.Machine.execI3cWrite t index s
  | .i3cRead t => Sys2Proof.Machine.execI3cRead t s
  | .testMode t high => Sys2Proof.Machine.execTestMode t high s
  | .customerDieRequest t site a cls pa size isWrite data found => Sys2Proof.Machine.execCustomerDieRequest t site a cls pa size isWrite data found s
  | .cxlLinkRecovered t port => Sys2Proof.Machine.execCxlLinkRecovered t port s
  | .ethLinkUp t port up => Sys2Proof.Machine.execEthLinkUp t port up s
  | .holdOkChange t mv => Sys2Proof.Machine.execHoldOkChange t mv s
  | .i3cDynamicAddress t addr => Sys2Proof.Machine.execI3cDynamicAddress t addr s
  | .cxlError t port status => Sys2Proof.Machine.execCxlError t port status s

end Sys2Proof.Machine
end

