-- ==== Sys2Proof/Safety.lean ====
section
/-! DEFINITION. What counts as a safe state and a safe run of the block, in the terms that claims use. -/

namespace Sys2Proof

/-! ### Kinds of commands, for statements -/

/-- Whether some path of a command stores to HBM, the far tier or the keep store, marks a line as poison, or is a package
reset, which loses them. -/
def Instr.mayStore : Instr → Bool
  | .packageReset _ _ | .boot _ _ | .bringupTimeout _ | .sysProtLock _ _ _ | .registerWrite _ _ _ _
  | .pllLockLoss _ _ | .mclkRelock _ _ _ | .d2dResentTransfer _ _ _ _ _ _ | .sitePowerWindow _ _ _
  | .siteSupplyCut _ _ | .siteDown _ _ _ | .txnApply _ | .hostCoreLoad _ _ _ _ _ _ _ | .storeAck _ _ _ _ _
  | .hostAtomic _ _ _ _ _ _ _ _ _ | .loadReserved _ _ _ _ _ _ | .l2Eviction _ _ _ _ | .notice _ _ _
  | .writeBack _ _ _ | .readShared _ _ _ _ | .readForOwnership _ _ _ _ | .conditionalReadForOwnership _ _ _ _
  | .coherentRead _ _ _ _ | .nonCachingWrite _ _ _ _ _ _ | .launch _ _ _ _ | .programLoadDone _ _ _
  | .fillDone _ _ _ _ _ | .streamEnd _ _ _ _ _ _ _ | .drainDone _ _ _ _ | .vop _ _ _ _ | .vld _ _ _ _ | .smove _ _ _ _
  | .tcopy _ _ _ _ | .tcopyComplete _ _ _ _ _ _ | .tailWrite _ _ _ _ | .resume _ _ _ | .abandon _ _ _
  | .slotRead _ _ _ _ | .slotReread _ _ _ _ | .sluiceChoice _ | .walk _ _ _ | .walkAhead _ _ _ _ | .copy _ _ _ _
  | .inlineWrite _ _ _ _ | .collective _ _ _ _ | .commandComplete _ _ _ | .continuationRecord _ _
  | .trFaultResolve _ _ _ | .advance _ | .waitTimeout _ _ | .attest _ _ | .getCerts _ _ | .imageWrite _ _ _ _
  | .setNext _ _ | .throttleLog _ _ | .waitGraph _ _ _ | .stateCollect _ _ | .iadd32 _ _ _ | .iadd64 _ _ _
  | .smin32 _ _ _ | .smin64 _ _ _ | .smax32 _ _ _ | .smax64 _ _ _ | .umin32 _ _ _ | .umin64 _ _ _ | .umax32 _ _ _
  | .umax64 _ _ _ | .fadd32 _ _ _ | .faddbf16 _ _ _ | .fadd16 _ _ _ | .eaFp32 _ _ _ | .eaBf16 _ _ _ | .eaFp16 _ _ _
  | .settleFp32 _ _ _ | .settleBf16 _ _ _ | .cas32 _ _ _ | .cas64 _ _ _ | .swap32 _ _ _ | .swap64 _ _ _
  | .scrub _ _ _ | .retrain _ _ _ _ | .retrainDone _ _ | .retrainFail _ _ | .retrainRetry _ _ | .retire _ _ _ _
  | .granuleMove _ _ _ | .cxlPortDown _ _ | .migrationCheck _ _ _ | .migrationCopy _ _ _ _ | .rillEvaluation _ _ _
  | .epochCheckDone _ _ _ | .bucketComplete _ _ _ _ | .doneMessage _ _ _ | .write _ _ _ | .writeMasked _ _ _
  | .read _ _ _ | .mop _ _ _ | .coll _ _ _ | .ack _ _ | .data _ _ | .mopRsp _ _ | .refuse _ _ | .linkEnable _ _ _ _
  | .trainingDone _ _ _ _ _ | .trainingTimeout _ _ | .retrainTimeout _ _ | .peerTimeout _ _ | .fabricPacket _ _ _ _
  | .epeerDown _ _ | .managementFrame _ _ _ _ | .mtxTail _ _ _ _ _ | .powerSample _ _ | .reservationGrant _ _
  | .reservationEnd _ _ | .throttleCont _ | .thermalSample _ _ | .saveDrainEnd _ | .saveComplete _ | .holdVinLoss _
  | .contextReset _ | .tcFence _ _ _ _ | .hcFence _ _ _ _ | .hostDieReset _ _ _ | .cofferdam _ _ _ _
  | .dieResetting _ _ | .dieResetDone _ _ _ | .readmit _ _ _ | .hubControlError _ _ | .traceEvent _
  | .dbgSpDataRead _ _ _ | .jtagDebugAccess _ _ _ _ _ | .testMode _ _ | .customerDieRequest _ _ _ _ _ _ _ _ _
  | .cxlLinkRecovered _ _ | .ethLinkUp _ _ _ | .cxlError _ _ _ => true
  | .hbmTrainingTimeout _ _ | .bootRelease _ _ _ | .d2dParityError _ _ | .sysTbCfgWrite _ _ _ | .timingExchange _
  | .holdoverEntry _ | .txnBegin _ _ | .txnCommit _ _ _ | .txnRollback _ _ _ | .txnAbort _ _ _ | .leaseExpiry _
  | .ringEnable _ _ _ _ | .hostCoreStore _ _ _ _ _ _ _ | .storeConditional _ _ _ _ _ _ _ | .acquire _ _
  | .release _ _ | .full _ _ | .device _ _ | .rc _ _ | .tlbInvalidation _ _ _ | .hcDevsynRead _ _ _
  | .hcStrictWrite _ _ _ _ | .hcL2lockWrite _ _ _ | .invalidation _ _ | .dirProbe _ _ _ | .launchDispatch _ _ _
  | .launchComplete _ _ _ | .sibling _ _ | .watchdog _ _ | .nop _ _ _ | .end_ _ _ _ | .mpass _ _ _ | .mdrain _ _ _
  | .recirculationEnd _ _ _ | .vst _ _ _ | .copyFault _ _ _ _ _ _ | .ccwait _ _ _ | .ccset _ _ _ | .ssig _ _ _
  | .swait _ _ _ | .fence _ _ _ | .tag _ _ _ | .hint _ _ _ | .aop _ _ _ | .aopi _ _ _ | .ali _ _ _ | .ard _ _ _
  | .br _ _ _ | .brc _ _ _ | .loop _ _ _ | .queueEnable _ _ _ _ | .queueDisable _ _ _ _ | .signal _ _ _ | .wait _ _ _
  | .migrate _ _ _ | .hintCommand _ _ _ | .fenceCommand _ _ _ | .trCtxWrite _ _ _ _ | .trInvalAst _ _ _
  | .invalidationComplete _ _ | .syAdd _ _ _ _ | .sySet _ _ _ _ | .syTrigCfg _ _ _ _ | .syEventRead _ _ _
  | .mbLock _ _ _ | .mbRelease _ _ _ _ | .mbReqWrite _ _ _ _ | .mbReqRead _ _ _ | .mbRspWrite _ _ _ _
  | .mbRspRead _ _ _ | .mbSend _ _ _ _ | .mbAck _ _ _ _ | .mailboxTimeout _ _ | .rollbackCommit _ _
  | .lineStoreWriteback _ _ | .cxlLinkRecovery _ _ | .tierObjCfg _ _ _ _ | .migrationDrain _ _ | .rillEnable _ _ _ _
  | .ceEpochCfg _ _ _ _ | .bucketTimeout _ _ _ | .collResend _ _ | .flitSend _ _ | .flitReceive _ _ _ _ _
  | .replayTimeout _ _ | .tokenEarn _ _ | .time _ _ | .linkRetrain _ _ _ _ | .autoTrain _ _ | .train _ _ _
  | .windowValid _ _ _ _ | .linkRejoin _ _ _ | .rtoResend _ _ _ | .epeerValid _ _ _ _ | .dutyRamp _ _
  | .hclkStep _ _ _ | .starve _ _ | .saveStart _ _ | .dbgCtxrst _ _ _ | .traceBudgetWindow _ | .trcMark _ _ _
  | .counterSample _ | .dbgHcHalt _ _ _ _ | .i3cWrite _ _ | .i3cRead _ | .holdOkChange _ _ | .i3cDynamicAddress _ _ => false

/-- Whether a command has an effect while the device is held in reset or once a save has passed its drain: those of
reset, of the save, of the supplies, of the I3C port and of TEST_MODE (R478, R481, R484, R531; log entry 41). -/
def Instr.runsHeld : Instr → Bool
  | .packageReset _ _ | .pllLockLoss _ _ | .powerSample _ _ | .thermalSample _ _ | .holdVinLoss _ | .holdOkChange _ _
  | .saveStart _ _ | .saveDrainEnd _ | .saveComplete _ | .i3cWrite _ _ | .i3cRead _ | .i3cDynamicAddress _ _
  | .testMode _ _ => true
  | .boot _ _ | .hbmTrainingTimeout _ _ | .bringupTimeout _ | .sysProtLock _ _ _ | .bootRelease _ _ _
  | .registerWrite _ _ _ _ | .mclkRelock _ _ _ | .d2dParityError _ _ | .d2dResentTransfer _ _ _ _ _ _
  | .sysTbCfgWrite _ _ _ | .timingExchange _ | .holdoverEntry _ | .sitePowerWindow _ _ _ | .siteSupplyCut _ _
  | .siteDown _ _ _ | .txnBegin _ _ | .txnCommit _ _ _ | .txnRollback _ _ _ | .txnAbort _ _ _ | .txnApply _
  | .leaseExpiry _ | .ringEnable _ _ _ _ | .hostCoreLoad _ _ _ _ _ _ _ | .hostCoreStore _ _ _ _ _ _ _ | .storeAck _ _ _ _ _
  | .hostAtomic _ _ _ _ _ _ _ _ _ | .loadReserved _ _ _ _ _ _ | .storeConditional _ _ _ _ _ _ _ | .acquire _ _ | .release _ _
  | .full _ _ | .device _ _ | .rc _ _ | .tlbInvalidation _ _ _ | .hcDevsynRead _ _ _ | .hcStrictWrite _ _ _ _
  | .hcL2lockWrite _ _ _ | .l2Eviction _ _ _ _ | .notice _ _ _ | .writeBack _ _ _ | .readShared _ _ _ _
  | .readForOwnership _ _ _ _ | .conditionalReadForOwnership _ _ _ _ | .coherentRead _ _ _ _
  | .nonCachingWrite _ _ _ _ _ _ | .invalidation _ _ | .dirProbe _ _ _ | .launch _ _ _ _ | .launchDispatch _ _ _
  | .programLoadDone _ _ _ | .launchComplete _ _ _ | .sibling _ _ | .watchdog _ _ | .nop _ _ _ | .end_ _ _ _
  | .mpass _ _ _ | .mdrain _ _ _ | .fillDone _ _ _ _ _ | .streamEnd _ _ _ _ _ _ _ | .recirculationEnd _ _ _ | .drainDone _ _ _ _
  | .vop _ _ _ _ | .vld _ _ _ _ | .vst _ _ _ | .smove _ _ _ _ | .tcopy _ _ _ _ | .tcopyComplete _ _ _ _ _ _
  | .copyFault _ _ _ _ _ _ | .ccwait _ _ _ | .ccset _ _ _ | .ssig _ _ _ | .swait _ _ _ | .fence _ _ _ | .tag _ _ _
  | .hint _ _ _ | .aop _ _ _ | .aopi _ _ _ | .ali _ _ _ | .ard _ _ _ | .br _ _ _ | .brc _ _ _ | .loop _ _ _
  | .queueEnable _ _ _ _ | .queueDisable _ _ _ _ | .tailWrite _ _ _ _ | .resume _ _ _ | .abandon _ _ _
  | .slotRead _ _ _ _ | .slotReread _ _ _ _ | .sluiceChoice _ | .walk _ _ _ | .walkAhead _ _ _ _ | .copy _ _ _ _
  | .inlineWrite _ _ _ _ | .signal _ _ _ | .wait _ _ _ | .collective _ _ _ _ | .migrate _ _ _ | .hintCommand _ _ _
  | .fenceCommand _ _ _ | .commandComplete _ _ _ | .trCtxWrite _ _ _ _ | .trInvalAst _ _ _
  | .invalidationComplete _ _ | .continuationRecord _ _ | .trFaultResolve _ _ _ | .syAdd _ _ _ _ | .sySet _ _ _ _
  | .advance _ | .syTrigCfg _ _ _ _ | .syEventRead _ _ _ | .waitTimeout _ _ | .mbLock _ _ _ | .mbRelease _ _ _ _
  | .mbReqWrite _ _ _ _ | .mbReqRead _ _ _ | .mbRspWrite _ _ _ _ | .mbRspRead _ _ _ | .mbSend _ _ _ _
  | .mbAck _ _ _ _ | .mailboxTimeout _ _ | .attest _ _ | .getCerts _ _ | .imageWrite _ _ _ _ | .setNext _ _
  | .rollbackCommit _ _ | .throttleLog _ _ | .waitGraph _ _ _ | .stateCollect _ _ | .iadd32 _ _ _ | .iadd64 _ _ _
  | .smin32 _ _ _ | .smin64 _ _ _ | .smax32 _ _ _ | .smax64 _ _ _ | .umin32 _ _ _ | .umin64 _ _ _ | .umax32 _ _ _
  | .umax64 _ _ _ | .fadd32 _ _ _ | .faddbf16 _ _ _ | .fadd16 _ _ _ | .eaFp32 _ _ _ | .eaBf16 _ _ _ | .eaFp16 _ _ _
  | .settleFp32 _ _ _ | .settleBf16 _ _ _ | .cas32 _ _ _ | .cas64 _ _ _ | .swap32 _ _ _ | .swap64 _ _ _
  | .lineStoreWriteback _ _ | .scrub _ _ _ | .retrain _ _ _ _ | .retrainDone _ _ | .retrainFail _ _
  | .retrainRetry _ _ | .retire _ _ _ _ | .granuleMove _ _ _ | .cxlLinkRecovery _ _ | .cxlPortDown _ _
  | .tierObjCfg _ _ _ _ | .migrationCheck _ _ _ | .migrationDrain _ _ | .migrationCopy _ _ _ _ | .rillEnable _ _ _ _
  | .rillEvaluation _ _ _ | .ceEpochCfg _ _ _ _ | .epochCheckDone _ _ _ | .bucketComplete _ _ _ _ | .bucketTimeout _ _ _
  | .collResend _ _ | .doneMessage _ _ _ | .flitSend _ _ | .flitReceive _ _ _ _ _ | .replayTimeout _ _
  | .tokenEarn _ _ | .write _ _ _ | .writeMasked _ _ _ | .read _ _ _ | .mop _ _ _ | .coll _ _ _ | .time _ _ | .ack _ _
  | .data _ _ | .mopRsp _ _ | .refuse _ _ | .linkEnable _ _ _ _ | .trainingDone _ _ _ _ _ | .trainingTimeout _ _
  | .linkRetrain _ _ _ _ | .retrainTimeout _ _ | .autoTrain _ _ | .train _ _ _ | .peerTimeout _ _
  | .windowValid _ _ _ _ | .linkRejoin _ _ _ | .fabricPacket _ _ _ _ | .rtoResend _ _ _ | .epeerDown _ _
  | .epeerValid _ _ _ _ | .managementFrame _ _ _ _ | .mtxTail _ _ _ _ _ | .dutyRamp _ _ | .hclkStep _ _ _
  | .reservationGrant _ _ | .reservationEnd _ _ | .starve _ _ | .throttleCont _ | .dbgCtxrst _ _ _ | .contextReset _
  | .tcFence _ _ _ _ | .hcFence _ _ _ _ | .hostDieReset _ _ _ | .cofferdam _ _ _ _ | .dieResetting _ _
  | .dieResetDone _ _ _ | .readmit _ _ _ | .hubControlError _ _ | .traceEvent _ | .traceBudgetWindow _
  | .trcMark _ _ _ | .counterSample _ | .dbgSpDataRead _ _ _ | .dbgHcHalt _ _ _ _ | .jtagDebugAccess _ _ _ _ _
  | .customerDieRequest _ _ _ _ _ _ _ _ _ | .cxlLinkRecovered _ _ | .ethLinkUp _ _ _ | .cxlError _ _ _ => false

end Sys2Proof

namespace Sys2Proof.Machine

/-- The canonical form of memory: addresses strictly rising, and no entry equal to what an unlisted address reads as. -/
def Memory.wf (m : List Host.Cell) : Bool := Tab.wf memDefault m

/-- Memory, the poison marks and the registers are in their canonical forms, so that equal contents are equal data. -/
def State.canonical (s : State) : Bool :=
  Memory.wf s.mem && Tab.wf (fun _ => false) s.poison && Tab.wf regReset s.regs

/-- A step that answers a next state. -/
def goesOn : Res → Bool
  | .next _ => true
  | .fault _ => false
  | .refused _ => false

/-- A state from which the next step neither faults nor refuses. -/
def State.safe (s : State) : Bool := goesOn (step s)

/-- A run of n steps that never stops. -/
def State.safeRun : Nat → State → Bool
  | 0, _ => true
  | n + 1, s =>
    match step s with
    | .next s' => s'.safeRun n
    | .fault _ => false
    | .refused _ => false

/-! ### Words that statements use -/

/-- The device carries out commands at tick t, and a is the state with its clock there. -/
def State.runsAt (s : State) (t : Nat) (a : State) : Prop := a = s.advance t ∧ a.awake = true

/-- An agent issues requests, and the dike table admits its access to the register at an offset. -/
def State.allows (s : State) (agent off : Nat) (wr : Bool) : Bool :=
  s.issues agent && s.admits agent wr (regBase + off) 8

/-- A core may issue, and the instruction at its PC is the one of an opcode and low bits. -/
def State.issuesNow (s : State) (core op : Nat) (body : BitVec 56) : Bool :=
  s.mayIssue core && decide ((s.core core).instrAt (s.rd TC_PC.PC core) = tileWord op body)

end Sys2Proof.Machine
end

