-- ==== Sys2Proof/WellFormed.lean ====
section
/-! DEFINITION. Which commands are well formed: those whose operands name units, addresses and agents that exist (R11, R18, R45,
R66).  -/

namespace Sys2Proof

/-- A number that R66 gives to agents. -/
def agentOk (a : Nat) : Bool := decide (1 ≤ a) && decide (a < 65535)

/-- A host core (R370). -/
def hostOk (c : Nat) : Bool := decide (c < 96)

/-- A logical tensor core number (R11). -/
def tensorOk (c : Nat) : Bool := decide (c < 256) && decide (c % 64 < 52)

/-- The bytes of one access of a host core or of a site (R378). -/
def sizeOk (n : Nat) : Bool := decide (1 ≤ n) && decide (n ≤ 64)

/-- The agent number of a link or of an Ethernet port (R66). -/
def portOk (p : Nat) : Bool :=
  (decide (0x9000 ≤ p) && decide (p < 0x9018)) || (decide (0x9100 ≤ p) && decide (p < 0x9104))

/-- Whether every operand of a command is in its range. -/
def Instr.wf : Instr → Bool
  | .packageReset _ _ | .boot _ _ | .bringupTimeout _ | .pllLockLoss _ _ | .timingExchange _ | .holdoverEntry _
  | .txnApply _ | .leaseExpiry _ | .sluiceChoice _ | .invalidationComplete _ _ | .advance _ | .waitTimeout _ _
  | .granuleMove _ _ _ | .powerSample _ _ | .reservationGrant _ _ | .reservationEnd _ _ | .throttleCont _
  | .saveDrainEnd _ | .saveComplete _ | .holdVinLoss _ | .contextReset _ | .traceEvent _ | .traceBudgetWindow _
  | .counterSample _ | .jtagDebugAccess _ _ _ _ _ | .i3cWrite _ _ | .i3cRead _ | .testMode _ _
  | .holdOkChange _ _ => true
  | .hbmTrainingTimeout _ stack | .mclkRelock _ stack _ => decide (stack < 12)
  | .sysProtLock _ agent _ | .bootRelease _ agent _ | .registerWrite _ agent _ _ | .sysTbCfgWrite _ agent _
  | .txnBegin _ agent | .txnCommit _ agent _ | .txnRollback _ agent _ | .txnAbort _ agent _ | .dirProbe _ agent _
  | .trInvalAst _ agent _ | .trFaultResolve _ agent _ | .dbgCtxrst _ agent _ | .hostDieReset _ agent _
  | .trcMark _ agent _ | .dbgSpDataRead _ agent _ => agentOk agent
  | .d2dParityError _ port => decide (port < 12)
  | .d2dResentTransfer _ port _ pa _ _ => decide (port < 12) && decide (pa < 2 ^ 52)
  | .sitePowerWindow _ site _ | .siteSupplyCut _ site | .siteDown _ site _ => decide (site < 2)
  | .ringEnable _ agent ring _ => agentOk agent && decide (ring < 21)
  | .hostCoreLoad _ core pa size tg _ _ | .hostCoreStore _ core pa size tg _ _
  | .hostAtomic _ core pa size tg _ _ _ _ | .loadReserved _ core pa size tg _
  | .storeConditional _ core pa size tg _ _ => hostOk core && decide (pa < 2 ^ 52) && sizeOk size && decide (tg < 4096)
  | .storeAck _ core _ _ _ | .acquire _ core | .release _ core | .full _ core | .device _ core | .rc _ core
  | .hcDevsynRead _ core _ | .hcStrictWrite _ core _ _ | .hcL2lockWrite _ core _ => hostOk core
  | .tlbInvalidation _ core tg => hostOk core && decide (tg < 4096)
  | .l2Eviction _ core line _ | .notice _ core line | .writeBack _ core line | .readShared _ core line _
  | .readForOwnership _ core line _ | .conditionalReadForOwnership _ core line _ => hostOk core && decide (line < 2 ^ 46)
  | .coherentRead _ agent line _ | .nonCachingWrite _ agent line _ _ _ => agentOk agent && decide (line < 2 ^ 46)
  | .invalidation _ cluster | .hclkStep _ cluster _ => decide (cluster < 12)
  | .launch _ q _ _ | .launchDispatch _ q _ | .launchComplete _ q _ | .slotRead _ q _ _ | .slotReread _ q _ _
  | .walk _ q _ | .copy _ q _ _ | .inlineWrite _ q _ _ | .signal _ q _ | .wait _ q _ | .collective _ q _ _
  | .migrate _ q _ | .hintCommand _ q _ | .fenceCommand _ q _ | .commandComplete _ q _ | .rillEvaluation _ q _
  | .bucketComplete _ q _ _ | .bucketTimeout _ q _ | .starve _ q => decide (q < 16384)
  | .programLoadDone _ core _ | .sibling _ core | .watchdog _ core | .nop _ core _ | .end_ _ core _
  | .mpass _ core _ | .mdrain _ core _ | .fillDone _ core _ _ _ | .streamEnd _ core _ _ _ _ _
  | .recirculationEnd _ core _ | .drainDone _ core _ _ | .vop _ core _ _ | .vld _ core _ _ | .vst _ core _
  | .smove _ core _ _ | .tcopy _ core _ _ | .tcopyComplete _ core _ _ _ _ | .ccwait _ core _ | .ccset _ core _
  | .ssig _ core _ | .swait _ core _ | .fence _ core _ | .tag _ core _ | .hint _ core _ | .aop _ core _
  | .aopi _ core _ | .ali _ core _ | .ard _ core _ | .br _ core _ | .brc _ core _ | .loop _ core _ => tensorOk core
  | .copyFault _ core _ _ _ va => tensorOk core && decide (va < 2 ^ 64)
  | .queueEnable _ agent q _ | .queueDisable _ agent q _ | .tailWrite _ agent q _ | .resume _ agent q
  | .abandon _ agent q => agentOk agent && decide (q < 16384)
  | .walkAhead _ q va _ => decide (q < 16384) && decide (va < 2 ^ 64)
  | .trCtxWrite _ agent ctx _ => agentOk agent && decide (ctx < 4096)
  | .continuationRecord _ slot => decide (slot < 1024)
  | .syAdd _ agent obj _ | .sySet _ agent obj _ | .syTrigCfg _ agent obj _ => agentOk agent && decide (obj < 8192)
  | .syEventRead _ agent core => agentOk agent && hostOk core
  | .mbLock _ agent m | .mbRelease _ agent m _ | .mbReqWrite _ agent m _ | .mbReqRead _ agent m
  | .mbRspWrite _ agent m _ | .mbRspRead _ agent m | .mbSend _ agent m _ | .mbAck _ agent m _ => agentOk agent && decide (m < 64)
  | .mailboxTimeout _ m | .attest _ m | .getCerts _ m | .imageWrite _ m _ _ | .setNext _ m | .rollbackCommit _ m
  | .throttleLog _ m | .waitGraph _ m _ | .stateCollect _ m => decide (m < 64)
  | .iadd32 _ agent r | .iadd64 _ agent r | .smin32 _ agent r | .smin64 _ agent r | .smax32 _ agent r
  | .smax64 _ agent r | .umin32 _ agent r | .umin64 _ agent r | .umax32 _ agent r | .umax64 _ agent r
  | .fadd32 _ agent r | .faddbf16 _ agent r | .fadd16 _ agent r | .eaFp32 _ agent r | .eaBf16 _ agent r
  | .eaFp16 _ agent r | .settleFp32 _ agent r | .settleBf16 _ agent r | .cas32 _ agent r | .cas64 _ agent r
  | .swap32 _ agent r | .swap64 _ agent r => agentOk agent && decide (r.pa < 2 ^ 52)
  | .lineStoreWriteback _ line | .scrub _ line _ => decide (line < 2 ^ 46)
  | .retrain _ ch cause agent => decide (ch < 384) && decide (cause < 5) && (cause != 3 || agentOk agent)
  | .retrainDone _ ch | .retrainFail _ ch | .retrainRetry _ ch => decide (ch < 384)
  | .retire _ ch cause agent => decide (ch < 384) && (cause != 2 || agentOk agent)
  | .cxlLinkRecovery _ port | .cxlPortDown _ port | .cxlLinkRecovered _ port | .cxlError _ port _ => decide (port < 8)
  | .tierObjCfg _ agent n _ => agentOk agent && decide (n < 65536)
  | .migrationCheck _ n _ | .migrationDrain _ n | .migrationCopy _ n _ _ => decide (n < 65536)
  | .rillEnable _ agent n _ => agentOk agent && decide (n < 64)
  | .ceEpochCfg _ agent n _ => agentOk agent && decide (n < 16)
  | .epochCheckDone _ n _ => decide (n < 16)
  | .collResend _ h => decide (h < 2)
  | .doneMessage _ port _ | .write _ port _ | .writeMasked _ port _ | .read _ port _ | .mop _ port _
  | .coll _ port _ | .time _ port | .ack _ port | .data _ port | .mopRsp _ port | .refuse _ port => portOk port
  | .flitSend _ link | .replayTimeout _ link | .tokenEarn _ link | .trainingDone _ link _ _ _
  | .trainingTimeout _ link | .retrainTimeout _ link | .autoTrain _ link => decide (link < 24)
  | .flitReceive _ link words _ _ => decide (link < 24) && decide (words.length = 32)
  | .linkEnable _ agent link _ | .train _ agent link => agentOk agent && decide (link < 24)
  | .linkRetrain _ link cause agent => decide (link < 24) && (cause != 3 || agentOk agent)
  | .peerTimeout _ tg => decide (tg < 65536)
  | .windowValid _ agent w _ => agentOk agent && decide (w < 256)
  | .linkRejoin _ w link => decide (w < 256) && decide (link < 24)
  | .fabricPacket _ port _ _ | .managementFrame _ port _ _ | .ethLinkUp _ port _ => decide (port < 4)
  | .rtoResend _ peer cls => decide (peer < 4096) && decide (cls < 4)
  | .epeerDown _ peer => decide (peer < 4096)
  | .epeerValid _ agent peer _ => agentOk agent && decide (peer < 4096)
  | .mtxTail _ agent port _ _ => agentOk agent && decide (port < 4)
  | .dutyRamp _ die | .dieResetting _ die | .dieResetDone _ die _ => decide (die < 4)
  | .thermalSample _ temps => decide (temps.length = 8)
  | .saveStart _ cause => decide (cause < 2)
  | .tcFence _ agent n _ => agentOk agent && decide (n < 4)
  | .hcFence _ agent n _ | .dbgHcHalt _ agent n _ => agentOk agent && decide (n < 2)
  | .cofferdam _ die software agent => decide (die < 4) && (!software || agentOk agent)
  | .readmit _ agent die => agentOk agent && decide (die < 4)
  | .hubControlError _ hub => decide (hub < 2)
  | .customerDieRequest _ site a cls pa size _ _ _ => decide (site < 2) && decide (a < 16) && decide (cls < 4) && decide (pa < 2 ^ 52) && sizeOk size
  | .i3cDynamicAddress _ addr => decide (addr < 128)

end Sys2Proof
end

