-- ==== Sys2Proof/Certificates/Slice0/Obligations.lean ====
section
/-! DEFINITION. The statements about the block that are to be proved. -/

set_option maxRecDepth 4000

open Sys2Proof Sys2Proof.Machine

/-- Step at a state with command c at the front of the queue is exec of c on the state with the rest of the queue; on an
empty queue the state stays as it is, the idling being the model's choice (log entry 6). (00_scope.md.) -/
def Obligations.StepRunsFrontCommand : Prop :=
  (∀ (c : Instr) (rest : List Instr) (s : State),
    step { s with pending := c :: rest } = exec c { s with pending := rest }) ∧
  ∀ s : State, s.pending = [] → step s = .next s

/-- At reset the timebase is 0, SYS_PROT_LOCK is clear, no save runs, no transaction is open, host cores are held and
strict, tensor cores run no launch, queues are disabled, objects read 0, mailboxes are FREE, links are DOWN, HBM
channels are normal, the dike table has no rules and no command waits. (R28, R126, R190, R245, R261, R352, R388,
R445.) -/
def Obligations.ResetValues : Prop :=
  State.reset.tb = 0 ∧ State.reset.locked = false ∧ State.reset.save.phase = 0 ∧
  State.reset.rd TXN_STATUS.STATE = 0 ∧ State.reset.txn.shadow = [] ∧ State.reset.pending = [] ∧
  State.reset.dike.rules = [] ∧
  (∀ c < 96, (State.reset.host c).released = false ∧ State.reset.flag HC_STRICT.STRICT c = true) ∧
  (∀ c : Nat, (State.reset.core c).launch = none ∧ ∀ x : Nat, (State.reset.core c).ar x = 0) ∧
  (∀ q < 16384, State.reset.flag QE_Q_CFG.ENABLE q = false ∧ (State.reset.queue q).fetched = []) ∧
  (∀ o < 8192, State.reset.reg (SY_VAL.VALUE.off o) = 0 ∧ State.reset.flag SY_TRIG_CFG.ARM o = false) ∧
  (∀ m < 64, State.reset.mbState m = 0 ∧ (State.reset.mbox m).req = [] ∧ (State.reset.mbox m).rsp = []) ∧
  (∀ l < 24, State.reset.linkState l = 0) ∧ (∀ c < 384, State.reset.rd HM_CH_STATUS.STATE c = 0)

/-- At reset memory, the poison marks and the registers are in canonical form: addresses strictly rising, and no entry
equal to what an unlisted one reads as. (R45, R122.) -/
def Obligations.ResetIsCanonical : Prop :=
  State.reset.canonical = true

/-- From every state in which memory, the poison marks and the registers are in canonical form, whatever command is at
the front of the queue, a step answers a state in which they still are; equal contents are then equal data. (R45,
R51, R274.) -/
def Obligations.StepKeepsCanonical : Prop :=
  ∀ s s' : State, s.canonical = true → step s = .next s' → s'.canonical = true

/-- Every command of the table, with any operands and in every state, answers a next state: none faults and none is
refused. (R57, R59, R60.) -/
def Obligations.EveryCommandGoesOn : Prop :=
  ∀ (c : Instr) (s : State), ∃ t : State, exec c s = .next t

/-- Whatever command is carried out, the queue of waiting commands is afterwards as it was; a step therefore takes
exactly one command from its front. (00_scope.md.) -/
def Obligations.CommandsKeepTheQueue : Prop :=
  (∀ (c : Instr) (s t : State), exec c s = .next t → t.pending = s.pending) ∧
  ∀ s t : State, step s = .next t → t.pending = s.pending.tail

/-- A command of which no form stores to HBM, the far tier or the keep store, as Instr.mayStore lists them, leaves every
byte of memory and every poison mark as it was. (R45, R122, R274.) -/
def Obligations.StorelessCommandsKeepMemory : Prop :=
  ∀ (c : Instr) (s t : State), c.mayStore = false → exec c s = .next t →
    (∀ pa : Nat, t.byte pa = s.byte pa) ∧ ∀ line : Nat, t.poisoned line = s.poisoned line

/-- While the device is held in reset, or once a save has passed its drain, a command that is not one of reset, of the
save, of the supplies, of the I3C port or of TEST_MODE (Instr.runsHeld) moves the clock and changes nothing else.
That this is so of every other command is the model's reading (log entry 41). (R478, R481, R484, R531.) -/
def Obligations.HeldDeviceMovesOnlyItsClock : Prop :=
  ∀ (c : Instr) (s : State), c.runsHeld = false → s.awake = false → ∃ t : Nat, exec c s = .next (s.advance t)

/-- A command that reads or writes a register, of an agent that issues but that the dike table does not admit to the
register, is answered with cause 5 DENIED and has none of its effect; a host core takes the device-access fault.
(R46, R57, R384, R443.) -/
def Obligations.DeniedAccessesAnswerDenied : Prop :=
  ∀ (s a : State) (t : Nat), s.runsAt t a →
    (∀ (agent : Nat) (v : Word), a.issues agent = true →
      a.admits agent true (regBase + (BOOT_RELEASE.CORE.off 0)) 8 = false →
          exec (.bootRelease t agent v) s = .next (a.refuse agent 5 (regBase + (BOOT_RELEASE.CORE.off 0)))) ∧
    (∀ (agent : Nat) (v : Word), a.issues agent = true →
      a.admits agent true (regBase + (SYS_TB_CFG.ENABLE.off 0)) 8 = false →
          exec (.sysTbCfgWrite t agent v) s = .next (a.refuse agent 5 (regBase + (SYS_TB_CFG.ENABLE.off 0)))) ∧
    (∀ (agent : Nat), a.issues agent = true →
      a.admits agent false (regBase + 0x10000) 8 = false →
          exec (.txnBegin t agent) s = .next (a.refuse agent 5 (regBase + 0x10000))) ∧
    (∀ (agent : Nat) (v : Word), a.issues agent = true →
      a.admits agent true (regBase + 0x10008) 8 = false →
          exec (.txnCommit t agent v) s = .next (a.refuse agent 5 (regBase + 0x10008))) ∧
    (∀ (agent : Nat) (v : Word), a.issues agent = true →
      a.admits agent true (regBase + 0x10010) 8 = false →
          exec (.txnRollback t agent v) s = .next (a.refuse agent 5 (regBase + 0x10010))) ∧
    (∀ (agent : Nat) (v : Word), a.issues agent = true →
      a.admits agent true (regBase + 0x10038) 8 = false →
          exec (.txnAbort t agent v) s = .next (a.refuse agent 5 (regBase + 0x10038))) ∧
    (∀ (agent ctx : Nat) (v : Word), ctx < 4096 → a.issues agent = true →
      a.admits agent true (regBase + (TR_CTX.VALID.off ctx)) 8 = false →
          exec (.trCtxWrite t agent ctx v) s = .next (a.refuse agent 5 (regBase + (TR_CTX.VALID.off ctx)))) ∧
    (∀ (agent : Nat) (v : Word), a.issues agent = true →
      a.admits agent true (regBase + (TR_INVAL_AST.TAG.off 0)) 8 = false →
          exec (.trInvalAst t agent v) s = .next (a.refuse agent 5 (regBase + (TR_INVAL_AST.TAG.off 0)))) ∧
    (∀ (agent : Nat) (v : Word), a.issues agent = true →
      a.admits agent true (regBase + (TR_FAULT_RESOLVE.SLOT.off 0)) 8 = false →
          exec (.trFaultResolve t agent v) s = .next (a.refuse agent 5 (regBase + (TR_FAULT_RESOLVE.SLOT.off 0)))) ∧
    (∀ (agent : Nat) (v : Word), a.issues agent = true →
      a.admits agent true (regBase + 0x38001000) 8 = false →
          exec (.dirProbe t agent v) s = .next (a.refuse agent 5 (regBase + 0x38001000))) ∧
    (∀ (agent q : Nat) (v : Word), q < 16384 → a.issues agent = true →
      a.admits agent true (regBase + (QE_DB_TAIL.TAIL.off q)) 8 = false →
          exec (.tailWrite t agent q v) s = .next (a.refuse agent 5 (regBase + (QE_DB_TAIL.TAIL.off q)))) ∧
    (∀ (agent q : Nat), q < 16384 → a.issues agent = true →
      a.admits agent true (regBase + (QE_Q_CTRL.RESUME.off q)) 8 = false →
          exec (.resume t agent q) s = .next (a.refuse agent 5 (regBase + (QE_Q_CTRL.RESUME.off q)))) ∧
    (∀ (agent q : Nat), q < 16384 → a.issues agent = true →
      a.admits agent true (regBase + (QE_Q_CTRL.RESUME.off q)) 8 = false →
          exec (.abandon t agent q) s = .next (a.refuse agent 5 (regBase + (QE_Q_CTRL.RESUME.off q)))) ∧
    (∀ (agent obj : Nat) (v : Word), obj < 8192 → a.issues agent = true →
      a.admits agent true (regBase + (SY_ADD.V.off obj)) 8 = false →
          exec (.syAdd t agent obj v) s = .next (a.refuse agent 5 (regBase + (SY_ADD.V.off obj)))) ∧
    (∀ (agent obj : Nat) (v : Word), obj < 8192 → a.issues agent = true →
      a.admits agent true (regBase + (SY_SET.V.off obj)) 8 = false →
          exec (.sySet t agent obj v) s = .next (a.refuse agent 5 (regBase + (SY_SET.V.off obj)))) ∧
    (∀ (agent obj : Nat) (v : Word), obj < 8192 → a.issues agent = true →
      a.admits agent true (regBase + (SY_TRIG_CFG.ARM.off obj)) 8 = false →
          exec (.syTrigCfg t agent obj v) s = .next (a.refuse agent 5 (regBase + (SY_TRIG_CFG.ARM.off obj)))) ∧
    (∀ (agent core : Nat), core < 96 → a.issues agent = true →
      a.admits agent false (regBase + (SY_EVENT.OBJ.off core)) 8 = false →
          exec (.syEventRead t agent core) s = .next (a.refuse agent 5 (regBase + (SY_EVENT.OBJ.off core)))) ∧
    (∀ (agent m : Nat), m < 64 → a.issues agent = true →
      a.admits agent false (regBase + (MB_LOCK.RESULT.off m)) 8 = false →
          exec (.mbLock t agent m) s = .next (a.refuse agent 5 (regBase + (MB_LOCK.RESULT.off m)))) ∧
    (∀ (agent m : Nat) (v : Word), m < 64 → a.issues agent = true →
      a.admits agent true (regBase + (MB_RELEASE.GO.off m)) 8 = false →
          exec (.mbRelease t agent m v) s = .next (a.refuse agent 5 (regBase + (MB_RELEASE.GO.off m)))) ∧
    (∀ (agent m : Nat) (v : Word), m < 64 → a.issues agent = true →
      a.admits agent true (regBase + (MB_REQ.WORD.off m)) 8 = false →
          exec (.mbReqWrite t agent m v) s = .next (a.refuse agent 5 (regBase + (MB_REQ.WORD.off m)))) ∧
    (∀ (agent m : Nat), m < 64 → a.issues agent = true →
      a.admits agent false (regBase + (MB_REQ.WORD.off m)) 8 = false →
          exec (.mbReqRead t agent m) s = .next (a.refuse agent 5 (regBase + (MB_REQ.WORD.off m)))) ∧
    (∀ (agent m : Nat) (v : Word), m < 64 → a.issues agent = true →
      a.admits agent true (regBase + (MB_RSP.WORD.off m)) 8 = false →
          exec (.mbRspWrite t agent m v) s = .next (a.refuse agent 5 (regBase + (MB_RSP.WORD.off m)))) ∧
    (∀ (agent m : Nat), m < 64 → a.issues agent = true →
      a.admits agent false (regBase + (MB_RSP.WORD.off m)) 8 = false →
          exec (.mbRspRead t agent m) s = .next (a.refuse agent 5 (regBase + (MB_RSP.WORD.off m)))) ∧
    (∀ (agent m : Nat) (v : Word), m < 64 → a.issues agent = true →
      a.admits agent true (regBase + (MB_SEND.CMD.off m)) 8 = false →
          exec (.mbSend t agent m v) s = .next (a.refuse agent 5 (regBase + (MB_SEND.CMD.off m)))) ∧
    (∀ (agent m : Nat) (v : Word), m < 64 → a.issues agent = true →
      a.admits agent true (regBase + (MB_ACK.CODE.off m)) 8 = false →
          exec (.mbAck t agent m v) s = .next (a.refuse agent 5 (regBase + (MB_ACK.CODE.off m)))) ∧
    (∀ (ch agent : Nat), ch < 384 → a.issues agent = true →
      a.admits agent true (regBase + (HM_CH_CTRL.RETRAIN.off ch)) 8 = false →
          exec (.retrain t ch 3 agent) s = .next (a.refuse agent 5 (regBase + (HM_CH_CTRL.RETRAIN.off ch)))) ∧
    (∀ (ch agent : Nat), ch < 384 → a.issues agent = true →
      a.admits agent true (regBase + (HM_CH_CTRL.RETRAIN.off ch)) 8 = false →
          exec (.retire t ch 2 agent) s = .next (a.refuse agent 5 (regBase + (HM_CH_CTRL.RETRAIN.off ch)))) ∧
    (∀ (agent n : Nat) (v : Word), n < 65536 → a.issues agent = true →
      a.admits agent true (regBase + (TIER_OBJ_CFG.VALID.off n)) 8 = false →
          exec (.tierObjCfg t agent n v) s = .next (a.refuse agent 5 (regBase + (TIER_OBJ_CFG.VALID.off n)))) ∧
    (∀ (agent n : Nat) (v : Word), n < 16 → a.issues agent = true →
      a.admits agent true (regBase + (CE_EPOCH_CFG.EPOCH.off n)) 8 = false →
          exec (.ceEpochCfg t agent n v) s = .next (a.refuse agent 5 (regBase + (CE_EPOCH_CFG.EPOCH.off n)))) ∧
    (∀ (agent link : Nat) (v : Word), link < 24 → a.issues agent = true →
      a.admits agent true (regBase + (LK_LINK_CFG.ENABLE.off link)) 8 = false →
          exec (.linkEnable t agent link v) s = .next (a.refuse agent 5 (regBase + (LK_LINK_CFG.ENABLE.off link)))) ∧
    (∀ (link agent : Nat), link < 24 → a.issues agent = true →
      a.admits agent true (regBase + (LK_LINK_CTRL.RETRAIN.off link)) 8 = false →
          exec (.linkRetrain t link 3 agent) s = .next (a.refuse agent 5 (regBase + (LK_LINK_CTRL.RETRAIN.off link))))
          ∧
    (∀ (agent link : Nat), link < 24 → a.issues agent = true →
      a.admits agent true (regBase + (LK_LINK_CTRL.TRAIN.off link)) 8 = false →
          exec (.train t agent link) s = .next (a.refuse agent 5 (regBase + (LK_LINK_CTRL.TRAIN.off link)))) ∧
    (∀ (agent w : Nat) (v : Word), w < 256 → a.issues agent = true →
      a.admits agent true (regBase + (LK_WIN.VALID.off w)) 8 = false →
          exec (.windowValid t agent w v) s = .next (a.refuse agent 5 (regBase + (LK_WIN.VALID.off w)))) ∧
    (∀ (agent peer : Nat) (v : Word), peer < 4096 → a.issues agent = true →
      a.admits agent true (regBase + (LK_EPEER_CFG.VALID.off peer)) 8 = false →
          exec (.epeerValid t agent peer v) s = .next (a.refuse agent 5 (regBase + (LK_EPEER_CFG.VALID.off peer)))) ∧
    (∀ (agent port : Nat) (v : Word) (found : Found), port < 4 → a.issues agent = true →
      a.admits agent true (regBase + (LK_ETH_MTX_TAIL.TAIL.off port)) 8 = false →
          exec (.mtxTail t agent port v found) s = .next (a.refuse agent 5 (regBase + (LK_ETH_MTX_TAIL.TAIL.off
          port)))) ∧
    (∀ (agent : Nat) (v : Word), a.issues agent = true →
      a.admits agent true (regBase + (DBG_CTXRST.CONTEXT.off 0)) 8 = false →
          exec (.dbgCtxrst t agent v) s = .next (a.refuse agent 5 (regBase + (DBG_CTXRST.CONTEXT.off 0)))) ∧
    (∀ (agent n : Nat) (v : Word), n < 4 → a.issues agent = true →
      a.admits agent true (regBase + (DBG_FENCE_TC.FENCE.off n)) 8 = false →
          exec (.tcFence t agent n v) s = .next (a.refuse agent 5 (regBase + (DBG_FENCE_TC.FENCE.off n)))) ∧
    (∀ (agent : Nat) (v : Word), a.issues agent = true →
      a.admits agent true (regBase + (DBG_FENCE_HC_0.FENCE.off 0)) 8 = false →
          exec (.hcFence t agent 0 v) s = .next (a.refuse agent 5 (regBase + (DBG_FENCE_HC_0.FENCE.off 0)))) ∧
    (∀ (agent : Nat) (v : Word), a.issues agent = true →
      a.admits agent true (regBase + (DBG_HOSTDIE_RESET.GO.off 0)) 8 = false →
          exec (.hostDieReset t agent v) s = .next (a.refuse agent 5 (regBase + (DBG_HOSTDIE_RESET.GO.off 0)))) ∧
    (∀ (die agent : Nat), die < 4 → a.issues agent = true →
      a.admits agent true (regBase + (DBG_TDIE_CTRL.RESET.off die)) 8 = false →
          exec (.cofferdam t die true agent) s = .next (a.refuse agent 5 (regBase + (DBG_TDIE_CTRL.RESET.off die)))) ∧
    (∀ (agent die : Nat), die < 4 → a.issues agent = true →
      a.admits agent true (regBase + (DBG_TDIE_CTRL.RESET.off die)) 8 = false →
          exec (.readmit t agent die) s = .next (a.refuse agent 5 (regBase + (DBG_TDIE_CTRL.RESET.off die)))) ∧
    (∀ (agent : Nat) (v : Word), a.issues agent = true →
      a.admits agent true (regBase + (TRC_MARK.VALUE.off 0)) 8 = false →
          exec (.trcMark t agent v) s = .next (a.refuse agent 5 (regBase + (TRC_MARK.VALUE.off 0)))) ∧
    (∀ (agent : Nat) (bad : List Nat), a.issues agent = true →
      a.admits agent false (regBase + (DBG_SP_DATA.DATA.off 0)) 8 = false →
          exec (.dbgSpDataRead t agent bad) s = .next (a.refuse agent 5 (regBase + (DBG_SP_DATA.DATA.off 0)))) ∧
    (∀ (agent : Nat) (v : Word), a.issues agent = true →
      a.admits agent true (regBase + (DBG_HC_HALT_0.HALT.off 0)) 8 = false →
          exec (.dbgHcHalt t agent 0 v) s = .next (a.refuse agent 5 (regBase + (DBG_HC_HALT_0.HALT.off 0))))

/-- Whatever the dike table holds, an access of any agent that it admits begins and ends in one region, and that region
is neither a hole nor the HBM repair spare. (R46, R48.) -/
def Obligations.HolesAreNeverAdmitted : Prop :=
  ∀ (s : State) (agent pa len : Nat) (wr : Bool), s.admits agent wr pa len = true →
    s.region pa ≠ .hole ∧ s.region pa ≠ .spare ∧ s.region (pa + (max len 1 - 1)) = s.region pa

/-- When the dike table admits an access of a host core, every 4 KiB page of the access is covered by a rule that names
the core, by its agent number or its partition, and that permits the direction; and the access stays out of the boot
area. (R441, R443, R444.) -/
def Obligations.AdmissionNeedsRules : Prop :=
  ∀ (s : State) (c pa len page : Nat) (wr : Bool), c < 96 → s.admits (0x100 + c) wr pa len = true →
    pa / 4096 ≤ page → page ≤ (pa + max len 1 - 1) / 4096 →
    (∃ r ∈ s.dike.rules, s.ruleNames r (.host c) = true ∧ (if wr then r.w else r.r) = true ∧
      r.base ≤ page ∧ page < r.base + r.pages) ∧ inBootArea pa (max len 1) = false

/-- Before any repair the interleave gives every granule a channel below 384 and a local granule of its own, and the
granules 384 n to 384 n + 383 lie on 384 different channels. (R270.) -/
def Obligations.GranulesHaveTheirOwnPlaces : Prop :=
  (∀ g : Nat, (channelOf g).1 < 384) ∧ (∀ g h : Nat, channelOf g = channelOf h → g = h) ∧
  ∀ n c : Nat, c < 384 → ∃ g : Nat, 384 * n ≤ g ∧ g < 384 * n + 384 ∧ channelOf g = (c, n)

/-- Between two moments of the clock with no step between them, the timebase count does not decrease, and it gains at
most twice the ticks that have passed, whatever correction is being slewed. (R28, R33.) -/
def Obligations.TimebaseNeverDecreases : Prop :=
  ∀ (s b c : State) (t u : Nat), b = s.advance t → c = b.advance u →
    (b.now : Int) + b.tbAdj ≤ c.now + c.tbAdj ∧
    (c.now : Int) + c.tbAdj ≤ b.now + b.tbAdj + 2 * ((c.now : Int) - b.now)

/-- A cell cleared to zeros that has received at most 2^32 FP32, BF16 and FP16 contributions holds, in units of 2^-152,
the exact sum of the finite ones, and its OVF flag is clear. (R122, R123.) -/
def Obligations.CellHoldsTheExactSum : Prop :=
  ∀ (l : List (Fmt × Nat)) (c : Line), (∀ x ∈ l, x.1 = .fp32 ∨ x.1 = .bf16 ∨ x.1 = .fp16) → l.length ≤ 2 ^ 32 →
    c = l.foldl (fun c x => cellAdd c (x.1.decode (x.2 % 2 ^ x.1.width))) 0 →
    cellFlag c 3 = false ∧
    cellValue c = (l.map fun x => match x.1.decode (x.2 % 2 ^ x.1.width) with
      | .fin neg m e => unitsAt neg m e (-152)
      | _ => 0).sum

/-- At most 2^32 FP32, BF16 and FP16 contributions to a cleared cell leave the same 64 bytes, value, count and flags, in
whatever order they are applied. (R123, R124.) -/
def Obligations.OrderOfContributionsDoesNotMatter : Prop :=
  ∀ l m : List (Fmt × Nat), (∀ x ∈ l, x.1 = .fp32 ∨ x.1 = .bf16 ∨ x.1 = .fp16) → l.length ≤ 2 ^ 32 → l.Perm m →
    l.foldl (fun c x => cellAdd c (x.1.decode (x.2 % 2 ^ x.1.width))) 0 =
    m.foldl (fun c x => cellAdd c (x.1.decode (x.2 % 2 ^ x.1.width))) 0

/-- A cell of any value, count and flags settles to the canonical NaN when NAN or OVF is set or both infinities were
contributed, else to the infinity contributed, else to its value rounded to nearest-even, in FP32 and in BF16; an
empty cell settles to +0. (R105, R122, R125.) -/
def Obligations.SettleOfACell : Prop :=
  (∀ (v : Int) (n : Nat) (nan pinf ninf ovf : Bool) (f : Fmt), -(2 ^ 319) ≤ v → v < 2 ^ 319 → f = .fp32 ∨ f = .bf16 →
    settle (mkCell v n nan pinf ninf ovf) f =
      if nan || ovf || (pinf && ninf) then f.nanCode
      else if pinf then f.infCode false else if ninf then f.infCode true
      else f.rne (ofUnits v (-152) false)) ∧
  settle 0 .fp32 = 0 ∧ settle 0 .bf16 = 0

/-- FADD32, FADDBF16 and FADD16 give the same code whichever term is the old value; a NaN term or opposite infinities
give the canonical NaN of the format; a sum of zeros is +0 unless both are -0. (R105, R280.) -/
def Obligations.FloatingAdditionsCommute : Prop :=
  ∀ f : Fmt, f = .fp32 ∨ f = .bf16 ∨ f = .fp16 →
    (∀ x y : Nat, f.addCodes x y = f.addCodes y x) ∧
    (∀ x y : Nat, f.decode x = .nan → f.addCodes x y = f.nanCode) ∧
    f.addCodes (f.infCode false) (f.infCode true) = f.nanCode ∧
    f.addCodes 0 0 = 0 ∧ f.addCodes 0 (f.signCode true) = 0 ∧
    f.addCodes (f.signCode true) (f.signCode true) = f.signCode true

/-- Each of the sixteen FP4 E2M1 codes has the sign and the magnitude that the table gives; magnitudes are counted here
in halves. (R106.) -/
def Obligations.Fp4Codes : Prop :=
  ∀ fp4 : Nat → Bool × Int,
    (∀ k : Nat, fp4 k = match Fmt.e2m1.decode k with
      | .fin neg m e => (neg, unitsAt false m e (-1))
      | _ => (false, -1)) →
    fp4 0 = (false, 0) ∧ fp4 1 = (false, 1) ∧ fp4 2 = (false, 2) ∧ fp4 3 = (false, 3) ∧ fp4 4 = (false, 4) ∧
        fp4 5 = (false, 6) ∧ fp4 6 = (false, 8) ∧ fp4 7 = (false, 12) ∧
    fp4 8 = (true, 0) ∧ fp4 9 = (true, 1) ∧ fp4 10 = (true, 2) ∧ fp4 11 = (true, 3) ∧ fp4 12 = (true, 4) ∧
        fp4 13 = (true, 6) ∧ fp4 14 = (true, 8) ∧ fp4 15 = (true, 12)

/-- The owner's write of TXN_ROLLBACK while OPEN discards every entry and ends the transaction ROLLED_BACK; while one is
OPEN or SEALED, a write of TXN_COMMIT or TXN_ROLLBACK by another agent leaves it as it is and is counted in FOREIGN;
while none is open such a write of any agent does nothing and is not counted. (R76.) -/
def Obligations.RollbacksAndForeignWrites : Prop :=
  ∀ (s a : State) (t agent : Nat) (v : Word), s.runsAt t a →
    (a.allows agent 0x10010 true = true → a.rd TXN_STATUS.STATE = 1 → a.rd TXN_STATUS.OWNER = agent →
      TXN_ROLLBACK.GO.get v = 1 → ∃ s' : State, exec (.txnRollback t agent v) s = .next s' ∧
        s'.txn.shadow = [] ∧ s'.rd TXN_STATUS.STATE = 0 ∧ s'.rd TXN_STATUS.RESULT = 2) ∧
    (a.allows agent 0x10008 true = true → a.rd TXN_STATUS.STATE = 1 ∨ a.rd TXN_STATUS.STATE = 2 →
      a.rd TXN_STATUS.OWNER ≠ agent → ∃ s' : State, exec (.txnCommit t agent v) s = .next s' ∧ s'.txn = a.txn ∧
        s'.rd TXN_STATUS.STATE = a.rd TXN_STATUS.STATE ∧ s'.rd TXN_STATUS.OWNER = a.rd TXN_STATUS.OWNER ∧
        s'.rd TXN_STATUS.FOREIGN = min (a.rd TXN_STATUS.FOREIGN + 1) 0xFFFF) ∧
    (a.allows agent 0x10010 true = true → a.rd TXN_STATUS.STATE = 1 ∨ a.rd TXN_STATUS.STATE = 2 →
      a.rd TXN_STATUS.OWNER ≠ agent → ∃ s' : State, exec (.txnRollback t agent v) s = .next s' ∧ s'.txn = a.txn ∧
        s'.rd TXN_STATUS.STATE = a.rd TXN_STATUS.STATE ∧ s'.rd TXN_STATUS.OWNER = a.rd TXN_STATUS.OWNER ∧
        s'.rd TXN_STATUS.FOREIGN = min (a.rd TXN_STATUS.FOREIGN + 1) 0xFFFF) ∧
    (a.allows agent 0x10008 true = true → a.rd TXN_STATUS.STATE = 0 →
      ∃ s' : State, exec (.txnCommit t agent v) s = .next s' ∧ s'.txn = a.txn ∧ s'.reg 0x10018 = a.reg 0x10018) ∧
    (a.allows agent 0x10010 true = true → a.rd TXN_STATUS.STATE = 0 →
      ∃ s' : State, exec (.txnRollback t agent v) s = .next s' ∧ s'.txn = a.txn ∧ s'.reg 0x10018 = a.reg 0x10018)

/-- While a transaction is SEALED, its owner's writes to transactional registers, to TXN_COMMIT and to TXN_ROLLBACK
change nothing of it and are counted in FOREIGN; a TXN_BEGIN read by another agent that can own one returns the
owner's number; and before the boundary nothing is applied. (R73, R75.) -/
def Obligations.SealedTransactionsHold : Prop :=
  ∀ (s a : State) (t agent : Nat) (v : Word), s.runsAt t a → a.rd TXN_STATUS.STATE = 2 →
    (∀ off : Nat, a.rd TXN_STATUS.OWNER = agent → isTxn off = true → a.issues agent = true →
      a.accessCause agent true (regBase + off) 8 = 0 →
      ∃ s' : State, exec (.registerWrite t agent (.space off) v) s = .next s'.releaseSites ∧ s'.txn = a.txn ∧
        s'.rd TXN_STATUS.STATE = 2 ∧ s'.reg off = a.reg off ∧
        s'.rd TXN_STATUS.FOREIGN = min (a.rd TXN_STATUS.FOREIGN + 1) 0xFFFF) ∧
    (a.rd TXN_STATUS.OWNER = agent → a.allows agent 0x10008 true = true →
      ∃ s' : State, exec (.txnCommit t agent v) s = .next s' ∧ s'.txn = a.txn ∧ s'.rd TXN_STATUS.STATE = 2 ∧
        s'.rd TXN_STATUS.OWNER = agent ∧ s'.rd TXN_STATUS.FOREIGN = min (a.rd TXN_STATUS.FOREIGN + 1) 0xFFFF) ∧
    (a.rd TXN_STATUS.OWNER = agent → a.allows agent 0x10010 true = true →
      ∃ s' : State, exec (.txnRollback t agent v) s = .next s' ∧ s'.txn = a.txn ∧ s'.rd TXN_STATUS.STATE = 2 ∧
        s'.rd TXN_STATUS.OWNER = agent ∧ s'.rd TXN_STATUS.FOREIGN = min (a.rd TXN_STATUS.FOREIGN + 1) 0xFFFF) ∧
    (a.rd TXN_STATUS.OWNER ≠ agent → isHost agent = true ∨ isService agent = true →
      a.allows agent 0x10000 false = true →
      exec (.txnBegin t agent) s =
        .next ((a.answer agent 0).answer agent (BitVec.ofNat 64 (a.rd TXN_STATUS.OWNER)))) ∧
    (a.tb < a.txn.boundary → exec (.txnApply t) s = .next a)

/-- A write to a register that has an entry replaces it; a 257th entry is discarded and sets OVERFLOW; the shadow never
grows past 256; and at the boundary a transaction that has overflowed ends OVERFLOW with its entries discarded.
(R71.) -/
def Obligations.ShadowOfATransaction : Prop :=
  (∀ (s : State) (off : Nat) (v : Word), (s.shadowOf off).isSome = true →
    (s.putShadow off v).shadowOf off = some v ∧ (s.putShadow off v).txn.shadow.length = s.txn.shadow.length) ∧
  (∀ (s : State) (off : Nat) (v : Word), s.shadowOf off = none → 256 ≤ s.txn.shadow.length →
    s.putShadow off v = s.wr TXN_STATUS.OVERFLOW 0 1) ∧
  (∀ (s : State) (off : Nat) (v : Word), s.txn.shadow.length ≤ 256 → (s.putShadow off v).txn.shadow.length ≤ 256) ∧
  ∀ (s a : State) (t : Nat), s.runsAt t a → a.rd TXN_STATUS.STATE = 2 → a.flag TXN_STATUS.OVERFLOW = true →
    a.txn.boundary ≤ a.tb → a.txn.signal = false → ∃ s' : State, exec (.txnApply t) s = .next s' ∧
      s'.rd TXN_STATUS.RESULT = 3 ∧ s'.rd TXN_STATUS.STATE = 0 ∧ s'.txn.shadow = []

/-- SY_EVENT_c holds up to 16 object numbers: a push joins the end, one into sixteen is dropped and sets LOST; a read
answers and removes the oldest; a read of an empty one answers VALID 0. A push that joins asserts the device event
interrupt of the core, and a read that leaves none releases it. (R258, R385.) -/
def Obligations.EventRegisters : Prop :=
  (∀ (s : State) (c obj : Nat), (Tab.get (fun _ => []) s.events c).length ≤ 16 →
      (Tab.get (fun _ => []) (s.pushEvent c obj).events c).length ≤ 16) ∧
  (∀ (s : State) (c obj : Nat), (Tab.get (fun _ => []) s.events c).length < 16 →
      Tab.get (fun _ => []) (s.pushEvent c obj).events c = Tab.get (fun _ => []) s.events c ++ [obj] ∧
    Tab.get (fun _ => false) (s.pushEvent c obj).eventIrq c = true) ∧
  (∀ (s : State) (c obj : Nat), (Tab.get (fun _ => []) s.events c).length = 16 →
    Tab.get (fun _ => []) (s.pushEvent c obj).events c = Tab.get (fun _ => []) s.events c ∧
        Tab.get (fun _ => false) (s.pushEvent c obj).eventLost c = true) ∧
  (∀ (s a : State) (t agent c o : Nat) (r : List Nat), s.runsAt t a → c < 96 →
    a.allows agent (SY_EVENT.OBJ.off c) false = true → Tab.get (fun _ => []) a.events c = o :: r → o < 8192 →
    ∃ s' : State, exec (.syEventRead t agent c) s = .next s' ∧ Tab.get (fun _ => []) s'.events c = r ∧
      Tab.get (fun _ => false) s'.eventIrq c = !r.isEmpty ∧ s'.reply.agent = agent ∧
      SY_EVENT.VALID.get (s'.reply.value.setWidth 64) = 1 ∧ SY_EVENT.OBJ.get (s'.reply.value.setWidth 64) = o) ∧
  (∀ (s a : State) (t agent c : Nat), s.runsAt t a → c < 96 →
    a.allows agent (SY_EVENT.OBJ.off c) false = true → Tab.get (fun _ => []) a.events c = [] →
    ∃ s' : State, exec (.syEventRead t agent c) s = .next s' ∧ Tab.get (fun _ => []) s'.events c = [] ∧
      Tab.get (fun _ => false) s'.eventIrq c = false ∧ s'.reply.agent = agent ∧
      SY_EVENT.VALID.get (s'.reply.value.setWidth 64) = 0)

/-- When no MB_ACK arrives before SEND tick + 2^TLOG2 the mailbox becomes DONE with code NO_RESPONSE, and not before; an
acknowledgement of its responder at that tick or later is discarded and counted in LATE. (R265.) -/
def Obligations.MailboxWindows : Prop :=
  ∀ (s a : State) (t m agent due : Nat) (v : Word), s.runsAt t a → m < 64 →
    due = (a.mbox m).sentAt + 2 ^ a.rd MB_CFG.TLOG2 m →
    (a.mbState m = 2 → due ≤ a.now → ∃ s' : State, exec (.mailboxTimeout t m) s = .next s' ∧ s'.mbState m = 3 ∧
      s'.rd MB_ACK.CODE m = 6) ∧
    (a.mbState m = 2 → a.now < due → exec (.mailboxTimeout t m) s = .next a) ∧
    (a.mbState m = 2 → due ≤ a.now → a.responds m agent = true → a.allows agent (MB_ACK.CODE.off m) true = true →
      ∃ s' : State, exec (.mbAck t agent m v) s = .next s' ∧ s'.mbState m = 3 ∧ s'.rd MB_ACK.CODE m = 6 ∧
        s'.rd MB_STATUS.LATE m = min (a.rd MB_STATUS.LATE m + 1) (2 ^ MB_STATUS.LATE.w - 1)) ∧
    (a.mbState m = 3 → a.rd MB_ACK.CODE m = 6 → a.responds m agent = true →
      a.allows agent (MB_ACK.CODE.off m) true = true →
      exec (.mbAck t agent m v) s =
        .next (((a.answer agent 0).bump MB_STATUS.LATE m).report agent (MB_ACK.CODE.off m) (v.toNat / 256 != 0)
            false))

/-- An admitted NON_CACHING_WRITE of a line of HBM that no core and no channel holds and that answers gives the line the
bytes that the mask enables and leaves its other bytes, every byte of every other line and every other poison mark as
they were; a poisoned line becomes clean only by a full mask. (R274, R401.) -/
def Obligations.NonCachingWritesOfALine : Prop :=
  ∀ (s a : State) (t agent line : Nat) (mask : Word) (d : Line) (found : Found), s.runsAt t a → a.save.phase = 0 →
    a.region (64 * line) = .hbm → a.admits agent true (64 * line) 64 = true → a.holdKey line = none →
        a.dirEntry line = none →
    a.invq = [] → a.grants = [] → a.inStore line = true ∨ a.hbmDead (64 * line) = false →
    ∃ s' : State, exec (.nonCachingWrite t agent line mask d found) s = .next s' ∧
      (∀ k < 64, s'.byte (64 * line + k) = if mask.getLsbD k then Line.byte d k else a.byte (64 * line + k)) ∧
      (∀ pa : Nat, pa / 64 ≠ line → s'.byte pa = a.byte pa) ∧
      s'.poisoned line = (a.poisoned line && mask != fullMask) ∧
      (∀ l : Nat, l ≠ line → s'.poisoned l = a.poisoned l)

/-- An admitted IADD64 at an aligned address of HBM, on a line that no core holds, that is not poison and that answers,
with no finding of the ECC on it, leaves the sum modulo 2^64 in its eight bytes, answers the old value when it
fetches it, and leaves every other byte and every poison mark as they were. (R279, R280.) -/
def Obligations.MemorySideAddsInMemory : Prop :=
  ∀ (s a : State) (t agent : Nat) (r : MopReq), s.runsAt t a → a.save.phase = 0 → r.form = .scalar →
    a.region r.pa = .hbm → r.pa % 8 = 0 → a.admits agent true r.pa 8 = true → a.dirEntry (r.pa / 64) = none →
    a.invq = [] → a.grants = [] → a.holdKey (r.pa / 64) = none → a.poisoned (r.pa / 64) = false →
        a.hbmDead (64 * (r.pa / 64)) = false →
    (∀ e ∈ r.found.ecc, e.1 ≠ r.pa / 64) →
    ∃ s' : State, exec (.iadd64 t agent r) s = .next s' ∧
      s'.readLE r.pa 8 = (a.readLE r.pa 8 + r.operand.toNat) % 2 ^ 64 ∧
      (∀ p : Nat, p < r.pa ∨ r.pa + 8 ≤ p → s'.byte p = a.byte p) ∧
      (∀ l : Nat, s'.poisoned l = a.poisoned l) ∧
      s'.reply.value = (if r.fetch then BitVec.ofNat 512 (a.readLE r.pa 8) else 0)

/-- A write of SY_ADD gives an object without waiters and without an armed trigger VALUE + V modulo 2^64, and a write of
SY_SET gives it V; no other register, no byte of memory and no other state changes but the reply and the clock.
(R246.) -/
def Obligations.ObjectsAddAndSet : Prop :=
  ∀ (s a : State) (t agent obj : Nat) (v : Word), s.runsAt t a → obj < 8192 →
    (∀ w ∈ a.waiters, w.obj ≠ obj) → a.flag SY_TRIG_CFG.ARM obj = false →
    (a.allows agent (SY_ADD.V.off obj) true = true → exec (.syAdd t agent obj v) s =
      .next ((a.answer agent 0).setReg (SY_VAL.VALUE.off obj) (a.reg (SY_VAL.VALUE.off obj) + v))) ∧
    (a.allows agent (SY_SET.V.off obj) true = true → exec (.sySet t agent obj v) s =
      .next ((a.answer agent 0).setReg (SY_VAL.VALUE.off obj) v))

/-- Once SYS_PROT_LOCK is set, a store to any register by any agent leaves every RWL field of that register as it was,
SYS_PROT_LOCK.LOCK itself among them. (R14, R445.) -/
def Obligations.LockedFieldsKeepTheirValues : Prop :=
  ∀ (s : State) (agent off : Nat) (v : Word) (r : Reg) (f : RField), s.locked = true → regAt off = some r →
    f ∈ r.fields → f.acc = .rwl → f.get ((s.storeReg agent off v).reg off) = f.get (s.reg off)

/-- A package reset that no save delays keeps the keep store, the flash and OTP and the commands that wait; every
register reads its reset value, and no core, queue, object, mailbox, link or cache holds anything. (R484.) -/
def Obligations.PackageResetKeeps : Prop :=
  ∀ (s a : State) (t : Nat) (src : ResetSource), a = s.advance t → startsReset src = true → a.save.phase = 0 →
    ∃ s' : State, exec (.packageReset t src) s = .next s' ∧
      (∀ pa : Nat, keepBase ≤ pa → pa < keepBase + 0x4000000 → s'.byte pa = a.byte pa) ∧
      s'.flash = a.flash ∧ s'.fuses = a.fuses ∧ s'.pending = a.pending ∧
      (∀ off : Nat, s'.reg off = regReset off) ∧
      (∀ c : Nat, s'.core c = coreInit c ∧ s'.host c = hostInit c) ∧ (∀ q : Nat, s'.queue q = queueInit q) ∧
      (∀ m : Nat, s'.mbox m = mboxInit m) ∧ (∀ l : Nat, s'.link l = linkInit l) ∧
      s'.dir = [] ∧ s'.waiters = [] ∧ s'.events = [] ∧ s'.inflight = [] ∧ s'.txn.shadow = [] ∧ s'.tb = 0

/-- AOP, AOPI, ALI and ARD that a core issues with no offending field, and whose next PC lies in the program, write their
destination with the value of R158 (A0 stays 0), and leave every other address register, the vector and predicate
registers, the counters, the banks, the scratchpad, the tags, every other core, every register but the PC, and memory
as they were. (R126, R158.) -/
def Obligations.ScalarInstructionsFrame : Prop :=
  ∀ (s a : State) (t core d : Nat) (body : BitVec 56) (k : Core) (kept : State → Prop), s.runsAt t a →
    k = a.core core → d = fieldAt body 47 43 →
    (k.nextPc (a.rd TC_PC.PC core) [4, 3, 2, 1]).2 < k.progLen →
    (∀ s' : State, kept s' ↔
      (∀ x : Nat, x ≠ d ∨ x = 0 → (s'.core core).ar x = k.ar x) ∧
      (s'.core core).v = k.v ∧ (s'.core core).m = k.m ∧ (s'.core core).cc = k.cc ∧ (s'.core core).banks = k.banks ∧
      (s'.core core).sp = k.sp ∧ (s'.core core).layer = k.layer ∧ (s'.core core).opid = k.opid ∧
      (∀ c : Nat, c ≠ core → s'.core c = a.core c) ∧
      (∀ off : Nat, off ≠ TC_PC.PC.off core → s'.reg off = a.reg off) ∧
      s'.mem = a.mem ∧ s'.poison = a.poison ∧ s'.waiters = a.waiters) →
    (a.issuesNow core 0x40 body = true →
        lowestOffence body (maskBits 55 53 ||| maskBits 32 0) [(48, decide (12 < fieldAt body 52 48))] = none →
      ∃ s' : State, exec (.aop t core body) s = .next s' ∧ kept s' ∧
        (d ≠ 0 → (s'.core core).ar d = scalarOp (fieldAt body 52 48) (k.ar (fieldAt body 42 38)) (k.ar (fieldAt body
            37 33)))) ∧
    (a.issuesNow core 0x41 body = true →
        lowestOffence body (maskBits 55 53 ||| maskBits 37 32) [(48, decide (12 < fieldAt body 52 48))] = none →
      ∃ s' : State, exec (.aopi t core body) s = .next s' ∧ kept s' ∧
        (d ≠ 0 → (s'.core core).ar d = scalarOp (fieldAt body 52 48) (k.ar (fieldAt body 42 38)) (BitVec.ofInt 64
            (signedOf 32 (fieldAt body 31 0))))) ∧
    (a.issuesNow core 0x42 body = true →
        lowestOffence body (maskBits 55 50 ||| maskBits 42 32) [(48, fieldAt body 49 48 == 3)] = none →
      ∃ s' : State, exec (.ali t core body) s = .next s' ∧ kept s' ∧
        (d ≠ 0 → (s'.core core).ar d = aliValue (fieldAt body 49 48) (fieldAt body 31 0) (k.ar (fieldAt body 47 43))))
            ∧
    (a.issuesNow core 0x43 body = true →
        lowestOffence body (maskBits 55 48 ||| maskBits 42 8) [(0, decide (15 < fieldAt body 7 0))] = none →
      ∃ s' : State, exec (.ard t core body) s = .next s' ∧ kept s' ∧
        (d ≠ 0 → (s'.core core).ar d = a.ardValue core (fieldAt body 7 0) (a.rd TC_PC.PC core)))

/-- A package reset from any of its sources, a boot, its two time-outs, the loss of a PLL, the relock of a stack, the
control error of a hub and TEST_MODE answer the next state that the rules give. (R25, R446, R481, R484, R490, R531.) -/
def Obligations.PackageResetAndBootComplete : Prop :=
  ∀ (s a : State) (t : Nat), a = s.advance t →
    (∀ (src : ResetSource), startsReset src = true → src ≠ .hubLoss →
      exec (.packageReset t src) s = .next (a.resetDue)) ∧
    (
      exec (.packageReset t .hubLoss) s = .next (a.packageReset)) ∧
    (∀ (env : BootEnv), a.awake = true → a.mayBoot = true →
      exec (.boot t env) s = .next (a.boot env)) ∧
    (∀ (stack : Nat), a.awake = true → a.mayBoot = true → stack < 12 → 50000000 ≤ a.now →
      exec (.hbmTrainingTimeout t stack) s = .next (a.hbmFail)) ∧
    (∀ (since : Nat) (left : List Nat), a.awake = true → a.bringup = some (since, left) → since + 200000000 ≤ a.now →
      exec (.bringupTimeout t) s = .next (((a.each left fun s p => s.wr TIER_PORT_STATUS.STATE p 1).each [0, 1] fun s
          n =>
        if s.rd SYS_CDS_STATUS_n.STATE n = 1 then s.wr SYS_CDS_STATUS_n.STATE n 2 else s).finishBoot)) ∧
    (∀ (l : List Pll), l.any Pll.ofPackage = true → a.inReset = false →
      exec (.pllLockLoss t l) s = .next (a.packageReset)) ∧
    (∀ (l : List Pll), l.any Pll.ofPackage = false → l.contains .refclk = true →
      exec (.pllLockLoss t l) s = .next (a.resetDue)) ∧
    (∀ (l : List Pll), l.any Pll.ofPackage = false → l.contains .refclk = false → a.awake = true →
      exec (.pllLockLoss t l) s = .next (a.losePlls l)) ∧
    (∀ (stack : Nat), a.awake = true → (Tab.get (fun _ => 0) a.mclkHeld stack ≠ 0) →
      exec (.mclkRelock t stack true) s = .next ((State.clkBit
          { a with mclkHeld := Tab.put (fun _ => 0) a.mclkHeld stack 0 } SYS_CLK_STATUS.HBM_LOCK stack true).each
        (stackChans stack) fun s c => if s.rd HM_CH_STATUS.STATE c = 2 then s.holdChan c 1 else s)) ∧
    (∀ (stack : Nat), a.awake = true → (Tab.get (fun _ => 0) a.mclkHeld stack ≠ 0) →
      exec (.mclkRelock t stack false) s = .next (a.packageReset)) ∧
    (∀ (hub : Nat), a.awake = true →
      exec (.hubControlError t hub) s = .next (a.packageReset)) ∧
    (
      exec (.testMode t true) s = .next (({ a with testMode := true }).packageReset)) ∧
    (
      exec (.testMode t false) s = .next ({ a with testMode := false }))

/-- A write of SYS_PROT_LOCK, of BOOT_RELEASE, of any register by a requester whose access has no cause of refusal, and
of a system register of a host core by that core, answer the next state: the answer, the write with its effect, and
the requests that sites held. TXN_BEGIN of an idle transaction opens it for its reader; TXN_COMMIT of its owner seals
it to the next boundary; TXN_ROLLBACK of its owner, TXN_ABORT, the passing of the lease and the boundary end it.
(R57, R60, R68, R73, R76, R77, R78, R390, R442, R445, R446.) -/
def Obligations.LocksAndTransactionsComplete : Prop :=
  ∀ (s a : State) (t : Nat), s.runsAt t a →
    (∀ (agent : Nat) (v : Word), a.allows agent (SYS_PROT_LOCK.LOCK.off 0) true = true →
      exec (.sysProtLock t agent v) s = .next (((a.answer agent 0).storeReg agent (SYS_PROT_LOCK.LOCK.off 0)
          v).releaseSites)) ∧
    (∀ (agent : Nat) (v : Word), a.allows agent (BOOT_RELEASE.CORE.off 0) true = true →
      exec (.bootRelease t agent v) s = .next ((a.answer agent 0).releaseStore agent v)) ∧
    (∀ (agent off : Nat) (v : Word), a.issues agent = true → a.accessCause agent true (regBase + off) 8 = 0 →
      exec (.registerWrite t agent (.space off) v) s = .next (((a.answer agent 0).regWrite agent off v).releaseSites))
          ∧
    (∀ (c num : Nat) (v : Word), a.hostRuns c = true → (a.host c).barrier = 0 →
        num ≠ 0xC02 ∨ (a.host c).settled = true →
      exec (.registerWrite t (0x100 + c) (.system c num) v) s = .next ((a.systemWrite c num v).releaseSites)) ∧
    (∀ (agent : Nat), a.allows agent 0x10000 false = true → ownsTxn agent = true → a.rd TXN_STATUS.STATE = 0 →
      exec (.txnBegin t agent) s = .next (State.answer
          { ((a.answer agent 0).wr TXN_STATUS.STATE 0 1).wr TXN_STATUS.OWNER 0 agent with txn := ⟨[], a.now, (((a.answer agent 0).wr TXN_STATUS.STATE 0 1).wr TXN_STATUS.OWNER 0 agent).rd TXN_CFG.LEASE, 0, false, 0⟩ }
          agent 0)) ∧
    (∀ (agent : Nat) (v : Word) (b : State), a.allows agent 0x10008 true = true →
        b = (a.answer agent 0).storeReg agent 0x10008 v → b.rd TXN_STATUS.STATE = 1 → b.rd TXN_STATUS.OWNER = agent →
      exec (.txnCommit t agent v) s = .next
          ({ b.wr TXN_STATUS.STATE 0 2 with txn := { b.txn with boundary := nextBoundary b.tb, signal := TXN_COMMIT.SIGNAL.get v == 1, sync := TXN_COMMIT.SYNC.get v } }))
          ∧
    (∀ (agent : Nat) (v : Word) (b : State), a.allows agent 0x10010 true = true →
        b = (a.answer agent 0).storeReg agent 0x10010 v → b.rd TXN_STATUS.STATE = 1 → b.rd TXN_STATUS.OWNER = agent →
        TXN_ROLLBACK.GO.get v = 1 →
      exec (.txnRollback t agent v) s = .next (b.txnEnd 2 b.tb)) ∧
    (∀ (agent : Nat) (v : Word) (b : State), a.allows agent 0x10038 true = true →
        b = (a.answer agent 0).storeReg agent 0x10038 v → b.rd TXN_STATUS.STATE ≠ 0 → TXN_ABORT.GO.get v = 1 →
      exec (.txnAbort t agent v) s = .next (b.txnEnd 6 b.tb)) ∧
    (a.rd TXN_STATUS.STATE = 2 → a.txn.boundary ≤ a.tb →
      exec (.txnApply t) s = .next (a.txnBoundary)) ∧
    (a.rd TXN_STATUS.STATE = 1 → a.txn.begun + a.txn.lease * 1000 ≤ a.now →
      exec (.leaseExpiry t) s = .next (a.txnEnd 5 a.tb))

/-- A parity error, the resent transfer of a port that waits for one, the 1 ms window, the supply cut and the loss of a
site, and a request of an agent of a site, answer the next state that the rules give. A write of SYS_TB_CFG, an
exchange of timing messages that is due or whose answer has come, and the entry of HOLDOVER answer the next state
that the rules give. (R21, R31, R33, R36, R43, R44, R46, R442.) -/
def Obligations.PortsSitesAndTimebaseComplete : Prop :=
  ∀ (s a : State) (t : Nat), s.runsAt t a →
    (∀ (port : Nat), port < 12 →
      exec (.d2dParityError t port) s = .next ({ a with d2dWait := Tab.put (fun _ => false) a.d2dWait port true })) ∧
    (∀ (port agent pa : Nat) (into : D2dInto), (Tab.get (fun _ => false) a.d2dWait port = true) →
      exec (.d2dResentTransfer t port agent pa into false) s = .next
          ({ a with d2dWait := Tab.put (fun _ => false) a.d2dWait port false })) ∧
    (∀ (port agent pa n : Nat) (into : D2dInto), (Tab.get (fun _ => false) a.d2dWait port = true) →
        (n = Tab.get (fun _ => 0) a.d2dPoison port + 1) →
      exec (.d2dResentTransfer t port agent pa into true) s = .next ((State.poisonInto
          { a with d2dWait := Tab.put (fun _ => false) a.d2dWait port false, d2dPoison := Tab.put (fun _ => 0) a.d2dPoison port n }
          agent pa into).faultRecord 1 port 0xFFF agent pa n)) ∧
    (∀ (site mean : Nat) (b : State), site < 2 → 4000 < mean → b = a.wr SYS_CDS_STATUS_n.POWER site (min mean 65535) →

      exec (.sitePowerWindow t site mean) s = .next ((State.wr
          { b with siteThrottle := Tab.put (fun _ => 0) b.siteThrottle site (Tab.get (fun _ => 0) b.siteThrottle site + 1) }
          SYS_CDS_STATUS_n.OVER site 1).openEvent 2 (sitePolder site) nobodys 0 40 true)) ∧
    (∀ (site mean : Nat), site < 2 → mean ≤ 4000 →
        (a.wr SYS_CDS_STATUS_n.POWER site (min mean 65535)).cap (sitePolder site) = 0 →
      exec (.sitePowerWindow t site mean) s = .next (((a.wr SYS_CDS_STATUS_n.POWER site (min mean 65535)).endAct 2
          (sitePolder site)).closeEvents)) ∧
    (∀ (site mean : Nat), site < 2 → mean ≤ 4000 →
        (a.wr SYS_CDS_STATUS_n.POWER site (min mean 65535)).cap (sitePolder site) ≠ 0 →
      exec (.sitePowerWindow t site mean) s = .next (a.wr SYS_CDS_STATUS_n.POWER site (min mean 65535))) ∧
    (∀ (site : Nat), site < 2 →
      exec (.siteSupplyCut t site) s = .next (((a.wr SYS_CDS_STATUS_n.CUT site 1).downSite site 0).wr
          SYS_CDS_STATUS_n.STATE site 5)) ∧
    (∀ (site cause : Nat), site < 2 →
      exec (.siteDown t site cause) s = .next (a.downSite site cause)) ∧
    (∀ (site n cls pa size : Nat) (wr : Bool) (data : Line) (found : Found), site < 2 → n < 16 → 1 ≤ size →
        size ≤ 64 → a.siteIssues site n cls = true → a.locked = false →
      exec (.customerDieRequest t site n cls pa size wr data found) s = .next
          ({ a with siteHeld := a.siteHeld ++ [⟨site, 0x8000 + 16 * site + n, cls, pa, size, wr, data⟩] })) ∧
    (∀ (site n cls pa size : Nat) (wr : Bool) (data : Line) (found : Found), site < 2 → n < 16 → 1 ≤ size →
        size ≤ 64 → a.siteIssues site n cls = true → a.locked = true →
      exec (.customerDieRequest t site n cls pa size wr data found) s = .next (a.reads found 0 (0x8000 + 16 * site +
          n) (fun s => s.siteRequest ⟨site, 0x8000 + 16 * site + n, cls, pa, size, wr, data⟩))) ∧
    (∀ (agent : Nat) (v : Word), a.allows agent (SYS_TB_CFG.ENABLE.off 0) true = true →
      exec (.sysTbCfgWrite t agent v) s = .next ((a.answer agent 0).tbStore agent v)) ∧
    (∀ (g t1 t2 t3 t4 : Nat), a.exchanges = true → a.tbXchg = some ⟨g, t1, some (t2, t3, t4)⟩ →
      exec (.timingExchange t) s = .next (a.measured t1 t2 t3 t4)) ∧
    (a.exchanges = true → a.tbXchg = none → a.tb % 2 ^ a.rd SYS_TB_CFG.SYNC_LOG2 = 0 → a.tb ≠ a.tbFrom →
      exec (.timingExchange t) s = .next (a.askTime)) ∧
    (a.flag SYS_TB_CFG.ENABLE = true → a.flag SYS_TB_CFG.ROOT = false → a.rd SYS_TB_STATUS.STATE = 2 →
        a.tbLast + 4 * 2 ^ a.rd SYS_TB_CFG.SYNC_LOG2 ≤ a.now →
      exec (.holdoverEntry t) s = .next ((a.wr SYS_TB_STATUS.STATE 0 3).traceTb false))

/-- With no transaction open, the enabling of a record ring; a write of a context root; an invalidation by tag and its
completion; a continuation record; the resolution of a fault; the walk of a chosen command; and a walk ahead, answer
the next state that the rules give. (R225, R227, R228, R235, R240, R242, R285.) -/
def Obligations.TranslationCompletes : Prop :=
  ∀ (s a : State) (t : Nat), s.runsAt t a →
    (∀ (agent ring : Nat) (v : Word), ring < 21 → (ringOf ring).enable.get v = 1 →
        a.allows agent ((ringOf ring).enable.off (ringOf ring).idx) true = true → a.rd TXN_STATUS.STATE = 0 →
      exec (.ringEnable t agent ring v) s = .next ((a.answer agent 0).ringStore agent ring v)) ∧
    (∀ (agent ctx : Nat) (v : Word), ctx < 4096 → a.allows agent (TR_CTX.VALID.off ctx) true = true →
      exec (.trCtxWrite t agent ctx v) s = .next ((a.answer agent 0).rootStore agent ctx v)) ∧
    (∀ (agent : Nat) (v : Word) (b : State), a.allows agent (TR_INVAL_AST.TAG.off 0) true = true →
        b = (a.answer agent 0).storeReg agent (TR_INVAL_AST.TAG.off 0) v → b.invals.length < 64 →
      exec (.trInvalAst t agent v) s = .next (b.invalidate (TR_INVAL_AST.TAG.get v) (TR_INVAL_AST.SIGNAL.get v == 1)
          (TR_INVAL_AST.SYNC.get v) agent)) ∧
    (∀ (k : Nat) (x : Inval), (a.invals.find? (fun y => y.k == k) = some x) → x.marked.any a.stillHeld = false →
      exec (.invalidationComplete t k) s = .next (if x.signal then State.notify
          { a with invals := a.invals.filter (fun y => y.k != k) } x.agent x.sync else
          { a with invals := a.invals.filter (fun y => y.k != k) })) ∧
    (∀ (slot : Nat) (f : OpenFault) (due : List (Nat × Nat)), (a.faults.find? (fun g => g.slot == slot) = some f) →
        (due = (f.unlisted.filter fun e => decide (e.2 < a.now)).take 16) → due.isEmpty = false → a.edge 1000 = true →

      exec (.continuationRecord t slot) s = .next (State.ringRecord
          { a with faults := a.faults.map (fun x => if x.slot = slot then { f with unlisted := f.unlisted.filter fun e => !due.contains e } else x) }
          0 (faultWords f true (due.map Prod.fst)))) ∧
    (∀ (agent : Nat) (v : Word) (b : State) (f : OpenFault), a.allows agent (TR_FAULT_RESOLVE.SLOT.off 0) true = true
        → b = (a.answer agent 0).storeReg agent (TR_FAULT_RESOLVE.SLOT.off 0) v →
        (b.faults.find? (fun g => g.slot == TR_FAULT_RESOLVE.SLOT.get v && g.seq % 2 ^ 32 == TR_FAULT_RESOLVE.SEQ.get
        v) = some f) →
      exec (.trFaultResolve t agent v) s = .next ((State.each
          { b with faults := b.faults.filter (fun x => x.slot != TR_FAULT_RESOLVE.SLOT.get v) } f.queues (fun s q =>
          s.resolveQueue (TR_FAULT_RESOLVE.ACTION.get v == 1) q)).slotFreed)) ∧
    (∀ (q : Nat) (found : Found), (a.queue q).chosen = true → a.save.phase = 0 →
      exec (.walk t q found) s = .next (a.reads found 0 (0x4000 + q) (fun s => s.walkQueue q))) ∧
    (∀ (q va : Nat) (found : Found), a.qRuns q = true →
        ((((a.queue q).fetched.take 4).flatMap fun f => cmdRanges f.words).any (fun r => decide (r.1 ≤ va) && decide
        (va < r.1 + r.2)) = true) →
      exec (.walkAhead t q va found) s = .next (a.reads found 0 (0x4000 + q) (fun s => (s.walk1 (hubOfQueue q) (s.rd
          QE_Q_CFG.CONTEXT q) va false true).2)))

/-- A load that nothing stalls and no cause refuses takes forwarded bytes, or the bytes of memory; a store enters the
buffer; a buffered store is performed in the cache of its core, or at its target; an atomic is performed by the adder
of its line or at its home; a load-reserved takes its bytes and the reservation; a store-conditional without its
reservation fails in the core, in an EXCLUSIVE line succeeds, and otherwise waits for the home; a poisoned line
raises the poison exception, an access that has a cause of refusal the device-access fault, and a load from register
space or a peer window is performed there. What the reads find follows once no read meets a channel or port that
holds requests. (R378, R379, R380, R402, R411.) -/
def Obligations.HostAccessesComplete : Prop :=
  ∀ (s a : State) (t : Nat), s.runsAt t a →
    (∀ (core pa size tag : Nat) (kind : AccessKind) (found : Found) (x : List Byte) (b r : State), a.hostIssues core =
        true → 1 ≤ size → size ≤ 64 → kind ≠ .cmo → kind ≠ .fetch →
        b = (a.reading found 0 (0x100 + core)).tlbUse core tag → b.loadStalls core = false →
        b.hostCause core false pa size kind = 0 → (b.host core).overlaps pa size = true →
        b.forwarded core pa size = some x → (a.reading found 0 (0x100 + core)).readsCaches core pa size kind = false →
        r = b.loaded core kind x → r.access.blocked = none →
      exec (.hostCoreLoad t core pa size tag kind found) s = .next (r.readsDone)) ∧
    (∀ (core pa size tag : Nat) (kind : AccessKind) (found : Found) (x : List Byte × Option Nat × State) (b r :
        State), a.hostIssues core = true → 1 ≤ size → size ≤ 64 → kind ≠ .cmo →
        b = ((a.reading found 0 (0x100 + core)).ownParity core (linesOf pa size) found).tlbUse core tag →
        (a.reading found 0 (0x100 + core)).readsCaches core pa size kind = true → b.loadStalls core = false →
        b.hostCause core false pa size kind = 0 → kind = .fetch ∨ (b.host core).overlaps pa size = false →
        b.region pa ≠ .peer → b.region pa ≠ .regs → b.hostBytes core pa size (kind == .fetch) = some x →
        x.2.1 = none → r = x.2.2.loaded core kind x.1 → r.access.blocked = none →
      exec (.hostCoreLoad t core pa size tag kind found) s = .next (r.readsDone)) ∧
    (∀ (core pa size tag : Nat) (kind : AccessKind) (found : Found) (b r : State), a.hostIssues core = true →
        1 ≤ size → size ≤ 64 → kind ≠ .cmo →
        b = ((a.reading found 0 (0x100 + core)).ownParity core (linesOf pa size) found).tlbUse core tag →
        (a.reading found 0 (0x100 + core)).readsCaches core pa size kind = true → b.loadStalls core = false →
        b.hostCause core false pa size kind = 0 → kind = .fetch ∨ (b.host core).overlaps pa size = false →
        b.region pa = .peer ∨ b.region pa = .regs → r = b.doLoad core pa size tag kind → r.access.blocked = none →
      exec (.hostCoreLoad t core pa size tag kind found) s = .next (r.readsDone)) ∧
    (∀ (core pa size tag line : Nat) (kind : AccessKind) (found : Found) (x : List Byte × Option Nat × State) (b r :
        State), a.hostIssues core = true → 1 ≤ size → size ≤ 64 → kind ≠ .cmo →
        b = ((a.reading found 0 (0x100 + core)).ownParity core (linesOf pa size) found).tlbUse core tag →
        (a.reading found 0 (0x100 + core)).readsCaches core pa size kind = true → b.loadStalls core = false →
        b.hostCause core false pa size kind = 0 → kind = .fetch ∨ (b.host core).overlaps pa size = false →
        b.region pa ≠ .peer → b.region pa ≠ .regs → b.hostBytes core pa size (kind == .fetch) = some x →
        x.2.1 = some line → r = x.2.2.poisonFault core line → r.access.blocked = none →
      exec (.hostCoreLoad t core pa size tag kind found) s = .next (r.readsDone)) ∧
    (∀ (core pa size tag : Nat) (kind : AccessKind) (found : Found) (b r : State), a.hostIssues core = true →
        1 ≤ size → size ≤ 64 → b = (a.reading found 0 (0x100 + core)).tlbUse core tag →
        (a.reading found 0 (0x100 + core)).readsCaches core pa size kind = false → b.loadStalls core = false →
        b.hostCause core false pa size kind ≠ 0 → r = b.accessFault core (b.hostCause core false pa size kind) pa →
        r.access.blocked = none →
      exec (.hostCoreLoad t core pa size tag kind found) s = .next (r.readsDone)) ∧
    (∀ (core pa size tag : Nat) (kind : AccessKind) (data : Line) (b : State), a.hostIssues core = true → 1 ≤ size →
        size ≤ 64 → b = a.tlbUse core tag → b.storeStalls core (storePieces pa size data).length = false →
        b.hostCause core true pa size kind ≠ 0 →
      exec (.hostCoreStore t core pa size tag kind data) s = .next (b.accessFault core (b.hostCause core true pa size
          kind) pa)) ∧
    (∀ (core pa size tag op : Nat) (x y : Word) (found : Found), a.hostIssues core = true →
        a.atomicStalls core = false → a.atomicCause core true pa size ≠ 0 →
      exec (.hostAtomic t core pa size tag op x y found) s = .next (a.accessFault core (a.atomicCause core true pa
          size) pa)) ∧
    (∀ (core pa size tag : Nat) (found : Found), a.hostIssues core = true → a.loadStalls core = false →
        a.atomicCause core false pa size ≠ 0 →
      exec (.loadReserved t core pa size tag found) s = .next (a.accessFault core (a.atomicCause core false pa size)
          pa)) ∧
    (∀ (core pa size tag : Nat) (kind : AccessKind) (data : Line) (b : State), a.hostIssues core = true → 1 ≤ size →
        size ≤ 64 → b = a.tlbUse core tag → kind ≠ .cmo → kind ≠ .fetch →
        b.storeStalls core (storePieces pa size data).length = false → b.hostCause core true pa size kind = 0 →
      exec (.hostCoreStore t core pa size tag kind data) s = .next ((b.each (storePieces pa size data) fun s p =>
          s.pushStore core tag p).issuePeers core)) ∧
    (∀ (core i : Nat) (e : SbEntry) (found : Found) (m : State) (b r : State), core < 96 →
        (a.host core).sb[i]? = some e → e.sent = false → a.mayStore core i e = true → a.region e.pa ≠ .peer →
        (a.region e.pa).coherent = true →
        b = ((a.reading found 0 (0x100 + core)).ownParity core [e.pa / 64] found).settle (e.pa / 64) →
        b.performCached core e = some m → r = m → r.access.blocked = none →
      exec (.storeAck t core i .ok found) s = .next (r.readsDone)) ∧
    (∀ (core i : Nat) (ack : AckKind) (e : SbEntry) (found : Found), core < 96 → (a.host core).sb[i]? = some e →
        e.sent = true →
      exec (.storeAck t core i ack found) s = .next (a.ackPeer core e ack)) ∧
    (∀ (core i : Nat) (e : SbEntry) (found : Found), core < 96 → (a.host core).sb[i]? = some e → e.sent = false →
        a.mayStore core i e = true → a.region e.pa ≠ .peer → (a.region e.pa).coherent = false →
      exec (.storeAck t core i .ok found) s = .next (a.ackTarget core e)) ∧
    (∀ (core pa size tag op : Nat) (x y old : Word) (found : Found) (m : State) (b r : State), a.hostIssues core =
        true → a.atomicStalls core = false → a.atomicCause core true pa size = 0 →
        ([1, 2, 4, 8] : List Nat).contains size = true → pa % size = 0 → mopSize op = some size →
        b = (a.reading found 2 (0x100 + core)).tlbUse core tag →
        b.mop (0x100 + core) op ⟨.scalar, pa, true, hostOperand size op x y, 0, 0, 0, .none, none⟩ = (some (.ok old),
        m) → r = m.loaded core .plain (natLE size old.toNat) → r.access.blocked = none →
      exec (.hostAtomic t core pa size tag op x y found) s = .next (r.readsDone)) ∧
    (∀ (core pa size tag op : Nat) (x y : Word) (found : Found) (b r : State), a.hostIssues core = true →
        a.atomicStalls core = false → a.atomicCause core true pa size = 0 →
        ([1, 2, 4, 8] : List Nat).contains size = true → pa % size = 0 → mopSize op = none →
        b = (a.reading found 0 (0x100 + core)).tlbUse core tag →
        ((b.coTake (pa / 64)).fetchLine (pa / 64)).2.1 = false → r = b.homeAtomic core pa size op x y →
        r.access.blocked = none →
      exec (.hostAtomic t core pa size tag op x y found) s = .next (r.readsDone)) ∧
    (∀ (core pa size tag : Nat) (found : Found) (x : List Byte × Option Nat × State) (b r : State), a.hostIssues core
        = true → a.loadStalls core = false → a.atomicCause core false pa size = 0 → 1 ≤ size →
        pa / 64 = (pa + size - 1) / 64 → (a.host core).overlaps pa size = false →
        b = ((a.reading found 0 (0x100 + core)).ownParity core [pa / 64] found).tlbUse core tag →
        b.hostBytes core pa size = some x → x.2.1 = none →
        r = (x.2.2.setHost core { x.2.2.host core with resv := some (pa / 64) }).loaded core .plain x.1 →
        r.access.blocked = none →
      exec (.loadReserved t core pa size tag found) s = .next (r.readsDone)) ∧
    (∀ (core pa size tag : Nat) (data : Word) (broken : Bool) (b m : State), a.hostIssues core = true →
        a.atomicStalls core = false → (b = if broken then a.setHost core { a.host core with resv := none } else a) →
        b.atomicCause core true pa size = 0 → 1 ≤ size → size ≤ 8 → pa / 64 = (pa + size - 1) / 64 →
        m = b.tlbUse core tag → (m.host core).resv ≠ some (pa / 64) →
      exec (.storeConditional t core pa size tag data broken) s = .next (m.setHost core
          { m.host core with resv := none, scOk := false })) ∧
    (∀ (core pa size tag : Nat) (data : Word) (broken : Bool) (b m : State), a.hostIssues core = true →
        a.atomicStalls core = false → (b = if broken then a.setHost core { a.host core with resv := none } else a) →
        b.atomicCause core true pa size = 0 → 1 ≤ size → size ≤ 8 → pa / 64 = (pa + size - 1) / 64 →
        m = b.tlbUse core tag → (m.host core).resv = some (pa / 64) →
        ((m.host core).cache.any (fun x => x.line == pa / 64 && x.excl) = true) →
      exec (.storeConditional t core pa size tag data broken) s = .next ((m.setHost core
          { m.host core with scPend := some (pa, size, data) }).scStore core (pa / 64))) ∧
    (∀ (core pa size tag : Nat) (data : Word) (broken : Bool) (b m : State), a.hostIssues core = true →
        a.atomicStalls core = false → (b = if broken then a.setHost core { a.host core with resv := none } else a) →
        b.atomicCause core true pa size = 0 → 1 ≤ size → size ≤ 8 → pa / 64 = (pa + size - 1) / 64 →
        m = b.tlbUse core tag → (m.host core).resv = some (pa / 64) →
        ((m.host core).cache.any (fun x => x.line == pa / 64 && x.excl) = false) →
      exec (.storeConditional t core pa size tag data broken) s = .next (m.setHost core
          { m.host core with scPend := some (pa, size, data) }))

/-- A barrier of a core that waits at none is taken and completes when it can; a TLB invalidation drops the entries of
its tag and waits for the accesses that used them; a read of HC_DEVSYN, a write of HC_STRICT once every earlier
access has been performed, and a write of HC_L2LOCK take effect, a handler that returned having taken the lost stores
that waited for it. (R374, R376, R377, R382, R384, R388.) -/
def Obligations.BarriersAndSystemRegistersComplete : Prop :=
  ∀ (s a : State) (t : Nat), s.runsAt t a →
    (∀ (core : Nat), a.hostRuns core = true → (a.host core).barrier = 0 → (a.host core).scPend = none →
      exec (.acquire t core) s = .next ((a.setHost core
          { a.host core with barrier := 1, barSeq := (a.host core).nextAcc }).tryBarrier core)) ∧
    (∀ (core : Nat), a.hostRuns core = true → (a.host core).barrier = 0 → (a.host core).scPend = none →
      exec (.release t core) s = .next ((a.setHost core
          { a.host core with barrier := 2, barSeq := (a.host core).nextAcc }).tryBarrier core)) ∧
    (∀ (core : Nat), a.hostRuns core = true → (a.host core).barrier = 0 → (a.host core).scPend = none →
      exec (.full t core) s = .next ((a.setHost core
          { a.host core with barrier := 3, barSeq := (a.host core).nextAcc }).tryBarrier core)) ∧
    (∀ (core : Nat), a.hostRuns core = true → (a.host core).barrier = 0 → (a.host core).scPend = none →
      exec (.device t core) s = .next ((a.setHost core
          { a.host core with barrier := 4, barSeq := (a.host core).nextAcc }).tryBarrier core)) ∧
    (∀ (core : Nat), a.hostRuns core = true → (a.host core).barrier = 0 → (a.host core).scPend = none →
      exec (.rc t core) s = .next ((a.setHost core
          { a.host core with barrier := 5, barSeq := (a.host core).nextAcc }).tryBarrier core)) ∧
    (∀ (core tag : Nat) (b : State), a.hostRuns core = true → (a.host core).barrier = 0 → b = a.tlbDrop tag →
      exec (.tlbInvalidation t core tag) s = .next (b.setHost core
          { b.host core with tlbi := (b.host core).tlbi ++ [a.tlbMarks tag] })) ∧
    (∀ (core : Nat) (returned : Bool), a.hostRuns core = true → (a.host core).barrier = 0 →
      exec (.hcDevsynRead t core returned) s = .next ((if returned then a.takeLost core else a).devsynRead core)) ∧
    (∀ (core : Nat) (returned : Bool) (v : Word), a.hostRuns core = true → (a.host core).barrier = 0 →
        (a.host core).settled = true →
      exec (.hcStrictWrite t core returned v) s = .next ((if returned then a.takeLost core else a).strictStore core
          v)) ∧
    (∀ (core : Nat) (v : Word), a.hostRuns core = true → (a.host core).barrier = 0 →
      exec (.hcL2lockWrite t core v) s = .next (a.l2lockStore core v))

/-- An eviction, a notice, a write-back, a read for a shared copy and a read for ownership that find room, and the
decision of an outstanding store-conditional, answer the next state that the rules give; a request whose line a
channel or a port holds waits in its order of arrival. (R372, R380, R396, R400, R402.) -/
def Obligations.HomeRequestsComplete : Prop :=
  ∀ (s a : State) (t : Nat), s.runsAt t a →
    (∀ (core line : Nat) (parityOk : Bool) (x : CacheLine), ((a.host core).cache.find? (fun x => x.line == line) =
        some x) → a.awaits core line = false →
      exec (.l2Eviction t core line parityOk) s = .next (if parityOk then a.evictLine core x else a.cacheParity core
          line)) ∧
    (∀ (core line : Nat) (x : CacheLine), ((a.host core).wb.find? (fun x => x.line == line) = some x) →
        x.dirty = false → x.poison = false →
      exec (.notice t core line) s = .next (a.flushWb core line)) ∧
    (∀ (core line : Nat) (x : CacheLine), ((a.host core).wb.find? (fun x => x.line == line) = some x) →
        a.homeTakes line = true → x.dirty = true ∨ x.poison = true → a.holdKey line = none →
      exec (.writeBack t core line) s = .next (a.flushWb core line)) ∧
    (∀ (core line : Nat) (found : Found) (x : Line × Bool × State) (b r : State), a.homeTakes line = true →
        (a.host core).released = true → a.holdKey line = none → b = a.reading found 0 (0x100 + core) →
        b.readShared core line = some x → r = x.2.2.answerLine (0x100 + core) x.1 x.2.1 → r.access.blocked = none →
      exec (.readShared t core line found) s = .next (r.readsDone)) ∧
    (∀ (core line : Nat) (found : Found) (m : State) (b r : State), a.homeTakes line = true →
        (a.host core).released = true → a.holdKey line = none → b = a.reading found 0 (0x100 + core) →
        b.readOwn core line = some m → r = m → r.access.blocked = none →
      exec (.readForOwnership t core line found) s = .next (r.readsDone)) ∧
    (∀ (core line : Nat) (found : Found) (b r : State), a.asksCond core line = true → a.holdKey line = none →
        b = ((a.reading found 0 (0x100 + core)).flushWb core line).lookup line → b.dirEntry line = none →
        r = b.setHost core { b.host core with scPend := none, scOk := false, resv := none } →
        r.access.blocked = none →
      exec (.conditionalReadForOwnership t core line found) s = .next (r.readsDone)) ∧
    (∀ (core line : Nat) (found : Found) (m : State) (e : DirEntry) (b r : State), a.asksCond core line = true →
        a.holdKey line = none → b = ((a.reading found 0 (0x100 + core)).flushWb core line).lookup line →
        b.dirEntry line = some e → e.state = 2 ∨ ((e.state = 1 ∨ e.state = 3) ∧ e.ptrs.contains core = true) →
        b.readOwn core line = some m → r = m → r.access.blocked = none →
      exec (.conditionalReadForOwnership t core line found) s = .next (r.readsDone))

/-- A coherent read and a non-caching write that the dike table admits are answered, or held by a channel or a port in
recovery; an invalidation at the front of the queue of a cluster is applied and acknowledged; a probe reports. (R291,
R299, R399, R401, R407.) -/
def Obligations.CoherentAccessesComplete : Prop :=
  ∀ (s a : State) (t : Nat), s.runsAt t a →
    (∀ (agent line k : Nat) (found : Found), a.homeTakes line = true → a.admits agent false (64 * line) 64 = true →
        a.holdKey line = some k →
      exec (.coherentRead t agent line found) s = .next
          ({ a with heldReqs := a.heldReqs ++ [(k, HeldReq.read agent line found)] }.noteWait k)) ∧
    (∀ (agent line : Nat) (found : Found) (b r : State), a.homeTakes line = true →
        a.admits agent false (64 * line) 64 = true → a.holdKey line = none → b = a.reading found 0 agent →
        r = (b.coRead line).2.2.answerLine agent (b.coRead line).1 (b.coRead line).2.1 → r.access.blocked = none →
      exec (.coherentRead t agent line found) s = .next (r.readsDone)) ∧
    (∀ (agent line : Nat) (mask : Word) (data : Line) (found : Found) (b r : State), a.homeTakes line = true →
        a.admits agent true (64 * line) 64 = true → a.holdKey line = none → b = a.reading found 0 agent →
        r = (b.coWrite line mask data).answer agent 0 0 (b.failedLine line) → r.access.blocked = none →
      exec (.nonCachingWrite t agent line mask data found) s = .next (r.readsDone)) ∧
    (∀ (cluster : Nat) (e : Nat × Nat) (r : List (Nat × Nat)), (Tab.get (fun _ => []) a.invq cluster = e :: r) →
      exec (.invalidation t cluster) s = .next ((State.applyInval
          { a with invq := Tab.put (fun _ => []) a.invq cluster r } cluster e).ackInval cluster e.1)) ∧
    (∀ (agent : Nat) (v : Word), a.allows agent 0x38001000 true = true →
      exec (.dirProbe t agent v) s = .next (((a.answer agent 0).storeReg agent 0x38001000 v).probeLine (bitsOf v.toNat
          51 6)))

/-- A chosen LAUNCH whose cores and extent list pass their checks and which the Sluice admits claims and starts; its
cores begin together when all are idle and none is lent to factor passes; the program of a core loads once every
burst of it has been answered; the launch completes when every core has ended; a core whose sibling has failed stops,
and one past its limit raises WATCHDOG. (R129, R130, R131, R164, R166, R207, R208, R338.) -/
def Obligations.LaunchesComplete : Prop :=
  ∀ (s a : State) (t : Nat), s.runsAt t a →
    (∀ (q i need : Nat) (found : Found) (f : Fetched) (exts : List Extent) (cs : List (Nat × Nat)) (m n c u : State)
        (x : InFlight) (b r : State), a.chosenHead q i = some f → kindOf f.words = 1 → f.status = 0 →
        b = (a.reading found 0 (0x4000 + q)).setQueue q { a.queue q with faulted := false } →
        c = n.startHead q f exts → u = ((c.setFlight { x with claims := cs, need := need }).passHead q).closeEvents →
        b.badCore f.words = none → b.prepLaunch q f.words = (.ok exts, m) → m.coresFree f.words = true →
        m.admitWhy (m.launchReq q f.words) = none →
        (m.stepRamp (m.launchReq q f.words)).admitLaunch (m.launchReq q f.words) = (cs, need, n) →
        c.flight q f.i = some x → (u.queue q).faulted = false → r = u.leaveFault q → r.access.blocked = none →
      exec (.launch t q i found) s = .next (r.readsDone)) ∧
    (∀ (q i : Nat) (x : InFlight), a.flight q i = some x → x.kind = 1 → x.begun = false → x.status = none →
        a.save.phase = 0 → ((launchCores x.words).find? (fun c => !a.usable c) = none) →
        ((launchCores x.words).all (fun c => a.rd TC_STATUS.STATE c == 1 && !a.factorHeld c) = true) →
      exec (.launchDispatch t q i) s = .next ((a.setFlight { x with begun := true }).each (launchCores x.words).zipIdx
          fun s e => s.beginCore x e)) ∧
    (∀ (core : Nat) (found : Found) (l : LaunchRef) (b r : State), (a.core core).launch = some l →
        (a.core core).loaded = false → (a.core core).ended = false → a.rd TC_STATUS.STATE core = 2 →
        a.loadOwed core = 0 → (a.loadBursts core l).length ≤ (a.core core).loadAsked →
        b = a.reading found 0 (0x1000 + core) → r = b.loadCore core l → r.access.blocked = none →
      exec (.programLoadDone t core found) s = .next (r.readsDone)) ∧
    (∀ (q i : Nat) (x : InFlight), a.flight q i = some x → x.kind = 1 → x.begun = true → x.status = none →
        ((launchCores x.words).all (fun c => x.ends.any (fun e => e.core == c)) = true) →
      exec (.launchComplete t q i) s = .next (a.finishLaunch x)) ∧
    (∀ (core r : Nat) (l : LaunchRef), (a.core core).launch = some l → a.failedRank l = some r →
        (a.core core).ended = false →
      exec (.sibling t core) s = .next (a.raise core 15 (a.rd TC_PC.PC core) r)) ∧
    (∀ (core f : Nat) (l : LaunchRef), (a.core core).lastLaunch = some l → (a.core core).firstIssue = some f →
        0 < l.limit → f + 2 ^ l.limit * 1000 ≤ a.now →
      exec (.watchdog t core) s = .next (a.raise core 14 (a.rd TC_PC.PC core) 0))

/-- NOP, END of a core with no work left, BR, BRC, LOOP and FENCE, issued at the PC of a core with no offending field and
no exception of their own, take effect. SSIG performs its signal, or with REL holds it while copies are in flight;
SWAIT whose condition holds passes, and otherwise registers its core as a waiter; the first HINT of a window reaches
the Sluice, a later one is counted. (R130, R133, R153, R154, R155, R157, R159, R160.) -/
def Obligations.TileControlAndSignalsComplete : Prop :=
  ∀ (s a : State) (t : Nat), s.runsAt t a →
    (∀ (core : Nat) (body : BitVec 56), a.issuesNow core 0x00 body = true →
        lowestOffence body (maskBits 55 0) [] = none →
      exec (.nop t core body) s = .next ((a.markIssue core).passPc core (a.rd TC_PC.PC core))) ∧
    (∀ (core : Nat) (body : BitVec 56), a.issuesNow core 0x01 body = true →
        lowestOffence body (maskBits 55 0) [] = none → ((a.markIssue core).core core).quiet true true true = true →
      exec (.end_ t core body) s = .next ((a.markIssue core).endLaunch core ⟨0, (a.rd TC_PC.PC core), 0, 0,
          (a.markIssue core).now⟩ (a.markIssue core).tb)) ∧
    (∀ (core : Nat) (body : BitVec 56), a.issuesNow core 0x48 body = true →
        lowestOffence body (maskBits 55 24) [] = none →
      exec (.br t core body) s = .next ((a.markIssue core).branch core (a.rd TC_PC.PC core) (fieldAt body 23 0))) ∧
    (∀ (core : Nat) (body : BitVec 56), a.issuesNow core 0x49 body = true → lowestOffence body (maskBits 46 24)
        [(52, decide (5 < fieldAt body 55 52)),
         (50, (fieldAt body 55 52 == 4 || fieldAt body 55 52 == 5) && decide (7 < fieldAt body 51 47))] = none →
             brcHolds ((a.markIssue core).core core) (fieldAt body 55 52) (fieldAt body 51 47) = true →
      exec (.brc t core body) s = .next ((a.markIssue core).branch core (a.rd TC_PC.PC core) (fieldAt body 23 0))) ∧
    (∀ (core : Nat) (body : BitVec 56), a.issuesNow core 0x49 body = true → lowestOffence body (maskBits 46 24)
        [(52, decide (5 < fieldAt body 55 52)),
         (50, (fieldAt body 55 52 == 4 || fieldAt body 55 52 == 5) && decide (7 < fieldAt body 51 47))] = none →
             brcHolds ((a.markIssue core).core core) (fieldAt body 55 52) (fieldAt body 51 47) = false →
      exec (.brc t core body) s = .next ((a.markIssue core).passPc core (a.rd TC_PC.PC core))) ∧
    (∀ (core : Nat) (body : BitVec 56) (k : Core) (on : List Nat), a.issuesNow core 0x4A body = true →
        lowestOffence body (maskBits 55 50 ||| maskBits 42 38) [] = none → k = (a.markIssue core).core core →
        (on = (List.range 4).filter (fun i => (k.loop i).on)) →
        ((on.contains (fieldAt body 49 48) || fieldAt body 37 24 == 0 || decide (k.progLen ≤ (a.rd TC_PC.PC core) +
        fieldAt body 37 24) || on.any (fun i => decide ((k.loop i).last < (a.rd TC_PC.PC core) + fieldAt body 37 24)))
        = false) → loopCount k body ≠ 0 →
      exec (.loop t core body) s = .next (((a.markIssue core).setCore core (k.setLoop (fieldAt body 49 48) ⟨true,
          (a.rd TC_PC.PC core) + 1, (a.rd TC_PC.PC core) + fieldAt body 37 24, loopCount k body, on.length + 1⟩)).goPc
          core ((a.rd TC_PC.PC core) + 1))) ∧
    (∀ (core : Nat) (body : BitVec 56) (k : Core) (on : List Nat), a.issuesNow core 0x4A body = true →
        lowestOffence body (maskBits 55 50 ||| maskBits 42 38) [] = none → k = (a.markIssue core).core core →
        (on = (List.range 4).filter (fun i => (k.loop i).on)) →
        ((on.contains (fieldAt body 49 48) || fieldAt body 37 24 == 0 || decide (k.progLen ≤ (a.rd TC_PC.PC core) +
        fieldAt body 37 24) || on.any (fun i => decide ((k.loop i).last < (a.rd TC_PC.PC core) + fieldAt body 37 24)))
        = false) → loopCount k body = 0 →
      exec (.loop t core body) s = .next ((a.markIssue core).passPc core ((a.rd TC_PC.PC core) + fieldAt body 37 24)))
          ∧
    (∀ (core : Nat) (body : BitVec 56), a.issuesNow core 0x30 body = true →
        lowestOffence body (maskBits 55 53 ||| maskBits 47 0) [] = none →
        ((a.markIssue core).core core).quiet (fieldAt body 48 48 == 1) (fieldAt body 50 50 == 1) (fieldAt body 51 51
        == 1) = true → fieldAt body 52 52 = 0 ∨ (a.markIssue core).corePeersDone core = true →
      exec (.fence t core body) s = .next ((a.markIssue core).passPc core (a.rd TC_PC.PC core))) ∧
    (∀ (core : Nat) (body : BitVec 56) (k : Core), a.issuesNow core 0x28 body = true →
        lowestOffence body (maskBits 42 32 ||| maskBits 15 13) [(54, decide (1 < fieldAt body 55 54))] = none →
        k = (a.markIssue core).core core → (a.markIssue core).objExcs core (tileObj k body) = [] →
        fieldAt body 53 53 = 0 ∨ k.copies.isEmpty = true →
      exec (.ssig t core body) s = .next (((a.markIssue core).coreSignal core (tileObj k body) (fieldAt body 55 54 ==
          1) (BitVec.ofNat 64 (k.arOr (fieldAt body 47 43) (fieldAt body 31 16))) k.layer k.opid).passPc core (a.rd
          TC_PC.PC core))) ∧
    (∀ (core : Nat) (body : BitVec 56) (k : Core), a.issuesNow core 0x28 body = true →
        lowestOffence body (maskBits 42 32 ||| maskBits 15 13) [(54, decide (1 < fieldAt body 55 54))] = none →
        k = (a.markIssue core).core core → (a.markIssue core).objExcs core (tileObj k body) = [] →
        fieldAt body 53 53 = 1 → k.copies.isEmpty = false → k.held.length < 16 →
      exec (.ssig t core body) s = .next ((a.markIssue core).passWith core (a.rd TC_PC.PC core) fun k =>
        { k with held := k.held ++ [⟨tileObj ((a.markIssue core).core core) body, fieldAt body 55 54 == 1, BitVec.ofNat 64 ((((a.markIssue core).core core)).arOr (fieldAt body 47 43) (fieldAt body 31 16)), k.copies.map (·.k), ((a.markIssue core).core core).layer, ((a.markIssue core).core core).opid⟩] }))
            ∧
    (∀ (core : Nat) (body : BitVec 56) (k : Core), a.issuesNow core 0x29 body = true →
        lowestOffence body (maskBits 32 32 ||| maskBits 15 13) [] = none → k = (a.markIssue core).core core →
        (a.markIssue core).objExcs core (tileObj k body) = [] →
        condHolds (fieldAt body 55 54) ((a.markIssue core).reg (SY_VAL.VALUE.off (tileObj k body))) (BitVec.ofNat 64
        (k.arOr (fieldAt body 47 43) (fieldAt body 31 16))) = true →
      exec (.swait t core body) s = .next (((a.markIssue core).offerCore 7 core (waitArg (tileObj k body) false
          0)).passWith core (a.rd TC_PC.PC core) (fun j => if fieldAt body 53 53 == 1 then j.setA (fieldAt body 42 38)
          0 else j))) ∧
    (∀ (core : Nat) (body : BitVec 56) (k : Core), a.issuesNow core 0x29 body = true →
        lowestOffence body (maskBits 32 32 ||| maskBits 15 13) [] = none → k = (a.markIssue core).core core →
        (a.markIssue core).objExcs core (tileObj k body) = [] →
        condHolds (fieldAt body 55 54) ((a.markIssue core).reg (SY_VAL.VALUE.off (tileObj k body))) (BitVec.ofNat 64
        (k.arOr (fieldAt body 47 43) (fieldAt body 31 16))) = false →
      exec (.swait t core body) s = .next
          ({ (a.markIssue core).setCore core { k with swait := some ⟨fieldAt body 53 53 == 1, fieldAt body 42 38, tileObj k body, (a.markIssue core).now⟩ } with
        waiters := (a.markIssue core).waiters ++ [⟨.core core, tileObj k body, fieldAt body 55 54, (BitVec.ofNat 64 (k.arOr (fieldAt body 47 43) (fieldAt body 31 16))), (a.markIssue core).now, fieldAt body 37 33⟩] }))
            ∧
    (∀ (core : Nat) (body : BitVec 56), a.issuesNow core 0x39 body = true → lowestOffence body (maskBits 55 51 ||| maskBits 19 0) [] = none → ((a.markIssue core).core core).hintWin = (a.markIssue core).winNum 1000 + 1 →
      exec (.hint t core body) s = .next (((a.markIssue core).passPc core (a.rd TC_PC.PC core)).bump TC_HINT_DROP.COUNT core)) ∧
    (∀ (core : Nat) (body : BitVec 56) (k : Core) (h : HintReq), a.issuesNow core 0x39 body = true → lowestOffence body (maskBits 55 51 ||| maskBits 19 0) [] = none → k = (a.markIssue core).core core → k.hintWin ≠ (a.markIssue core).winNum 1000 + 1 → h = ⟨k.ctx, (a.markIssue core).coreCls core, (k.launch.map (·.q)).getD 0, k.layer, k.opid, fieldAt body 50 48, fieldAt body 47 36, fieldAt body 35 20, (a.markIssue core).now, some core⟩ →
      exec (.hint t core body) s = .next ((((a.markIssue core).passWith core (a.rd TC_PC.PC core) fun j => { j with hintWin := (a.markIssue core).winNum 1000 + 1 }).hintOn h (dieOf core)).offerCore 8 core
        (packBits [(0, fieldAt body 50 48), (4, fieldAt body 47 36), (16, h.len)])))

/-- AOP, AOPI, ALI, ARD, TAG and CCSET, and a CCWAIT whose counter has reached its value, issued with no offending field,
write what the rules give and pass issue on. (R133, R151, R156, R158.) -/
def Obligations.TileScalarCompletes : Prop :=
  ∀ (s a : State) (t : Nat), s.runsAt t a →
    (∀ (core : Nat) (body : BitVec 56), a.issuesNow core 0x40 body = true →
        lowestOffence body (maskBits 55 53 ||| maskBits 32 0) [(48, decide (12 < fieldAt body 52 48))] = none →
      exec (.aop t core body) s = .next ((a.markIssue core).passWith core (a.rd TC_PC.PC core) fun k =>
        k.setA (fieldAt body 47 43) (scalarOp (fieldAt body 52 48) (k.ar (fieldAt body 42 38)) (k.ar (fieldAt body 37
            33))))) ∧
    (∀ (core : Nat) (body : BitVec 56), a.issuesNow core 0x41 body = true →
        lowestOffence body (maskBits 55 53 ||| maskBits 37 32) [(48, decide (12 < fieldAt body 52 48))] = none →
      exec (.aopi t core body) s = .next ((a.markIssue core).passWith core (a.rd TC_PC.PC core) fun k =>
        k.setA (fieldAt body 47 43) (scalarOp (fieldAt body 52 48) (k.ar (fieldAt body 42 38)) (BitVec.ofInt 64
            (signedOf 32 (fieldAt body 31 0)))))) ∧
    (∀ (core : Nat) (body : BitVec 56), a.issuesNow core 0x42 body = true →
        lowestOffence body (maskBits 55 50 ||| maskBits 42 32) [(48, fieldAt body 49 48 == 3)] = none →
      exec (.ali t core body) s = .next ((a.markIssue core).passWith core (a.rd TC_PC.PC core) fun k =>
        k.setA (fieldAt body 47 43) (aliValue (fieldAt body 49 48) (fieldAt body 31 0) (k.ar (fieldAt body 47 43)))))
            ∧
    (∀ (core : Nat) (body : BitVec 56), a.issuesNow core 0x43 body = true →
        lowestOffence body (maskBits 55 48 ||| maskBits 42 8) [(0, decide (15 < fieldAt body 7 0))] = none →
      exec (.ard t core body) s = .next ((a.markIssue core).passWith core (a.rd TC_PC.PC core) fun k =>
        k.setA (fieldAt body 47 43) ((a.markIssue core).ardValue core (fieldAt body 7 0) (a.rd TC_PC.PC core)))) ∧
    (∀ (core : Nat) (body : BitVec 56), a.issuesNow core 0x38 body = true →
        lowestOffence body (maskBits 55 50 ||| maskBits 47 32) [] = none →
      exec (.tag t core body) s = .next ((a.markIssue core).passWith core (a.rd TC_PC.PC core) fun k =>
        { k with layer := if fieldAt body 48 48 = 1 then fieldAt body 31 16 else k.layer,
                 opid := if fieldAt body 49 49 = 1 then fieldAt body 15 0 else k.opid })) ∧
    (∀ (core : Nat) (body : BitVec 56), a.issuesNow core 0x22 body = true →
        lowestOffence body (maskBits 47 32) [] = none →
      exec (.ccset t core body) s = .next ((a.markIssue core).passWith core (a.rd TC_PC.PC core) fun k =>
        k.setCounter (fieldAt body 55 53) (BitVec.ofNat 32 (k.arOr (fieldAt body 52 48) (fieldAt body 31 0))))) ∧
    (∀ (core : Nat) (body : BitVec 56) (k : Core), a.issuesNow core 0x21 body = true →
        lowestOffence body (maskBits 47 32) [] = none → k = (a.markIssue core).core core →
        (k.counter (fieldAt body 55 53) - BitVec.ofNat 32 (k.arOr (fieldAt body 52 48) (fieldAt body 31 0))).toNat < 2
        ^ 31 →
      exec (.ccwait t core body) s = .next ((a.markIssue core).passPc core (a.rd TC_PC.PC core)))

/-- MPASS and MDRAIN with room in the array-operation queue, no offending field and no exception enter it; the fill at
the accumulator port, the pass that streams, a recirculation and the drain at the port end with their effects, with
POISON where a pass or a fill has read poisoned bytes and INTEGRITY where its parity has failed. (R88, R93, R116,
R136, R140, R141, R151.) -/
def Obligations.ArrayOperationsComplete : Prop :=
  ∀ (s a : State) (t : Nat), s.runsAt t a →
    (∀ (core : Nat) (body : BitVec 56) (k : Core) (o : ArrayOp), a.issuesNow core 0x08 body = true →
        k = (a.markIssue core).core core → o = passOf k body (a.rd TC_PC.PC core) → k.arr.length < 8 →
        passOffence body = none → passExcs k body o = [] →
      exec (.mpass t core body) s = .next (((a.markIssue core).setCore core
          { k with issueInt := if o.init = 0 then k.issueInt else Tab.put (fun _ => false) k.issueInt o.bank (o.fmtA == 8) }).enqueue
          core (a.rd TC_PC.PC core) o)) ∧
    (∀ (core : Nat) (body : BitVec 56) (k : Core) (o : ArrayOp), a.issuesNow core 0x09 body = true →
        k = (a.markIssue core).core core → o = drainOf k body (a.rd TC_PC.PC core) → k.arr.length < 8 →
        drainOffence body = none → drainExcs k body o = [] →
      exec (.mdrain t core body) s = .next (((a.markIssue core).setCore core
          { k with seq := if o.sr then (k.seq + 1) % 2 ^ 24 else k.seq }).enqueue core (a.rd TC_PC.PC core) o)) ∧
    (∀ (core conflicts : Nat) (bad : List Nat) (o : ArrayOp) (b : State) (k : Core), (a.core core).portRuns = some o →
        o.drain = false → b = (a.spParity core bad (o.fillReads a.width)).bumpWrap TC_SP_CONFLICT.COUNT core conflicts
        → k = b.core core → k.spPoisonIn (o.fillReads b.width) = false →
      exec (.fillDone t core conflicts true bad) s = .next (b.setCore core
          { (k.fill o b.width).setArr b.now (replaceFirst o { o with filled := true } k.arr) with portAt := b.now }))
          ∧
    (∀ (core conflicts : Nat) (bad : List Nat) (o : ArrayOp) (b : State), (a.core core).portRuns = some o →
        o.drain = false → b = (a.spParity core bad (o.fillReads a.width)).bumpWrap TC_SP_CONFLICT.COUNT core conflicts
        → (b.core core).spPoisonIn (o.fillReads b.width) = true →
      exec (.fillDone t core conflicts true bad) s = .next (((b.setCore core ((b.core core).setArr b.now ((b.core
          core).arr.erase o))).raise core 12 o.pc 0).tryEnd core)) ∧
    (∀ (core conflicts : Nat) (bad : List Nat) (o : ArrayOp), (a.core core).portRuns = some o → o.drain = false →
      exec (.fillDone t core conflicts false bad) s = .next (((a.spParity core bad (o.fillReads a.width)).bumpWrap
          TC_SP_CONFLICT.COUNT core conflicts).integrity core o.pc)) ∧
    (∀ (core stalls gated conflicts : Nat) (bad : List Nat) (k : Core) (o : ArrayOp) (e b c : State) (r : Core × Nat)
        (n : Nat × Bool), (a.core core).streams = some o → a.flag TC_STATUS.RECIRC core = false →
        e = (a.spParity core bad (o.streamReads a.width)).bumpWrap TC_SP_CONFLICT.COUNT core conflicts →
        k = e.core core → b = ((((e.bumpWrap TC_CYC_STREAM.COUNT core o.cycles).pmcCore core (streamSel o.fmtA)
        o.cycles o.layer).bumpWrap TC_SP_OPSTALL.COUNT core stalls).pmcCore core 5 stalls o.layer).pmcCore core 6
        gated o.layer → r = (if k.spPoisonIn (o.streamReads b.width) = true then (k, 0) else k.stream o b.width) →
        n = (if b.rd SLU_POLDER_THR.DUTY (dieOf core) < 16 then (0, true) else recircFor (r.1.setArr b.now
        (k.arr.erase o)) b.width b.now (b.rd TC_RECIRC_CFG.THRESHOLD core)) →
        c = (b.setCore core { r.1.setArr b.now (k.arr.erase o) with recircMax := n.1, recircAll := n.2, recircAt := b.now, streamAt := b.now }).wr
        TC_STATUS.RECIRC core (bit (decide (0 < n.1))) →
      exec (.streamEnd t core stalls gated conflicts true bad) s = .next ((if k.spPoisonIn (o.streamReads b.width) =
          true then c.raise core 12 o.pc 0 else c.orFlags core o.pc r.2).tryEnd core)) ∧
    (∀ (core stalls gated conflicts : Nat) (bad : List Nat) (o : ArrayOp) (e b : State), (a.core core).streams = some
        o → a.flag TC_STATUS.RECIRC core = false →
        e = (a.spParity core bad (o.streamReads a.width)).bumpWrap TC_SP_CONFLICT.COUNT core conflicts →
        b = ((((e.bumpWrap TC_CYC_STREAM.COUNT core o.cycles).pmcCore core (streamSel o.fmtA) o.cycles
        o.layer).bumpWrap TC_SP_OPSTALL.COUNT core stalls).pmcCore core 5 stalls o.layer).pmcCore core 6 gated o.layer
        →
      exec (.streamEnd t core stalls gated conflicts false bad) s = .next ((b.setCore core
          { (e.core core).setArr b.now ((e.core core).arr.erase o) with streamAt := b.now }).integrity core o.pc)) ∧
    (∀ (core cycles : Nat) (k : Core), a.flag TC_STATUS.RECIRC core = true → k = a.core core →
      exec (.recirculationEnd t core cycles) s = .next (State.wr ((a.bumpWrap TC_CYC_RECIRC.COUNT core (if k.recircAll
          then k.recircMax else min cycles k.recircMax)).setCore core { k with streamAt := a.now }) TC_STATUS.RECIRC
          core 0)) ∧
    (∀ (core conflicts : Nat) (k n : Core) (o : ArrayOp) (b : State), k = a.core core → k.portRuns = some o →
        o.drain = true → b = a.bumpWrap TC_SP_CONFLICT.COUNT core conflicts →
        n = ((k.spStore o.aOff (codeBits o.fmtA) (k.drain o b.width).1).spStore o.saOff 8 (k.drain o b.width).2.1) →
      exec (.drainDone t core conflicts true) s = .next (((b.setCore core
          { ((if o.cnten = true then n.setCounter o.cnt (n.counter o.cnt + 1) else n).setArr b.now (n.arr.erase o)) with portAt := b.now }).orFlags
          core o.pc (k.drain o b.width).2.2).tryEnd core)) ∧
    (∀ (core conflicts : Nat) (o : ArrayOp), (a.core core).portRuns = some o → o.drain = true →
      exec (.drainDone t core conflicts false) s = .next ((a.bumpWrap TC_SP_CONFLICT.COUNT core conflicts).integrity
          core o.pc))

/-- VOP, VLD, VST, and SMOVE in both its forms and of no bytes, issued with no offending field, no other exception and no
hazard, take effect and pass issue on; a VOP with failed parity raises INTEGRITY, and a VLD or a move of poisoned
bytes POISON. (R143, R147, R148.) -/
def Obligations.TileVectorCompletes : Prop :=
  ∀ (s a : State) (t : Nat), s.runsAt t a →
    (∀ (core : Nat) (body : BitVec 56) (r : Core), a.issuesNow core 0x10 body = true →
        lowestOffence body (maskBits 21 0) [(47, !vopCodes.contains (fieldAt body 52 47))] = none →
        r = ((a.markIssue core).pmcCore core 7).core core →
      exec (.vop t core body true) s = .next ((((((a.markIssue core).pmcCore core 7).setCore core (r.vop
          body).1).setFlags core (r.vop body).2).passPc core (a.rd TC_PC.PC core)).orFlags core (a.rd TC_PC.PC core)
          (r.vop body).2)) ∧
    (∀ (core : Nat) (body : BitVec 56), a.issuesNow core 0x10 body = true →
        lowestOffence body (maskBits 21 0) [(47, !vopCodes.contains (fieldAt body 52 47))] = none →
      exec (.vop t core body false) s = .next (((a.markIssue core).pmcCore core 7).integrity core (a.rd TC_PC.PC
          core))) ∧
    (∀ (core : Nat) (body : BitVec 56) (bad : List Nat) (k j : Core) (n : Nat) (b : State), a.issuesNow core 0x13 body
        = true → k = (a.markIssue core).core core → n = codeBytes (fieldAt body 52 49) 256 →
        lowestOffence body (maskBits 47 47 ||| maskBits 21 0) [(49, !vecCode (fieldAt body 52 49)), (48, fieldAt body
        48 48 == 1)] = none → rangeExcs (fieldAt body 42 38) (vecAddr k body) n = [] →
        k.hazard [(vecAddr k body, n)] [] = false → b = (a.markIssue core).spParity core bad [(vecAddr k body, n)] →
        j = b.core core → j.spPoisonIn [(vecAddr k body, n)] = false →
      exec (.vld t core body bad) s = .next ((b.setCore core ((List.range 256).foldl
        (fun x l => if (k.pred (fieldAt body 55 53)).getLsbD l then x.setLane (fieldAt body 46 43) l (widen (fieldAt
            body 52 49) (j.spElem (vecAddr k body) (codeBits (fieldAt body 52 49)) l)) else x) j)).passPc core (a.rd
            TC_PC.PC core))) ∧
    (∀ (core : Nat) (body : BitVec 56) (bad : List Nat) (k : Core) (n : Nat) (b : State), a.issuesNow core 0x13 body =
        true → k = (a.markIssue core).core core → n = codeBytes (fieldAt body 52 49) 256 →
        lowestOffence body (maskBits 47 47 ||| maskBits 21 0) [(49, !vecCode (fieldAt body 52 49)), (48, fieldAt body
        48 48 == 1)] = none → rangeExcs (fieldAt body 42 38) (vecAddr k body) n = [] →
        k.hazard [(vecAddr k body, n)] [] = false → b = (a.markIssue core).spParity core bad [(vecAddr k body, n)] →
        (b.core core).spPoisonIn [(vecAddr k body, n)] = true →
      exec (.vld t core body bad) s = .next ((b.passPc core (a.rd TC_PC.PC core)).raise core 12 (a.rd TC_PC.PC core)
          0)) ∧
    (∀ (core : Nat) (body : BitVec 56) (k x : Core) (n : Nat) (es : List (Nat × Nat × Nat)), a.issuesNow core 0x14
        body = true → k = (a.markIssue core).core core → n = codeBytes (fieldAt body 52 49) 256 →
        lowestOffence body (maskBits 47 47 ||| maskBits 21 0) [(49, !vecCode (fieldAt body 52 49))] = none →
        rangeExcs (fieldAt body 42 38) (vecAddr k body) n = [] → k.hazard [] [(vecAddr k body, n)] = false →
        (es = ((List.range 256).filter (fun l => (k.pred (fieldAt body 55 53)).getLsbD l)).map fun l => (l, narrow
        (fieldAt body 52 49) (if fieldAt body 48 48 == 1 then k.laneRnd l else none) (k.lane (fieldAt body 46 43) l)))
        → (x = k.spStore (vecAddr k body) (codeBits (fieldAt body 52 49)) (es.map (fun e => (e.1, e.2.1)))) →
      exec (.vst t core body) s = .next (((((a.markIssue core).setCore core
          { x with seq := if fieldAt body 48 48 == 1 then (k.seq + 1) % 2 ^ 24 else k.seq }).setFlags core (es.foldl
          (fun y e => y ||| e.2.2) 0)).passPc core (a.rd TC_PC.PC core)).orFlags core (a.rd TC_PC.PC core) (es.foldl
          (fun y e => y ||| e.2.2) 0))) ∧
    (∀ (core : Nat) (body : BitVec 56) (bad : List Nat) (k j : Core) (d m n : Nat) (b : State), a.issuesNow core 0x18
        body = true → k = (a.markIssue core).core core → d = (k.ar (fieldAt body 52 48)).toNat →
        m = (k.ar (fieldAt body 47 43)).toNat → n = (k.ar (fieldAt body 42 38)).toNat →
        lowestOffence body (maskBits 54 53 ||| maskBits 37 0) [] = none → n ≠ 0 → d + n ≤ spSize →
        fieldAt body 55 55 = 0 → m + n ≤ spSize → k.hazard [(m, n)] [(d, n)] = false →
        b = (a.markIssue core).spParity core bad [(m, n)] → j = b.core core → j.spPoisonIn [(m, n)] = false →
      exec (.smove t core body bad) s = .next ((b.setCore core (j.spWrite d (j.spBytes m n))).passPc core (a.rd
          TC_PC.PC core))) ∧
    (∀ (core : Nat) (body : BitVec 56) (bad : List Nat) (k : Core) (d m n : Nat) (b : State), a.issuesNow core 0x18
        body = true → k = (a.markIssue core).core core → d = (k.ar (fieldAt body 52 48)).toNat →
        m = (k.ar (fieldAt body 47 43)).toNat → n = (k.ar (fieldAt body 42 38)).toNat →
        lowestOffence body (maskBits 54 53 ||| maskBits 37 0) [] = none → n ≠ 0 → d + n ≤ spSize →
        fieldAt body 55 55 = 0 → m + n ≤ spSize → k.hazard [(m, n)] [(d, n)] = false →
        b = (a.markIssue core).spParity core bad [(m, n)] → (b.core core).spPoisonIn [(m, n)] = true →
      exec (.smove t core body bad) s = .next ((b.passPc core (a.rd TC_PC.PC core)).raise core 12 (a.rd TC_PC.PC core)
          0)) ∧
    (∀ (core : Nat) (body : BitVec 56) (bad : List Nat), a.issuesNow core 0x18 body = true →
        lowestOffence body (maskBits 54 53 ||| maskBits 37 0) [] = none →
        (((a.markIssue core).core core).ar (fieldAt body 42 38)).toNat = 0 →
      exec (.smove t core body bad) s = .next ((a.markIssue core).passPc core (a.rd TC_PC.PC core))) ∧
    (∀ (core : Nat) (body : BitVec 56) (bad : List Nat) (k : Core) (d n : Nat), a.issuesNow core 0x18 body = true →
        k = (a.markIssue core).core core → d = (k.ar (fieldAt body 52 48)).toNat →
        n = (k.ar (fieldAt body 42 38)).toNat → lowestOffence body (maskBits 54 53 ||| maskBits 37 0) [] = none →
        n ≠ 0 → d + n ≤ spSize → fieldAt body 55 55 = 1 → k.hazard [] [(d, n)] = false →
      exec (.smove t core body bad) s = .next (((a.markIssue core).setCore core (k.spWrite d (fillBytes (k.ar (fieldAt
          body 47 43)) n))).passPc core (a.rd TC_PC.PC core)))

/-- A TCOPY without bytes completes at once, and one with bytes that its launch may reach is in flight and served in its
turn; lines of a copy move when they are named, and a copy all of whose lines have moved completes, in and out; one
that the dike table refuses faults, and a copy into a peer window that was refused or lost on its route faults.
(R149, R150, R177, R180, R182, R183, R186, R187.) -/
def Obligations.TileCopiesComplete : Prop :=
  ∀ (s a : State) (t : Nat), s.runsAt t a →
    (∀ (core : Nat) (body : BitVec 56) (bad : List Nat) (k : Core) (o : CopyOp), a.issuesNow core 0x20 body = true →
        k = (a.markIssue core).core core → o = copyOf k ((a.markIssue core).coreCls core) body (a.rd TC_PC.PC core) →
        k.copies.length < 64 → lowestOffence body (maskBits 49 48 ||| maskBits 27 0) [] = none →
        (k.ar (fieldAt body 37 33)).toNat / 2 ^ 39 = 0 → o.sx + o.rows * o.rowBytes ≤ spSize → o.rowBytes = 0 →
      exec (.tcopy t core body bad) s = .next ((((a.markIssue core).passWith core (a.rd TC_PC.PC core) fun k =>
          { k with nextCopy := k.nextCopy + 1, copies := k.copies ++ [o] }).showCopies core).copyDone core o)) ∧
    (∀ (core : Nat) (body : BitVec 56) (bad : List Nat) (k : Core) (o : CopyOp), a.issuesNow core 0x20 body = true →
        k = (a.markIssue core).core core → o = copyOf k ((a.markIssue core).coreCls core) body (a.rd TC_PC.PC core) →
        k.copies.length < 64 → lowestOffence body (maskBits 49 48 ||| maskBits 27 0) [] = none →
        (k.ar (fieldAt body 37 33)).toNat / 2 ^ 39 = 0 → o.sx + o.rows * o.rowBytes ≤ spSize → o.rowBytes ≠ 0 →
        o.missing k.exts = none →
      exec (.tcopy t core body bad) s = .next ((((a.markIssue core).passWith core (a.rd TC_PC.PC core) fun k =>
          { k with nextCopy := k.nextCopy + 1, copies := k.copies ++ [o] }).showCopies core).goOn core bad)) ∧
    (∀ (core n conflicts : Nat) (only : List Nat) (found : Found) (o : CopyOp) (b r : State), (a.core core).copyNo n =
        some o → b = (a.reading found 0 (0x1000 + core)).bumpWrap TC_SP_CONFLICT.COUNT core conflicts →
        r = b.copyLinesNow core n (some only) found → r.access.blocked = none →
      exec (.tcopyComplete t core n conflicts (some only) found) s = .next (r.readsDone)) ∧
    (∀ (core n conflicts : Nat) (found : Found) (o p : CopyOp) (m : State) (b r : State), (a.core core).copyNo n =
        some o → b = (a.reading found 0 (0x1000 + core)).bumpWrap TC_SP_CONFLICT.COUNT core conflicts →
        m = b.moveAll core n found (o.bursts.length + 1) → (m.core core).copyNo n = some p →
        m.copyWhole core p = true → p.out = false → r = (m.pmcCore core 8 p.pieces.length p.layer).copyDone core p →
        r.access.blocked = none →
      exec (.tcopyComplete t core n conflicts none found) s = .next (r.readsDone)) ∧
    (∀ (core n conflicts : Nat) (found : Found) (o p : CopyOp) (m : State) (b r : State), (a.core core).copyNo n =
        some o → b = (a.reading found 0 (0x1000 + core)).bumpWrap TC_SP_CONFLICT.COUNT core conflicts →
        m = b.moveAll core n found (o.bursts.length + 1) → (m.core core).copyNo n = some p →
        m.copyWhole core p = true → p.out = true → r = (m.pmcCore core 9 p.pieces.length p.layer).copyDone core p →
        r.access.blocked = none →
      exec (.tcopyComplete t core n conflicts none found) s = .next (r.readsDone)) ∧
    (∀ (core n row va : Nat) (k : Core) (o : CopyOp), k = a.core core →
        ((k.copies ++ k.dropped).find? (fun o => o.k == n) = some o) → row < o.rows → rowAddr o.ux o.stride row ≤ va →
        va < rowAddr o.ux o.stride row + o.rowBytes →
        a.isPeer ((physIn k.exts va 1 o.out).getD 0) = true ∨ a.burstOk k.ctx o.out ((physIn k.exts va 1 o.out).getD
        0) 1 = false →
      exec (.copyFault t core n 1 row va) s = .next (a.copyFault core o 1 row va)) ∧
    (∀ (core n cause row va : Nat) (k : Core) (o : CopyOp), k = a.core core →
        ((k.copies ++ k.dropped).find? (fun o => o.k == n) = some o) → row < o.rows → rowAddr o.ux o.stride row ≤ va →
        va < rowAddr o.ux o.stride row + o.rowBytes → cause = 2 ∨ cause = 3 →
        a.isPeer ((physIn k.exts va 1 o.out).getD 0) = true →
      exec (.copyFault t core n cause row va) s = .next (a.copyFault core o cause row va))

/-- An enable of a DISABLED queue whose rings are admitted makes it ACTIVE with its indices at 0; a disable begins; TAIL,
RESUME and ABANDON are carried out; the next published slot of a running queue is read, and read again 250 ns after a
failed read. (R190, R191, R192, R197, R199, R203.) -/
def Obligations.QueueRegistersComplete : Prop :=
  ∀ (s a : State) (t : Nat), s.runsAt t a →
    (∀ (agent q : Nat) (v : Word) (b : State), q < 16384 → QE_Q_CFG.ENABLE.get v = 1 →
        a.allows agent (QE_Q_CFG.ENABLE.off q) true = true →
        b = (a.answer agent 0).storeReg agent (QE_Q_CFG.ENABLE.off q) v → b.flag QE_Q_CFG.ENABLE q = true →
        b.rd QE_Q_STATUS.STATE q = 0 → b.ringsOk q = true →
      exec (.queueEnable t agent q v) s = .next (((((((b.wr QE_Q_STATUS.HEAD q 0).wr QE_DB_TAIL.TAIL q 0).wr
          QE_DB_STATUS.CQ_TAIL q 0).wr QE_DB_CQ_HEAD.CQ_HEAD q 0).setQueue q (queueInit q)).qSet q 1 0))) ∧
    (∀ (agent q : Nat) (v : Word) (b : State), q < 16384 → QE_Q_CFG.ENABLE.get v = 0 →
        a.allows agent (QE_Q_CFG.ENABLE.off q) true = true → a.flag QE_Q_CFG.ENABLE q = true →
        b = (a.answer agent 0).storeReg agent (QE_Q_CFG.ENABLE.off q) v → b.flag QE_Q_CFG.ENABLE q = false →
        b.rd QE_Q_STATUS.STATE q ≠ 0 →
      exec (.queueDisable t agent q v) s = .next (((b.setQueue q
          { b.queue q with enableKept := false, chosen := (b.queue q).chosen && b.headBusy q, refused := false, released := none }).leaveFault
          q).tryDisable q)) ∧
    (∀ (agent q : Nat) (v : Word), q < 16384 → a.allows agent (QE_DB_TAIL.TAIL.off q) true = true →
      exec (.tailWrite t agent q v) s = .next (((a.answer agent 0).storeReg agent (QE_DB_TAIL.TAIL.off q) v).tailTo q
          (v.toNat % 2 ^ 32))) ∧
    (∀ (agent q : Nat), q < 16384 → a.allows agent (QE_Q_CTRL.RESUME.off q) true = true →
      exec (.resume t agent q) s = .next (((a.answer agent 0).resumeQueue q).tryDisable q)) ∧
    (∀ (agent q : Nat), q < 16384 → a.allows agent (QE_Q_CTRL.RESUME.off q) true = true →
      exec (.abandon t agent q) s = .next ((if (a.answer agent 0).canAbandon q then (a.answer agent 0).abandonQueue q
          else a.answer agent 0).tryDisable q)) ∧
    (∀ (q i : Nat) (found : Found) (b r : State), a.readsNext q i = true → (a.queue q).reread = none →
        b = a.reading found 0 (0x4000 + q) → r = b.readSlot q i b.now 0 → r.access.blocked = none →
      exec (.slotRead t q i found) s = .next (r.readsDone)) ∧
    (∀ (q i first n : Nat) (found : Found) (b r : State), a.readsNext q i = true →
        (a.queue q).reread = some (i, first, n) → first + 250 * (n + 1) ≤ a.now → b = a.reading found 0 (0x4000 + q) →
        r = b.readSlot q i first (n + 1) → r.access.blocked = none →
      exec (.slotReread t q i found) s = .next (r.readsDone))

/-- A started COPY, INLINE_WRITE, SIGNAL, WAIT, MIGRATE, HINT or FENCE does its work; a COLLECTIVE that passes its checks
starts its bucket; a completed command that is next in its queue has its entry written. (R209, R210, R211, R212,
R217, R315.) -/
def Obligations.QueueCommandsComplete : Prop :=
  ∀ (s a : State) (t : Nat), s.runsAt t a →
    (∀ (q i : Nat) (x : InFlight) (found : Found) (b r : State), a.running q i 2 = some x →
        b = a.reading found 0 (0x4000 + q) → r = b.moveDesc q i found x → r.access.blocked = none →
      exec (.copy t q i found) s = .next (r.readsDone)) ∧
    (∀ (q i : Nat) (x : InFlight) (found : Found) (b r : State), a.running q i 3 = some x → x.begun = false →
        b = a.reading found 0 (0x4000 + q) → r = b.doInline q i x → r.access.blocked = none →
      exec (.inlineWrite t q i found) s = .next (r.readsDone)) ∧
    (∀ (q i : Nat) (x : InFlight), a.running q i 4 = some x →
      exec (.signal t q i) s = .next (a.doSignal q i x)) ∧
    (∀ (q i : Nat) (x : InFlight), a.running q i 5 = some x → x.begun = false →
      exec (.wait t q i) s = .next ((a.onFlight q i fun y => { y with begun := true }).registerWait q x)) ∧
    (∀ (q i slot : Nat) (found : Found) (f : Fetched) (es exts : List Extent) (desc : List Word) (m n c d u : State)
        (k : Bucket) (x : InFlight) (b r : State), a.chosenHead q i = some f → kindOf f.words = 6 → f.status = 0 →
        a.bucketFree q = true → b = (a.reading found 0 (0x4000 + q)).setQueue q { a.queue q with faulted := false } →
        c = (n.startHead q f exts).passHead q → k = c.newBucket q f slot desc exts →
        d = { c with buckets := c.buckets ++ [k] } → u = (d.setFlight { x with begun := true }).ceGo k →
        b.collSlot f.words = some slot → b.readDesc q f.words = (.ok es, desc, m) → m.collCheck desc = none →
        m.walkRegions q (ceRegions desc { m.shape (m.newBucket q f slot desc []) with e := Desc.elements desc }) [] =
        (.ok exts, n) → d.flight q f.i = some x → (u.queue q).faulted = false → r = u.leaveFault q →
        r.access.blocked = none →
      exec (.collective t q i found) s = .next (r.readsDone)) ∧
    (∀ (q i : Nat) (x : InFlight), a.running q i 7 = some x → x.begun = false →
      exec (.migrate t q i) s = .next ((a.onFlight q i fun y => { y with begun := true }).submitMig
        ⟨bitsOf (x.words.getD 1 0).toNat 15 0, bitsOf (x.words.getD 1 0).toNat 16 16, some (q, i), none, none,
            hubOfQueue q, (hdrLayer x.words, hdrOpid x.words), 0, none, [], [], 0, 0, false⟩)) ∧
    (∀ (q i : Nat) (x : InFlight), a.running q i 8 = some x →
      exec (.hintCommand t q i) s = .next (a.doHint q i x)) ∧
    (∀ (q i : Nat) (x : InFlight), a.running q i 9 = some x →
        (x.words.getD 1 0).toNat.testBit 0 = false ∨ a.queueOwes q = false →
      exec (.fenceCommand t q i) s = .next (a.finish q i 0)) ∧
    (∀ (q i st : Nat) (x : InFlight), a.nextDone q = some x → x.status = some st → x.i = i →
      exec (.commandComplete t q i) s = .next (a.complete q x st))

/-- The choice of the Sluice, the grant of a reservation, the end of its window, after which a previous grant that is
still open stands, the end of a reservation, the blocking of a starved launch, the continuation records, the ramp of
gate duty, a step of HCLK up and down, and a sample of the converters, answer the next state that the rules give.
(R454, R458, R460, R462, R464, R466, R472.) -/
def Obligations.PowerAndSluiceComplete : Prop :=
  ∀ (s a : State) (t : Nat), s.runsAt t a →
    (a.save.phase = 0 →
      exec (.sluiceChoice t) s = .next (((a.each [0, 1, 2, 3] State.newRound).leaveChoice).tryQueues
        ([0, 1, 2, 3].flatMap ((a.each [0, 1, 2, 3] State.newRound).leaveChoice).trials))) ∧
    (∀ (k : Nat) (r : Reservation), (a.reservs.find? (fun r => r.k == k) = some r) → r.waiting = true →
        a.grantDue r ≤ a.now → a.now < r.hi → a.save.phase = 0 →
      exec (.reservationGrant t k) s = .next (a.tryGrant r)) ∧
    (∀ (k : Nat) (r : Reservation), (a.reservs.find? (fun r => r.k == k) = some r) → r.hi ≤ a.now →
        (r.waiting && r.meets a.now (a.now + 1)) = false →
      exec (.reservationEnd t k) s = .next (State.closeEvents
          { a with reservs := a.reservs.filter (fun x => x.k != r.k) })) ∧
    (∀ (k : Nat) (r : Reservation), (a.reservs.find? (fun r => r.k == k) = some r) → r.hi ≤ a.now →
        (r.waiting && r.meets a.now (a.now + 1)) = true →
      exec (.reservationEnd t k) s = .next (State.closeEvents (a.setReserv
          { r with lo := r.glo, hi := r.ghi, amount := r.granted, waiting := false, missed := false }))) ∧
    (∀ (q f : Nat), (a.queue q).refusedAt = some f → f + a.rd SLU_CFG.STARVE_US * 1000 ≤ a.now →
      exec (.starve t q) s = .next (a.setQueue q { a.queue q with blocking := true })) ∧
    (∀ (e : ThrEvent) (k : Nat × Nat), k ∈ thrPairs →
        (a.thrEvents.find? (fun e => e.is k.1 k.2 && decide (e.cont ≤ a.now)) = some e) →
      exec (.throttleCont t) s = .next (a.each thrPairs fun s k =>
        match s.thrEvents.find? (fun e => e.is k.1 k.2 && decide (e.cont ≤ s.now)) with
        | none => s
        | some e =>
          State.thrRecord { s with thrEvents := s.thrEvents.map fun (x : ThrEvent) => if x.is k.1 k.2 then { x with cont := x.cont + ms100 } else x }
              e true)) ∧
    (∀ (die : Nat) (b : State), a.edge 1000 = true → (Tab.get (fun _ => false) a.ramps die = true) →
        a.acting 1 die = false → a.acting 2 die = false → a.acting 3 die = false →
        b = a.setDuty die (a.duty die + 1) → b.duty die = 16 →
      exec (.dutyRamp t die) s = .next ({ b with ramps := Tab.put (fun _ => false) b.ramps die false })) ∧
    (∀ (cluster : Nat), cluster < 12 → a.flag SLU_PKG_STATUS.SAG = false → a.save.phase = 0 →
        (Tab.get (fun _ => 0) a.hclkAt cluster = 0) → a.hclkDown cluster = false →
        a.rd SLU_HCLK.CUR cluster < min 32 (a.rd SLU_HCLK.MAX cluster) →
      exec (.hclkStep t cluster true) s = .next
          ({ a.wr SLU_HCLK.CUR cluster (a.rd SLU_HCLK.CUR cluster + 1) with hclkAt := Tab.put (fun _ => 0) a.hclkAt cluster (a.now + 1) }))
          ∧
    (∀ (cluster : Nat), cluster < 12 → a.flag SLU_PKG_STATUS.SAG = false → a.save.phase = 0 →
        (Tab.get (fun _ => 0) a.hclkAt cluster = 0) → a.hclkDown cluster = true → 10 < a.rd SLU_HCLK.CUR cluster →
      exec (.hclkStep t cluster false) s = .next
          ({ a.wr SLU_HCLK.CUR cluster (a.rd SLU_HCLK.CUR cluster - 1) with hclkAt := Tab.put (fun _ => 0) a.hclkAt cluster (a.now + 1) }))
          ∧
    (∀ (x : PowerSample) (b : State), a.edge 1000 = true → (a.samples.any (fun r => r.tick == a.now) = false) →
        b = a.keepSample x → b.save.phase = 0 →
      exec (.powerSample t x) s = .next (b.actOn x))

/-- An ADD and a SET are performed at their object; an advance on its way reaches its queue; with no transaction open a
trigger takes its settings; a read of an event register pops it; and the wait whose window has ended expires. (R246,
R250, R256, R257, R258.) -/
def Obligations.SyncObjectsComplete : Prop :=
  ∀ (s a : State) (t : Nat), s.runsAt t a →
    (∀ (agent obj : Nat) (v : Word), obj < 8192 → a.allows agent (SY_ADD.V.off obj) true = true →
      exec (.syAdd t agent obj v) s = .next ((a.answer agent 0).syPerform obj false v)) ∧
    (∀ (agent obj : Nat) (v : Word), obj < 8192 → a.allows agent (SY_SET.V.off obj) true = true →
      exec (.sySet t agent obj v) s = .next ((a.answer agent 0).syPerform obj true v)) ∧
    (∀ (q n : Nat) (r : List (Nat × Nat)), a.advances = (q, n) :: r →
      exec (.advance t) s = .next (State.tailTo { a with advances := r } q ((a.rd QE_DB_TAIL.TAIL q + n) % 2 ^ 32))) ∧
    (∀ (agent obj : Nat) (v : Word), obj < 8192 → a.allows agent (SY_TRIG_CFG.ARM.off obj) true = true →
        a.rd TXN_STATUS.STATE = 0 →
      exec (.syTrigCfg t agent obj v) s = .next ((a.answer agent 0).trigStore agent obj v)) ∧
    (∀ (agent core : Nat), core < 96 → a.allows agent (SY_EVENT.OBJ.off core) false = true →
      exec (.syEventRead t agent core) s = .next ((a.answer agent 0).eventRead agent core)) ∧
    (∀ (w : WaiterId) (x : Waiter), (a.waiters.find? (fun x => decide (x.who = w)) = some x) → x.open a.now = false →
      exec (.waitTimeout t w) s = .next (a.expire x))

/-- A FREE mailbox is locked by its reader; its owner pushes requests, sends and releases; its responder pops requests,
pushes responses and acknowledges in time; its owner pops the response; and the window of a SENT one ends. (R262,
R263, R265, R266.) -/
def Obligations.MailboxesComplete : Prop :=
  ∀ (s a : State) (t : Nat), s.runsAt t a →
    (∀ (agent m : Nat), m < 64 → a.allows agent (MB_LOCK.RESULT.off m) false = true →
        (isHost agent || isService agent) = true → a.mbState m = 0 →
      exec (.mbLock t agent m) s = .next ((((a.answer agent 0).wr MB_STATUS.STATE m 1).wr MB_STATUS.OWNER m
          agent).answer agent 0)) ∧
    (∀ (agent m : Nat) (v : Word) (b : State), m < 64 → a.allows agent (MB_RELEASE.GO.off m) true = true →
        b = (a.answer agent 0).storeReg agent (MB_RELEASE.GO.off m) v → MB_RELEASE.GO.get v = 1 → b.mbState m ≠ 0 →
        b.mbOwner m = agent →
      exec (.mbRelease t agent m v) s = .next (b.mbFree m)) ∧
    (∀ (agent m : Nat) (v : Word), m < 64 → a.allows agent (MB_REQ.WORD.off m) true = true → a.mbOwner m = agent →
        a.mbState m = 1 ∨ a.mbState m = 3 → (a.mbox m).req.length < 32 →
      exec (.mbReqWrite t agent m v) s = .next ((a.answer agent 0).setMbox m
          { a.mbox m with req := (a.mbox m).req ++ [v] })) ∧
    (∀ (agent m : Nat) (w : Word) (r : List Word), m < 64 → a.allows agent (MB_REQ.WORD.off m) false = true →
        a.mbState m = 2 → a.responds m agent = true → (a.mbox m).req = w :: r →
      exec (.mbReqRead t agent m) s = .next (((a.answer agent 0).setMbox m { a.mbox m with req := r }).answer agent
          w)) ∧
    (∀ (agent m : Nat) (v : Word), m < 64 → a.allows agent (MB_RSP.WORD.off m) true = true → a.mbState m = 2 →
        a.responds m agent = true → (a.mbox m).rsp.length < 32 →
      exec (.mbRspWrite t agent m v) s = .next ((a.answer agent 0).setMbox m
          { a.mbox m with rsp := (a.mbox m).rsp ++ [v] })) ∧
    (∀ (agent m : Nat) (w : Word) (r : List Word), m < 64 → a.allows agent (MB_RSP.WORD.off m) false = true →
        a.mbState m = 3 → a.mbOwner m = agent → (a.mbox m).rsp = w :: r →
      exec (.mbRspRead t agent m) s = .next (((a.answer agent 0).setMbox m { a.mbox m with rsp := r }).answer agent
          w)) ∧
    (∀ (agent m : Nat) (v : Word) (b : State), m < 64 → a.allows agent (MB_SEND.CMD.off m) true = true →
        b = (a.answer agent 0).storeReg agent (MB_SEND.CMD.off m) v → b.mbOwner m = agent →
        b.mbState m = 1 ∨ b.mbState m = 3 → b.flag MB_STATUS.OVERFLOW m = false → isHost agent = true →
      exec (.mbSend t agent m v) s = .next ((b.setMbox m
          { b.mbox m with rsp := [], cmd := MB_SEND.CMD.get v, sentAt := b.now, irq := true }).wr MB_STATUS.STATE m
          2)) ∧
    (∀ (agent m : Nat) (v : Word) (b : State), m < 64 → a.allows agent (MB_SEND.CMD.off m) true = true →
        b = (a.answer agent 0).storeReg agent (MB_SEND.CMD.off m) v → b.mbOwner m = agent →
        b.mbState m = 1 ∨ b.mbState m = 3 → b.flag MB_STATUS.OVERFLOW m = true →
      exec (.mbSend t agent m v) s = .next (((b.setMbox m
          { b.mbox m with rsp := [], cmd := MB_SEND.CMD.get v, sentAt := b.now }).wr MB_STATUS.STATE m 3).wr
          MB_ACK.CODE m 7)) ∧
    (∀ (agent m : Nat) (v : Word), m < 64 → a.allows agent (MB_ACK.CODE.off m) true = true → a.mbState m = 2 →
        a.responds m agent = true → a.now < a.mbDue m → ackCode (MB_ACK.CODE.get v) = true →
      exec (.mbAck t agent m v) s = .next (((a.answer agent 0).mbDone m (MB_ACK.CODE.get v)).report agent
          (MB_ACK.CODE.off m) (v.toNat / 256 != 0) false)) ∧
    (∀ (m : Nat), a.mbState m = 2 → a.mbDue m ≤ a.now →
      exec (.mailboxTimeout t m) s = .next (a.mbTimeout m))

/-- A command of R450, R475, R502 or R503 that firmware of a running pair holds, in its turn and with operands it
accepts, is answered with OK and its words; images, the next slot and the rollback counter change as the rules give.
(R434, R447, R450, R451, R475, R502, R503.) -/
def Obligations.FirmwareComplete : Prop :=
  ∀ (s a : State) (t : Nat), s.runsAt t a →
    (∀ (m : Nat) (w : List Word) (b : State), m < 32 → a.fwHolds m 0x100 = true → w = (a.takeReq m 9).1 →
        b = (a.takeReq m 9).2 → (w.getD 8 0).toNat % 4096 = 0 → b.fwMay (b.mbOwner m) (w.getD 8 0).toNat 4096 = true →

      exec (.attest t m) s = .next ((b.engWrite (w.getD 8 0).toNat (b.report451 (w.take 8))).fwAnswer m 1 [4096])) ∧
    (∀ (m n : Nat) (w : List Word) (b : State), m < 32 → a.fwHolds m 0x101 = true → w = (a.takeReq m 2).1 →
        b = (a.takeReq m 2).2 → n = Config.certificates.length →
        b.fwMay (b.mbOwner m) (w.getD 0 0).toNat (w.getD 1 0).toNat = true →
      exec (.getCerts t m) s = .next (if (w.getD 1 0).toNat < n then b.fwAnswer m 3 []
        else (b.engWrite (w.getD 0 0).toNat Config.certificates).fwAnswer m 1 [w64 n])) ∧
    (∀ (m pa len slot n : Nat) (ok : Bool) (found : Found) (w : List Word) (e c : State) (bs : List Byte) (bad : Bool)
        (b r : State), b = a.reading found 0 1 → w = (b.takeReq m 3).1 → e = (b.takeReq m 3).2 →
        pa = (w.getD 0 0).toNat → len = (w.getD 1 0).toNat → slot = (w.getD 2 0).toNat → bs = (e.engRead pa len).1 →
        bad = (e.engRead pa len).2.1 → c = (e.engRead pa len).2.2 → n = c.checkImage (stagedImg bs) bad false →
        b.imageTurn m = true → m < 32 → b.fwHolds m 0x102 = true → e.isAdmin (e.mbOwner m) = true → slot < 2 →
        slot ≠ e.rd BOOT_STATUS.SLOT → e.fwMay (e.mbOwner m) pa len = true → imgLen (stagedImg bs) ≤ len →
        (r = (if n ≠ 1 then c.fwAnswer m 5 [w64 n]
        else if ok then (c.programSlot slot (bs.take (imgLen (stagedImg bs)))).fwAnswer m 1 []
        else (c.spoilSlot slot (bs.take (imgLen (stagedImg bs))).length).fwAnswer m 5 [0xFF])) →
            r.access.blocked = none →
      exec (.imageWrite t m ok found) s = .next (r.readsDone)) ∧
    (∀ (m : Nat) (w : List Word) (b : State), a.imageTurn m = true → m < 32 → a.fwHolds m 0x103 = true →
        w = (a.takeReq m 1).1 → b = (a.takeReq m 1).2 → b.isAdmin (b.mbOwner m) = true →
      exec (.setNext t m) s = .next ((b.engWrite bootNext (wordBytes (bootNextWords ((w.getD 0 0).toNat % 2) (bitOf
          (w.getD 0 0).toNat 1)))).fwAnswer m 1 [])) ∧
    (∀ (m : Nat) (b : State), a.imageTurn m = true → m < 32 → a.fwHolds m 0x104 = true → b = (a.takeReq m 0).2 →
        b.isAdmin (b.mbOwner m) = true →
      exec (.rollbackCommit t m) s = .next (State.fwAnswer
          { b with fuses := { b.fuses with rollback := max b.fuses.rollback (b.rd BOOT_STATUS.IMAGE_ROLLBACK) } } m 1
          [])) ∧
    (∀ (m : Nat) (w : List Word) (b : State) (l : List (List Word)), m < 32 → a.fwHolds m 0x200 = true →
        w = (a.takeReq m 2).1 → b = (a.takeReq m 2).2 → (w.getD 0 0).toNat % 4096 = 0 → 32 ≤ (w.getD 1 0).toNat →
        b.fwMay (b.mbOwner m) (w.getD 0 0).toNat (w.getD 1 0).toNat = true →
        l = b.thrLog.take ((w.getD 1 0).toNat / 32) →
      exec (.throttleLog t m) s = .next ((b.engWrite (w.getD 0 0).toNat (wordBytes l.flatten)).fwAnswer m 1 [w64
          l.length, w64 b.thrOver])) ∧
    (∀ (m t2 n : Nat) (w : List Word) (b c : State) (g : List Word), a.fwHolds m 0x300 = true →
        w = (a.takeReq m 3).1 → b = (a.takeReq m 3).2 →
        b.fwMay (b.mbOwner m) (w.getD 0 0).toNat (w.getD 1 0).toNat = true →
        b.graphWords (w.getD 2 0).toNat (w.getD 1 0).toNat b.tb (b.advance t2).tb b.freeIdx = (g, n) →
        64 ≤ (w.getD 1 0).toNat → c = { b.advance t2 with freeIdx := b.freeIdx + g.length } →
      exec (.waitGraph t m t2) s = .next ((c.engWrite (w.getD 0 0).toNat (wordBytes g)).fwAnswer m 1 [w64 (wordBytes
          g).length, w64 n])) ∧
    (∀ (m : Nat) (w : List Word) (b : State) (r : List Byte), a.fwHolds m 0x301 = true → w = (a.takeReq m 3).1 →
        b = (a.takeReq m 3).2 → 1024 ≤ (w.getD 1 0).toNat → (w.getD 2 0).toNat < 4096 →
        b.fwMay (b.mbOwner m) (w.getD 0 0).toNat (w.getD 1 0).toNat = true →
        r = wordBytes (b.collectWords (w.getD 2 0).toNat (b.mbOwner m) (w.getD 1 0).toNat) →
      exec (.stateCollect t m) s = .next ((b.engWrite (w.getD 0 0).toNat r).fwAnswer m 1 [w64 r.length]))

/-- A scalar memory-side operation at its alignment in HBM or the far tier, admitted, at a line its adder has taken and
that is not poison, stores the value that R280 gives from the old element and the operand, counts itself, and answers
its agent with the old value where it fetches one. An EA or a SETTLE of one to sixteen cells of one granule,
admitted, that meets no poison and no refused target answers its agent; an EA some of whose cells wait does the
others. (R123, R125, R279, R280, R283, R284.) -/
def Obligations.MemorySideOperationsComplete : Prop :=
  ∀ (s a : State) (t : Nat), s.runsAt t a →
    (∀ (agent old y v : Nat) (r : MopReq) (d : Line) (c b u : State), a.save.phase = 0 → r.form = .scalar →
        (a.region r.pa).coherent = true → r.pa % 4 = 0 → a.admits agent true r.pa 4 = true →
        a.holdKey (r.pa / 64) = none → c = a.reading r.found 0 agent → c.lostLine (r.pa / 64) = false →
        d = (c.adderTake (r.pa / 64)).1 → (c.adderTake (r.pa / 64)).2.1 = false → b = (c.adderTake (r.pa / 64)).2.2 →
        old = (d.toNat >>> (8 * (r.pa % 64))) % 2 ^ 32 → y = r.operand.toNat % 2 ^ 32 → v = (old + y) % 2 ^ 32 →
        u = ((b.countMop (r.pa / 64)).storeLine (r.pa / 64) (maskOf (r.pa % 64) 4) (BitVec.ofNat 512 (v <<< (8 * (r.pa
        % 64))))).answer agent (if r.fetch then BitVec.ofNat 64 old else 0) → u.access.blocked = none →
      exec (.iadd32 t agent r) s = .next (u.readsDone)) ∧
    (∀ (agent old y v : Nat) (r : MopReq) (d : Line) (c b u : State), a.save.phase = 0 → r.form = .scalar →
        (a.region r.pa).coherent = true → r.pa % 8 = 0 → a.admits agent true r.pa 8 = true →
        a.holdKey (r.pa / 64) = none → c = a.reading r.found 0 agent → c.lostLine (r.pa / 64) = false →
        d = (c.adderTake (r.pa / 64)).1 → (c.adderTake (r.pa / 64)).2.1 = false → b = (c.adderTake (r.pa / 64)).2.2 →
        old = (d.toNat >>> (8 * (r.pa % 64))) % 2 ^ 64 → y = r.operand.toNat % 2 ^ 64 → v = (old + y) % 2 ^ 64 →
        u = ((b.countMop (r.pa / 64)).storeLine (r.pa / 64) (maskOf (r.pa % 64) 8) (BitVec.ofNat 512 (v <<< (8 * (r.pa
        % 64))))).answer agent (if r.fetch then BitVec.ofNat 64 old else 0) → u.access.blocked = none →
      exec (.iadd64 t agent r) s = .next (u.readsDone)) ∧
    (∀ (agent old y v : Nat) (r : MopReq) (d : Line) (c b u : State), a.save.phase = 0 → r.form = .scalar →
        (a.region r.pa).coherent = true → r.pa % 4 = 0 → a.admits agent true r.pa 4 = true →
        a.holdKey (r.pa / 64) = none → c = a.reading r.found 0 agent → c.lostLine (r.pa / 64) = false →
        d = (c.adderTake (r.pa / 64)).1 → (c.adderTake (r.pa / 64)).2.1 = false → b = (c.adderTake (r.pa / 64)).2.2 →
        old = (d.toNat >>> (8 * (r.pa % 64))) % 2 ^ 32 → y = r.operand.toNat % 2 ^ 32 →
        (v = if signedNat 32 old ≤ signedNat 32 y then old else y) →
        u = ((b.countMop (r.pa / 64)).storeLine (r.pa / 64) (maskOf (r.pa % 64) 4) (BitVec.ofNat 512 (v <<< (8 * (r.pa
        % 64))))).answer agent (if r.fetch then BitVec.ofNat 64 old else 0) → u.access.blocked = none →
      exec (.smin32 t agent r) s = .next (u.readsDone)) ∧
    (∀ (agent old y v : Nat) (r : MopReq) (d : Line) (c b u : State), a.save.phase = 0 → r.form = .scalar →
        (a.region r.pa).coherent = true → r.pa % 8 = 0 → a.admits agent true r.pa 8 = true →
        a.holdKey (r.pa / 64) = none → c = a.reading r.found 0 agent → c.lostLine (r.pa / 64) = false →
        d = (c.adderTake (r.pa / 64)).1 → (c.adderTake (r.pa / 64)).2.1 = false → b = (c.adderTake (r.pa / 64)).2.2 →
        old = (d.toNat >>> (8 * (r.pa % 64))) % 2 ^ 64 → y = r.operand.toNat % 2 ^ 64 →
        (v = if signedNat 64 old ≤ signedNat 64 y then old else y) →
        u = ((b.countMop (r.pa / 64)).storeLine (r.pa / 64) (maskOf (r.pa % 64) 8) (BitVec.ofNat 512 (v <<< (8 * (r.pa
        % 64))))).answer agent (if r.fetch then BitVec.ofNat 64 old else 0) → u.access.blocked = none →
      exec (.smin64 t agent r) s = .next (u.readsDone)) ∧
    (∀ (agent old y v : Nat) (r : MopReq) (d : Line) (c b u : State), a.save.phase = 0 → r.form = .scalar →
        (a.region r.pa).coherent = true → r.pa % 4 = 0 → a.admits agent true r.pa 4 = true →
        a.holdKey (r.pa / 64) = none → c = a.reading r.found 0 agent → c.lostLine (r.pa / 64) = false →
        d = (c.adderTake (r.pa / 64)).1 → (c.adderTake (r.pa / 64)).2.1 = false → b = (c.adderTake (r.pa / 64)).2.2 →
        old = (d.toNat >>> (8 * (r.pa % 64))) % 2 ^ 32 → y = r.operand.toNat % 2 ^ 32 →
        (v = if signedNat 32 old ≤ signedNat 32 y then y else old) →
        u = ((b.countMop (r.pa / 64)).storeLine (r.pa / 64) (maskOf (r.pa % 64) 4) (BitVec.ofNat 512 (v <<< (8 * (r.pa
        % 64))))).answer agent (if r.fetch then BitVec.ofNat 64 old else 0) → u.access.blocked = none →
      exec (.smax32 t agent r) s = .next (u.readsDone)) ∧
    (∀ (agent old y v : Nat) (r : MopReq) (d : Line) (c b u : State), a.save.phase = 0 → r.form = .scalar →
        (a.region r.pa).coherent = true → r.pa % 8 = 0 → a.admits agent true r.pa 8 = true →
        a.holdKey (r.pa / 64) = none → c = a.reading r.found 0 agent → c.lostLine (r.pa / 64) = false →
        d = (c.adderTake (r.pa / 64)).1 → (c.adderTake (r.pa / 64)).2.1 = false → b = (c.adderTake (r.pa / 64)).2.2 →
        old = (d.toNat >>> (8 * (r.pa % 64))) % 2 ^ 64 → y = r.operand.toNat % 2 ^ 64 →
        (v = if signedNat 64 old ≤ signedNat 64 y then y else old) →
        u = ((b.countMop (r.pa / 64)).storeLine (r.pa / 64) (maskOf (r.pa % 64) 8) (BitVec.ofNat 512 (v <<< (8 * (r.pa
        % 64))))).answer agent (if r.fetch then BitVec.ofNat 64 old else 0) → u.access.blocked = none →
      exec (.smax64 t agent r) s = .next (u.readsDone)) ∧
    (∀ (agent old y v : Nat) (r : MopReq) (d : Line) (c b u : State), a.save.phase = 0 → r.form = .scalar →
        (a.region r.pa).coherent = true → r.pa % 4 = 0 → a.admits agent true r.pa 4 = true →
        a.holdKey (r.pa / 64) = none → c = a.reading r.found 0 agent → c.lostLine (r.pa / 64) = false →
        d = (c.adderTake (r.pa / 64)).1 → (c.adderTake (r.pa / 64)).2.1 = false → b = (c.adderTake (r.pa / 64)).2.2 →
        old = (d.toNat >>> (8 * (r.pa % 64))) % 2 ^ 32 → y = r.operand.toNat % 2 ^ 32 → v = min old y →
        u = ((b.countMop (r.pa / 64)).storeLine (r.pa / 64) (maskOf (r.pa % 64) 4) (BitVec.ofNat 512 (v <<< (8 * (r.pa
        % 64))))).answer agent (if r.fetch then BitVec.ofNat 64 old else 0) → u.access.blocked = none →
      exec (.umin32 t agent r) s = .next (u.readsDone)) ∧
    (∀ (agent old y v : Nat) (r : MopReq) (d : Line) (c b u : State), a.save.phase = 0 → r.form = .scalar →
        (a.region r.pa).coherent = true → r.pa % 8 = 0 → a.admits agent true r.pa 8 = true →
        a.holdKey (r.pa / 64) = none → c = a.reading r.found 0 agent → c.lostLine (r.pa / 64) = false →
        d = (c.adderTake (r.pa / 64)).1 → (c.adderTake (r.pa / 64)).2.1 = false → b = (c.adderTake (r.pa / 64)).2.2 →
        old = (d.toNat >>> (8 * (r.pa % 64))) % 2 ^ 64 → y = r.operand.toNat % 2 ^ 64 → v = min old y →
        u = ((b.countMop (r.pa / 64)).storeLine (r.pa / 64) (maskOf (r.pa % 64) 8) (BitVec.ofNat 512 (v <<< (8 * (r.pa
        % 64))))).answer agent (if r.fetch then BitVec.ofNat 64 old else 0) → u.access.blocked = none →
      exec (.umin64 t agent r) s = .next (u.readsDone)) ∧
    (∀ (agent old y v : Nat) (r : MopReq) (d : Line) (c b u : State), a.save.phase = 0 → r.form = .scalar →
        (a.region r.pa).coherent = true → r.pa % 4 = 0 → a.admits agent true r.pa 4 = true →
        a.holdKey (r.pa / 64) = none → c = a.reading r.found 0 agent → c.lostLine (r.pa / 64) = false →
        d = (c.adderTake (r.pa / 64)).1 → (c.adderTake (r.pa / 64)).2.1 = false → b = (c.adderTake (r.pa / 64)).2.2 →
        old = (d.toNat >>> (8 * (r.pa % 64))) % 2 ^ 32 → y = r.operand.toNat % 2 ^ 32 → v = max old y →
        u = ((b.countMop (r.pa / 64)).storeLine (r.pa / 64) (maskOf (r.pa % 64) 4) (BitVec.ofNat 512 (v <<< (8 * (r.pa
        % 64))))).answer agent (if r.fetch then BitVec.ofNat 64 old else 0) → u.access.blocked = none →
      exec (.umax32 t agent r) s = .next (u.readsDone)) ∧
    (∀ (agent old y v : Nat) (r : MopReq) (d : Line) (c b u : State), a.save.phase = 0 → r.form = .scalar →
        (a.region r.pa).coherent = true → r.pa % 8 = 0 → a.admits agent true r.pa 8 = true →
        a.holdKey (r.pa / 64) = none → c = a.reading r.found 0 agent → c.lostLine (r.pa / 64) = false →
        d = (c.adderTake (r.pa / 64)).1 → (c.adderTake (r.pa / 64)).2.1 = false → b = (c.adderTake (r.pa / 64)).2.2 →
        old = (d.toNat >>> (8 * (r.pa % 64))) % 2 ^ 64 → y = r.operand.toNat % 2 ^ 64 → v = max old y →
        u = ((b.countMop (r.pa / 64)).storeLine (r.pa / 64) (maskOf (r.pa % 64) 8) (BitVec.ofNat 512 (v <<< (8 * (r.pa
        % 64))))).answer agent (if r.fetch then BitVec.ofNat 64 old else 0) → u.access.blocked = none →
      exec (.umax64 t agent r) s = .next (u.readsDone)) ∧
    (∀ (agent old y v : Nat) (r : MopReq) (d : Line) (c b u : State), a.save.phase = 0 → r.form = .scalar →
        (a.region r.pa).coherent = true → r.pa % 4 = 0 → a.admits agent true r.pa 4 = true →
        a.holdKey (r.pa / 64) = none → c = a.reading r.found 0 agent → c.lostLine (r.pa / 64) = false →
        d = (c.adderTake (r.pa / 64)).1 → (c.adderTake (r.pa / 64)).2.1 = false → b = (c.adderTake (r.pa / 64)).2.2 →
        old = (d.toNat >>> (8 * (r.pa % 64))) % 2 ^ 32 → y = r.operand.toNat % 2 ^ 32 → v = Fmt.addCodes .fp32 old y →
        u = ((b.countMop (r.pa / 64)).storeLine (r.pa / 64) (maskOf (r.pa % 64) 4) (BitVec.ofNat 512 (v <<< (8 * (r.pa
        % 64))))).answer agent (if r.fetch then BitVec.ofNat 64 old else 0) → u.access.blocked = none →
      exec (.fadd32 t agent r) s = .next (u.readsDone)) ∧
    (∀ (agent old y v : Nat) (r : MopReq) (d : Line) (c b u : State), a.save.phase = 0 → r.form = .scalar →
        (a.region r.pa).coherent = true → r.pa % 2 = 0 → a.admits agent true r.pa 2 = true →
        a.holdKey (r.pa / 64) = none → c = a.reading r.found 0 agent → c.lostLine (r.pa / 64) = false →
        d = (c.adderTake (r.pa / 64)).1 → (c.adderTake (r.pa / 64)).2.1 = false → b = (c.adderTake (r.pa / 64)).2.2 →
        old = (d.toNat >>> (8 * (r.pa % 64))) % 2 ^ 16 → y = r.operand.toNat % 2 ^ 16 → v = Fmt.addCodes .bf16 old y →
        u = ((b.countMop (r.pa / 64)).storeLine (r.pa / 64) (maskOf (r.pa % 64) 2) (BitVec.ofNat 512 (v <<< (8 * (r.pa
        % 64))))).answer agent (if r.fetch then BitVec.ofNat 64 old else 0) → u.access.blocked = none →
      exec (.faddbf16 t agent r) s = .next (u.readsDone)) ∧
    (∀ (agent old y v : Nat) (r : MopReq) (d : Line) (c b u : State), a.save.phase = 0 → r.form = .scalar →
        (a.region r.pa).coherent = true → r.pa % 2 = 0 → a.admits agent true r.pa 2 = true →
        a.holdKey (r.pa / 64) = none → c = a.reading r.found 0 agent → c.lostLine (r.pa / 64) = false →
        d = (c.adderTake (r.pa / 64)).1 → (c.adderTake (r.pa / 64)).2.1 = false → b = (c.adderTake (r.pa / 64)).2.2 →
        old = (d.toNat >>> (8 * (r.pa % 64))) % 2 ^ 16 → y = r.operand.toNat % 2 ^ 16 → v = Fmt.addCodes .fp16 old y →
        u = ((b.countMop (r.pa / 64)).storeLine (r.pa / 64) (maskOf (r.pa % 64) 2) (BitVec.ofNat 512 (v <<< (8 * (r.pa
        % 64))))).answer agent (if r.fetch then BitVec.ofNat 64 old else 0) → u.access.blocked = none →
      exec (.fadd16 t agent r) s = .next (u.readsDone)) ∧
    (∀ (agent old y v : Nat) (r : MopReq) (d : Line) (c b u : State), a.save.phase = 0 → r.form = .scalar →
        (a.region r.pa).coherent = true → r.pa % 4 = 0 → a.admits agent true r.pa 4 = true →
        a.holdKey (r.pa / 64) = none → c = a.reading r.found 0 agent → c.lostLine (r.pa / 64) = false →
        d = (c.adderTake (r.pa / 64)).1 → (c.adderTake (r.pa / 64)).2.1 = false → b = (c.adderTake (r.pa / 64)).2.2 →
        old = (d.toNat >>> (8 * (r.pa % 64))) % 2 ^ 32 → y = r.operand.toNat % 2 ^ 32 →
        (v = if old = y then (r.operand.toNat >>> 32) % 2 ^ 32 else old) →
        u = ((b.countMop (r.pa / 64)).storeLine (r.pa / 64) (maskOf (r.pa % 64) 4) (BitVec.ofNat 512 (v <<< (8 * (r.pa
        % 64))))).answer agent (BitVec.ofNat 64 old) → u.access.blocked = none →
      exec (.cas32 t agent r) s = .next (u.readsDone)) ∧
    (∀ (agent old y v : Nat) (r : MopReq) (d : Line) (c b u : State), a.save.phase = 0 → r.form = .scalar →
        (a.region r.pa).coherent = true → r.pa % 8 = 0 → a.admits agent true r.pa 8 = true →
        a.holdKey (r.pa / 64) = none → c = a.reading r.found 0 agent → c.lostLine (r.pa / 64) = false →
        d = (c.adderTake (r.pa / 64)).1 → (c.adderTake (r.pa / 64)).2.1 = false → b = (c.adderTake (r.pa / 64)).2.2 →
        old = (d.toNat >>> (8 * (r.pa % 64))) % 2 ^ 64 → y = r.operand.toNat % 2 ^ 64 →
        (v = if old = y then (r.operand.toNat >>> 64) % 2 ^ 64 else old) →
        u = ((b.countMop (r.pa / 64)).storeLine (r.pa / 64) (maskOf (r.pa % 64) 8) (BitVec.ofNat 512 (v <<< (8 * (r.pa
        % 64))))).answer agent (BitVec.ofNat 64 old) → u.access.blocked = none →
      exec (.cas64 t agent r) s = .next (u.readsDone)) ∧
    (∀ (agent old y v : Nat) (r : MopReq) (d : Line) (c b u : State), a.save.phase = 0 → r.form = .scalar →
        (a.region r.pa).coherent = true → r.pa % 4 = 0 → a.admits agent true r.pa 4 = true →
        a.holdKey (r.pa / 64) = none → c = a.reading r.found 0 agent → c.lostLine (r.pa / 64) = false →
        d = (c.adderTake (r.pa / 64)).1 → (c.adderTake (r.pa / 64)).2.1 = false → b = (c.adderTake (r.pa / 64)).2.2 →
        old = (d.toNat >>> (8 * (r.pa % 64))) % 2 ^ 32 → y = r.operand.toNat % 2 ^ 32 → v = y →
        u = ((b.countMop (r.pa / 64)).storeLine (r.pa / 64) (maskOf (r.pa % 64) 4) (BitVec.ofNat 512 (v <<< (8 * (r.pa
        % 64))))).answer agent (BitVec.ofNat 64 old) → u.access.blocked = none →
      exec (.swap32 t agent r) s = .next (u.readsDone)) ∧
    (∀ (agent old y v : Nat) (r : MopReq) (d : Line) (c b u : State), a.save.phase = 0 → r.form = .scalar →
        (a.region r.pa).coherent = true → r.pa % 8 = 0 → a.admits agent true r.pa 8 = true →
        a.holdKey (r.pa / 64) = none → c = a.reading r.found 0 agent → c.lostLine (r.pa / 64) = false →
        d = (c.adderTake (r.pa / 64)).1 → (c.adderTake (r.pa / 64)).2.1 = false → b = (c.adderTake (r.pa / 64)).2.2 →
        old = (d.toNat >>> (8 * (r.pa % 64))) % 2 ^ 64 → y = r.operand.toNat % 2 ^ 64 → v = y →
        u = ((b.countMop (r.pa / 64)).storeLine (r.pa / 64) (maskOf (r.pa % 64) 8) (BitVec.ofNat 512 (v <<< (8 * (r.pa
        % 64))))).answer agent (BitVec.ofNat 64 old) → u.access.blocked = none →
      exec (.swap64 t agent r) s = .next (u.readsDone)) ∧
    (∀ (agent : Nat) (r : MopReq) (c b u : State), a.save.phase = 0 → r.form = .cells →
        (a.region r.pa).coherent = true → r.pa % 64 = 0 → 1 ≤ r.n → r.n ≤ 16 →
        r.pa / 4096 = (r.pa + 64 * r.n - 1) / 4096 → a.admits agent true r.pa (64 * r.n) = true →
        a.holdKey (r.pa / 64) = none → c = a.reading r.found 0 agent → b = (c.mopCells agent 0x18 .fp32 r).2 →
        u = b.answer agent 0 → (c.mopCells agent 0x18 .fp32 r).1 = some (.ok 0) → u.access.blocked = none →
      exec (.eaFp32 t agent r) s = .next (u.readsDone)) ∧
    (∀ (agent : Nat) (r : MopReq) (c b u : State), a.save.phase = 0 → r.form = .cells →
        (a.region r.pa).coherent = true → r.pa % 64 = 0 → 1 ≤ r.n → r.n ≤ 16 →
        r.pa / 4096 = (r.pa + 64 * r.n - 1) / 4096 → a.admits agent true r.pa (64 * r.n) = true →
        a.holdKey (r.pa / 64) = none → c = a.reading r.found 0 agent → b = (c.mopCells agent 0x19 .bf16 r).2 →
        u = b.answer agent 0 → (c.mopCells agent 0x19 .bf16 r).1 = some (.ok 0) → u.access.blocked = none →
      exec (.eaBf16 t agent r) s = .next (u.readsDone)) ∧
    (∀ (agent : Nat) (r : MopReq) (c b u : State), a.save.phase = 0 → r.form = .cells →
        (a.region r.pa).coherent = true → r.pa % 64 = 0 → 1 ≤ r.n → r.n ≤ 16 →
        r.pa / 4096 = (r.pa + 64 * r.n - 1) / 4096 → a.admits agent true r.pa (64 * r.n) = true →
        a.holdKey (r.pa / 64) = none → c = a.reading r.found 0 agent → b = (c.mopCells agent 0x1A .fp16 r).2 →
        u = b.answer agent 0 → (c.mopCells agent 0x1A .fp16 r).1 = some (.ok 0) → u.access.blocked = none →
      exec (.eaFp16 t agent r) s = .next (u.readsDone)) ∧
    (∀ (agent : Nat) (r : MopReq) (c b u : State), a.save.phase = 0 → r.form = .cells →
        (a.region r.pa).coherent = true → r.pa % 64 = 0 → 1 ≤ r.n → r.n ≤ 16 →
        r.pa / 4096 = (r.pa + 64 * r.n - 1) / 4096 → a.admits agent true r.pa (64 * r.n) = true →
        a.holdKey (r.pa / 64) = none → c = a.reading r.found 0 agent → b = (c.mopCells agent 0x18 .fp32 r).2 → u = b →
        (c.mopCells agent 0x18 .fp32 r).1 = none → u.access.blocked = none →
      exec (.eaFp32 t agent r) s = .next (u.readsDone)) ∧
    (∀ (agent : Nat) (r : MopReq) (c b u : State), a.save.phase = 0 → r.form = .cells →
        (a.region r.pa).coherent = true → r.pa % 64 = 0 → 1 ≤ r.n → r.n ≤ 16 →
        r.pa / 4096 = (r.pa + 64 * r.n - 1) / 4096 → a.admits agent true r.pa (64 * r.n) = true →
        a.holdKey (r.pa / 64) = none → c = a.reading r.found 0 agent → b = (c.mopCells agent 0x19 .bf16 r).2 → u = b →
        (c.mopCells agent 0x19 .bf16 r).1 = none → u.access.blocked = none →
      exec (.eaBf16 t agent r) s = .next (u.readsDone)) ∧
    (∀ (agent : Nat) (r : MopReq) (c b u : State), a.save.phase = 0 → r.form = .cells →
        (a.region r.pa).coherent = true → r.pa % 64 = 0 → 1 ≤ r.n → r.n ≤ 16 →
        r.pa / 4096 = (r.pa + 64 * r.n - 1) / 4096 → a.admits agent true r.pa (64 * r.n) = true →
        a.holdKey (r.pa / 64) = none → c = a.reading r.found 0 agent → b = (c.mopCells agent 0x1A .fp16 r).2 → u = b →
        (c.mopCells agent 0x1A .fp16 r).1 = none → u.access.blocked = none →
      exec (.eaFp16 t agent r) s = .next (u.readsDone)) ∧
    (∀ (agent : Nat) (r : MopReq) (c b u : State), a.save.phase = 0 → r.form = .cells →
        (a.region r.pa).coherent = true → r.pa % 64 = 0 → 1 ≤ r.n → r.n ≤ 16 →
        r.pa / 4096 = (r.pa + 64 * r.n - 1) / 4096 → a.admits agent false r.pa (64 * r.n) = true →
        a.targetLegal r 4 = true → a.holdKey (r.pa / 64) = none → c = a.reading r.found 0 agent →
        b = (c.mopSettle agent .fp32 r).2 → u = b.answer agent 0 → (c.mopSettle agent .fp32 r).1 = .ok 0 →
        u.access.blocked = none →
      exec (.settleFp32 t agent r) s = .next (u.readsDone)) ∧
    (∀ (agent : Nat) (r : MopReq) (c b u : State), a.save.phase = 0 → r.form = .cells →
        (a.region r.pa).coherent = true → r.pa % 64 = 0 → 1 ≤ r.n → r.n ≤ 16 →
        r.pa / 4096 = (r.pa + 64 * r.n - 1) / 4096 → a.admits agent false r.pa (64 * r.n) = true →
        a.targetLegal r 2 = true → a.holdKey (r.pa / 64) = none → c = a.reading r.found 0 agent →
        b = (c.mopSettle agent .bf16 r).2 → u = b.answer agent 0 → (c.mopSettle agent .bf16 r).1 = .ok 0 →
        u.access.blocked = none →
      exec (.settleBf16 t agent r) s = .next (u.readsDone))

/-- A line leaves the line store; the scrubber reads a line; a channel retrains for each of its causes and ends its
attempt, well or not; the controller tries again; a channel is retired by its errors and by a service processor; and
the next granule of a repair moves. (R275, R278, R286, R287, R288, R290, R292.) -/
def Obligations.MemoryChannelsComplete : Prop :=
  ∀ (s a : State) (t : Nat), s.runsAt t a →
    (∀ (line : Nat), (a.lineStore.any (fun e => e.1 == line && decide (e.2 + 1000 ≤ a.now)) = true) →
      exec (.lineStoreWriteback t line) s = .next (a.leaveStore line)) ∧
    (∀ (line : Nat) (ecc : EccFinding), onDram (a.region (64 * line)) = true → a.hbmDead (64 * line) = false →
        a.chanHeld (a.chanOf (64 * line)) = false →
      exec (.scrub t line ecc) s = .next ((a.countRead (a.chanOf (64 * line))).ecc line ecc 1 0)) ∧
    (∀ (ch agent : Nat), ch < 384 → a.canRetrain ch = true → (a.chan ch).ceWin.1 = a.winNum 1000000 →
        a.rd HM_CFG.CE_RETRAIN < (a.chan ch).ceWin.2 →
      exec (.retrain t ch 0 agent) s = .next (a.holdChan ch 1)) ∧
    (∀ (ch cause agent : Nat), ch < 384 → cause = 1 ∨ cause = 2 → a.canRetrain ch = true →
      exec (.retrain t ch cause agent) s = .next (a.holdChan ch 1)) ∧
    (∀ (ch agent : Nat), ch < 384 → a.allows agent (HM_CH_CTRL.RETRAIN.off ch) true = true →
        (a.answer agent 0).canRetrain ch = true →
      exec (.retrain t ch 3 agent) s = .next ((a.answer agent 0).holdChan ch 1)) ∧
    (∀ (ch agent : Nat), ch < 384 → a.rd HM_CH_STATUS.STATE ch = 2 →
      exec (.retrain t ch 4 agent) s = .next (a.holdChan ch 1)) ∧
    (∀ (ch : Nat) (b : State), ch < 384 → a.rd HM_CH_STATUS.STATE ch = 1 →
        b = (a.bump HM_CH_STATUS.RETRAINS ch).wr HM_CH_STATUS.TRAIN_FAILS ch 0 →
      exec (.retrainDone t ch) s = .next (((b.setChan ch { b.chan ch with failedAt := none }).resumeChan ch 2 0
          (b.holdTicks ch)).releaseReqs ch)) ∧
    (∀ (ch : Nat) (b : State), ch < 384 → a.rd HM_CH_STATUS.STATE ch = 1 → a.rd HM_CH_STATUS.TRAIN_FAILS ch < 2 →
        b = (a.setChan ch { a.chan ch with failedAt := some a.now }).wr HM_CH_STATUS.TRAIN_FAILS ch (a.rd
        HM_CH_STATUS.TRAIN_FAILS ch + 1) →
      exec (.retrainFail t ch) s = .next ((b.resumeChan ch 3 (a.rd HM_CH_STATUS.TRAIN_FAILS ch + 1) 0).releaseReqs
          ch)) ∧
    (∀ (ch : Nat) (b : State), ch < 384 → a.rd HM_CH_STATUS.STATE ch = 1 → 2 ≤ a.rd HM_CH_STATUS.TRAIN_FAILS ch →
        b = (a.setChan ch { a.chan ch with failedAt := some a.now }).wr HM_CH_STATUS.TRAIN_FAILS ch (a.rd
        HM_CH_STATUS.TRAIN_FAILS ch + 1) →
      exec (.retrainFail t ch) s = .next (((b.resumeChan ch 3 (a.rd HM_CH_STATUS.TRAIN_FAILS ch + 1) 0).trainingLost
          ch).releaseReqs ch)) ∧
    (∀ (ch f : Nat), ch < 384 → (a.chan ch).failedAt = some f → f + 1000000 ≤ a.now → a.canRetrain ch = true →
      exec (.retrainRetry t ch) s = .next ((a.setChan ch { a.chan ch with failedAt := none }).holdChan ch 1)) ∧
    (∀ (ch agent : Nat), ch < 384 → a.flag HM_CFG.AUTO_RETIRE = true → (a.chan ch).ceSec.1 = a.winNum 1000000000 →
        a.rd HM_CFG.CE_RETIRE < (a.chan ch).ceSec.2 → (a.chan ch).lost = false →
      exec (.retire t ch 1 agent) s = .next ((a.declareLost ch 1).releaseReqs ch)) ∧
    (∀ (ch agent : Nat), ch < 384 → a.allows agent (HM_CH_CTRL.RETRAIN.off ch) true = true → isService agent = true →
        (a.chan ch).lost = false →
      exec (.retire t ch 2 agent) s = .next (((a.answer agent 0).declareLost ch 2).releaseReqs ch)) ∧
    (∀ (answers : Bool) (ecc : List (Nat × EccFinding)) (r : Repair) (n g : Nat) (ls : List Nat) (b c : State),
        (a.repairs.zipIdx.find? (fun e => !e.1.done && !a.chanHeld e.1.ch) = some (r, n)) →
        g = a.granuleAt n r.ch r.moved → (ls = (List.range 64).map (fun k => g * 64 + k)) →
        (b = a.each ls fun s l => if answers && !r.dead then (s.countRead r.ch).findErrors ecc [l] 3 0 else if
        s.inStore l then s else s.setPoison l true) → r.moved + 1 < a.toMove n → b.toMove n = a.toMove n →
        (c = State.mapRepair { b with lineStore := b.lineStore.filter (fun e => e.1 / 64 != g) } n fun x =>
        { x with moved := r.moved + 1, done := false }) →
      exec (.granuleMove t answers ecc) s = .next ((c.each ls fun s l => s.countWrite (s.chanOf (64 * l))).wr
          HM_STATUS.MOVED 0 (r.moved + 1)))

/-- An ACTIVE port enters link recovery, comes back, or goes DOWN after 1 ms; an error status is recorded; and a write of
an object of the tier is stored. A migration that is ready ends at once when HOME is its target, fails when its
leaves do not match, and otherwise enters DRAIN; one in DRAIN asks for its invalidations, and enters COPY when they
are complete; one in COPY moves lines and, after the last, goes on to REMAP; with no transaction open a rill is
enabled; and the rills of a queue are evaluated before a launch. (R295, R299, R301, R303, R304, R308, R310, R311.) -/
def Obligations.FarTierComplete : Prop :=
  ∀ (s a : State) (t : Nat), s.runsAt t a →
    (∀ (port : Nat), port < 8 → a.rd TIER_PORT_STATUS.STATE port = 2 → a.cxlRecovering port = false →
      exec (.cxlLinkRecovery t port) s = .next
          ({ a with cxlRecover := Tab.put (fun _ => 0) a.cxlRecover port (a.now + 1) })) ∧
    (∀ (port : Nat), a.cxlRecovering port = true → a.recoveryOver port = false →
      exec (.cxlLinkRecovered t port) s = .next (a.endRecovery port)) ∧
    (∀ (port : Nat), a.cxlRecovering port = true → a.recoveryOver port = true →
      exec (.cxlPortDown t port) s = .next ((a.wr TIER_PORT_STATUS.STATE port 3).endRecovery port)) ∧
    (∀ (port : Nat) (status : Word), port < 8 →
      exec (.cxlError t port status) s = .next (a.faultRecord 12 port 0xFFF 0 0 status.toNat)) ∧
    (∀ (agent n : Nat) (v : Word), n < 65536 → a.allows agent (TIER_OBJ_CFG.VALID.off n) true = true →
      exec (.tierObjCfg t agent n v) s = .next ((a.answer agent 0).objStore agent n v)) ∧
    (∀ (n : Nat) (found : Found) (m : Mig), a.migOf n = some m → a.migReady m = true →
        a.rd TIER_OBJ_CFG.HOME n = m.target →
      exec (.migrationCheck t n found) s = .next ((a.bump TIER_OBJ_CFG.NOOPS n).endMig m 0 0 false)) ∧
    (∀ (n : Nat) (found : Found) (m : Mig) (e : State) (b r : State), a.migOf n = some m → a.migReady m = true →
        a.rd TIER_OBJ_CFG.HOME n ≠ m.target → b = a.reading found 0 (a.migAgent m) → b.leavesOk n = (false, e) →
        r = (e.wr TIER_OBJ_CFG.LAST n 1).endMig m 4 8 true → r.access.blocked = none →
      exec (.migrationCheck t n found) s = .next (r.readsDone)) ∧
    (∀ (n tag : Nat) (found : Found) (m k : Mig) (e c d : State) (b r : State), a.migOf n = some m →
        a.migReady m = true → a.rd TIER_OBJ_CFG.HOME n ≠ m.target → b = a.reading found 0 (a.migAgent m) →
        (c = (((e.wr TIER_OBJ_CFG.STATE n 2).tracePhase m 0).rewriteLeaves n (fun _ pte => clearV pte)).tracePhase m
        1) → tag = c.rd TIER_OBJ_CFG.CONTEXT n → b.leavesOk n = (true, e) →
        (c.tlbDrop tag).startInval { m with phase := 1, tlb := c.tlbMarks tag } = (d, k) → r = d.setMig m k →
        r.access.blocked = none →
      exec (.migrationCheck t n found) s = .next (r.readsDone)) ∧
    (∀ (n : Nat) (m : Mig), a.migOf n = some m → m.phase = 1 → m.inval = none →
      exec (.migrationDrain t n) s = .next ((a.startInval m).1.setMig m (a.startInval m).2)) ∧
    (∀ (n k : Nat) (m : Mig), a.migOf n = some m → m.phase = 1 → m.inval = some k →
        (a.invals.any (fun x => x.k == k) = false) → a.tlbDone m.tlb = true →
      exec (.migrationDrain t n) s = .next ((a.setMig m { m with phase := 2 }).tracePhase m 2)) ∧
    (∀ (n bad lost : Nat) (l ks : List Nat) (found : Found) (m : Mig) (e : State) (b r : State), a.migOf n = some m →
        m.phase = 2 → b = a.reading found 0 (a.migAgent m) → ks = (b.linesLeft m).filter l.contains →
        b.moveLines (b.objBacking n (1 - m.target)) (b.objBacking n m.target) ks = (bad, lost, e) →
        r = e.setMig m { m with copied := m.copied ++ ks, bad := m.bad + bad, lost := m.lost + lost } →
        r.access.blocked = none →
      exec (.migrationCopy t n (some l) found) s = .next (r.readsDone)) ∧
    (∀ (n bad lost : Nat) (found : Found) (m : Mig) (e : State) (b r : State), a.migOf n = some m → m.phase = 2 →
        b = a.reading found 0 (a.migAgent m) →
        b.moveLines (b.objBacking n (1 - m.target)) (b.objBacking n m.target) (b.linesLeft m) = (bad, lost, e) →
        r = e.remap m (m.bad + bad) (m.lost + lost) → r.access.blocked = none →
      exec (.migrationCopy t n none found) s = .next (r.readsDone)) ∧
    (∀ (agent n : Nat) (v : Word), n < 64 → TIER_RILL_CFG.ENABLE.get v = 1 →
        a.allows agent (TIER_RILL_CFG.ENABLE.off n) true = true → a.rd TXN_STATUS.STATE = 0 →
      exec (.rillEnable t agent n v) s = .next ((a.answer agent 0).rillStore agent n v)) ∧
    (∀ (q : Nat) (found : Found) (f : Fetched) (l : List Fetched) (c : State) (b r : State), (a.queue q).fetched = f
        :: l → bitsOf (f.words.headD 0).toNat 23 16 = 1 → (a.queue q).evaluated = false → a.qRuns q = true →
        (a.rillsOf q).isEmpty = false → b = a.reading found 0 (0x4000 + q) →
        (c = b.each (b.rillsOf q) fun s n => s.evalRill q (hdrLayer f.words) n) →
        (r = c.setQueue q { c.queue q with evaluated := true, gates := (c.gatesOf q).map fun n => (n, c.now) }) →
        r.access.blocked = none →
      exec (.rillEvaluation t q found) s = .next (r.readsDone))

/-- With no transaction open an epoch slot takes its settings; a CHECKING slot is checked; a bucket that is whole ends
with OK and one whose window has ended with LOST; a message refused as NOT_READY is sent again; and a DONE of a
member reaches its bucket. (R318, R331, R335, R339, R340.) -/
def Obligations.CollectivesComplete : Prop :=
  ∀ (s a : State) (t : Nat), s.runsAt t a →
    (∀ (agent n : Nat) (v : Word), n < 16 → a.allows agent (CE_EPOCH_CFG.EPOCH.off n) true = true →
        a.rd TXN_STATUS.STATE = 0 →
      exec (.ceEpochCfg t agent n v) s = .next ((a.answer agent 0).epochStore agent n v)) ∧
    (∀ (n : Nat) (found : Found) (b r : State), n < 16 → a.rd CE_EPOCH_STATUS.STATE n = 1 →
        (b = a.reading found 0 (Tab.get (fun _ => 0) a.ringAgent (64 + n))) → r = b.checkEpoch n →
        r.access.blocked = none →
      exec (.epochCheckDone t n found) s = .next (r.readsDone)) ∧
    (∀ (q i : Nat) (found : Found) (x : Bucket) (c : State) (b r : State), a.bucketAt q i = some x →
        b = a.reading found 0 (0xA000 + x.hub) → c = b.ceGo x → c.bucketWhole (c.again x) = true →
        c.now < c.bucketDue (c.again x) → r = c.ceEnd (c.again x) 0 0 → r.access.blocked = none →
      exec (.bucketComplete t q i found) s = .next (r.readsDone)) ∧
    (∀ (q i : Nat) (x : Bucket), a.bucketAt q i = some x → a.bucketDue x ≤ a.now →
      exec (.bucketTimeout t q i) s = .next (a.ceEnd x 8 (a.ceMissing x))) ∧
    (∀ (h : Nat) (r : Resend), (a.resends.find? (fun r => r.hub == h && decide (r.due ≤ a.now)) = some r) →
      exec (.collResend t h) s = .next (a.resend r)) ∧
    (∀ (port : Nat) (found : Found) (x : RxMsg) (l : List RxMsg) (b r : State), a.save.phase = 0 →
        a.rxOf port = x :: l → isDone x.msg = true →
        (b = { a.reading found 0 port with rx := Tab.put (fun _ => []) a.rx port l }) → x.msg.dst = b.deviceId →
        b.guardAdmits x.msg.src = true → r = (b.msgColl port x).doneBound port x → r.access.blocked = none →
      exec (.doneMessage t port found) s = .next (r.readsDone))

/-- At a flit boundary an ACTIVE link sends again, sends a new flit, or a NULL flit; a flit that arrives is discarded
when its correction or its checksum fails, gives its header when it is NULL, and is accepted when it is the next; a
link replays after 2 µs without an ACK, and earns its tokens back. (R344, R345, R347, R349, R350.) -/
def Obligations.FlitsComplete : Prop :=
  ∀ (s a : State) (t : Nat), s.runsAt t a →
    (∀ (link : Nat) (f : Flit) (r : List Flit), link < 24 → a.linkState link = 2 → a.save.phase = 0 →
        (a.link link).again = f :: r →
      exec (.flitSend t link) s = .next (a.sendAgain link f)) ∧
    (∀ (link : Nat), link < 24 → a.linkState link = 2 → a.save.phase = 0 → (a.link link).again = [] →
        1024 ≤ (a.link link).replay.length ∨ a.pickFlit link = none →
      exec (.flitSend t link) s = .next (a.sendNull link)) ∧
    (∀ (link : Nat) (p : Pick) (turns : Tab Nat), link < 24 → a.linkState link = 2 → a.save.phase = 0 →
        (a.link link).again = [] → (a.link link).replay.length < 1024 → a.pickFlit link = some (p, turns) →
      exec (.flitSend t link) s = .next (a.sendNew link p turns)) ∧
    (∀ (link n : Nat) (words : List Word), link < 24 → a.linkState link = 2 →
      exec (.flitReceive t link words n true) s = .next (((a.bump LK_LINK_ERR.FEC_CORR link n).bump
          LK_LINK_ERR.FEC_UNCORR link).discardFlit link)) ∧
    (∀ (link n : Nat) (words : List Word), link < 24 → a.linkState link = 2 → flitIntact words = false →
      exec (.flitReceive t link words n false) s = .next (((a.bump LK_LINK_ERR.FEC_CORR link n).bump
          LK_LINK_ERR.CRC_FAIL link).discardFlit link)) ∧
    (∀ (link n : Nat) (words : List Word) (f : Flit), link < 24 → a.linkState link = 2 → f = flitOf words →
        flitIntact words = true → f.null = true →
      exec (.flitReceive t link words n false) s = .next ((a.bump LK_LINK_ERR.FEC_CORR link n).flitHeader link f)) ∧
    (∀ (link n : Nat) (words : List Word) (f : Flit), link < 24 → a.linkState link = 2 → f = flitOf words →
        flitIntact words = true → f.null = false →
        f.seq = (((a.bump LK_LINK_ERR.FEC_CORR link n).link link).rxSeq + 1) % 65536 →
      exec (.flitReceive t link words n false) s = .next (((a.bump LK_LINK_ERR.FEC_CORR link n).flitHeader link
          f).acceptFlit link f)) ∧
    (∀ (link : Nat), a.linkState link = 2 → (a.link link).replay.isEmpty = false →
        (a.link link).ackAt + 2000 ≤ a.now →
      exec (.replayTimeout t link) s = .next (a.startReplay link)) ∧
    (∀ (link n k : Nat), link < 24 → (a.link link).earnedBy (a.rd LK_LINK_CFG.C0_PCT link) a.now = (n, k) → 0 < n →
        0 < (a.link link).tokensOut →
      exec (.tokenEarn t link) s = .next (a.setLink link
          { a.link link with tokensOut := (a.link link).tokensOut - min n (a.link link).tokensOut, earned := (a.now, k) }))

/-- With no transaction open a link and a window take their settings; training ends or times out; a link retrains for
each of its causes, and times out; a DOWN link trains by itself or by a write; a request times out; and a link
rejoins a window. (R352, R353, R354, R356, R357, R360.) -/
def Obligations.LinksComplete : Prop :=
  ∀ (s a : State) (t : Nat), s.runsAt t a →
    (∀ (agent link : Nat) (v : Word), link < 24 → a.allows agent (LK_LINK_CFG.ENABLE.off link) true = true →
        a.rd TXN_STATUS.STATE = 0 →
      exec (.linkEnable t agent link v) s = .next ((a.answer agent 0).linkStore agent link v)) ∧
    (∀ (link peer lastSeq : Nat) (resume : Bool), a.linkState link = 1 →
      exec (.trainingDone t link peer resume lastSeq) s = .next (a.activeFresh link peer)) ∧
    (∀ (link peer lastSeq : Nat), a.linkState link = 3 → (a.link link).resume = true →
      exec (.trainingDone t link peer true lastSeq) s = .next (a.resumeLink link peer lastSeq)) ∧
    (∀ (link peer lastSeq : Nat), a.linkState link = 3 →
      exec (.trainingDone t link peer false lastSeq) s = .next (((a.linkDown link).bump LK_LINK_STATUS.LINK_RESETS
          link).activeFresh link peer)) ∧
    (∀ (link : Nat), a.linkState link = 1 → (a.link link).since + 100000000 ≤ a.now →
      exec (.trainingTimeout t link) s = .next (a.linkDown link)) ∧
    (∀ (link agent : Nat), link < 24 → (a.link link).replayWin.1 = a.winNum 1000000 →
        a.rd LK_LINK_CFG.REPLAY_LIMIT link < (a.link link).replayWin.2 → a.linkState link = 2 →
      exec (.linkRetrain t link 0 agent) s = .next (a.enterRetrain link)) ∧
    (∀ (link cause agent : Nat), link < 24 → cause = 1 ∨ cause = 2 → a.linkState link = 2 →
      exec (.linkRetrain t link cause agent) s = .next (a.enterRetrain link)) ∧
    (∀ (link agent : Nat), link < 24 → a.allows agent (LK_LINK_CTRL.RETRAIN.off link) true = true →
        a.linkState link = 2 →
      exec (.linkRetrain t link 3 agent) s = .next ((a.answer agent 0).enterRetrain link)) ∧
    (∀ (link : Nat), a.linkState link = 3 → (a.link link).since + 1000000 ≤ a.now →
      exec (.retrainTimeout t link) s = .next (a.linkDown link)) ∧
    (∀ (link : Nat), a.linkState link = 4 → a.flag LK_LINK_CFG.AUTO_TRAIN link = true →
        (a.link link).since + 100000000 ≤ a.now →
      exec (.autoTrain t link) s = .next (a.beginTraining link)) ∧
    (∀ (agent link : Nat), link < 24 → a.allows agent (LK_LINK_CTRL.TRAIN.off link) true = true →
        a.linkState link = 4 →
      exec (.train t agent link) s = .next ((a.answer agent 0).beginTraining link)) ∧
    (∀ (tag : Nat) (r : PeerReq), (a.peerReqs.find? (fun r => r.tag == tag && r.sent.isSome) = some r) →
        a.overdue r = true →
      exec (.peerTimeout t tag) s = .next (a.reqEnd r .lost)) ∧
    (∀ (agent w : Nat) (v : Word), w < 256 → a.allows agent (LK_WIN.VALID.off w) true = true →
        a.rd TXN_STATUS.STATE = 0 →
      exec (.windowValid t agent w v) s = .next ((a.answer agent 0).winStore agent w v)) ∧
    (∀ (w link : Nat), a.linkState link = 2 → a.edge 1000 = true → (a.peerReqs.any (fun r => r.win == w) = false) →
      exec (.linkRejoin t w link) s = .next ({ a with rejoin := a.rejoin.filter (fun e => decide (e ≠ (w, link))) }))

/-- The oldest message of a port, of the kind of the row, addressed to this device and admitted by the guard, is carried
out; a TIME is answered, or gives its times to the exchange that waits for it; an ACK, a DATA, a MOP_RSP or a REFUSE
ends the request it answers while the window of that is open. (R29, R339, R346, R358, R359, R360, R361.) -/
def Obligations.MessagesComplete : Prop :=
  ∀ (s a : State) (t : Nat), s.runsAt t a →
    (∀ (port : Nat) (found : Found) (x : RxMsg) (l : List RxMsg) (b r : State), a.save.phase = 0 →
        a.rxOf port = x :: l → x.msg.kind = 1 →
        (b = { a.reading found 0 port with rx := Tab.put (fun _ => []) a.rx port l }) → x.msg.dst = b.deviceId →
        b.guardAdmits x.msg.src = true → r = (b.msgWrite port x).doneBound port x → r.access.blocked = none →
      exec (.write t port found) s = .next (r.readsDone)) ∧
    (∀ (port : Nat) (found : Found) (x : RxMsg) (l : List RxMsg) (b r : State), a.save.phase = 0 →
        a.rxOf port = x :: l → x.msg.kind = 2 →
        (b = { a.reading found 0 port with rx := Tab.put (fun _ => []) a.rx port l }) → x.msg.dst = b.deviceId →
        b.guardAdmits x.msg.src = true → r = (b.msgMasked port x).doneBound port x → r.access.blocked = none →
      exec (.writeMasked t port found) s = .next (r.readsDone)) ∧
    (∀ (port : Nat) (found : Found) (x : RxMsg) (l : List RxMsg) (b r : State), a.save.phase = 0 →
        a.rxOf port = x :: l → x.msg.kind = 3 →
        (b = { a.reading found 0 port with rx := Tab.put (fun _ => []) a.rx port l }) → x.msg.dst = b.deviceId →
        b.guardAdmits x.msg.src = true → r = (b.msgRead port x).doneBound port x → r.access.blocked = none →
      exec (.read t port found) s = .next (r.readsDone)) ∧
    (∀ (port : Nat) (found : Found) (x : RxMsg) (l : List RxMsg) (b r : State), a.save.phase = 0 →
        a.rxOf port = x :: l → x.msg.kind = 4 →
        (b = { a.reading found 0 port with rx := Tab.put (fun _ => []) a.rx port l }) → x.msg.dst = b.deviceId →
        b.guardAdmits x.msg.src = true → r = (b.msgMop port x).doneBound port x → r.access.blocked = none →
      exec (.mop t port found) s = .next (r.readsDone)) ∧
    (∀ (port : Nat) (found : Found) (x : RxMsg) (l : List RxMsg) (b r : State), a.save.phase = 0 →
        a.rxOf port = x :: l → x.msg.kind = 5 → isDone x.msg = false →
        (b = { a.reading found 0 port with rx := Tab.put (fun _ => []) a.rx port l }) → x.msg.dst = b.deviceId →
        b.guardAdmits x.msg.src = true → r = (b.msgColl port x).doneBound port x → r.access.blocked = none →
      exec (.coll t port found) s = .next (r.readsDone)) ∧
    (∀ (port : Nat) (x : RxMsg) (l : List RxMsg) (b : State), a.save.phase = 0 → a.rxOf port = x :: l →
        x.msg.kind = 6 → (b = { a with rx := Tab.put (fun _ => []) a.rx port l }) → x.msg.dst = b.deviceId →
      exec (.time t port) s = .next (b.takeTime port x)) ∧
    (∀ (port : Nat) (x : RxMsg) (l : List RxMsg) (b : State) (q : PeerReq), a.save.phase = 0 → a.rxOf port = x :: l →
        x.msg.kind = 0x41 → (b = { a with rx := Tab.put (fun _ => []) a.rx port l }) → x.msg.dst = b.deviceId →
        (b.peerReqs.find? (fun r => r.tag == x.msg.tag && r.sent.isSome) = some q) → b.overdue q = false →
      exec (.ack t port) s = .next (b.reqEnd q (.ok []))) ∧
    (∀ (port : Nat) (x : RxMsg) (l : List RxMsg) (b : State) (q : PeerReq), a.save.phase = 0 → a.rxOf port = x :: l →
        x.msg.kind = 0x42 → (b = { a with rx := Tab.put (fun _ => []) a.rx port l }) → x.msg.dst = b.deviceId →
        (b.peerReqs.find? (fun r => r.tag == x.msg.tag && r.sent.isSome) = some q) → b.overdue q = false →
      exec (.data t port) s = .next (b.reqEnd q (.ok x.msg.data))) ∧
    (∀ (port : Nat) (x : RxMsg) (l : List RxMsg) (b : State) (q : PeerReq), a.save.phase = 0 → a.rxOf port = x :: l →
        x.msg.kind = 0x43 → (b = { a with rx := Tab.put (fun _ => []) a.rx port l }) → x.msg.dst = b.deviceId →
        (b.peerReqs.find? (fun r => r.tag == x.msg.tag && r.sent.isSome) = some q) → b.overdue q = false →
      exec (.mopRsp t port) s = .next (b.reqEnd q (.ok x.msg.data))) ∧
    (∀ (port : Nat) (x : RxMsg) (l : List RxMsg) (b : State) (q : PeerReq), a.save.phase = 0 → a.rxOf port = x :: l →
        x.msg.kind = 0x44 → (b = State.bump { a with rx := Tab.put (fun _ => []) a.rx port l } LK_STATUS.REFUSED 0) →
        x.msg.dst = a.deviceId → x.msg.dst = b.deviceId →
        (b.peerReqs.find? (fun r => r.tag == x.msg.tag && r.sent.isSome) = some q) → b.overdue q = false →
      exec (.refuse t port) s = .next (b.reqEnd q (.refused x.msg.code)))

/-- A frame of a legal length that is fabric traffic is dropped and counted when it is unsound or no entry knows its
sender, and taken otherwise; another is a management frame; packets are sent again after RTO_US; an entry without
progress goes DOWN and its requests are lost; an entry takes its settings; frames are sent; and a port comes up or
goes down. (R362, R363, R364, R365, R369.) -/
def Obligations.EthernetCompletes : Prop :=
  ∀ (s a : State) (t : Nat), s.runsAt t a →
    (∀ (port : Nat) (bytes : List Byte) (found : Found) (f : FrameParts) (d : Datagram) (b r : State), port < 4 →
        a.ethRuns port = true → b = a.reading found 0 (0x9100 + port) → f = frameParts bytes →
        b.frameFits port bytes.length = true → f.tags ≤ 1 →
        b.flag LK_ETH_CFG.PFC port = false ∨ f.type ≠ 0x8808 ∨ beNat (f.body.take 2) ≠ 0x0101 →
        b.fabricOf port f = some d → d.sound = false → r = b.bump LK_ETH_STATUS.CSUM_DROP port →
        r.access.blocked = none →
      exec (.fabricPacket t port bytes found) s = .next (r.readsDone)) ∧
    (∀ (port : Nat) (bytes : List Byte) (found : Found) (f : FrameParts) (d : Datagram) (b r : State), port < 4 →
        a.ethRuns port = true → b = a.reading found 0 (0x9100 + port) → f = frameParts bytes →
        b.frameFits port bytes.length = true → f.tags ≤ 1 →
        b.flag LK_ETH_CFG.PFC port = false ∨ f.type ≠ 0x8808 ∨ beNat (f.body.take 2) ≠ 0x0101 →
        b.fabricOf port f = some d → d.sound = true → b.entryOf d.src.1 d.src.2 = none →
        r = b.bump LK_ETH_STATUS.NO_PEER port → r.access.blocked = none →
      exec (.fabricPacket t port bytes found) s = .next (r.readsDone)) ∧
    (∀ (port : Nat) (bytes : List Byte) (found : Found) (f : FrameParts) (d : Datagram) (e : Nat) (k : Packet) (b r :
        State), port < 4 → a.ethRuns port = true → b = a.reading found 0 (0x9100 + port) → f = frameParts bytes →
        b.frameFits port bytes.length = true → f.tags ≤ 1 →
        b.flag LK_ETH_CFG.PFC port = false ∨ f.type ≠ 0x8808 ∨ beNat (f.body.take 2) ≠ 0x0101 → k = packetOf d.data →
        b.fabricOf port f = some d → d.sound = true → b.entryOf d.src.1 d.src.2 = some e →
        b.rd LK_EPEER_CFG.STATE e ≠ 2 → k.nak = false → k.ackOnly = false →
        r = (b.ackPackets e k.cls k.ack).takePacket port e k → r.access.blocked = none →
      exec (.fabricPacket t port bytes found) s = .next (r.readsDone)) ∧
    (∀ (port : Nat) (bytes : List Byte) (found : Found) (f : FrameParts) (b r : State), port < 4 →
        a.ethRuns port = true → b = a.reading found 0 (0x9100 + port) → f = frameParts bytes →
        b.frameFits port bytes.length = true → f.tags ≤ 1 →
        b.flag LK_ETH_CFG.PFC port = false ∨ f.type ≠ 0x8808 ∨ beNat (f.body.take 2) ≠ 0x0101 →
        b.fabricOf port f = none → r = b.mgmtFrame port bytes → r.access.blocked = none →
      exec (.managementFrame t port bytes found) s = .next (r.readsDone)) ∧
    (∀ (peer cls : Nat) (b : State), b = a.drainStream peer cls → (b.stream peer cls).unacked.isEmpty = false →
        (b.stream peer cls).progress + b.rd LK_ETH_CFG.RTO_US (b.rd LK_EPEER_CFG.PORT peer) * 1000 ≤ b.now →
      exec (.rtoResend t peer cls) s = .next (b.resendPackets peer cls)) ∧
    (∀ (peer c : Nat), c < 4 → a.peerUp peer = true → (a.stream peer c).unacked.isEmpty = false →
        (a.stream peer c).progress + a.peerTicks ≤ a.now →
      exec (.epeerDown t peer) s = .next (((a.wr LK_EPEER_CFG.STATE peer 2).clearStreams peer false).loseReqs
          (a.entryReqs peer))) ∧
    (∀ (agent peer : Nat) (v : Word), peer < 4096 → a.allows agent (LK_EPEER_CFG.VALID.off peer) true = true →
      exec (.epeerValid t agent peer v) s = .next ((a.answer agent 0).epeerStore agent peer v)) ∧
    (∀ (agent port : Nat) (v : Word) (found : Found) (b r : State), port < 4 →
        a.allows agent (LK_ETH_MTX_TAIL.TAIL.off port) true = true →
        b = (a.answer agent 0).reading found 0 (0x9100 + port) →
        r = (b.storeReg agent (LK_ETH_MTX_TAIL.TAIL.off port) v).mtxSend port → r.access.blocked = none →
      exec (.mtxTail t agent port v found) s = .next (r.readsDone)) ∧
    (∀ (port : Nat) (up : Bool), port < 4 →
      exec (.ethLinkUp t port up) s = .next ((a.wr LK_ETH_STATUS.UP port (bit up)).mtxSend port))

/-- A save that may start starts; its drain ends after 20 µs or below 1.2 V with header line 0 written; it completes with
its sections and header line 1; the loss of HOLD_VIN stops it; and the hottest reading at 115 °C starts one. (R468,
R469, R477, R478, R481, R482.) -/
def Obligations.SaveCompletes : Prop :=
  ∀ (s a : State) (t : Nat), a = s.advance t →
    (∀ (cause : Nat) (b : State), a.maySave = true →
        (b = if cause < 2 then a.openEvent 4 15 nobodys 0 (a.rd SLU_PKG_EXC.VIN_MV) true else a) →
      exec (.saveStart t cause) s = .next
          ({ ((b.wr TXN_STATUS.STATE 0 0).wr TXN_STATUS.OWNER 0 0).wr TXN_STATUS.OVERFLOW 0 0 with
        txn := ⟨[], 0, 0, 0, false, 0⟩, save := ⟨1, b.tb, cause, 0, a.rd SLU_PKG_EXC.VIN_MV, false, b.now⟩ })) ∧
    (∀ (b : State), a.save.phase = 1 → a.save.began + 20000 ≤ a.now ∨ a.rd SLU_PKG_EXC.VIN_MV < 1200 →
        b = { a.abandonStores with save := { a.abandonStores.save with phase := 2 } } →
      exec (.saveDrainEnd t) s = .next (b.engWrite keepBase (wordBytes (saveLine
        [packWord [(0, 0x5356), (16, 1), (32, b.save.cause)], w64 (b.saveSeq % 2 ^ 32), w64 b.save.start])))) ∧
    (∀ (b : State), a.save.phase = 2 →
        (b = a.each a.saveSections fun s e => s.engWrite (keepBase + e.1) (wordBytes e.2)) →
      exec (.saveComplete t) s = .next ((b.engWrite (keepBase + 0x40) (wordBytes (saveLine
        ([1, w64 b.tb, packWord [(0, b.save.abandoned), (32, b.save.minVin)], w64 (b.saveSeq % 2 ^ 32)] ++ crcWords
            a.saveSections)))).saveEnds 3)) ∧
    (a.save.phase = 1 ∨ a.save.phase = 2 →
      exec (.holdVinLoss t) s = .next (State.saveEnds { a with holdVin := min a.holdVin 6999 } 4)) ∧
    (a.save.phase ≠ 1 → a.save.phase ≠ 2 →
      exec (.holdVinLoss t) s = .next ({ a with holdVin := min a.holdVin 6999 })) ∧
    (∀ (mv : Nat),
      exec (.holdOkChange t mv) s = .next ({ a with holdVin := mv })) ∧
    (∀ (temps : List Nat), a.edge 10000 = true → a.inReset = false → a.save.phase = 0 →
        (temps.any (fun x => decide (115 ≤ x)) = false) →
      exec (.thermalSample t temps) s = .next ((a.each (List.range 8) fun s p => s.readTemp p (temps.getD p
          0)).noteYields.closeEvents)) ∧
    (∀ (temps : List Nat), a.edge 10000 = true → a.inReset = false → a.save.phase = 0 →
        (temps.any (fun x => decide (115 ≤ x)) = true) →
      exec (.thermalSample t temps) s = .next (State.startSave
          { (a.each (List.range 8) fun s p => s.readTemp p (temps.getD p 0)).noteYields.closeEvents with thermtrip := true }
          2))

/-- A context reset is requested and the oldest request is carried out; fences and the reset of the host die are stored
and act; a cofferdam goes up for a die by a PLL or by software; a die resets, ends its reset with its PLLs locked or
not, and is readmitted. (R405, R486, R487, R488, R489, R491, R492.) -/
def Obligations.ResetsComplete : Prop :=
  ∀ (s a : State) (t : Nat), s.runsAt t a →
    (∀ (agent : Nat) (v : Word), a.allows agent (DBG_CTXRST.CONTEXT.off 0) true = true →
      exec (.dbgCtxrst t agent v) s = .next (((a.answer agent 0).storeReg agent (DBG_CTXRST.CONTEXT.off 0)
          v).ctxrstWrite agent v)) ∧
    (∀ (r : CtxReq) (l : List CtxReq), a.ctxReqs = r :: l → a.save.phase = 0 →
      exec (.contextReset t) s = .next (State.resetContext { a with ctxReqs := l } r)) ∧
    (∀ (agent n : Nat) (v : Word), n < 4 → a.allows agent (DBG_FENCE_TC.FENCE.off n) true = true →
      exec (.tcFence t agent n v) s = .next ((a.answer agent 0).tcFenceStore agent n v)) ∧
    (∀ (agent : Nat) (v : Word), a.allows agent (DBG_FENCE_HC_0.FENCE.off 0) true = true →
      exec (.hcFence t agent 0 v) s = .next ((a.answer agent 0).hcFenceStore agent 0 v)) ∧
    (∀ (agent : Nat) (v : Word), a.allows agent (DBG_FENCE_HC_1.FENCE.off 0) true = true →
      exec (.hcFence t agent 1 v) s = .next ((a.answer agent 0).hcFenceStore agent 1 v)) ∧
    (∀ (agent : Nat) (v : Word), a.allows agent (DBG_HOSTDIE_RESET.GO.off 0) true = true →
        DBG_HOSTDIE_RESET.GO.get v = 1 →
      exec (.hostDieReset t agent v) s = .next (((a.answer agent 0).storeReg agent (DBG_HOSTDIE_RESET.GO.off 0)
          v).resetHostDie 1 agent)) ∧
    (∀ (die agent : Nat), die < 4 → a.allows agent (DBG_TDIE_CTRL.RESET.off die) true = true →
      exec (.cofferdam t die true agent) s = .next (((a.answer agent 0).storeReg agent (DBG_TDIE_CTRL.RESET.off die)
          1).cofferdam die 1 agent)) ∧
    (∀ (die agent : Nat), die < 4 →
      exec (.cofferdam t die false agent) s = .next ((a.clkBit SYS_CLK_STATUS.TDIE_LOCK die false).cofferdam die 0 0))
          ∧
    (∀ (die : Nat), die < 4 → a.dieState die = 1 → (Tab.get (fun _ => []) a.dieWaits die = []) →
      exec (.dieResetting t die) s = .next ((((a.clkBit SYS_CLK_STATUS.TDIE_LOCK die false).setDie die 2).bump
          DBG_TDIE_STATUS.RESETS die).clearDie die)) ∧
    (∀ (die : Nat) (b : State), die < 4 → a.dieState die = 2 →
        b = (a.clkBit SYS_CLK_STATUS.TDIE_LOCK die true).setDie die 3 →
      exec (.dieResetDone t die true) s = .next (b.each (b.dieCores die) fun s c => s.setReg (TC_CYC_IDLE.COUNT.off c)
          (BitVec.ofNat 64 (aclkOf s.now)))) ∧
    (∀ (die : Nat), die < 4 → a.dieState die = 2 →
      exec (.dieResetDone t die false) s = .next (a.setDie die 4)) ∧
    (∀ (agent die : Nat), die < 4 → a.allows agent (DBG_TDIE_CTRL.RESET.off die) true = true → a.dieState die = 3 →
      exec (.readmit t agent die) s = .next ((a.answer agent 0).readmitDie die))

/-- The oldest event offered is written; a window of the trace budget begins; a mark is offered; counters are sampled; a
scratchpad is read; cores halt; a debug access over JTAG is carried out and recorded; and the I3C port selects an
index, answers an item and takes an address. (R509, R511, R513, R514, R515, R516, R529.) -/
def Obligations.TraceAndDebugComplete : Prop :=
  ∀ (s a : State) (t : Nat), a = s.advance t →
    (∀ (e : TraceRec) (r : List TraceRec), a.awake = true → a.offers = e :: r →
      exec (.traceEvent t) s = .next (State.traceWrite { a with offers := r } e)) ∧
    (a.awake = true → a.edge 1000 = true →
      exec (.traceBudgetWindow t) s = .next
          ({ (if a.overWin then a.bump TRC_STATUS.OVER 0 else a) with budget := [], overWin := false })) ∧
    (∀ (agent : Nat) (v : Word), a.awake = true → a.allows agent (TRC_MARK.VALUE.off 0) true = true →
      exec (.trcMark t agent v) s = .next (((a.answer agent 0).storeReg agent (TRC_MARK.VALUE.off 0) v).offer 9 0
          agent 0 v.toNat)) ∧
    (a.awake = true → a.flag TRC_CFG.SAMPLE_EN = true → a.edge (1000 * a.rd TRC_CFG.SAMPLE_US) = true →
      exec (.counterSample t) s = .next ((a.each (([0, 1, 2, 3].filter fun d => !a.walled d).flatMap a.dieCores) fun s
          c =>
        s.each (List.range 4) fun s k => s.sampleOne (0x10000300 + 0x10000 * c + 0x10 * k) c (hubOfCore c) k).each [0,
            1] fun s h =>
        s.each (List.range 16) fun s k => s.sampleOne (0x40002000 + 0x100 * h + 0x10 * k) (0x100 + h) h k)) ∧
    (∀ (agent : Nat) (bad : List Nat), a.awake = true → a.allows agent (DBG_SP_DATA.DATA.off 0) false = true →
      exec (.dbgSpDataRead t agent bad) s = .next ((a.answer agent 0).spRead agent bad)) ∧
    (∀ (agent : Nat) (v : Word), a.awake = true → a.allows agent (DBG_HC_HALT_0.HALT.off 0) true = true →
      exec (.dbgHcHalt t agent 0 v) s = .next ((a.answer agent 0).haltStore agent 0 v)) ∧
    (∀ (agent : Nat) (v : Word), a.awake = true → a.allows agent (DBG_HC_HALT_1.HALT.off 0) true = true →
      exec (.dbgHcHalt t agent 1 v) s = .next ((a.answer agent 0).haltStore agent 1 v)) ∧
    (∀ (wr : Bool) (target : JtagTarget) (v : Word) (found : Found) (b r : State), a.awake = true →
        a.locked = false ∨ a.flag DBG_CFG.EXT_DEBUG = true → b = a.reading found 0 2 →
        r = ((b.jtagRecord wr target).jtagAccess wr target v).releaseSites → r.access.blocked = none →
      exec (.jtagDebugAccess t wr target v found) s = .next (r.readsDone)) ∧
    (∀ (index : Byte), a.i3cOn = true →
      exec (.i3cWrite t index) s = .next ({ a with i3cIndex := index.toNat })) ∧
    (a.i3cOn = true →
      exec (.i3cRead t) s = .next ({ a.answer 0 (a.i3cItem a.i3cIndex) with i3cIndex := (a.i3cIndex + 1) % 256 })) ∧
    (∀ (addr : Nat), a.i3cOn = true →
      exec (.i3cDynamicAddress t addr) s = .next ({ a with i3cAddr := some (addr % 128) }))
end

