-- ==== Sys2Proof/Laws/Tab.lean ====
section
/-! SUPPORT. Laws of sparse tables: what is read after a write, and that every operation keeps the canonical form. -/

namespace Sys2Proof

variable {α : Type}

theorem Tab.get_drop_same (d : Nat → α) (t : Tab α) (k : Nat) : Tab.get d (Tab.drop t k) k = d k := by
  induction t with
  | nil => rfl
  | cons e r ih =>
    obtain ⟨k', v⟩ := e
    by_cases h : k' = k <;> simp [Tab.drop, Tab.get, h, ih]

theorem Tab.get_drop_other (d : Nat → α) (t : Tab α) {k j : Nat} (h : j ≠ k) :
    Tab.get d (Tab.drop t k) j = Tab.get d t j := by
  induction t with
  | nil => rfl
  | cons e r ih =>
    obtain ⟨k', v⟩ := e
    by_cases h1 : k' = k
    · subst h1
      simp [Tab.drop, Tab.get, ih, Ne.symm h]
    · simp [Tab.drop, Tab.get, h1, ih]

theorem Tab.get_insert_other (d : Nat → α) (t : Tab α) {k j : Nat} (v : α) (h : j ≠ k) :
    Tab.get d (Tab.insert t k v) j = Tab.get d t j := by
  induction t with
  | nil => simp [Tab.insert, Tab.get, Ne.symm h]
  | cons e r ih =>
    obtain ⟨k', w⟩ := e
    by_cases h1 : k < k'
    · simp [Tab.insert, Tab.get, h1, Ne.symm h]
    · simp [Tab.insert, Tab.get, h1, ih]

theorem Tab.get_insert_same (d : Nat → α) (t : Tab α) (k : Nat) (v : α) (h : ∀ e ∈ t, e.1 ≠ k) :
    Tab.get d (Tab.insert t k v) k = v := by
  induction t with
  | nil => simp [Tab.insert, Tab.get]
  | cons e r ih =>
    obtain ⟨k', w⟩ := e
    have hk : k' ≠ k := h (k', w) (by simp)
    by_cases h1 : k < k'
    · simp [Tab.insert, Tab.get, h1]
    · simp [Tab.insert, Tab.get, h1, hk, ih (fun e he => h e (by simp [he]))]

theorem Tab.drop_keys (t : Tab α) (k : Nat) : ∀ e ∈ Tab.drop t k, e.1 ≠ k := by
  induction t with
  | nil => simp [Tab.drop]
  | cons e r ih =>
    obtain ⟨k', v⟩ := e
    intro e he
    by_cases h : k' = k
    · exact ih e (by simpa [Tab.drop, h] using he)
    · rcases (by simpa [Tab.drop, h] using he : e = (k', v) ∨ e ∈ Tab.drop r k) with rfl | he
      · exact h
      · exact ih e he

theorem Tab.drop_all (t : Tab α) (k n : Nat) (h : t.all (fun e => decide (n < e.1)) = true) :
    (Tab.drop t k).all (fun e => decide (n < e.1)) = true := by
  induction t with
  | nil => rfl
  | cons e r ih =>
    obtain ⟨k', v⟩ := e
    have h' : n < k' ∧ r.all (fun e => decide (n < e.1)) = true := by simpa using h
    by_cases hk : k' = k
    · simpa [Tab.drop, hk] using ih h'.2
    · have := ih h'.2
      simp only [Tab.drop, hk, if_false, List.all_cons, Bool.and_eq_true, decide_eq_true_eq]
      exact ⟨h'.1, this⟩

theorem Tab.insert_all (t : Tab α) (k n : Nat) (v : α) (hk : n < k)
    (h : t.all (fun e => decide (n < e.1)) = true) :
    (Tab.insert t k v).all (fun e => decide (n < e.1)) = true := by
  induction t with
  | nil => simp [Tab.insert, hk]
  | cons e r ih =>
    obtain ⟨k', w⟩ := e
    have h' : n < k' ∧ r.all (fun e => decide (n < e.1)) = true := by simpa using h
    by_cases h1 : k < k'
    · simp only [Tab.insert, h1, if_true, List.all_cons, Bool.and_eq_true, decide_eq_true_eq]
      exact ⟨hk, h'.1, h'.2⟩
    · simp only [Tab.insert, h1, if_false, List.all_cons, Bool.and_eq_true, decide_eq_true_eq]
      exact ⟨h'.1, ih h'.2⟩

variable [DecidableEq α]

/-- What is read at the key just written is what was written. -/
@[simp] theorem Tab.get_put_same (d : Nat → α) (t : Tab α) (k : Nat) (v : α) : Tab.get d (Tab.put d t k v) k = v := by
  unfold Tab.put
  split
  · rw [Tab.get_drop_same]; exact Eq.symm ‹_›
  · exact Tab.get_insert_same d _ k v (Tab.drop_keys t k)

/-- A write leaves every other key as it was. -/
theorem Tab.get_put_other (d : Nat → α) (t : Tab α) {k j : Nat} (v : α) (h : j ≠ k) :
    Tab.get d (Tab.put d t k v) j = Tab.get d t j := by
  unfold Tab.put
  split
  · exact Tab.get_drop_other d t h
  · rw [Tab.get_insert_other d _ v h, Tab.get_drop_other d t h]

/-- What is read at any key after a write. -/
theorem Tab.get_put (d : Nat → α) (t : Tab α) (k j : Nat) (v : α) :
    Tab.get d (Tab.put d t k v) j = if j = k then v else Tab.get d t j := by
  by_cases h : j = k
  · subst h; simp
  · simp [h, Tab.get_put_other d t v h]

theorem Tab.wf_drop (d : Nat → α) (t : Tab α) (k : Nat) (h : Tab.wf d t = true) : Tab.wf d (Tab.drop t k) = true := by
  induction t with
  | nil => rfl
  | cons e r ih =>
    obtain ⟨k', v⟩ := e
    simp only [Tab.wf, Bool.and_eq_true] at h
    by_cases hk : k' = k
    · simpa [Tab.drop, hk] using ih h.2
    · simp only [Tab.drop, hk, if_false, Tab.wf, Bool.and_eq_true]
      exact ⟨⟨h.1.1, Tab.drop_all r k k' h.1.2⟩, ih h.2⟩

theorem Tab.wf_insert (d : Nat → α) (t : Tab α) (k : Nat) (v : α) (hv : v ≠ d k)
    (hk : ∀ e ∈ t, e.1 ≠ k) (h : Tab.wf d t = true) : Tab.wf d (Tab.insert t k v) = true := by
  induction t with
  | nil => simp [Tab.insert, Tab.wf, hv]
  | cons e r ih =>
    obtain ⟨k', w⟩ := e
    have hne : k' ≠ k := hk (k', w) (by simp)
    simp only [Tab.wf, Bool.and_eq_true, decide_eq_true_eq] at h
    by_cases h1 : k < k'
    · simp only [Tab.insert, h1, if_true, Tab.wf, Bool.and_eq_true, decide_eq_true_eq, List.all_cons]
      refine ⟨⟨hv, trivial, ?_⟩, h⟩
      have h2 := h.1.2
      simp only [List.all_eq_true, decide_eq_true_eq] at h2 ⊢
      intro e he
      exact lt_trans h1 (h2 e he)
    · simp only [Tab.insert, h1, if_false, Tab.wf, Bool.and_eq_true, decide_eq_true_eq]
      exact ⟨⟨h.1.1, Tab.insert_all r k k' v (by omega) h.1.2⟩,
        ih (fun e he => hk e (by simp [he])) h.2⟩

/-- A write keeps the canonical form. -/
theorem Tab.wf_put (d : Nat → α) (t : Tab α) (k : Nat) (v : α) (h : Tab.wf d t = true) :
    Tab.wf d (Tab.put d t k v) = true := by
  unfold Tab.put
  split
  · exact Tab.wf_drop d t k h
  · exact Tab.wf_insert d _ k v ‹_› (Tab.drop_keys t k) (Tab.wf_drop d t k h)

/-- What is left of a canonical table after some entries are taken out is canonical. -/
theorem Tab.wf_filter (d : Nat → α) (t : Tab α) (f : Nat × α → Bool) (h : Tab.wf d t = true) :
    Tab.wf d (t.filter f) = true := by
  induction t with
  | nil => rfl
  | cons e r ih =>
    obtain ⟨k, v⟩ := e
    simp only [Tab.wf, Bool.and_eq_true] at h
    by_cases hf : f (k, v)
    · simp only [List.filter_cons_of_pos hf, Tab.wf, Bool.and_eq_true]
      refine ⟨⟨h.1.1, ?_⟩, ih h.2⟩
      have h2 := h.1.2
      simp only [List.all_eq_true, decide_eq_true_eq] at h2 ⊢
      intro e he
      exact h2 e (List.mem_filter.mp he).1
    · rw [List.filter_cons_of_neg hf]
      exact ih h.2

end Sys2Proof
end

