-- ==== Sys2Proof/Laws/Closed.lean ====
section
/-! SUPPORT. Predicates of states that survive what the operations of the model do to a state. -/

namespace Sys2Proof.Machine

/-- A predicate that no change of a state can break that leaves memory, the poison marks and the waiting commands alone:
a register written, registers dropped, and any change of the other fields. -/
structure Closed (P : State → Prop) : Prop where
  other : ∀ s t : State, t.mem = s.mem → t.poison = s.poison → t.regs = s.regs → t.pending = s.pending → P s → P t
  reg : ∀ (s : State) (off : Nat) (v : Word), P s → P (s.setReg off v)
  dropReg : ∀ (s t : State) (f : Nat × Word → Bool), t.mem = s.mem → t.poison = s.poison → t.pending = s.pending →
    t.regs = s.regs.filter f → P s → P t

/-- One that writes of memory and a package reset do not break either. -/
structure ClosedMem (P : State → Prop) : Prop extends Closed P where
  byte : ∀ (s : State) (pa : Nat) (b : Byte), P s → P (s.setByte pa b)
  mark : ∀ (s : State) (line : Nat) (b : Bool), P s → P (s.setPoison line b)
  dropMem : ∀ (s t : State) (f : Host.Cell → Bool) (g : Nat × Bool → Bool), t.mem = s.mem.filter f →
    t.poison = s.poison.filter g → t.regs = s.regs → t.pending = s.pending → P s → P t
  reset : ∀ s : State, P s → P s.packageReset

/-- A predicate of the second of a pair. -/
def OkR {α β : Type} (Q : β → Prop) (x : α × β) : Prop := Q x.2

/-- A predicate of the first of a pair. -/
def OkL {α β : Type} (Q : α → Prop) (x : α × β) : Prop := Q x.1

/-- A predicate of what an option holds, if it holds anything. -/
def OkO {α : Type} (Q : α → Prop) (x : Option α) : Prop := ∀ t, x = some t → Q t

/-- A predicate of the next state, if there is one. -/
def OkN (P : State → Prop) (x : Res) : Prop := ∀ t, x = .next t → P t

theorem okR_mk {α β : Type} {Q : β → Prop} {a : α} {b : β} (h : Q b) : OkR Q (a, b) := h

theorem okR_snd {α β : Type} {Q : β → Prop} {x : α × β} (h : OkR Q x) : Q x.2 := h

theorem okR_eq {α β : Type} {Q : β → Prop} {x : α × β} {a : α} {b : β} (e : x = (a, b)) (h : OkR Q x) : Q b := by
  subst e; exact h

theorem okL_mk {α β : Type} {Q : α → Prop} {a : α} {b : β} (h : Q a) : OkL Q (a, b) := h

theorem okL_fst {α β : Type} {Q : α → Prop} {x : α × β} (h : OkL Q x) : Q x.1 := h

theorem okL_eq {α β : Type} {Q : α → Prop} {x : α × β} {a : α} {b : β} (e : x = (a, b)) (h : OkL Q x) : Q a := by
  subst e; exact h

theorem okO_some {α : Type} {Q : α → Prop} {a : α} (h : Q a) : OkO Q (some a) := by
  intro t e; cases e; exact h

theorem okO_none {α : Type} {Q : α → Prop} : OkO Q (none : Option α) := by
  intro t e; cases e

theorem okO_eq {α : Type} {Q : α → Prop} {x : Option α} {a : α} (e : x = some a) (h : OkO Q x) : Q a := h a e

theorem ok_eq {α : Type} {Q : α → Prop} {x y : α} (e : x = y) (h : Q x) : Q y := by
  subst e; exact h

theorem okO_eqR {α β : Type} {Q : β → Prop} {x : Option (α × β)} {a : α} {b : β} (e : x = some (a, b))
    (h : OkO (OkR Q) x) : Q b := h _ e

theorem okO_eqRR {α β γ : Type} {Q : γ → Prop} {x : Option (α × β × γ)} {a : α} {b : β} {c : γ} (e : x = some (a, b, c))
    (h : OkO (OkR (OkR Q)) x) : Q c := h _ e

theorem okRR_eq {α β γ : Type} {Q : γ → Prop} {x : α × β × γ} {a : α} {b : β} {c : γ} (e : x = (a, b, c))
    (h : OkR (OkR Q) x) : Q c := by
  subst e; exact h

theorem okRRR_eq {α β γ δ : Type} {Q : δ → Prop} {x : α × β × γ × δ} {a : α} {b : β} {c : γ} {d : δ} (e : x = (a, b, c, d))
    (h : OkR (OkR (OkR Q)) x) : Q d := by
  subst e; exact h

theorem okO_getD {P : State → Prop} {x : Option State} {s : State} (h : OkO P x) (hs : P s) : P (x.getD s) := by
  cases x with
  | none => exact hs
  | some t => exact h t rfl

theorem ok_ite {α : Type} {Q : α → Prop} {c : Prop} [Decidable c] {a b : α} (ha : Q a) (hb : Q b) :
    Q (if c then a else b) := by
  split
  · exact ha
  · exact hb

theorem okN_next {P : State → Prop} {s : State} (h : P s) : OkN P (.next s) := by
  intro t e; cases e; exact h

theorem ok_foldl {α β : Type} {Q : β → Prop} {f : β → α → β} (hf : ∀ b a, Q b → Q (f b a)) :
    ∀ (l : List α) (b : β), Q b → Q (l.foldl f b)
  | [], _, h => h
  | _ :: r, _, h => ok_foldl hf r _ (hf _ _ h)

/-- A record update that leaves the registers, memory, the poison marks and the waiting commands alone. -/
theorem Closed.upd {P : State → Prop} (hP : Closed P) {x : State}
    {now' tbAdj' slew' slewAt' tbRate' rateAt' tbSteps' tbFrom' tbXchg' tbRef' tbGood' tbLast' tbStepped' reply'
    fuses' dike' txn' flash' hosts' dir' grants' invq' cores' queues' inflight' wcLeaf' wcPtr' faults'
    faultSeq' unslotted' invals' nextInval' waiters' advances' events' eventLost' eventIrq' mboxes' chans'
    repairs' lineStore' cxlMap' cxlRecover' heldReqs' cellJobs' migs' rillBad' rillIssued' members' buckets'
    endedBuckets' resends' links' lanes' rx' peerReqs' nextTag' rejoin' estreams' ethTx' mtxSent' mgmtBad'
    mrxNext' mtxNext' pfcUntil' samples' reservs' nextReserv' pends' thrEvents' thrLog' thrOver' sluPtr'
    hclkAt' caps' ramps' vinOkAt' thermtrip' save' ctxReqs' rstSeq' dieWaits' offers' drops' budget' overWin'
    ringAgent' ringBad' siteHeld' siteThrottle' d2dPoison' d2dWait' mclkHeld' booted' bringup' sram' romHalted'
    testMode' inReset' holdVin' i3cIndex' i3cAddr' access' freeIdx'} (h : P x) :
    P ⟨x.pending, now', tbAdj', slew', slewAt', tbRate', rateAt', tbSteps', tbFrom', tbXchg', tbRef', tbGood',
    tbLast', tbStepped', x.regs, reply', fuses', dike', txn', x.mem, x.poison, flash', hosts', dir', grants',
    invq', cores', queues', inflight', wcLeaf', wcPtr', faults', faultSeq', unslotted', invals', nextInval',
    waiters', advances', events', eventLost', eventIrq', mboxes', chans', repairs', lineStore', cxlMap',
    cxlRecover', heldReqs', cellJobs', migs', rillBad', rillIssued', members', buckets', endedBuckets',
    resends', links', lanes', rx', peerReqs', nextTag', rejoin', estreams', ethTx', mtxSent', mgmtBad',
    mrxNext', mtxNext', pfcUntil', samples', reservs', nextReserv', pends', thrEvents', thrLog', thrOver',
    sluPtr', hclkAt', caps', ramps', vinOkAt', thermtrip', save', ctxReqs', rstSeq', dieWaits', offers',
    drops', budget', overWin', ringAgent', ringBad', siteHeld', siteThrottle', d2dPoison', d2dWait', mclkHeld',
    booted', bringup', sram', romHalted', testMode', inReset', holdVin', i3cIndex', i3cAddr', access', freeIdx'⟩ :=
  hP.other x _ rfl rfl rfl rfl h

end Sys2Proof.Machine
end

