-- ==== Sys2Proof/Laws/KeepsCore.lean ====
section
/-! SUPPORT. What survives the named operations, the homes, the tables, the channels and the accesses of a host core. -/

namespace Sys2Proof.Machine

/-! ### Ops -/

theorem State.advance_keeps {P : State → Prop} (hP : Closed P) {s : State} {t : Nat} (hS : P s) : P (State.advance s t) :=
  hP.other s _ rfl rfl rfl rfl hS

theorem State.live_keeps {P} (hP : Closed P) {s t f} (hS : P s) (hFf : ∀ v0, P v0 → P (f v0)) : OkN P (State.live s t f) :=
    by
  unfold State.live
  dsimp only
  exact okN_next (ok_ite (hFf _ (State.advance_keeps hP hS)) (State.advance_keeps hP hS))

theorem State.free_keeps {P} (hP : Closed P) {s} (hS : P s) : OkR P (State.free s) := by
  unfold State.free
  exact okR_mk (Closed.upd hP hS)

theorem State.setReg_keeps {P : State → Prop} (hP : Closed P) {s : State} {off : Nat} {v : Word} (hS : P s) : P
    (State.setReg s off v) :=
  hP.reg _ _ _ hS

theorem State.wr_keeps {P} (hP : Closed P) {s f i x} (hS : P s) : P (State.wr s f i x) := by
  unfold State.wr
  exact State.setReg_keeps hP hS

theorem State.bump_keeps {P} (hP : Closed P) {s f i n} (hS : P s) : P (State.bump s f i n) := by
  unfold State.bump
  exact State.wr_keeps hP hS

theorem State.bumpWrap_keeps {P} (hP : Closed P) {s f i n} (hS : P s) : P (State.bumpWrap s f i n) := by
  unfold State.bumpWrap
  exact State.wr_keeps hP hS

theorem State.each_keeps {P : State → Prop} (_hP : Closed P) {α : Type} {s : State} {l : List α} {f : State → α → State}
    (hS : P s) (hFf : ∀ v0 v1, P v0 → P (f v0 v1)) : P (State.each s l f) :=
  ok_foldl hFf _ _ hS

theorem State.setByte_keeps {P : State → Prop} (hP : ClosedMem P) {s : State} {pa : Nat} {b : Byte} (hS : P s) : P
    (State.setByte s pa b) :=
  hP.byte _ _ _ hS

theorem State.setBytes_keeps {P : State → Prop} (hP : ClosedMem P) {s : State} {pa : Nat} {z2 : List Byte} (hS : P s) : P
    (State.setBytes s pa z2) := by
  induction z2 generalizing s pa with
  | nil => exact hS
  | cons b r ih => exact ih (hP.byte _ _ _ hS)

theorem State.setLine_keeps {P} (hP : ClosedMem P) {s line mask d} (hS : P s) : P (State.setLine s line mask d) := by
  have hc := hP.toClosed
  unfold State.setLine
  exact ok_foldl (fun v0 v1 h2 => (ok_ite (State.setByte_keeps hP h2) h2)) _ _ hS

theorem State.setPoison_keeps {P : State → Prop} (hP : ClosedMem P) {s : State} {line : Nat} {b : Bool} (hS : P s) : P
    (State.setPoison s line b) :=
  hP.mark _ _ _ hS

theorem State.setHost_keeps {P} (hP : Closed P) {s c h} (hS : P s) : P (State.setHost s c h) := by
  unfold State.setHost
  exact Closed.upd hP hS

theorem State.setCore_keeps {P} (hP : Closed P) {s c k} (hS : P s) : P (State.setCore s c k) := by
  unfold State.setCore
  exact Closed.upd hP hS

theorem State.setQueue_keeps {P} (hP : Closed P) {s q x} (hS : P s) : P (State.setQueue s q x) := by
  unfold State.setQueue
  exact Closed.upd hP hS

theorem State.setChan_keeps {P} (hP : Closed P) {s c x} (hS : P s) : P (State.setChan s c x) := by
  unfold State.setChan
  exact Closed.upd hP hS

theorem State.setMbox_keeps {P} (hP : Closed P) {s m x} (hS : P s) : P (State.setMbox s m x) := by
  unfold State.setMbox
  exact Closed.upd hP hS

theorem State.setLink_keeps {P} (hP : Closed P) {s l x} (hS : P s) : P (State.setLink s l x) := by
  unfold State.setLink
  exact Closed.upd hP hS

theorem State.answer_keeps {P} (hP : Closed P) {s agent v cause poison} (hS : P s) : P (State.answer s agent v cause poison)
    := by
  unfold State.answer
  exact Closed.upd hP hS

theorem State.answerLine_keeps {P} (hP : Closed P) {s agent v poison} (hS : P s) : P (State.answerLine s agent v poison) :=
    by
  unfold State.answerLine
  exact Closed.upd hP hS

theorem State.pmcRow_keeps {P} (hP : Closed P) {s base num sel ctx layer n} (hS : P s) : P (State.pmcRow s base num sel ctx
    layer n) := by
  unfold State.pmcRow
  exact ok_foldl (fun v0 v1 h2 => (State.setReg_keeps hP h2)) _ _ hS

theorem State.pmcHub_keeps {P} (hP : Closed P) {s h sel ctx layer n} (hS : P s) : P (State.pmcHub s h sel ctx layer n) := by
  unfold State.pmcHub
  exact State.pmcRow_keeps hP hS

theorem State.pmcCore_keeps {P} (hP : Closed P) {s c sel n layer} (hS : P s) : P (State.pmcCore s c sel n layer) := by
  unfold State.pmcCore
  exact State.pmcRow_keeps hP hS

theorem State.countRead_keeps {P} (hP : Closed P) {s c} (hS : P s) : P (State.countRead s c) := by
  unfold State.countRead
  exact State.pmcHub_keeps hP (State.bump_keeps hP hS)

theorem State.countWrite_keeps {P} (hP : Closed P) {s c} (hS : P s) : P (State.countWrite s c) := by
  unfold State.countWrite
  exact State.pmcHub_keeps hP (State.bump_keeps hP hS)

theorem State.noteHeld_keeps {P} (hP : Closed P) {s line} (hS : P s) : P (State.noteHeld s line) := by
  unfold State.noteHeld
  split
  · rename_i x0 x1 x2
    dsimp only
    exact Closed.upd hP hS
  · rename_i x0 x1
    exact hS

theorem State.noteErr_keeps {P} (hP : Closed P) {s line e} (hS : P s) : P (State.noteErr s line e) := by
  unfold State.noteErr
  dsimp only
  exact Closed.upd hP hS

theorem State.dramLine_keeps {P} (hP : ClosedMem P) {s line} (hS : P s) : OkR (OkR P) (State.dramLine s line) := by
  have hc := hP.toClosed
  unfold State.dramLine
  dsimp only
  refine ok_ite (okR_mk (okR_mk (State.countRead_keeps hc hS))) ?_
  split
  · rename_i x10 x11
    exact okR_mk (okR_mk (State.countRead_keeps hc hS))
  · rename_i x10 x11 x12
    exact okR_mk (okR_mk (State.noteErr_keeps hc (State.countWrite_keeps hc (State.countRead_keeps hc hS))))
  · rename_i x10 x11
    exact okR_mk (okR_mk (State.noteErr_keeps hc (State.countWrite_keeps hc (State.setPoison_keeps hP (State.countRead_keeps
        hc hS)))))

theorem State.fetchLine_keeps {P} (hP : ClosedMem P) {s line} (hS : P s) : OkR (OkR P) (State.fetchLine s line) := by
  have hc := hP.toClosed
  unfold State.fetchLine
  dsimp only
  split
  · rename_i x0 x1
    exact ok_ite (okR_mk (okR_mk (State.bump_keeps hc (State.noteHeld_keeps hc hS)))) (okR_mk (okR_mk (State.bump_keeps hc
        (State.noteHeld_keeps hc hS))))
  · rename_i x0 x1
    exact ok_ite (okR_mk (okR_mk (State.noteHeld_keeps hc hS))) (ok_ite (okR_mk (okR_mk (State.noteHeld_keeps hc hS)))
        (State.dramLine_keeps hP (State.noteHeld_keeps hc hS)))

theorem State.putLine_keeps {P} (hP : ClosedMem P) {s line mask d poison} (hS : P s) : P (State.putLine s line mask d
    poison) := by
  have hc := hP.toClosed
  unfold State.putLine
  exact State.setPoison_keeps hP (State.setLine_keeps hP hS)

theorem State.storeLine_keeps {P} (hP : ClosedMem P) {s line mask d poison} (hS : P s) : P (State.storeLine s line mask d
    poison) := by
  have hc := hP.toClosed
  unfold State.storeLine
  dsimp only
  split
  · rename_i x0 x1
    exact ok_ite (State.bump_keeps hc (State.noteHeld_keeps hc hS)) (State.bump_keeps hc (State.putLine_keeps hP
        (State.noteHeld_keeps hc hS)))
  · rename_i x0 x1
    exact ok_ite (State.putLine_keeps hP (State.noteHeld_keeps hc hS)) (ok_ite (State.noteHeld_keeps hc hS)
        (State.countWrite_keeps hc (State.putLine_keeps hP (State.noteHeld_keeps hc hS))))

theorem State.offer_keeps {P} (hP : Closed P) {s event kind src hub arg ctx layer opid} (hS : P s) : P (State.offer s event
    kind src hub arg ctx layer opid) := by
  unfold State.offer
  exact Closed.upd hP hS

theorem State.offerAs_keeps {P} (hP : Closed P) {s event c arg layer opid} (hS : P s) : P (State.offerAs s event c arg layer
    opid) := by
  unfold State.offerAs
  exact State.offer_keeps hP hS

theorem State.offerCore_keeps {P} (hP : Closed P) {s event c arg} (hS : P s) : P (State.offerCore s event c arg) := by
  unfold State.offerCore
  exact State.offerAs_keeps hP hS

theorem State.offerQueue_keeps {P} (hP : Closed P) {s event q arg layer opid} (hS : P s) : P (State.offerQueue s event q arg
    layer opid) := by
  unfold State.offerQueue
  exact State.offer_keeps hP hS

/-! ### Home -/

theorem State.dirFree_keeps {P} (hP : Closed P) {s line} (hS : P s) : P (State.dirFree s line) := by
  unfold State.dirFree
  exact Closed.upd hP hS

theorem State.dirSet_keeps {P} (hP : Closed P) {s e} (hS : P s) : P (State.dirSet s e) := by
  unfold State.dirSet
  exact Closed.upd hP hS

theorem State.touchL1_keeps {P} (hP : Closed P) {s c line fetch} (hS : P s) : P (State.touchL1 s c line fetch) := by
  unfold State.touchL1
  dsimp only
  exact ok_ite (State.setHost_keeps hP hS) hS

theorem State.checkCopy_keeps {P} (hP : Closed P) {s c line} (hS : P s) : P (State.checkCopy s c line) := by
  unfold State.checkCopy
  dsimp only
  exact ok_ite (ok_ite (Closed.upd hP (State.setHost_keeps hP hS)) hS) hS

theorem State.dropCopy_keeps {P} (hP : Closed P) {s c line} (hS : P s) : P (State.dropCopy s c line) := by
  unfold State.dropCopy
  dsimp only
  exact ok_ite (State.bump_keeps hP (State.setHost_keeps hP hS)) (State.setHost_keeps hP hS)

theorem State.dropStray_keeps {P} (hP : Closed P) {s line} (hS : P s) : P (State.dropStray s line) := by
  unfold State.dropStray
  exact State.each_keeps hP hS (fun v0 v1 h2 => (ok_ite (State.dropCopy_keeps hP h2) h2))

theorem State.dropResv_keeps {P} (hP : Closed P) {s line except} (hS : P s) : P (State.dropResv s line except) := by
  unfold State.dropResv
  refine State.each_keeps hP hS (fun v0 v1 h2 => (ok_ite h2 ?_))
  dsimp only
  exact ok_ite (State.setHost_keeps hP h2) h2

theorem State.sendInval_keeps {P} (hP : Closed P) {s cluster line core} (hS : P s) : P (State.sendInval s cluster line core)
    := by
  unfold State.sendInval
  exact Closed.upd hP hS

theorem State.applyInval_keeps {P} (hP : Closed P) {s cluster e} (hS : P s) : P (State.applyInval s cluster e) := by
  unfold State.applyInval
  exact State.each_keeps hP hS (fun v0 v1 h2 => (State.dropCopy_keeps hP h2))

theorem State.placeLine_keeps {P} (hP : Closed P) {s c x} (hS : P s) : P (State.placeLine s c x) := by
  unfold State.placeLine
  dsimp only
  exact State.setHost_keeps hP hS

theorem State.evictLine_keeps {P} (hP : Closed P) {s c x preload} (hS : P s) : P (State.evictLine s c x preload) := by
  unfold State.evictLine
  dsimp only
  exact State.setHost_keeps hP (ok_ite (State.bump_keeps hP hS) hS)

theorem State.fillLine_keeps {P} (hP : Closed P) {s c line d excl poison dirty} (hS : P s) : P (State.fillLine s c line d
    excl poison dirty) := by
  unfold State.fillLine
  split
  · rename_i x0 x1 x2
    exact State.placeLine_keeps hP hS
  · rename_i x0 x1
    dsimp only
    refine State.placeLine_keeps hP ?_
    split
    · rename_i x12 x13 x14
      exact State.evictLine_keeps hP hS
    · rename_i x12 x13
      exact hS

theorem State.storeCached_keeps {P} (hP : Closed P) {s c line mask d} (hS : P s) : P (State.storeCached s c line mask d) :=
    by
  unfold State.storeCached
  dsimp only
  split
  · rename_i x0 x1
    exact hS
  · rename_i x0 x1 x2
    exact State.setHost_keeps hP hS

theorem State.scStore_keeps {P} (hP : Closed P) {s c line} (hS : P s) : P (State.scStore s c line) := by
  unfold State.scStore
  dsimp only
  split
  · rename_i x0 x1 x2 x3 x4
    exact ok_ite (State.storeCached_keeps hP (State.setHost_keeps hP hS)) hS
  · rename_i x0 x1
    exact hS

theorem State.sendGrant_keeps {P} (hP : Closed P) {s g} (hS : P s) : P (State.sendGrant s g) := by
  unfold State.sendGrant
  exact State.scStore_keeps hP (State.fillLine_keeps hP hS)

theorem State.ackInval_keeps {P} (hP : Closed P) {s cluster line} (hS : P s) : P (State.ackInval s cluster line) := by
  unfold State.ackInval
  dsimp only
  exact State.each_keeps hP (Closed.upd hP hS) (fun v0 v1 h2 => (State.sendGrant_keeps hP h2))

theorem State.settle_keeps {P} (hP : Closed P) {s line} (hS : P s) : P (State.settle s line) := by
  unfold State.settle
  refine State.each_keeps hP hS (fun v0 v1 h2 => ?_)
  dsimp only
  exact ok_ite h2 (State.ackInval_keeps hP (State.each_keeps hP (Closed.upd hP h2) (fun v10 v11 h12 =>
      (State.applyInval_keeps hP h12))))

theorem State.dirTouch_keeps {P} (hP : Closed P) {s line} (hS : P s) : P (State.dirTouch s line) := by
  unfold State.dirTouch
  split
  · rename_i x0 x1 x2
    exact State.dirSet_keeps hP hS
  · rename_i x0 x1
    exact hS

theorem State.waitBusy_keeps {P} (hP : Closed P) {s line} (hS : P s) : P (State.waitBusy s line) := by
  unfold State.waitBusy
  refine ok_ite ?_ hS
  split
  · rename_i x10 x11 x12 x13
    exact State.pmcHub_keeps hP (okR_snd (ok_eq x13 (State.free_keeps hP hS)))

theorem State.lookup_keeps {P} (hP : Closed P) {s line} (hS : P s) : P (State.lookup s line) := by
  unfold State.lookup
  dsimp only
  exact State.bump_keeps hP (State.dirTouch_keeps hP (State.settle_keeps hP (State.waitBusy_keeps hP hS)))

theorem State.invalTo_keeps {P} (hP : Closed P) {s cluster line core} (hS : P s) : P (State.invalTo s cluster line core) :=
    by
  unfold State.invalTo
  refine State.sendInval_keeps hP ?_
  split
  · rename_i x10 x11 x12
    exact State.settle_keeps hP hS
  · rename_i x10 x11
    exact hS

theorem State.invalidateAll_keeps {P} (hP : Closed P) {s e keep} (hS : P s) : OkL P (State.invalidateAll s e keep) := by
  unfold State.invalidateAll
  split
  · rename_i x0 x1
    dsimp only
    exact okL_mk (State.each_keeps hP hS (fun v2 v3 h4 => (State.invalTo_keeps hP h4)))
  · rename_i x0 x1
    exact okL_mk (State.bump_keeps hP (State.each_keeps hP hS (fun v2 v3 h4 => (State.invalTo_keeps hP h4))))
  · rename_i x0 x1 x2
    exact okL_mk hS

theorem State.takeOwner_keeps {P} (hP : ClosedMem P) {s o line} (hS : P s) : OkR (OkR (OkR P)) (State.takeOwner s o line) :=
    by
  have hc := hP.toClosed
  unfold State.takeOwner
  dsimp only
  split
  · rename_i x0 x1 x2
    exact okR_mk (okR_mk (okR_mk (State.dropCopy_keeps hc (State.checkCopy_keeps hc hS))))
  · rename_i x0 x1
    exact okR_mk (okR_mk (okR_mk (okR_snd (okR_snd (State.fetchLine_keeps hP (State.checkCopy_keeps hc hS))))))

theorem State.ownerBack_keeps {P} (hP : ClosedMem P) {s o line} (hS : P s) : P (State.ownerBack s o line) := by
  have hc := hP.toClosed
  unfold State.ownerBack
  dsimp only
  split
  · rename_i x0 x1 x2
    exact ok_ite (State.storeLine_keeps hP (State.dropCopy_keeps hc (State.checkCopy_keeps hc hS))) (State.dropCopy_keeps hc
        (State.checkCopy_keeps hc hS))
  · rename_i x0 x1
    exact State.checkCopy_keeps hc hS

theorem State.coRead_keeps {P} (hP : ClosedMem P) {s line} (hS : P s) : OkR (OkR P) (State.coRead s line) := by
  have hc := hP.toClosed
  unfold State.coRead
  dsimp only
  split
  · rename_i x0 x1 x2
    refine ok_ite (okR_mk (okR_mk (State.lookup_keeps hc hS))) (ok_ite ?_ (State.fetchLine_keeps hP (State.lookup_keeps hc
        hS)))
    split
    · rename_i x13 x14 x15
      exact okR_mk (okR_mk (State.checkCopy_keeps hc (State.lookup_keeps hc hS)))
    · rename_i x13 x14
      exact State.fetchLine_keeps hP (State.checkCopy_keeps hc (State.lookup_keeps hc hS))
  · rename_i x0 x1
    exact State.fetchLine_keeps hP (State.lookup_keeps hc hS)

theorem State.coWrite_keeps {P : State → Prop} (hP : ClosedMem P) {s : State} {line : Nat} {mask : Word} {d : Line}
    (hS : P s) : P (State.coWrite s line mask d) := by
  have hc := hP.toClosed
  unfold State.coWrite
  extract_lets +onlyGivenNames x0
  have h1 : P x0 := (State.dropResv_keeps hc (State.lookup_keeps hc hS))
  clear_value x0
  split
  · exact (State.storeLine_keeps hP h1)
  · extract_lets +onlyGivenNames x2
    have h3 : P x2 := (State.dirFree_keeps hc h1)
    clear_value x2
    refine ok_ite ?_ (ok_ite (State.storeLine_keeps hP (State.dropStray_keeps hc h3)) (State.storeLine_keeps hP (okL_fst
      (State.invalidateAll_keeps hc h3))))
    split
    · rename_i e4
      have h5 : P _ := (okRRR_eq e4 (State.takeOwner_keeps hP h3))
      exact (State.storeLine_keeps hP h5)

theorem State.coTake_keeps {P} (hP : ClosedMem P) {s line} (hS : P s) : P (State.coTake s line) := by
  have hc := hP.toClosed
  unfold State.coTake
  dsimp only
  split
  · rename_i x0 x1
    exact State.dropResv_keeps hc (State.lookup_keeps hc hS)
  · rename_i x0 x1 x2
    exact ok_ite (State.ownerBack_keeps hP (State.dirFree_keeps hc (State.dropResv_keeps hc (State.lookup_keeps hc hS))))
        (ok_ite (State.setPoison_keeps hP (State.dropStray_keeps hc (State.dirFree_keeps hc (State.dropResv_keeps hc
        (State.lookup_keeps hc hS))))) (okL_fst (State.invalidateAll_keeps hc (State.dirFree_keeps hc (State.dropResv_keeps
        hc (State.lookup_keeps hc hS))))))

theorem State.backInvalidate_keeps {P} (hP : ClosedMem P) {s e} (hS : P s) : P (State.backInvalidate s e) := by
  have hc := hP.toClosed
  unfold State.backInvalidate
  dsimp only
  exact ok_ite (State.ownerBack_keeps hP (State.bump_keeps hc (State.dropResv_keeps hc (State.dirFree_keeps hc hS))))
      (ok_ite (State.setPoison_keeps hP (State.dropStray_keeps hc (State.bump_keeps hc (State.dropResv_keeps hc
      (State.dirFree_keeps hc hS))))) (okL_fst (State.invalidateAll_keeps hc (State.bump_keeps hc (State.dropResv_keeps hc
      (State.dirFree_keeps hc hS))))))

theorem State.dirRoom_keeps {P} (hP : ClosedMem P) {s line} (hS : P s) : OkO (OkR P) (State.dirRoom s line) := by
  have hc := hP.toClosed
  unfold State.dirRoom
  split
  · rename_i x0 x1 x2
    exact okO_some (okR_mk hS)
  · rename_i x0 x1
    dsimp only
    split
    · rename_i x2 x3 x4
      exact okO_some (okR_mk hS)
    · rename_i x2 x3
      split
      · rename_i x4 x5 x6
        exact okO_some (okR_mk (State.backInvalidate_keeps hP hS))
      · rename_i x4 x5
        exact okO_none

theorem State.engLine_keeps {P} (hP : ClosedMem P) {s line} (hS : P s) : OkR (OkR P) (State.engLine s line) := by
  have hc := hP.toClosed
  unfold State.engLine
  split
  · rename_i x0 x1
    exact State.coRead_keeps hP hS
  · rename_i x0 x1
    exact State.coRead_keeps hP hS
  · rename_i x0 x1 x2
    exact ok_ite (okR_mk (okR_mk hS)) (okR_mk (okR_mk hS))
  · rename_i x0 x1 x2 x3
    exact okR_mk (okR_mk hS)

theorem State.engStore_keeps {P} (hP : ClosedMem P) {s line mask d} (hS : P s) : P (State.engStore s line mask d) := by
  have hc := hP.toClosed
  unfold State.engStore
  split
  · rename_i x0 x1
    exact State.coWrite_keeps hP hS
  · rename_i x0 x1
    exact State.coWrite_keeps hP hS
  · rename_i x0 x1 x2
    exact ok_ite (State.setLine_keeps hP hS) hS
  · rename_i x0 x1 x2 x3
    exact State.setPoison_keeps hP (State.setLine_keeps hP hS)

theorem State.engPoison_keeps {P} (hP : ClosedMem P) {s line} (hS : P s) : P (State.engPoison s line) := by
  have hc := hP.toClosed
  unfold State.engPoison
  split
  · rename_i x0 x1
    exact State.setPoison_keeps hP (State.coWrite_keeps hP hS)
  · rename_i x0 x1
    exact State.setPoison_keeps hP (State.coWrite_keeps hP hS)
  · rename_i x0 x1 x2
    exact State.setPoison_keeps hP hS

theorem State.engRead_keeps {P} (hP : ClosedMem P) {s pa len} (hS : P s) : OkR (OkR P) (State.engRead s pa len) := by
  have hc := hP.toClosed
  unfold State.engRead
  dsimp only
  exact ok_foldl (fun v0 v1 h2 => (okR_mk (okR_mk (okR_snd (okR_snd (State.engLine_keeps hP (okR_snd (okR_snd h2)))))))) _ _
      (okR_mk (okR_mk hS))

theorem State.engWrite_keeps {P} (hP : ClosedMem P) {s pa b} (hS : P s) : P (State.engWrite s pa b) := by
  have hc := hP.toClosed
  unfold State.engWrite
  refine State.each_keeps hc hS (fun v0 v1 h2 => ?_)
  dsimp only
  exact State.engStore_keeps hP h2

theorem State.engWords_keeps {P} (hP : ClosedMem P) {s pa n} (hS : P s) : OkR (OkR P) (State.engWords s pa n) := by
  have hc := hP.toClosed
  unfold State.engWords
  dsimp only
  exact okR_mk (okR_mk (okR_snd (okR_snd (State.engRead_keeps hP hS))))

/-! ### CoreBase -/

theorem State.setFlight_keeps {P} (hP : Closed P) {s x} (hS : P s) : P (State.setFlight s x) := by
  unfold State.setFlight
  exact Closed.upd hP hS

theorem State.mapFlights_keeps {P} (hP : Closed P) {s f} (hS : P s) : P (State.mapFlights s f) := by
  unfold State.mapFlights
  exact Closed.upd hP hS

theorem State.finish_keeps {P} (hP : Closed P) {s q i status detail exc flags} (hS : P s) : P (State.finish s q i status
    detail exc flags) := by
  unfold State.finish
  split
  · rename_i x0 x1
    exact hS
  · rename_i x0 x1 x2
    exact ok_ite hS (Closed.upd hP hS)

theorem State.dropUnsent_keeps {P} (hP : Closed P) {s whose} (hS : P s) : P (State.dropUnsent s whose) := by
  unfold State.dropUnsent
  dsimp only
  exact Closed.upd hP hS

theorem State.recallReqs_keeps {P} (hP : Closed P) {s whose} (hS : P s) : P (State.recallReqs s whose) := by
  unfold State.recallReqs
  dsimp only
  exact Closed.upd hP (State.dropUnsent_keeps hP hS)

theorem State.writeExc_keeps {P} (hP : Closed P) {s c code pc detail va} (hS : P s) : P (State.writeExc s c code pc detail
    va) := by
  unfold State.writeExc
  exact State.setReg_keeps hP (State.setReg_keeps hP hS)

theorem State.endLaunch_keeps {P} (hP : Closed P) {s c x tick} (hS : P s) : P (State.endLaunch s c x tick) := by
  unfold State.endLaunch
  dsimp only
  split
  · rename_i x0 x1
    exact hS
  · rename_i x0 x1 x2
    exact ok_ite (State.wr_keeps hP (State.wr_keeps hP (State.setCore_keeps hP (State.mapFlights_keeps hP
        (State.offerCore_keeps hP (State.writeExc_keeps hP hS)))))) (State.wr_keeps hP (State.setCore_keeps hP
        (State.mapFlights_keeps hP (State.offerCore_keeps hP (State.writeExc_keeps hP hS)))))

theorem State.tryEnd_keeps {P} (hP : Closed P) {s c} (hS : P s) : P (State.tryEnd s c) := by
  unfold State.tryEnd
  dsimp only
  exact ok_ite (State.endLaunch_keeps hP hS) hS

theorem State.raise_keeps {P} (hP : Closed P) {s c code pc detail va earlier} (hS : P s) : P (State.raise s c code pc detail
    va earlier) := by
  unfold State.raise
  dsimp only
  split
  · rename_i x0 x1 x2
    exact ok_ite (ok_ite (State.setCore_keeps hP hS) hS) (State.tryEnd_keeps hP (State.setCore_keeps hP (Closed.upd hP
        (State.wr_keeps hP (State.dropUnsent_keeps hP hS)))))
  · rename_i x0 x1
    exact ok_ite (State.mapFlights_keeps hP (State.writeExc_keeps hP hS)) hS

theorem State.dropArr_keeps {P} (hP : Closed P) {s c} (hS : P s) : P (State.dropArr s c) := by
  unfold State.dropArr
  dsimp only
  split
  · rename_i x0 x1 x2
    exact State.pmcCore_keeps hP (State.bumpWrap_keeps hP (State.setCore_keeps hP hS))
  · rename_i x0 x1
    exact State.setCore_keeps hP hS

theorem State.stopRecirc_keeps {P} (hP : Closed P) {s c} (hS : P s) : P (State.stopRecirc s c) := by
  unfold State.stopRecirc
  dsimp only
  exact ok_ite (State.wr_keeps hP (State.setCore_keeps hP (State.bumpWrap_keeps hP hS))) hS

theorem State.goPc_keeps {P} (hP : Closed P) {s c pc} (hS : P s) : P (State.goPc s c pc) := by
  unfold State.goPc
  dsimp only
  exact ok_ite (State.wr_keeps hP hS) (State.raise_keeps hP hS)

theorem State.passPc_keeps {P} (hP : Closed P) {s c pc} (hS : P s) : P (State.passPc s c pc) := by
  unfold State.passPc
  dsimp only
  exact State.goPc_keeps hP (State.setCore_keeps hP hS)

/-! ### SyncOps -/

theorem State.release_keeps {P} (hP : Closed P) {s w} (hS : P s) : P (State.release s w) := by
  unfold State.release
  split
  · rename_i x0 x1 x2
    dsimp only
    exact State.passPc_keeps hP (State.offerCore_keeps hP (State.setCore_keeps hP hS))
  · rename_i x0 x1 x2
    split
    · rename_i x3 x4
      exact hS
    · rename_i x3 x4 x5
      exact State.offerQueue_keeps hP (State.finish_keeps hP hS)

theorem State.wake_keeps {P} (hP : Closed P) {s obj val} (hS : P s) : P (State.wake s obj val) := by
  unfold State.wake
  dsimp only
  exact State.each_keeps hP (Closed.upd hP hS) (fun v0 v1 h2 => (State.release_keeps hP h2))

theorem State.pushEvent_keeps {P} (hP : Closed P) {s c obj} (hS : P s) : P (State.pushEvent s c obj) := by
  unfold State.pushEvent
  dsimp only
  exact ok_ite (Closed.upd hP hS) (Closed.upd hP hS)

theorem State.fire_keeps {P} (hP : Closed P) {s obj} (hS : P s) : P (State.fire s obj) := by
  unfold State.fire
  dsimp only
  exact ok_ite (State.pushEvent_keeps hP (ok_ite (State.wr_keeps hP (State.bump_keeps hP (State.wr_keeps hP hS)))
      (State.setReg_keeps hP (State.bump_keeps hP (State.wr_keeps hP hS))))) (Closed.upd hP (ok_ite (State.wr_keeps hP
      (State.bump_keeps hP (State.wr_keeps hP hS))) (State.setReg_keeps hP (State.bump_keeps hP (State.wr_keeps hP hS)))))

theorem State.evalTrigger_keeps {P} (hP : Closed P) {s obj} (hS : P s) : P (State.evalTrigger s obj) := by
  unfold State.evalTrigger
  exact ok_ite (State.fire_keeps hP hS) hS

theorem State.syPerform_keeps {P} (hP : Closed P) {s obj set v} (hS : P s) : P (State.syPerform s obj set v) := by
  unfold State.syPerform
  dsimp only
  exact State.evalTrigger_keeps hP (State.wake_keeps hP (State.setReg_keeps hP hS))

theorem State.syAddOne_keeps {P} (hP : Closed P) {s obj} (hS : P s) : P (State.syAddOne s obj) := by
  unfold State.syAddOne
  exact State.syPerform_keeps hP hS

theorem State.notify_keeps {P} (hP : Closed P) {s agent obj} (hS : P s) : P (State.notify s agent obj) := by
  unfold State.notify
  exact ok_ite (State.syAddOne_keeps hP hS) hS

theorem State.ringPut_keeps {P} (hP : ClosedMem P) {s r w} (hS : P s) : OkR P (State.ringPut s r w) := by
  have hc := hP.toClosed
  unfold State.ringPut
  dsimp only
  exact ok_ite (okR_mk (ok_ite (State.notify_keeps hc (State.bumpWrap_keeps hc (State.engWrite_keeps hP hS)))
      (State.bumpWrap_keeps hc (State.engWrite_keeps hP hS)))) (okR_mk hS)

theorem State.ringRecord_keeps {P} (hP : ClosedMem P) {s n w} (hS : P s) : P (State.ringRecord s n w) := by
  have hc := hP.toClosed
  unfold State.ringRecord
  dsimp only
  refine ok_ite ?_ (State.bump_keeps hc hS)
  split
  · rename_i x10 x11 x12
    exact okR_snd (ok_eq x12 (State.ringPut_keeps hP hS))
  · rename_i x10 x11 x12
    exact State.bump_keeps hc (okR_snd (ok_eq x12 (State.ringPut_keeps hP hS)))

theorem State.faultRecord_keeps {P} (hP : ClosedMem P) {s kind unit ctx agent addr detail} (hS : P s) : P (State.faultRecord
    s kind unit ctx agent addr detail) := by
  have hc := hP.toClosed
  unfold State.faultRecord
  exact State.offer_keeps hc (State.ringRecord_keeps hP hS)

theorem State.hbmRecord_keeps {P} (hP : ClosedMem P) {s kind pa chan source symbol agent count detail} (hS : P s) : P
    (State.hbmRecord s kind pa chan source symbol agent count detail) := by
  have hc := hP.toClosed
  unfold State.hbmRecord
  exact State.ringRecord_keeps hP hS

/-! ### QueueOps -/

theorem State.cqTry_keeps {P} (hP : ClosedMem P) {s q w} (hS : P s) : OkR P (State.cqTry s q w) := by
  have hc := hP.toClosed
  unfold State.cqTry
  dsimp only
  exact ok_ite (okR_mk (ok_ite (State.notify_keeps hc (State.bumpWrap_keeps hc (State.engWrite_keeps hP hS)))
      (State.bumpWrap_keeps hc (State.engWrite_keeps hP hS)))) (okR_mk hS)

theorem State.qSet_keeps {P} (hP : Closed P) {s q st reason} (hS : P s) : P (State.qSet s q st reason) := by
  unfold State.qSet
  exact State.wr_keeps hP (State.wr_keeps hP hS)

theorem State.cqPut_keeps {P} (hP : ClosedMem P) {s q w} (hS : P s) : P (State.cqPut s q w) := by
  have hc := hP.toClosed
  unfold State.cqPut
  dsimp only
  refine ok_ite (State.setQueue_keeps hc hS) (ok_ite (State.setQueue_keeps hc hS) ?_)
  split
  · rename_i x10 x11 x12
    exact okR_snd (ok_eq x12 (State.cqTry_keeps hP hS))
  · rename_i x10 x11 x12
    exact ok_ite (State.setQueue_keeps hc (okR_snd (ok_eq x12 (State.cqTry_keeps hP hS)))) (State.qSet_keeps hc
        (State.setQueue_keeps hc (okR_snd (ok_eq x12 (State.cqTry_keeps hP hS)))))

theorem State.park_keeps {P} (hP : ClosedMem P) {s q reason} (hS : P s) : P (State.park s q reason) := by
  have hc := hP.toClosed
  unfold State.park
  refine ok_ite hS ?_
  dsimp only
  exact State.cqPut_keeps hP (State.qSet_keeps hc (State.setQueue_keeps hc hS))

theorem State.cqFlush_keeps {P} (hP : ClosedMem P) {s q a} (hS : P s) : P (State.cqFlush s q a) := by
  have hc := hP.toClosed
  induction a generalizing s q with
  | nil  =>
    unfold State.cqFlush
    exact State.setQueue_keeps hc hS
  | cons x0 x1 x2 =>
    unfold State.cqFlush
    refine ok_ite (State.setQueue_keeps hc hS) ?_
    split
    · rename_i x13 x14 x15
      exact x2 (okR_snd (ok_eq x15 (State.cqTry_keeps hP hS)))
    · rename_i x13 x14 x15
      dsimp only
      exact State.setQueue_keeps hc (okR_snd (ok_eq x15 (State.cqTry_keeps hP hS)))

theorem State.parkAhead_keeps {P} (hP : ClosedMem P) {s q} (hS : P s) : P (State.parkAhead s q) := by
  have hc := hP.toClosed
  unfold State.parkAhead
  split
  · rename_i x0 x1 x2 x3 x4
    exact ok_ite (State.park_keeps hP hS) hS
  · rename_i x0 x1
    exact hS

theorem State.ungate_keeps {P} (hP : Closed P) {s q rills} (hS : P s) : P (State.ungate s q rills) := by
  unfold State.ungate
  dsimp only
  exact State.setQueue_keeps hP (State.each_keeps hP hS (fun v0 v1 h2 => (State.bumpWrap_keeps hP h2)))

theorem State.passHead_keeps {P} (hP : ClosedMem P) {s q} (hS : P s) : P (State.passHead s q) := by
  have hc := hP.toClosed
  unfold State.passHead
  split
  · rename_i x0 x1
    exact hS
  · rename_i x0 x1 x2 x3
    dsimp only
    exact State.parkAhead_keeps hP (State.wr_keeps hc (State.setQueue_keeps hc (State.ungate_keeps hc hS)))

theorem State.start_keeps {P} (hP : Closed P) {s q f status detail exts} (hS : P s) : P (State.start s q f status detail
    exts) := by
  unfold State.start
  dsimp only
  exact Closed.upd hP hS

theorem State.traceStart_keeps {P} (hP : Closed P) {s q f} (hS : P s) : P (State.traceStart s q f) := by
  unfold State.traceStart
  exact State.pmcHub_keeps hP (State.offerQueue_keeps hP hS)

theorem State.failHead_keeps {P} (hP : ClosedMem P) {s q status detail} (hS : P s) : P (State.failHead s q status detail) :=
    by
  have hc := hP.toClosed
  unfold State.failHead
  split
  · rename_i x0 x1
    exact hS
  · rename_i x0 x1 x2 x3
    exact State.passHead_keeps hP (State.start_keeps hc hS)

theorem State.addLeaf_keeps {P} (hP : Closed P) {s h x} (hS : P s) : P (State.addLeaf s h x) := by
  unfold State.addLeaf
  exact Closed.upd hP hS

theorem State.addPtr_keeps {P} (hP : Closed P) {s h x} (hS : P s) : P (State.addPtr s h x) := by
  unfold State.addPtr
  exact Closed.upd hP hS

theorem State.setAD_keeps {P} (hP : ClosedMem P) {s pte write} (hS : P s) : P (State.setAD s pte write) := by
  have hc := hP.toClosed
  unfold State.setAD
  dsimp only
  exact ok_ite hS (ok_ite (State.coTake_keeps hP hS) (State.storeLine_keeps hP (State.coTake_keeps hP hS)))

theorem State.readTable_keeps {P} (hP : ClosedMem P) {s tag a} (hS : P s) : OkR P (State.readTable s tag a) := by
  have hc := hP.toClosed
  unfold State.readTable
  dsimp only
  exact ok_ite (okR_mk (okR_snd (okR_snd (State.engLine_keeps hP hS)))) (okR_mk hS)

theorem State.readPte_keeps {P} (hP : ClosedMem P) {s tag a} (hS : P s) : OkR P (State.readPte s tag a) := by
  have hc := hP.toClosed
  unfold State.readPte
  split
  · rename_i x0 x1 x2 x3
    exact okR_mk (okR_snd (ok_eq x3 (State.readTable_keeps hP hS)))
  · rename_i x0 x1 x2
    exact okR_mk (okR_snd (ok_eq x2 (State.readTable_keeps hP hS)))

theorem State.addLine_keeps {P} (hP : Closed P) {s hub tag va level a d} (hS : P s) : P (State.addLine s hub tag va level a
    d) := by
  unfold State.addLine
  dsimp only
  exact State.each_keeps hP hS (fun v0 v1 h2 => (State.addLeaf_keeps hP h2))

theorem State.walkFrom_keeps {P} (hP : ClosedMem P) {s hub tag va write look a z7} (hS : P s) : OkR P (State.walkFrom s hub
    tag va write look a z7) := by
  have hc := hP.toClosed
  induction a generalizing s hub tag va write look z7 with
  | nil  =>
    unfold State.walkFrom
    exact okR_mk hS
  | cons x0 x1 x2 =>
    unfold State.walkFrom
    dsimp only
    split
    · rename_i x3 x4 x5
      exact x2 (State.bump_keeps hc hS)
    · rename_i x3 x4
      split
      · rename_i x5 x6 x7
        exact okR_mk (okR_snd (ok_eq x7 (State.readTable_keeps hP (State.pmcHub_keeps hc (State.bump_keeps hc hS)))))
      · rename_i x5 x6 x7 x8
        exact ok_ite (okR_mk (okR_snd (ok_eq x8 (State.readTable_keeps hP (State.pmcHub_keeps hc (State.bump_keeps hc
            hS)))))) (ok_ite (okR_mk (okR_snd (ok_eq x8 (State.readTable_keeps hP (State.pmcHub_keeps hc (State.bump_keeps
            hc hS)))))) (ok_ite (x2 (State.addPtr_keeps hc (okR_snd (ok_eq x8 (State.readTable_keeps hP (State.pmcHub_keeps
            hc (State.bump_keeps hc hS))))))) (ok_ite (okR_mk (okR_snd (ok_eq x8 (State.readTable_keeps hP
            (State.pmcHub_keeps hc (State.bump_keeps hc hS)))))) (ok_ite (okR_mk (okR_snd (ok_eq x8 (State.readTable_keeps
            hP (State.pmcHub_keeps hc (State.bump_keeps hc hS)))))) (okR_mk (ok_ite (State.addLeaf_keeps hc
            (State.addLine_keeps hc (okR_snd (ok_eq x8 (State.readTable_keeps hP (State.pmcHub_keeps hc (State.bump_keeps hc
            hS))))))) (State.setAD_keeps hP (State.addLeaf_keeps hc (State.addLine_keeps hc (okR_snd (ok_eq x8
            (State.readTable_keeps hP (State.pmcHub_keeps hc (State.bump_keeps hc hS))))))))))))))

theorem State.walk1_keeps {P} (hP : ClosedMem P) {s hub tag va write look} (hS : P s) : OkR P (State.walk1 s hub tag va
    write look) := by
  have hc := hP.toClosed
  unfold State.walk1
  refine ok_ite (okR_mk hS) ?_
  split
  · rename_i x10 x11 x12
    dsimp only
    exact ok_ite (okR_mk (State.bump_keeps hc hS)) (okR_mk (ok_ite (State.addLeaf_keeps hc (ok_ite (State.bump_keeps hc hS)
        (State.setAD_keeps hP (State.bump_keeps hc hS)))) (ok_ite (State.bump_keeps hc hS) (State.setAD_keeps hP
        (State.bump_keeps hc hS)))))
  · rename_i x10 x11
    exact State.walkFrom_keeps hP hS

theorem State.translateFrom_keeps {P} (hP : ClosedMem P) {s hub tag write stop a z6 z7} (hS : P s) : OkR P
    (State.translateFrom s hub tag write stop a z6 z7) := by
  have hc := hP.toClosed
  induction a generalizing s hub tag write stop z6 z7 with
  | zero  =>
    unfold State.translateFrom
    exact okR_mk hS
  | succ x0 x1 =>
    unfold State.translateFrom
    refine ok_ite (okR_mk hS) ?_
    split
    · rename_i x12 x13 x14 x15 x16
      exact okR_mk (okR_snd (ok_eq x16 (State.walk1_keeps hP hS)))
    · rename_i x12 x13 x14 x15 x16 x17
      dsimp only
      exact ok_ite (x1 (okR_snd (ok_eq x17 (State.walk1_keeps hP hS)))) (okR_mk (okR_snd (ok_eq x17 (State.walk1_keeps hP
          hS))))

theorem State.translate_keeps {P} (hP : ClosedMem P) {s hub tag start len write} (hS : P s) : OkR P (State.translate s hub
    tag start len write) := by
  have hc := hP.toClosed
  unfold State.translate
  exact State.translateFrom_keeps hP hS

theorem State.joinFault_keeps {P} (hP : ClosedMem P) {s q tag va level kind} (hS : P s) : P (State.joinFault s q tag va
    level kind) := by
  have hc := hP.toClosed
  unfold State.joinFault
  dsimp only
  split
  · rename_i x0 x1 x2
    exact Closed.upd hc hS
  · rename_i x0 x1
    split
    · rename_i x2 x3
      exact ok_ite hS (Closed.upd hc hS)
    · rename_i x2 x3 x4
      exact State.ringRecord_keeps hP (Closed.upd hc hS)

theorem State.leaveIf_keeps {P} (hP : Closed P) {s q test} (hS : P s) : P (State.leaveIf s q test) := by
  unfold State.leaveIf
  dsimp only
  refine ok_ite ?_ (Closed.upd hP hS)
  split
  · rename_i x10 x11
    exact Closed.upd hP hS
  · rename_i x10 x11 x12 x13
    exact State.setQueue_keeps hP (Closed.upd hP hS)

theorem State.leaveFault_keeps {P} (hP : Closed P) {s q} (hS : P s) : P (State.leaveFault s q) := by
  unfold State.leaveFault
  exact State.leaveIf_keeps hP (Closed.upd hP hS)

theorem State.parkXlate_keeps {P} (hP : ClosedMem P) {s q tag va level kind} (hS : P s) : P (State.parkXlate s q tag va
    level kind) := by
  have hc := hP.toClosed
  unfold State.parkXlate
  dsimp only
  exact State.park_keeps hP (State.setQueue_keeps hc (State.leaveIf_keeps hc (State.joinFault_keeps hP hS)))

theorem State.headWalk_keeps {P} (hP : Closed P) {s q f} (hS : P s) (hFf : ∀ v0, P v0 → P (f v0)) : P (State.headWalk s q f)
    := by
  unfold State.headWalk
  dsimp only
  exact ok_ite (hFf _ (State.setQueue_keeps hP hS)) (State.leaveFault_keeps hP (hFf _ (State.setQueue_keeps hP hS)))

/-! ### CoreOps -/

theorem State.spParity_keeps {P} (hP : ClosedMem P) {s c bad reads} (hS : P s) : P (State.spParity s c bad reads) := by
  have hc := hP.toClosed
  unfold State.spParity
  refine State.each_keeps hc hS (fun v0 v1 h2 => ?_)
  dsimp only
  exact ok_ite h2 (State.faultRecord_keeps hP (State.bump_keeps hc (State.setCore_keeps hc h2)))

theorem State.setFlags_keeps {P} (hP : Closed P) {s c flags} (hS : P s) : P (State.setFlags s c flags) := by
  unfold State.setFlags
  exact State.wr_keeps hP hS

theorem State.orFlags_keeps {P} (hP : Closed P) {s c pc flags} (hS : P s) : P (State.orFlags s c pc flags) := by
  unfold State.orFlags
  dsimp only
  split
  · rename_i x0 x1
    exact hS
  · rename_i x0 x1 x2
    exact ok_ite hS (ok_ite (State.setFlags_keeps hP hS) (State.raise_keeps hP (State.setFlags_keeps hP hS)))

theorem State.integrity_keeps {P} (hP : ClosedMem P) {s c pc} (hS : P s) : P (State.integrity s c pc) := by
  have hc := hP.toClosed
  unfold State.integrity
  dsimp only
  exact State.tryEnd_keeps hc (State.raise_keeps hc (State.setCore_keeps hc (State.dropArr_keeps hc (State.faultRecord_keeps
      hP hS))))

theorem State.markIssue_keeps {P} (hP : Closed P) {s c} (hS : P s) : P (State.markIssue s c) := by
  unfold State.markIssue
  dsimp only
  exact State.setCore_keeps hP hS

theorem State.issue_keeps {P} (hP : Closed P) {s c op body f} (hS : P s) (hFf : ∀ v0 v1, P v0 → OkO P (f v0 v1)) : P
    (State.issue s c op body f) := by
  unfold State.issue
  refine ok_ite ?_ hS
  dsimp only
  exact ok_ite (okO_getD (hFf _ _ (State.markIssue_keeps hP hS)) hS) (ok_ite hS (State.raise_keeps hP (State.markIssue_keeps
      hP hS)))

theorem State.raisePrecise_keeps {P} (hP : Closed P) {s c pc l} (hS : P s) : P (State.raisePrecise s c pc l) := by
  unfold State.raisePrecise
  dsimp only
  split
  · rename_i x0 x1 x2
    exact State.raise_keeps hP hS
  · rename_i x0 x1
    exact State.raise_keeps hP (okR_snd (State.free_keeps hP hS))

theorem State.checked_keeps {P} (hP : Closed P) {s c pc ill excs ok} (hS : P s) (hS1 : OkO P ok) : OkO P (State.checked s c
    pc ill excs ok) := by
  unfold State.checked
  split
  · rename_i x0 x1
    exact okO_some (State.raise_keeps hP hS)
  · rename_i x0
    exact ok_ite hS1 (okO_some (State.raisePrecise_keeps hP hS))

/-! ### LinkOps -/

theorem State.setStream_keeps {P} (hP : Closed P) {s e cls x} (hS : P s) : P (State.setStream s e cls x) := by
  unfold State.setStream
  exact Closed.upd hP hS

theorem State.emit_keeps {P} (hP : Closed P) {s e cls ks} (hS : P s) : P (State.emit s e cls ks) := by
  unfold State.emit
  dsimp only
  exact ok_ite (Closed.upd hP hS) hS

theorem State.sendPacket_keeps {P} (hP : Closed P) {s e cls ms ackOnly} (hS : P s) : P (State.sendPacket s e cls ms ackOnly)
    := by
  unfold State.sendPacket
  dsimp only
  exact State.emit_keeps hP (State.setStream_keeps hP hS)

theorem State.markSent_keeps {P} (hP : Closed P) {s ms} (hS : P s) : P (State.markSent s ms) := by
  unfold State.markSent
  dsimp only
  exact Closed.upd hP hS

theorem State.pushMsg_keeps {P} (hP : Closed P) {s port entry cls m} (hS : P s) : P (State.pushMsg s port entry cls m) := by
  unfold State.pushMsg
  refine ok_ite ?_ ?_
  · dsimp only
    exact State.setLink_keeps hP hS
  · dsimp only
    exact ok_ite (ok_ite (State.sendPacket_keeps hP hS) (State.markSent_keeps hP (State.sendPacket_keeps hP hS)))
        (State.setStream_keeps hP hS)

theorem State.sendReq_keeps {P} (hP : Closed P) {s w pa lines cls dst who kind code addr data} (hS : P s) : OkO P
    (State.sendReq s w pa lines cls dst who kind code addr data) := by
  unfold State.sendReq
  split
  · rename_i x0 x1
    exact okO_none
  · rename_i x0 x1 x2
    dsimp only
    exact okO_some (State.pushMsg_keeps hP (Closed.upd hP hS))

theorem State.peerWrite_keeps {P} (hP : Closed P) {s cls who pa b masked} (hS : P s) : OkL P (State.peerWrite s cls who pa b
    masked) := by
  unfold State.peerWrite
  dsimp only
  refine ok_foldl (fun v0 v1 h2 => ?_) _ _ (okL_mk hS)
  split
  · rename_i x10 x11 x12
    exact okL_mk (okO_eq x12 (State.sendReq_keeps hP (okL_fst h2)))
  · rename_i x10 x11
    exact okL_mk (State.bump_keeps hP (okL_fst h2))

theorem State.peerRead_keeps {P} (hP : Closed P) {s cls who pa len} (hS : P s) : OkL P (State.peerRead s cls who pa len) :=
    by
  unfold State.peerRead
  dsimp only
  refine ok_foldl (fun v0 v1 h2 => ?_) _ _ (okL_mk hS)
  split
  · rename_i x10 x11 x12
    exact okL_mk (okO_eq x12 (State.sendReq_keeps hP (okL_fst h2)))
  · rename_i x10 x11
    exact okL_mk (State.bump_keeps hP (okL_fst h2))

theorem State.respond_keeps {P} (hP : Closed P) {s port x kind code data} (hS : P s) : P (State.respond s port x kind code
    data) := by
  unfold State.respond
  exact ok_ite (State.pushMsg_keeps hP hS) hS

/-! ### HostExc -/

theorem State.setStrict_keeps {P} (hP : Closed P) {s c want} (hS : P s) : P (State.setStrict s c want) := by
  unfold State.setStrict
  dsimp only
  exact ok_ite (State.wr_keeps hP (State.wr_keeps hP hS)) (State.setHost_keeps hP (State.wr_keeps hP (State.wr_keeps hP
      hS)))

theorem State.shelveLost_keeps {P} (hP : Closed P) {s c} (hS : P s) : P (State.shelveLost s c) := by
  unfold State.shelveLost
  refine ok_ite ?_ hS
  dsimp only
  exact State.wr_keeps hP (State.setHost_keeps hP hS)

theorem State.hostExc_keeps {P} (hP : Closed P) {s c kind cause addr} (hS : P s) : P (State.hostExc s c kind cause addr) :=
    by
  unfold State.hostExc
  dsimp only
  exact State.setStrict_keeps hP (State.setHost_keeps hP (State.wr_keeps hP (State.wr_keeps hP (State.wr_keeps hP (ok_ite hS
      (State.shelveLost_keeps hP hS))))))

theorem State.lostStore_keeps {P} (hP : Closed P) {s c cause addr} (hS : P s) : P (State.lostStore s c cause addr) := by
  unfold State.lostStore
  dsimp only
  exact ok_ite (State.bump_keeps hP hS) (ok_ite (State.hostExc_keeps hP hS) (State.setHost_keeps hP hS))

theorem State.refuse_keeps {P} (hP : Closed P) {s agent cause pa} (hS : P s) : P (State.refuse s agent cause pa) := by
  unfold State.refuse
  exact State.answer_keeps hP (ok_ite (State.hostExc_keeps hP hS) hS)

/-! ### RegOps -/

theorem State.report_keeps {P} (hP : Closed P) {s agent off ignored bad} (hS : P s) : P (State.report s agent off ignored
    bad) := by
  unfold State.report
  refine ok_ite ?_ hS
  dsimp only
  exact State.setReg_keeps hP (State.bump_keeps hP (ok_ite (State.wr_keeps hP (ok_ite (State.wr_keeps hP hS) hS)) (ok_ite
      (State.wr_keeps hP hS) hS)))

theorem State.storeReg_keeps {P} (hP : Closed P) {s agent off v inTxn} (hS : P s) : P (State.storeReg s agent off v inTxn)
    := by
  unfold State.storeReg
  dsimp only
  exact State.report_keeps hP (State.setReg_keeps hP hS)

theorem State.gate_keeps {P} (hP : Closed P) {s agent off wr f} (hS : P s) (hFf : ∀ v0, P v0 → P (f v0)) : P (State.gate s
    agent off wr f) := by
  unfold State.gate
  exact ok_ite hS (ok_ite (hFf _ (State.answer_keeps hP hS)) (State.refuse_keeps hP hS))

theorem State.answerReg_keeps {P} (hP : Closed P) {s agent off} (hS : P s) : P (State.answerReg s agent off) := by
  unfold State.answerReg
  exact State.answer_keeps hP hS

theorem State.putShadow_keeps {P} (hP : Closed P) {s off v} (hS : P s) : P (State.putShadow s off v) := by
  unfold State.putShadow
  exact ok_ite (Closed.upd hP hS) (ok_ite (Closed.upd hP hS) (State.wr_keeps hP hS))

theorem State.shadowWrite_keeps {P} (hP : Closed P) {s agent off v} (hS : P s) : P (State.shadowWrite s agent off v) := by
  unfold State.shadowWrite
  split
  · rename_i x0 x1
    exact hS
  · rename_i x0 x1 x2
    dsimp only
    exact State.report_keeps hP (State.putShadow_keeps hP hS)

theorem State.txnDiscard_keeps {P} (hP : Closed P) {s agent off v} (hS : P s) : P (State.txnDiscard s agent off v) := by
  unfold State.txnDiscard
  dsimp only
  exact State.report_keeps hP (State.bump_keeps hP hS)

theorem State.txnWrite_keeps {P} (hP : Closed P) {s agent off v live} (hS : P s) (hFlive : ∀ v0, P v0 → P (live v0)) : P
    (State.txnWrite s agent off v live) := by
  unfold State.txnWrite
  dsimp only
  exact ok_ite (hFlive _ hS) (ok_ite (ok_ite (State.shadowWrite_keeps hP hS) (State.txnDiscard_keeps hP hS)) (ok_ite
      (State.txnDiscard_keeps hP hS) (hFlive _ hS)))

/-! ### Hbm -/

theorem State.countCe_keeps {P} (hP : ClosedMem P) {s line symbol source agent} (hS : P s) : P (State.countCe s line symbol
    source agent) := by
  have hc := hP.toClosed
  unfold State.countCe
  dsimp only
  exact ok_ite (State.setChan_keeps hc (State.bump_keeps hc hS)) (State.hbmRecord_keeps hP (State.setChan_keeps hc
      (State.bump_keeps hc hS)))

theorem State.ecc_keeps {P} (hP : ClosedMem P) {s line e source agent} (hS : P s) : P (State.ecc s line e source agent) :=
    by
  have hc := hP.toClosed
  unfold State.ecc
  dsimp only
  refine ok_ite hS ?_
  split
  · rename_i x10
    exact hS
  · rename_i x10 x11
    exact State.countCe_keeps hP (State.countWrite_keeps hc hS)
  · rename_i x10
    exact State.hbmRecord_keeps hP (State.bump_keeps hc (State.countWrite_keeps hc (State.setPoison_keeps hP hS)))

theorem State.findErrors_keeps {P} (hP : ClosedMem P) {s ecc lines source agent} (hS : P s) : P (State.findErrors s ecc
    lines source agent) := by
  have hc := hP.toClosed
  unfold State.findErrors
  exact State.each_keeps hc hS (fun v0 v1 h2 => (State.ecc_keeps hP h2))

theorem execScrub_keeps {P} (hP : ClosedMem P) {t line ecc s} (hS : P s) : OkN P (execScrub t line ecc s) := by
  have hc := hP.toClosed
  unfold execScrub
  exact State.live_keeps hc hS (fun v0 h1 => (ok_ite (State.ecc_keeps hP (State.countRead_keeps hc h1)) h1))

theorem State.settleDue_keeps {P} (hP : ClosedMem P) {s a} (hS : P s) : P (State.settleDue s a) := by
  have hc := hP.toClosed
  unfold State.settleDue
  split
  · rename_i x0 x1 x2 x3 x4
    dsimp only
    split
    · rename_i x5
      exact hS
    · rename_i x5 x6
      exact State.countCe_keeps hP hS
    · rename_i x5
      exact State.hbmRecord_keeps hP (State.bump_keeps hc hS)
  · rename_i x0 x1 x2
    exact State.faultRecord_keeps hP hS

theorem State.noteWait_keeps {P} (hP : Closed P) {s k} (hS : P s) : P (State.noteWait s k) := by
  unfold State.noteWait
  dsimp only
  exact ok_ite (State.setChan_keeps hP hS) hS

theorem State.reading_keeps {P} (hP : Closed P) {s found source agent} (hS : P s) : P (State.reading s found source agent)
    := by
  unfold State.reading
  exact Closed.upd hP hS

theorem State.readsDone_keeps {P} (hP : ClosedMem P) {s} (hS : P s) : P (State.readsDone s) := by
  have hc := hP.toClosed
  unfold State.readsDone
  exact State.each_keeps hc (Closed.upd hc hS) (fun v0 v1 h2 => (State.settleDue_keeps hP h2))

theorem State.reads_keeps {P} (hP : ClosedMem P) {s found source agent f} (hS : P s) (hFf : ∀ v0, P v0 → P (f v0)) : P
    (State.reads s found source agent f) := by
  have hc := hP.toClosed
  unfold State.reads
  dsimp only
  split
  · rename_i x0 x1 x2
    exact State.noteWait_keeps hc hS
  · rename_i x0 x1
    exact State.readsDone_keeps hP (hFf _ (State.reading_keeps hc hS))

theorem State.readAs_keeps {P} (hP : Closed P) {s agent} (hS : P s) : P (State.readAs s agent) := by
  unfold State.readAs
  exact ok_ite (Closed.upd hP hS) hS

theorem State.readFor_keeps {P} (hP : Closed P) {s source} (hS : P s) : P (State.readFor s source) := by
  unfold State.readFor
  exact ok_ite (Closed.upd hP hS) hS

theorem State.orHold_keeps {P} (hP : Closed P) {s line r f} (hS : P s) (hFf : ∀ v0, P v0 → P (f v0)) : P (State.orHold s
    line r f) := by
  unfold State.orHold
  split
  · rename_i x0 x1 x2
    exact State.noteWait_keeps hP (Closed.upd hP hS)
  · rename_i x0 x1
    exact hFf _ hS

theorem State.leaveStore_keeps {P} (hP : Closed P) {s line} (hS : P s) : P (State.leaveStore s line) := by
  unfold State.leaveStore
  exact State.countWrite_keeps hP (Closed.upd hP hS)

theorem execLineStoreWriteback_keeps {P} (hP : Closed P) {t line s} (hS : P s) : OkN P (execLineStoreWriteback t line s) :=
    by
  unfold execLineStoreWriteback
  exact State.live_keeps hP hS (fun v0 h1 => (ok_ite (State.leaveStore_keeps hP h1) h1))

theorem State.holdChan_keeps {P} (hP : ClosedMem P) {s c st} (hS : P s) : P (State.holdChan s c st) := by
  have hc := hP.toClosed
  unfold State.holdChan
  dsimp only
  split
  · rename_i x0 x1 x2
    exact State.wr_keeps hc (State.wr_keeps hc hS)
  · rename_i x0 x1
    exact State.hbmRecord_keeps hP (State.setChan_keeps hc (State.wr_keeps hc (State.wr_keeps hc hS)))

theorem State.endWait_keeps {P} (hP : Closed P) {s c} (hS : P s) : P (State.endWait s c) := by
  unfold State.endWait
  dsimp only
  split
  · rename_i x0 x1 x2
    exact State.bump_keeps hP (State.setChan_keeps hP hS)
  · rename_i x0 x1
    exact hS

theorem State.resumeChan_keeps {P} (hP : ClosedMem P) {s c kind count detail} (hS : P s) : P (State.resumeChan s c kind
    count detail) := by
  have hc := hP.toClosed
  unfold State.resumeChan
  dsimp only
  exact State.hbmRecord_keeps hP (State.hbmRecord_keeps hP (State.setChan_keeps hc (State.endWait_keeps hc (State.wr_keeps
      hc (State.wr_keeps hc hS)))))

theorem State.retrainWrite_keeps {P} (hP : ClosedMem P) {s c} (hS : P s) : P (State.retrainWrite s c) := by
  have hc := hP.toClosed
  unfold State.retrainWrite
  exact ok_ite (State.holdChan_keeps hP hS) hS

theorem execRetrain_keeps {P} (hP : ClosedMem P) {t ch cause agent s} (hS : P s) : OkN P (execRetrain t ch cause agent s) :=
    by
  have hc := hP.toClosed
  unfold execRetrain
  refine State.live_keeps hc hS (fun v0 h1 => ?_)
  dsimp only
  exact ok_ite h1 (ok_ite (State.gate_keeps hc h1 (fun v10 h11 => (State.retrainWrite_keeps hP h11))) (ok_ite (ok_ite
      (State.holdChan_keeps hP h1) h1) (ok_ite h1 (ok_ite (ok_ite (State.holdChan_keeps hP h1) h1) (State.holdChan_keeps hP
      h1)))))

theorem State.mapRepair_keeps {P} (hP : Closed P) {s n f} (hS : P s) : P (State.mapRepair s n f) := by
  unfold State.mapRepair
  exact Closed.upd hP hS

theorem State.beginRepair_keeps {P} (hP : Closed P) {s n} (hS : P s) : P (State.beginRepair s n) := by
  unfold State.beginRepair
  dsimp only
  exact State.wr_keeps hP (State.wr_keeps hP (State.mapRepair_keeps hP hS))

theorem State.endHold_keeps {P} (hP : ClosedMem P) {s c} (hS : P s) : P (State.endHold s c) := by
  have hc := hP.toClosed
  unfold State.endHold
  split
  · rename_i x0 x1
    exact hS
  · rename_i x0 x1 x2
    dsimp only
    exact State.hbmRecord_keeps hP (State.setChan_keeps hc (State.endWait_keeps hc (State.wr_keeps hc hS)))

theorem State.declareLost_keeps {P} (hP : ClosedMem P) {s c cause} (hS : P s) : P (State.declareLost s c cause) := by
  have hc := hP.toClosed
  unfold State.declareLost
  dsimp only
  exact ok_ite (State.hbmRecord_keeps hP (State.wr_keeps hc (State.wr_keeps hc (State.hbmRecord_keeps hP
      (State.setChan_keeps hc (State.endHold_keeps hP hS)))))) (ok_ite (ok_ite (State.wr_keeps hc (State.wr_keeps hc
      (State.wr_keeps hc (State.wr_keeps hc (Closed.upd hc (State.hbmRecord_keeps hP (State.setChan_keeps hc
      (State.endHold_keeps hP hS)))))))) (State.wr_keeps hc (State.wr_keeps hc (State.wr_keeps hc (State.wr_keeps hc
      (Closed.upd hc (State.hbmRecord_keeps hP (State.setChan_keeps hc (State.endHold_keeps hP hS)))))))))
      (State.beginRepair_keeps hc (ok_ite (State.wr_keeps hc (State.wr_keeps hc (State.wr_keeps hc (State.wr_keeps hc
      (Closed.upd hc (State.hbmRecord_keeps hP (State.setChan_keeps hc (State.endHold_keeps hP hS)))))))) (State.wr_keeps hc
      (State.wr_keeps hc (State.wr_keeps hc (State.wr_keeps hc (Closed.upd hc (State.hbmRecord_keeps hP (State.setChan_keeps
      hc (State.endHold_keeps hP hS)))))))))))

theorem execRetrainRetry_keeps {P} (hP : ClosedMem P) {t ch s} (hS : P s) : OkN P (execRetrainRetry t ch s) := by
  have hc := hP.toClosed
  unfold execRetrainRetry
  refine State.live_keeps hc hS (fun v0 h1 => ?_)
  split
  · rename_i x10 x11 x12
    dsimp only
    exact ok_ite (State.holdChan_keeps hP (State.setChan_keeps hc h1)) h1
  · rename_i x10 x11
    exact h1

theorem execGranuleMove_keeps {P} (hP : ClosedMem P) {t answers ecc s} (hS : P s) : OkN P (execGranuleMove t answers ecc s)
    := by
  have hc := hP.toClosed
  unfold execGranuleMove
  refine State.live_keeps hc hS (fun v0 h1 => ?_)
  split
  · rename_i x10 x11
    exact h1
  · rename_i x10 x11 x12 x13
    dsimp only
    exact ok_ite (ok_ite (State.beginRepair_keeps hc (State.hbmRecord_keeps hP (State.wr_keeps hc (State.wr_keeps hc
        (State.wr_keeps hc (State.each_keeps hc (State.mapRepair_keeps hc (Closed.upd hc (State.each_keeps hc h1 (fun v14
        v15 h16 => (ok_ite (State.findErrors_keeps hP (State.countRead_keeps hc h16)) (ok_ite h16 (State.setPoison_keeps hP
        h16))))))) (fun v14 v15 h16 => (State.countWrite_keeps hc h16)))))))) (State.hbmRecord_keeps hP (State.wr_keeps hc
        (State.wr_keeps hc (State.wr_keeps hc (State.each_keeps hc (State.mapRepair_keeps hc (Closed.upd hc
        (State.each_keeps hc h1 (fun v14 v15 h16 => (ok_ite (State.findErrors_keeps hP (State.countRead_keeps hc h16))
        (ok_ite h16 (State.setPoison_keeps hP h16))))))) (fun v14 v15 h16 => (State.countWrite_keeps hc h16))))))))
        (State.wr_keeps hc (State.each_keeps hc (State.mapRepair_keeps hc (Closed.upd hc (State.each_keeps hc h1 (fun v14
        v15 h16 => (ok_ite (State.findErrors_keeps hP (State.countRead_keeps hc h16)) (ok_ite h16 (State.setPoison_keeps hP
        h16))))))) (fun v14 v15 h16 => (State.countWrite_keeps hc h16))))

end Sys2Proof.Machine
end

