-- ==== Sys2Proof/Laws/KeepsQueue.lean ====
section
/-! SUPPORT. What survives the queues, translation, the adders, coherence, held accesses and placement. -/

namespace Sys2Proof.Machine

/-! ### Queues -/

theorem State.enableQueue_keeps {P} (hP : Closed P) {s q} (hS : P s) : P (State.enableQueue s q) := by
  unfold State.enableQueue
  refine ok_ite ?_ (State.qSet_keeps hP (State.setQueue_keeps hP hS))
  dsimp only
  exact State.qSet_keeps hP (State.setQueue_keeps hP (State.wr_keeps hP (State.wr_keeps hP (State.wr_keeps hP
      (State.wr_keeps hP hS)))))

theorem State.tryDisable_keeps {P} (hP : Closed P) {s q} (hS : P s) : P (State.tryDisable s q) := by
  unfold State.tryDisable
  dsimp only
  exact ok_ite (ok_ite (State.enableQueue_keeps hP (State.qSet_keeps hP (State.setQueue_keeps hP hS))) (State.qSet_keeps hP
      (State.setQueue_keeps hP hS))) hS

theorem State.queueCfg_keeps {P} (hP : Closed P) {s agent q v} (hS : P s) : P (State.queueCfg s agent q v) := by
  unfold State.queueCfg
  dsimp only
  exact ok_ite (ok_ite (State.enableQueue_keeps hP (State.storeReg_keeps hP hS)) (ok_ite (State.storeReg_keeps hP hS)
      (State.setQueue_keeps hP (State.storeReg_keeps hP hS)))) (ok_ite (State.tryDisable_keeps hP (State.leaveFault_keeps hP
      (ok_ite (State.qSet_keeps hP (State.setQueue_keeps hP (State.storeReg_keeps hP hS))) (State.setQueue_keeps hP
      (State.storeReg_keeps hP hS))))) (State.storeReg_keeps hP hS))

theorem execQueueEnable_keeps {P} (hP : Closed P) {t agent q v s} (hS : P s) : OkN P (execQueueEnable t agent q v s) := by
  unfold execQueueEnable
  exact State.live_keeps hP hS (fun v0 h1 => (ok_ite h1 (State.gate_keeps hP h1 (fun v2 h3 => (State.queueCfg_keeps hP
      h3)))))

theorem execQueueDisable_keeps {P} (hP : Closed P) {t agent q v s} (hS : P s) : OkN P (execQueueDisable t agent q v s) := by
  unfold execQueueDisable
  exact State.live_keeps hP hS (fun v0 h1 => (ok_ite h1 (State.gate_keeps hP h1 (fun v2 h3 => (State.queueCfg_keeps hP
      h3)))))

theorem State.cmdSettle_keeps {P} (hP : Closed P) {s q i} (hS : P s) : P (State.cmdSettle s q i) := by
  unfold State.cmdSettle
  split
  · rename_i x0 x1
    exact hS
  · rename_i x0 x1 x2
    dsimp only
    exact ok_ite hS (ok_ite (State.finish_keeps hP (State.setFlight_keeps hP hS)) (State.setFlight_keeps hP hS))

theorem State.registerWait_keeps {P} (hP : Closed P) {s q f} (hS : P s) : P (State.registerWait s q f) := by
  unfold State.registerWait
  dsimp only
  exact State.wake_keeps hP (Closed.upd hP hS)

theorem State.activate_keeps {P} (hP : ClosedMem P) {s q} (hS : P s) : P (State.activate s q) := by
  have hc := hP.toClosed
  unfold State.activate
  dsimp only
  refine ok_ite (State.qSet_keeps hc (State.cqFlush_keeps hP (State.qSet_keeps hc hS))) (ok_ite (State.park_keeps hP
      (State.cqFlush_keeps hP (State.qSet_keeps hc hS))) ?_)
  split
  · rename_i x10 x11 x12
    exact ok_ite (State.park_keeps hP (State.cqFlush_keeps hP (State.qSet_keeps hc hS))) (State.cqFlush_keeps hP
        (State.qSet_keeps hc hS))
  · rename_i x10 x11
    exact ok_ite (State.setQueue_keeps hc (State.cqFlush_keeps hP (State.qSet_keeps hc hS))) (State.cqFlush_keeps hP
        (State.qSet_keeps hc hS))

theorem State.resumeQueue_keeps {P} (hP : ClosedMem P) {s q} (hS : P s) : P (State.resumeQueue s q) := by
  have hc := hP.toClosed
  unfold State.resumeQueue
  refine ok_ite hS ?_
  split
  · rename_i x10 x11
    exact ok_ite hS (State.activate_keeps hP hS)
  · rename_i x10 x11
    dsimp only
    exact ok_ite (State.setQueue_keeps hc (State.activate_keeps hP hS)) (State.activate_keeps hP hS)
  · rename_i x10 x11
    split
    · rename_i x12 x13 x14
      exact ok_ite (State.activate_keeps hP hS) (State.activate_keeps hP (State.registerWait_keeps hc hS))
    · rename_i x12 x13
      exact State.activate_keeps hP hS
  · rename_i x10 x11
    exact ok_ite (State.enableQueue_keeps hc hS) (State.activate_keeps hP hS)
  · rename_i x10 x11 x12 x13 x14
    exact State.activate_keeps hP hS

theorem State.abandonHead_keeps {P} (hP : ClosedMem P) {s q} (hS : P s) : P (State.abandonHead s q) := by
  have hc := hP.toClosed
  unfold State.abandonHead
  dsimp only
  split
  · rename_i x0 x1
    exact State.leaveFault_keeps hc (State.setQueue_keeps hc hS)
  · rename_i x0 x1 x2 x3
    split
    · rename_i x4 x5 x6
      exact State.cmdSettle_keeps hc (State.passHead_keeps hP (State.setFlight_keeps hc (State.leaveFault_keeps hc
          (State.setQueue_keeps hc hS))))
    · rename_i x4 x5
      exact State.failHead_keeps hP (State.leaveFault_keeps hc (State.setQueue_keeps hc hS))

theorem State.abandonQueue_keeps {P} (hP : ClosedMem P) {s q} (hS : P s) : P (State.abandonQueue s q) := by
  have hc := hP.toClosed
  unfold State.abandonQueue
  refine ok_ite hS ?_
  split
  · rename_i x10 x11
    exact State.activate_keeps hP (State.abandonHead_keeps hP hS)
  · rename_i x10 x11
    split
    · rename_i x12 x13 x14
      exact State.activate_keeps hP (State.finish_keeps hc hS)
    · rename_i x12 x13
      exact State.activate_keeps hP hS
  · rename_i x10 x11 x12
    exact hS

theorem State.queueCtrl_keeps {P} (hP : ClosedMem P) {s q v} (hS : P s) : P (State.queueCtrl s q v) := by
  have hc := hP.toClosed
  unfold State.queueCtrl
  dsimp only
  exact State.tryDisable_keeps hc (ok_ite (State.abandonQueue_keeps hP hS) (ok_ite (State.resumeQueue_keeps hP hS) hS))

theorem execResume_keeps {P} (hP : ClosedMem P) {t agent q s} (hS : P s) : OkN P (execResume t agent q s) := by
  have hc := hP.toClosed
  unfold execResume
  exact State.live_keeps hc hS (fun v0 h1 => (ok_ite h1 (State.gate_keeps hc h1 (fun v2 h3 => (State.queueCtrl_keeps hP
      h3)))))

theorem execAbandon_keeps {P} (hP : ClosedMem P) {t agent q s} (hS : P s) : OkN P (execAbandon t agent q s) := by
  have hc := hP.toClosed
  unfold execAbandon
  exact State.live_keeps hc hS (fun v0 h1 => (ok_ite h1 (State.gate_keeps hc h1 (fun v2 h3 => (State.queueCtrl_keeps hP
      h3)))))

theorem State.cqHeadTo_keeps {P} (hP : ClosedMem P) {s q head} (hS : P s) : P (State.cqHeadTo s q head) := by
  have hc := hP.toClosed
  unfold State.cqHeadTo
  dsimp only
  exact ok_ite (State.tryDisable_keeps hc (ok_ite (State.qSet_keeps hc (State.cqFlush_keeps hP (State.wr_keeps hc hS)))
      (State.cqFlush_keeps hP (State.wr_keeps hc hS)))) (State.wr_keeps hc hS)

theorem State.dropBeyond_keeps {P} (hP : Closed P) {s q} (hS : P s) : P (State.dropBeyond s q) := by
  unfold State.dropBeyond
  dsimp only
  split
  · rename_i x0 x1 x2 x3 x4
    exact ok_ite (State.setQueue_keeps hP (ok_ite (State.ungate_keeps hP hS) hS)) (State.setQueue_keeps hP
        (State.setQueue_keeps hP (ok_ite (State.ungate_keeps hP hS) hS)))
  · rename_i x0 x1
    exact State.setQueue_keeps hP (ok_ite (State.ungate_keeps hP hS) hS)

theorem State.tailTo_keeps {P} (hP : ClosedMem P) {s q tail} (hS : P s) : P (State.tailTo s q tail) := by
  have hc := hP.toClosed
  unfold State.tailTo
  dsimp only
  exact ok_ite (ok_ite (State.tryDisable_keeps hc (State.activate_keeps hP (ok_ite (State.wr_keeps hc hS)
      (State.dropBeyond_keeps hc (State.wr_keeps hc hS))))) (ok_ite (State.wr_keeps hc hS) (State.dropBeyond_keeps hc
      (State.wr_keeps hc hS)))) (ok_ite (ok_ite (State.park_keeps hP (State.wr_keeps hc hS)) (State.dropBeyond_keeps hc
      (State.wr_keeps hc hS))) (State.wr_keeps hc hS))

theorem execTailWrite_keeps {P} (hP : ClosedMem P) {t agent q v s} (hS : P s) : OkN P (execTailWrite t agent q v s) := by
  have hc := hP.toClosed
  unfold execTailWrite
  exact State.live_keeps hc hS (fun v0 h1 => (ok_ite h1 (State.gate_keeps hc h1 (fun v2 h3 => (State.tailTo_keeps hP
      (State.storeReg_keeps hc h3))))))

theorem State.slotWords_keeps {P} (hP : ClosedMem P) {s q i} (hS : P s) : OkR P (State.slotWords s q i) := by
  have hc := hP.toClosed
  unfold State.slotWords
  dsimp only
  exact ok_ite (okR_mk (okR_snd (okR_snd (State.engWords_keeps hP hS)))) (okR_mk hS)

theorem State.readSlot_keeps {P} (hP : ClosedMem P) {s q i first fails} (hS : P s) : P (State.readSlot s q i first fails) :=
    by
  have hc := hP.toClosed
  unfold State.readSlot
  dsimp only
  split
  · rename_i x0 x1 x2
    exact State.park_keeps hP (okR_snd (ok_eq x2 (State.slotWords_keeps hP (ok_ite hS (State.pmcHub_keeps hc hS)))))
  · rename_i x0 x1 x2 x3
    refine ok_ite (State.parkAhead_keeps hP (State.setQueue_keeps hc (okR_snd (ok_eq x3 (State.slotWords_keeps hP (ok_ite hS
        (State.pmcHub_keeps hc hS))))))) (ok_ite (ok_ite (State.setQueue_keeps hc (okR_snd (ok_eq x3 (State.slotWords_keeps
        hP (ok_ite hS (State.pmcHub_keeps hc hS)))))) ?_) (State.setQueue_keeps hc (okR_snd (ok_eq x3 (State.slotWords_keeps
        hP (ok_ite hS (State.pmcHub_keeps hc hS)))))))
    split
    · rename_i x14 x15 x16
      exact State.park_keeps hP (okR_snd (ok_eq x16 (State.slotWords_keeps hP (okR_snd (ok_eq x3 (State.slotWords_keeps hP
          (ok_ite hS (State.pmcHub_keeps hc hS))))))))
    · rename_i x14 x15 x16 x17
      exact State.setQueue_keeps hc (okR_snd (ok_eq x17 (State.slotWords_keeps hP (okR_snd (ok_eq x3 (State.slotWords_keeps
          hP (ok_ite hS (State.pmcHub_keeps hc hS))))))))

theorem execSlotRead_keeps {P} (hP : ClosedMem P) {t q i found s} (hS : P s) : OkN P (execSlotRead t q i found s) := by
  have hc := hP.toClosed
  unfold execSlotRead
  exact State.live_keeps hc hS (fun v0 h1 => (ok_ite (State.reads_keeps hP h1 (fun v2 h3 => (State.readSlot_keeps hP h3)))
      h1))

theorem execSlotReread_keeps {P} (hP : ClosedMem P) {t q i found s} (hS : P s) : OkN P (execSlotReread t q i found s) := by
  have hc := hP.toClosed
  unfold execSlotReread
  refine State.live_keeps hc hS (fun v0 h1 => ?_)
  split
  · rename_i x10 x11 x12 x13 x14
    exact ok_ite (State.reads_keeps hP h1 (fun v15 h16 => (State.readSlot_keeps hP h16))) h1
  · rename_i x10 x11
    exact h1

/-! ### Translation -/

theorem State.ringStore_keeps {P} (hP : Closed P) {s agent n v inTxn} (hS : P s) : P (State.ringStore s agent n v inTxn) :=
    by
  unfold State.ringStore
  dsimp only
  exact ok_ite (Closed.upd hP (State.wr_keeps hP (State.storeReg_keeps hP hS))) (State.storeReg_keeps hP hS)

theorem execRingEnable_keeps {P} (hP : Closed P) {t agent ring v s} (hS : P s) : OkN P (execRingEnable t agent ring v s) :=
    by
  unfold execRingEnable
  refine State.live_keeps hP hS (fun v0 h1 => ?_)
  dsimp only
  exact ok_ite h1 (State.gate_keeps hP h1 (fun v10 h11 => (State.txnWrite_keeps hP h11 (fun v12 h13 =>
      (State.ringStore_keeps hP h13)))))

theorem State.dropTag_keeps {P} (hP : Closed P) {s tag} (hS : P s) : P (State.dropTag s tag) := by
  unfold State.dropTag
  exact State.each_keeps hP hS (fun v0 v1 h2 => (Closed.upd hP h2))

theorem State.rootStore_keeps {P} (hP : Closed P) {s agent c v} (hS : P s) : P (State.rootStore s agent c v) := by
  unfold State.rootStore
  dsimp only
  exact ok_ite (State.wr_keeps hP (State.dropTag_keeps hP (State.storeReg_keeps hP hS))) (State.dropTag_keeps hP
      (State.storeReg_keeps hP hS))

theorem execTrCtxWrite_keeps {P} (hP : Closed P) {t agent ctx v s} (hS : P s) : OkN P (execTrCtxWrite t agent ctx v s) := by
  unfold execTrCtxWrite
  exact State.live_keeps hP hS (fun v0 h1 => (ok_ite h1 (State.gate_keeps hP h1 (fun v2 h3 => (State.rootStore_keeps hP
      h3)))))

theorem State.invalidate_keeps {P} (hP : Closed P) {s tag signal sync agent} (hS : P s) : P (State.invalidate s tag signal
    sync agent) := by
  unfold State.invalidate
  dsimp only
  exact Closed.upd hP (State.dropTag_keeps hP hS)

theorem State.invalAst_keeps {P} (hP : Closed P) {s agent v} (hS : P s) : P (State.invalAst s agent v) := by
  unfold State.invalAst
  exact ok_ite (State.bump_keeps hP hS) (State.invalidate_keeps hP hS)

theorem execTrInvalAst_keeps {P} (hP : Closed P) {t agent v s} (hS : P s) : OkN P (execTrInvalAst t agent v s) := by
  unfold execTrInvalAst
  refine State.live_keeps hP hS (fun v0 h1 => ?_)
  dsimp only
  exact State.gate_keeps hP h1 (fun v10 h11 => (State.invalAst_keeps hP (State.storeReg_keeps hP h11)))

theorem execInvalidationComplete_keeps {P} (hP : Closed P) {t k s} (hS : P s) : OkN P (execInvalidationComplete t k s) := by
  unfold execInvalidationComplete
  refine State.live_keeps hP hS (fun v0 h1 => ?_)
  split
  · rename_i x10 x11
    exact h1
  · rename_i x10 x11 x12
    dsimp only
    exact ok_ite h1 (ok_ite (State.notify_keeps hP (Closed.upd hP h1)) (Closed.upd hP h1))

theorem execContinuationRecord_keeps {P} (hP : ClosedMem P) {t slot s} (hS : P s) : OkN P (execContinuationRecord t slot s)
    := by
  have hc := hP.toClosed
  unfold execContinuationRecord
  refine State.live_keeps hc hS (fun v0 h1 => ?_)
  split
  · rename_i x10 x11
    exact h1
  · rename_i x10 x11 x12
    dsimp only
    exact ok_ite h1 (State.ringRecord_keeps hP (Closed.upd hc h1))

theorem State.slotFreed_keeps {P} (hP : Closed P) {s} (hS : P s) : P (State.slotFreed s) := by
  unfold State.slotFreed
  split
  · rename_i x0 x1
    exact hS
  · rename_i x0 x1 x2 x3
    dsimp only
    exact State.setQueue_keeps hP (Closed.upd hP hS)

theorem State.resolveQueue_keeps {P} (hP : ClosedMem P) {s abandon q} (hS : P s) : P (State.resolveQueue s abandon q) := by
  have hc := hP.toClosed
  unfold State.resolveQueue
  refine ok_ite hS (ok_ite ?_ (State.setQueue_keeps hc hS))
  dsimp only
  exact State.tryDisable_keeps hc (ok_ite (State.abandonQueue_keeps hP hS) (State.abandonHead_keeps hP hS))

theorem State.faultResolve_keeps {P} (hP : ClosedMem P) {s v} (hS : P s) : P (State.faultResolve s v) := by
  have hc := hP.toClosed
  unfold State.faultResolve
  dsimp only
  split
  · rename_i x0 x1
    exact State.bump_keeps hc hS
  · rename_i x0 x1 x2
    exact State.slotFreed_keeps hc (State.each_keeps hc (Closed.upd hc hS) (fun v3 v4 h5 => (State.resolveQueue_keeps hP
        h5)))

theorem execTrFaultResolve_keeps {P} (hP : ClosedMem P) {t agent v s} (hS : P s) : OkN P (execTrFaultResolve t agent v s) :=
    by
  have hc := hP.toClosed
  unfold execTrFaultResolve
  refine State.live_keeps hc hS (fun v0 h1 => ?_)
  dsimp only
  exact State.gate_keeps hc h1 (fun v10 h11 => (State.faultResolve_keeps hP (State.storeReg_keeps hc h11)))

theorem execWalkAhead_keeps {P} (hP : ClosedMem P) {t q va found s} (hS : P s) : OkN P (execWalkAhead t q va found s) := by
  have hc := hP.toClosed
  unfold execWalkAhead
  refine State.live_keeps hc hS (fun v0 h1 => ?_)
  dsimp only
  exact ok_ite (State.reads_keeps hP h1 (fun v10 h11 => (okR_snd (State.walk1_keeps hP h11)))) h1

/-! ### Mops -/

theorem State.adderLine_keeps {P} (hP : ClosedMem P) {s line} (hS : P s) : OkR (OkR P) (State.adderLine s line) := by
  have hc := hP.toClosed
  unfold State.adderLine
  dsimp only
  exact okR_mk (okR_mk (State.readFor_keeps hc (okR_snd (okR_snd (State.fetchLine_keeps hP (State.readFor_keeps hc hS))))))

theorem State.adderTake_keeps {P} (hP : ClosedMem P) {s line} (hS : P s) : OkR (OkR P) (State.adderTake s line) := by
  have hc := hP.toClosed
  unfold State.adderTake
  dsimp only
  split
  · rename_i x0 x1
    refine ok_ite (okR_mk (okR_mk (okR_snd (okR_snd (State.adderLine_keeps hP (State.coTake_keeps hP hS)))))) (okR_mk
        (okR_mk (Closed.upd hc (ok_ite (okR_snd (okR_snd (State.adderLine_keeps hP (State.coTake_keeps hP hS)))) (ok_ite
        (okR_snd (okR_snd (State.adderLine_keeps hP (State.coTake_keeps hP hS)))) ?_)))))
    split
    · rename_i x12 x13
      exact okR_snd (okR_snd (State.adderLine_keeps hP (State.coTake_keeps hP hS)))
    · rename_i x12 x13 x14 x15
      exact State.leaveStore_keeps hc (okR_snd (okR_snd (State.adderLine_keeps hP (State.coTake_keeps hP hS))))
  · rename_i x0 x1
    exact State.adderLine_keeps hP (State.coTake_keeps hP hS)

theorem State.adderPut_keeps {P} (hP : ClosedMem P) {s line mask d} (hS : P s) : P (State.adderPut s line mask d) := by
  have hc := hP.toClosed
  unfold State.adderPut
  exact State.storeLine_keeps hP hS

theorem State.countMop_keeps {P} (hP : Closed P) {s line} (hS : P s) : P (State.countMop s line) := by
  unfold State.countMop
  split
  · rename_i x0 x1
    dsimp only
    exact State.pmcHub_keeps hP (State.bump_keeps hP hS)
  · rename_i x0 x1
    exact hS

theorem State.mopLine_keeps {P} (hP : ClosedMem P) {s code r size} (hS : P s) : OkR P (State.mopLine s code r size) := by
  have hc := hP.toClosed
  unfold State.mopLine
  dsimp only
  refine ok_ite (okR_mk (State.bump_keeps hc hS)) (ok_ite (okR_mk (okR_snd (okR_snd (State.adderTake_keeps hP hS)))) ?_)
  split
  · rename_i x10 x11
    exact okR_mk (State.adderPut_keeps hP (State.countMop_keeps hc (okR_snd (okR_snd (State.adderTake_keeps hP hS)))))
  · rename_i x10 x11
    exact okR_mk (State.adderPut_keeps hP (State.countMop_keeps hc (okR_snd (okR_snd (State.adderTake_keeps hP hS)))))

theorem State.eaCell_keeps {P} (hP : ClosedMem P) {s f line x} (hS : P s) : OkR P (State.eaCell s f line x) := by
  have hc := hP.toClosed
  unfold State.eaCell
  dsimp only
  exact ok_ite (okR_mk (State.bump_keeps hc hS)) (ok_ite (okR_mk (okR_snd (okR_snd (State.adderTake_keeps hP hS)))) (okR_mk
      (State.adderPut_keeps hP (okR_snd (okR_snd (State.adderTake_keeps hP hS))))))

theorem State.cellRun_keeps {P} (hP : ClosedMem P) {s f r first num} (hS : P s) : OkR P (State.cellRun s f r first num) :=
    by
  have hc := hP.toClosed
  unfold State.cellRun
  dsimp only
  exact ok_foldl (fun v0 v1 h2 => (okR_mk (okR_snd (State.eaCell_keeps hP (okR_snd h2))))) _ _ (okR_mk hS)

theorem State.mopCells_keeps {P} (hP : ClosedMem P) {s agent code f r} (hS : P s) : OkR P (State.mopCells s agent code f r)
    := by
  have hc := hP.toClosed
  unfold State.mopCells
  dsimp only
  refine ok_ite (okR_mk (Closed.upd hc (okR_snd (State.cellRun_keeps hP (okR_snd (okR_snd ?_)))))) (okR_mk (okR_snd
      (State.cellRun_keeps hP (okR_snd (okR_snd ?_)))))
  · split
    · rename_i x10 x11 x12
      exact okR_mk (okR_mk (Closed.upd hc hS))
    · rename_i x10 x11
      exact okR_mk (okR_mk (State.countMop_keeps hc hS))
  · split
    · rename_i x10 x11 x12
      exact okR_mk (okR_mk (Closed.upd hc hS))
    · rename_i x10 x11
      exact okR_mk (okR_mk (State.countMop_keeps hc hS))

theorem State.settleCell_keeps {P} (hP : ClosedMem P) {s f line} (hS : P s) : OkR (OkR P) (State.settleCell s f line) := by
  have hc := hP.toClosed
  unfold State.settleCell
  dsimp only
  exact ok_ite (okR_mk (okR_mk (okR_snd (okR_snd (State.adderTake_keeps hP hS))))) (okR_mk (okR_mk (okR_snd (okR_snd
      (State.adderTake_keeps hP hS)))))

theorem State.mopSettle_keeps {P} (hP : ClosedMem P) {s agent f r} (hS : P s) : OkR P (State.mopSettle s agent f r) := by
  have hc := hP.toClosed
  unfold State.mopSettle
  dsimp only
  exact ok_ite (okR_mk (okR_snd (okR_snd (ok_foldl (fun v0 v1 h2 => (okR_mk (okR_mk (okR_snd (okR_snd
      (State.settleCell_keeps hP (okR_snd (okR_snd h2)))))))) _ _ (okR_mk (okR_mk (State.countMop_keeps hc hS))))))) (ok_ite
      (okR_mk (State.setPoison_keeps hP (State.coWrite_keeps hP (okR_snd (okR_snd (ok_foldl (fun v0 v1 h2 => (okR_mk (okR_mk
      (okR_snd (okR_snd (State.settleCell_keeps hP (okR_snd (okR_snd h2)))))))) _ _ (okR_mk (okR_mk (State.countMop_keeps hc
      hS))))))))) (okR_mk (State.coWrite_keeps hP (okR_snd (okR_snd (ok_foldl (fun v0 v1 h2 => (okR_mk (okR_mk (okR_snd
      (okR_snd (State.settleCell_keeps hP (okR_snd (okR_snd h2)))))))) _ _ (okR_mk (okR_mk (State.countMop_keeps hc
      hS)))))))))

theorem State.mop_keeps {P} (hP : ClosedMem P) {s agent code r} (hS : P s) : OkR P (State.mop s agent code r) := by
  have hc := hP.toClosed
  unfold State.mop
  refine ok_ite (okR_mk hS) (ok_ite (okR_mk hS) ?_)
  split
  · rename_i x10 x11 x12 x13 x14 x15
    dsimp only
    exact ok_ite (okR_mk (okR_snd (State.mopSettle_keeps hP hS))) (State.mopCells_keeps hP hS)
  · rename_i x10 x11 x12 x13 x14 x15
    dsimp only
    exact okR_mk (okR_snd (State.mopLine_keeps hP hS))
  · rename_i x10 x11 x12 x13 x14
    exact okR_mk hS

theorem State.mopNow_keeps {P} (hP : ClosedMem P) {s agent code r} (hS : P s) : P (State.mopNow s agent code r) := by
  have hc := hP.toClosed
  unfold State.mopNow
  refine State.reads_keeps hP hS (fun v0 h1 => ?_)
  split
  · rename_i x10 x11 x12
    exact okR_snd (ok_eq x12 (State.mop_keeps hP h1))
  · rename_i x10 x11 x12 x13
    exact State.answer_keeps hc (okR_snd (ok_eq x13 (State.mop_keeps hP h1)))
  · rename_i x10 x11 x12
    exact State.answer_keeps hc (okR_snd (ok_eq x12 (State.mop_keeps hP h1)))
  · rename_i x10 x11 x12 x13
    exact State.answer_keeps hc (okR_snd (ok_eq x13 (State.mop_keeps hP h1)))

theorem State.mopAnswer_keeps {P} (hP : ClosedMem P) {s agent code r} (hS : P s) : P (State.mopAnswer s agent code r) := by
  have hc := hP.toClosed
  unfold State.mopAnswer
  exact ok_ite hS (State.orHold_keeps hc hS (fun v0 h1 => (State.mopNow_keeps hP h1)))

theorem execIadd32_keeps {P} (hP : ClosedMem P) {t agent r s} (hS : P s) : OkN P (execIadd32 t agent r s) := by
  have hc := hP.toClosed
  unfold execIadd32
  exact State.live_keeps hc hS (fun v0 h1 => (State.mopAnswer_keeps hP h1))

theorem execIadd64_keeps {P} (hP : ClosedMem P) {t agent r s} (hS : P s) : OkN P (execIadd64 t agent r s) := by
  have hc := hP.toClosed
  unfold execIadd64
  exact State.live_keeps hc hS (fun v0 h1 => (State.mopAnswer_keeps hP h1))

theorem execSmin32_keeps {P} (hP : ClosedMem P) {t agent r s} (hS : P s) : OkN P (execSmin32 t agent r s) := by
  have hc := hP.toClosed
  unfold execSmin32
  exact State.live_keeps hc hS (fun v0 h1 => (State.mopAnswer_keeps hP h1))

theorem execSmin64_keeps {P} (hP : ClosedMem P) {t agent r s} (hS : P s) : OkN P (execSmin64 t agent r s) := by
  have hc := hP.toClosed
  unfold execSmin64
  exact State.live_keeps hc hS (fun v0 h1 => (State.mopAnswer_keeps hP h1))

theorem execSmax32_keeps {P} (hP : ClosedMem P) {t agent r s} (hS : P s) : OkN P (execSmax32 t agent r s) := by
  have hc := hP.toClosed
  unfold execSmax32
  exact State.live_keeps hc hS (fun v0 h1 => (State.mopAnswer_keeps hP h1))

theorem execSmax64_keeps {P} (hP : ClosedMem P) {t agent r s} (hS : P s) : OkN P (execSmax64 t agent r s) := by
  have hc := hP.toClosed
  unfold execSmax64
  exact State.live_keeps hc hS (fun v0 h1 => (State.mopAnswer_keeps hP h1))

theorem execUmin32_keeps {P} (hP : ClosedMem P) {t agent r s} (hS : P s) : OkN P (execUmin32 t agent r s) := by
  have hc := hP.toClosed
  unfold execUmin32
  exact State.live_keeps hc hS (fun v0 h1 => (State.mopAnswer_keeps hP h1))

theorem execUmin64_keeps {P} (hP : ClosedMem P) {t agent r s} (hS : P s) : OkN P (execUmin64 t agent r s) := by
  have hc := hP.toClosed
  unfold execUmin64
  exact State.live_keeps hc hS (fun v0 h1 => (State.mopAnswer_keeps hP h1))

theorem execUmax32_keeps {P} (hP : ClosedMem P) {t agent r s} (hS : P s) : OkN P (execUmax32 t agent r s) := by
  have hc := hP.toClosed
  unfold execUmax32
  exact State.live_keeps hc hS (fun v0 h1 => (State.mopAnswer_keeps hP h1))

theorem execUmax64_keeps {P} (hP : ClosedMem P) {t agent r s} (hS : P s) : OkN P (execUmax64 t agent r s) := by
  have hc := hP.toClosed
  unfold execUmax64
  exact State.live_keeps hc hS (fun v0 h1 => (State.mopAnswer_keeps hP h1))

theorem execFadd32_keeps {P} (hP : ClosedMem P) {t agent r s} (hS : P s) : OkN P (execFadd32 t agent r s) := by
  have hc := hP.toClosed
  unfold execFadd32
  exact State.live_keeps hc hS (fun v0 h1 => (State.mopAnswer_keeps hP h1))

theorem execFaddbf16_keeps {P} (hP : ClosedMem P) {t agent r s} (hS : P s) : OkN P (execFaddbf16 t agent r s) := by
  have hc := hP.toClosed
  unfold execFaddbf16
  exact State.live_keeps hc hS (fun v0 h1 => (State.mopAnswer_keeps hP h1))

theorem execFadd16_keeps {P} (hP : ClosedMem P) {t agent r s} (hS : P s) : OkN P (execFadd16 t agent r s) := by
  have hc := hP.toClosed
  unfold execFadd16
  exact State.live_keeps hc hS (fun v0 h1 => (State.mopAnswer_keeps hP h1))

theorem execEaFp32_keeps {P} (hP : ClosedMem P) {t agent r s} (hS : P s) : OkN P (execEaFp32 t agent r s) := by
  have hc := hP.toClosed
  unfold execEaFp32
  exact State.live_keeps hc hS (fun v0 h1 => (State.mopAnswer_keeps hP h1))

theorem execEaBf16_keeps {P} (hP : ClosedMem P) {t agent r s} (hS : P s) : OkN P (execEaBf16 t agent r s) := by
  have hc := hP.toClosed
  unfold execEaBf16
  exact State.live_keeps hc hS (fun v0 h1 => (State.mopAnswer_keeps hP h1))

theorem execEaFp16_keeps {P} (hP : ClosedMem P) {t agent r s} (hS : P s) : OkN P (execEaFp16 t agent r s) := by
  have hc := hP.toClosed
  unfold execEaFp16
  exact State.live_keeps hc hS (fun v0 h1 => (State.mopAnswer_keeps hP h1))

theorem execSettleFp32_keeps {P} (hP : ClosedMem P) {t agent r s} (hS : P s) : OkN P (execSettleFp32 t agent r s) := by
  have hc := hP.toClosed
  unfold execSettleFp32
  exact State.live_keeps hc hS (fun v0 h1 => (State.mopAnswer_keeps hP h1))

theorem execSettleBf16_keeps {P} (hP : ClosedMem P) {t agent r s} (hS : P s) : OkN P (execSettleBf16 t agent r s) := by
  have hc := hP.toClosed
  unfold execSettleBf16
  exact State.live_keeps hc hS (fun v0 h1 => (State.mopAnswer_keeps hP h1))

theorem execCas32_keeps {P} (hP : ClosedMem P) {t agent r s} (hS : P s) : OkN P (execCas32 t agent r s) := by
  have hc := hP.toClosed
  unfold execCas32
  exact State.live_keeps hc hS (fun v0 h1 => (State.mopAnswer_keeps hP h1))

theorem execCas64_keeps {P} (hP : ClosedMem P) {t agent r s} (hS : P s) : OkN P (execCas64 t agent r s) := by
  have hc := hP.toClosed
  unfold execCas64
  exact State.live_keeps hc hS (fun v0 h1 => (State.mopAnswer_keeps hP h1))

theorem execSwap32_keeps {P} (hP : ClosedMem P) {t agent r s} (hS : P s) : OkN P (execSwap32 t agent r s) := by
  have hc := hP.toClosed
  unfold execSwap32
  exact State.live_keeps hc hS (fun v0 h1 => (State.mopAnswer_keeps hP h1))

theorem execSwap64_keeps {P} (hP : ClosedMem P) {t agent r s} (hS : P s) : OkN P (execSwap64 t agent r s) := by
  have hc := hP.toClosed
  unfold execSwap64
  exact State.live_keeps hc hS (fun v0 h1 => (State.mopAnswer_keeps hP h1))

/-! ### Coherence -/

theorem State.dropWb_keeps {P} (hP : Closed P) {s c line} (hS : P s) : P (State.dropWb s c line) := by
  unfold State.dropWb
  dsimp only
  exact State.setHost_keeps hP hS

theorem State.applyNotice_keeps {P} (hP : Closed P) {s c line} (hS : P s) : P (State.applyNotice s c line) := by
  unfold State.applyNotice
  split
  · rename_i x0 x1
    exact hS
  · rename_i x0 x1 x2
    dsimp only
    exact ok_ite (ok_ite (State.dirFree_keeps hP hS) (State.dirSet_keeps hP hS)) (ok_ite (State.dirFree_keeps hP hS) hS)

theorem State.applyWriteBack_keeps {P} (hP : ClosedMem P) {s c x} (hS : P s) : P (State.applyWriteBack s c x) := by
  have hc := hP.toClosed
  unfold State.applyWriteBack
  split
  · rename_i x0 x1
    exact hS
  · rename_i x0 x1 x2
    exact ok_ite (State.storeLine_keeps hP (State.dirFree_keeps hc hS)) (ok_ite (State.storeLine_keeps hP
        (State.dropStray_keeps hc (State.dirFree_keeps hc hS))) hS)

theorem State.flushWb_keeps {P} (hP : ClosedMem P) {s c line} (hS : P s) : P (State.flushWb s c line) := by
  have hc := hP.toClosed
  unfold State.flushWb
  split
  · rename_i x0 x1
    exact hS
  · rename_i x0 x1 x2
    dsimp only
    exact State.dropWb_keeps hc (ok_ite (State.applyWriteBack_keeps hP (State.lookup_keeps hc hS)) (State.applyNotice_keeps
        hc (State.lookup_keeps hc hS)))

theorem State.cacheParity_keeps {P} (hP : ClosedMem P) {s c line} (hS : P s) : P (State.cacheParity s c line) := by
  have hc := hP.toClosed
  unfold State.cacheParity
  split
  · rename_i x0 x1 x2
    exact ok_ite (State.faultRecord_keeps hP (State.evictLine_keeps hc hS)) (State.evictLine_keeps hc hS)
  · rename_i x0 x1
    exact hS

theorem execL2Eviction_keeps {P} (hP : ClosedMem P) {t core line parityOk s} (hS : P s) : OkN P (execL2Eviction t core line
    parityOk s) := by
  have hc := hP.toClosed
  unfold execL2Eviction
  refine State.live_keeps hc hS (fun v0 h1 => ?_)
  split
  · rename_i x10 x11 x12
    exact ok_ite h1 (ok_ite (State.evictLine_keeps hc h1) (State.cacheParity_keeps hP h1))
  · rename_i x10 x11
    exact h1

theorem execNotice_keeps {P} (hP : ClosedMem P) {t core line s} (hS : P s) : OkN P (execNotice t core line s) := by
  have hc := hP.toClosed
  unfold execNotice
  refine State.live_keeps hc hS (fun v0 h1 => ?_)
  split
  · rename_i x10 x11 x12
    exact ok_ite h1 (State.flushWb_keeps hP h1)
  · rename_i x10 x11
    exact h1

theorem execWriteBack_keeps {P} (hP : ClosedMem P) {t core line s} (hS : P s) : OkN P (execWriteBack t core line s) := by
  have hc := hP.toClosed
  unfold execWriteBack
  refine State.live_keeps hc hS (fun v0 h1 => ?_)
  split
  · rename_i x10 x11 x12
    exact ok_ite (State.orHold_keeps hc h1 (fun v13 h14 => (State.flushWb_keeps hP h14))) h1
  · rename_i x10 x11
    exact h1

theorem State.downgrade_keeps {P} (hP : Closed P) {s o line} (hS : P s) : P (State.downgrade s o line) := by
  unfold State.downgrade
  dsimp only
  exact State.setHost_keeps hP hS

theorem State.readShared_keeps {P} (hP : ClosedMem P) {s c line} (hS : P s) : OkO (OkR (OkR P)) (State.readShared s c line)
    := by
  have hc := hP.toClosed
  unfold State.readShared
  dsimp only
  split
  · rename_i x0 x1
    split
    · rename_i x2 x3
      exact okO_none
    · rename_i x2 x3 x4 x5
      exact okO_some (okR_mk (okR_mk (State.fillLine_keeps hc (State.dirSet_keeps hc (okR_snd (okR_snd
          (State.fetchLine_keeps hP (okR_snd (okO_eq x5 (State.dirRoom_keeps hP (State.lookup_keeps hc (State.flushWb_keeps
          hP hS))))))))))))
  · rename_i x0 x1 x2
    refine ok_ite (okO_some (okR_mk (okR_mk (State.lookup_keeps hc (State.flushWb_keeps hP hS))))) (ok_ite ?_ (okO_some
        (okR_mk (okR_mk (State.fillLine_keeps hc (State.dirSet_keeps hc (okR_snd (okR_snd (State.fetchLine_keeps hP
        (State.lookup_keeps hc (State.flushWb_keeps hP hS)))))))))))
    split
    · rename_i x13 x14 x15
      exact ok_ite (okO_some (okR_mk (okR_mk (State.checkCopy_keeps hc (State.lookup_keeps hc (State.flushWb_keeps hP
          hS)))))) (okO_some (okR_mk (okR_mk (State.fillLine_keeps hc (State.dirSet_keeps hc (State.downgrade_keeps hc
          (State.dropWb_keeps hc (ok_ite (State.storeLine_keeps hP (State.checkCopy_keeps hc (State.lookup_keeps hc
          (State.flushWb_keeps hP hS)))) (State.checkCopy_keeps hc (State.lookup_keeps hc (State.flushWb_keeps hP
          hS)))))))))))
    · rename_i x13 x14
      exact okO_some (okR_mk (okR_mk (State.fillLine_keeps hc (State.dirSet_keeps hc (okR_snd (okR_snd
          (State.fetchLine_keeps hP (State.checkCopy_keeps hc (State.lookup_keeps hc (State.flushWb_keeps hP hS))))))))))

theorem State.sharedNow_keeps {P} (hP : ClosedMem P) {s core line found} (hS : P s) : P (State.sharedNow s core line found)
    := by
  have hc := hP.toClosed
  unfold State.sharedNow
  refine State.reads_keeps hP hS (fun v0 h1 => ?_)
  split
  · rename_i x10 x11 x12 x13 x14
    exact State.answerLine_keeps hc (okR_snd (okR_snd (okO_eq x14 (State.readShared_keeps hP h1))))
  · rename_i x10 x11
    exact h1

theorem execReadShared_keeps {P} (hP : ClosedMem P) {t core line found s} (hS : P s) : OkN P (execReadShared t core line
    found s) := by
  have hc := hP.toClosed
  unfold execReadShared
  exact State.live_keeps hc hS (fun v0 h1 => (ok_ite h1 (State.orHold_keeps hc h1 (fun v2 h3 => (State.sharedNow_keeps hP
      h3)))))

theorem State.grantWhen_keeps {P} (hP : Closed P) {s g} (hS : P s) : P (State.grantWhen s g) := by
  unfold State.grantWhen
  exact ok_ite (State.sendGrant_keeps hP hS) (Closed.upd hP hS)

theorem State.readOwn_keeps {P : State → Prop} (hP : ClosedMem P) {s : State} {c : Nat} {line : Nat}
    (hS : P s) : OkO P (State.readOwn s c line) := by
  have hc := hP.toClosed
  unfold State.readOwn
  extract_lets +onlyGivenNames x0
  have h1 : P x0 := (State.lookup_keeps hc (State.flushWb_keeps hP hS))
  clear_value x0
  split
  · split
    · exact okO_none
    · rename_i e2
      have h3 : P _ := (okO_eqR e2 (State.dirRoom_keeps hP h1))
      split
      · rename_i e4
        have h5 : P _ := (okRR_eq e4 (State.fetchLine_keeps hP h3))
        exact (okO_some (State.grantWhen_keeps hc (State.dirSet_keeps hc h5)))
  · refine ok_ite (okO_some (State.grantWhen_keeps hc h1)) ?_
    refine ok_ite ?_ ?_
    · extract_lets +onlyGivenNames x6
      clear_value x6
      refine ok_ite ?_ ?_
      · split
        · exact (okO_some (State.scStore_keeps hc (State.placeLine_keeps hc h1)))
        · split
          · rename_i e7
            have h8 : P _ := (okRR_eq e7 (State.fetchLine_keeps hP h1))
            exact (okO_some (State.grantWhen_keeps hc h8))
      · split
        · rename_i e9
          have h10 : P _ := (okRRR_eq e9 (State.takeOwner_keeps hP h1))
          exact (okO_some (State.grantWhen_keeps hc (State.dirSet_keeps hc h10)))
    · split
      · split
        · refine okO_some ?_
          refine State.grantWhen_keeps hc ?_
          refine State.dirSet_keeps hc ?_
          refine okL_eq (by assumption) ?_
          refine State.invalidateAll_keeps hc ?_
          refine okRR_eq (by assumption) ?_
          split
          · exact (okR_mk (okR_mk h1))
          · exact (State.fetchLine_keeps hP h1)

theorem State.ownNow_keeps {P} (hP : ClosedMem P) {s core line found} (hS : P s) : P (State.ownNow s core line found) := by
  have hc := hP.toClosed
  unfold State.ownNow
  exact State.reads_keeps hP hS (fun v0 h1 => (okO_getD (State.readOwn_keeps hP h1) h1))

theorem execReadForOwnership_keeps {P} (hP : ClosedMem P) {t core line found s} (hS : P s) : OkN P (execReadForOwnership t
    core line found s) := by
  have hc := hP.toClosed
  unfold execReadForOwnership
  exact State.live_keeps hc hS (fun v0 h1 => (ok_ite h1 (State.orHold_keeps hc h1 (fun v2 h3 => (State.ownNow_keeps hP
      h3)))))

theorem State.condNow_keeps {P} (hP : ClosedMem P) {s core line found} (hS : P s) : P (State.condNow s core line found) :=
    by
  have hc := hP.toClosed
  unfold State.condNow
  refine ok_ite (State.reads_keeps hP hS (fun v0 h1 => ?_)) hS
  dsimp only
  exact ok_ite (okO_getD (State.readOwn_keeps hP (State.lookup_keeps hc (State.flushWb_keeps hP h1))) (State.lookup_keeps hc
      (State.flushWb_keeps hP h1))) (State.setHost_keeps hc (State.lookup_keeps hc (State.flushWb_keeps hP h1)))

theorem execConditionalReadForOwnership_keeps {P} (hP : ClosedMem P) {t core line found s} (hS : P s) : OkN P
    (execConditionalReadForOwnership t core line found s) := by
  have hc := hP.toClosed
  unfold execConditionalReadForOwnership
  exact State.live_keeps hc hS (fun v0 h1 => (ok_ite (State.orHold_keeps hc h1 (fun v2 h3 => (State.condNow_keeps hP h3)))
      h1))

theorem State.readNow_keeps {P} (hP : ClosedMem P) {s agent line found} (hS : P s) : P (State.readNow s agent line found) :=
    by
  have hc := hP.toClosed
  unfold State.readNow
  refine State.reads_keeps hP hS (fun v0 h1 => ?_)
  split
  · rename_i x10 x11 x12 x13 x14
    exact State.answerLine_keeps hc (okR_snd (okR_snd (ok_eq x14 (State.coRead_keeps hP h1))))

theorem execCoherentRead_keeps {P} (hP : ClosedMem P) {t agent line found s} (hS : P s) : OkN P (execCoherentRead t agent
    line found s) := by
  have hc := hP.toClosed
  unfold execCoherentRead
  exact State.live_keeps hc hS (fun v0 h1 => (ok_ite h1 (ok_ite (State.answer_keeps hc h1) (State.orHold_keeps hc h1 (fun v2
      h3 => (State.readNow_keeps hP h3))))))

theorem State.writeNow_keeps {P} (hP : ClosedMem P) {s agent line mask data found} (hS : P s) : P (State.writeNow s agent
    line mask data found) := by
  have hc := hP.toClosed
  unfold State.writeNow
  exact State.reads_keeps hP hS (fun v0 h1 => (State.answer_keeps hc (State.coWrite_keeps hP h1)))

theorem execNonCachingWrite_keeps {P} (hP : ClosedMem P) {t agent line mask data found s} (hS : P s) : OkN P
    (execNonCachingWrite t agent line mask data found s) := by
  have hc := hP.toClosed
  unfold execNonCachingWrite
  exact State.live_keeps hc hS (fun v0 h1 => (ok_ite h1 (ok_ite (State.answer_keeps hc h1) (State.orHold_keeps hc h1 (fun v2
      h3 => (State.writeNow_keeps hP h3))))))

theorem execInvalidation_keeps {P} (hP : Closed P) {t cluster s} (hS : P s) : OkN P (execInvalidation t cluster s) := by
  unfold execInvalidation
  refine State.live_keeps hP hS (fun v0 h1 => ?_)
  split
  · rename_i x10 x11
    exact h1
  · rename_i x10 x11 x12 x13
    exact State.ackInval_keeps hP (State.applyInval_keeps hP (Closed.upd hP h1))

theorem State.probeLine_keeps {P} (hP : Closed P) {s line} (hS : P s) : P (State.probeLine s line) := by
  unfold State.probeLine
  dsimp only
  exact State.setReg_keeps hP (ok_ite (State.lookup_keeps hP hS) hS)

theorem execDirProbe_keeps {P} (hP : Closed P) {t agent v s} (hS : P s) : OkN P (execDirProbe t agent v s) := by
  unfold execDirProbe
  exact State.live_keeps hP hS (fun v0 h1 => (State.gate_keeps hP h1 (fun v2 h3 => (State.probeLine_keeps hP
      (State.storeReg_keeps hP h3)))))

/-! ### Held -/

theorem State.redo_keeps {P} (hP : ClosedMem P) {s a} (hS : P s) : P (State.redo s a) := by
  have hc := hP.toClosed
  unfold State.redo
  split
  · rename_i x0 x1 x2 x3
    exact State.readNow_keeps hP hS
  · rename_i x0 x1 x2 x3 x4 x5
    exact State.writeNow_keeps hP hS
  · rename_i x0 x1 x2 x3
    exact ok_ite (State.sharedNow_keeps hP hS) hS
  · rename_i x0 x1 x2 x3
    exact ok_ite (State.ownNow_keeps hP hS) hS
  · rename_i x0 x1 x2 x3
    exact State.condNow_keeps hP hS
  · rename_i x0 x1 x2
    exact State.flushWb_keeps hP hS
  · rename_i x0 x1 x2 x3
    exact State.mopNow_keeps hP hS

theorem State.releaseReqs_keeps {P} (hP : ClosedMem P) {s key} (hS : P s) : P (State.releaseReqs s key) := by
  have hc := hP.toClosed
  unfold State.releaseReqs
  dsimp only
  exact State.each_keeps hc (Closed.upd hc hS) (fun v0 v1 h2 => (State.redo_keeps hP h2))

theorem execRetrainDone_keeps {P} (hP : ClosedMem P) {t ch s} (hS : P s) : OkN P (execRetrainDone t ch s) := by
  have hc := hP.toClosed
  unfold execRetrainDone
  refine State.live_keeps hc hS (fun v0 h1 => (ok_ite ?_ h1))
  dsimp only
  exact State.releaseReqs_keeps hP (State.resumeChan_keeps hP (State.setChan_keeps hc (State.wr_keeps hc (State.bump_keeps
      hc h1))))

theorem State.trainingLost_keeps {P} (hP : ClosedMem P) {s c} (hS : P s) : P (State.trainingLost s c) := by
  have hc := hP.toClosed
  unfold State.trainingLost
  exact ok_ite (Closed.upd hc hS) (State.declareLost_keeps hP hS)

theorem execRetrainFail_keeps {P} (hP : ClosedMem P) {t ch s} (hS : P s) : OkN P (execRetrainFail t ch s) := by
  have hc := hP.toClosed
  unfold execRetrainFail
  refine State.live_keeps hc hS (fun v0 h1 => (ok_ite ?_ h1))
  dsimp only
  exact State.releaseReqs_keeps hP (ok_ite (State.trainingLost_keeps hP (State.resumeChan_keeps hP (State.wr_keeps hc
      (State.setChan_keeps hc h1)))) (State.resumeChan_keeps hP (State.wr_keeps hc (State.setChan_keeps hc h1))))

theorem State.retireWrite_keeps {P} (hP : ClosedMem P) {s agent c} (hS : P s) : P (State.retireWrite s agent c) := by
  have hc := hP.toClosed
  unfold State.retireWrite
  exact ok_ite (State.report_keeps hc hS) (ok_ite hS (State.releaseReqs_keeps hP (State.declareLost_keeps hP hS)))

theorem execRetire_keeps {P} (hP : ClosedMem P) {t ch cause agent s} (hS : P s) : OkN P (execRetire t ch cause agent s) :=
    by
  have hc := hP.toClosed
  unfold execRetire
  refine State.live_keeps hc hS (fun v0 h1 => ?_)
  dsimp only
  exact ok_ite h1 (ok_ite (ok_ite (State.releaseReqs_keeps hP (State.declareLost_keeps hP h1)) h1) (State.gate_keeps hc h1
      (fun v10 h11 => (State.retireWrite_keeps hP h11))))

/-! ### HostOps -/

theorem State.tlbDrop_keeps {P} (hP : Closed P) {s tag} (hS : P s) : P (State.tlbDrop s tag) := by
  unfold State.tlbDrop
  refine State.each_keeps hP hS (fun v0 v1 h2 => ?_)
  dsimp only
  exact State.setHost_keeps hP h2

theorem State.tlbUse_keeps {P} (hP : Closed P) {s c tag} (hS : P s) : P (State.tlbUse s c tag) := by
  unfold State.tlbUse
  dsimp only
  exact State.setHost_keeps hP hS

theorem State.tryBarrier_keeps {P} (hP : Closed P) {s c} (hS : P s) : P (State.tryBarrier s c) := by
  unfold State.tryBarrier
  dsimp only
  exact ok_ite (State.setHost_keeps hP hS) hS

theorem State.tryBarriers_keeps {P} (hP : Closed P) {s c} (hS : P s) : P (State.tryBarriers s c) := by
  unfold State.tryBarriers
  exact State.each_keeps hP (State.tryBarrier_keeps hP hS) (fun v0 v1 h2 => (State.tryBarrier_keeps hP h2))

theorem State.barrier_keeps {P} (hP : Closed P) {s c kind} (hS : P s) : P (State.barrier s c kind) := by
  unfold State.barrier
  dsimp only
  exact ok_ite (State.tryBarrier_keeps hP (State.setHost_keeps hP hS)) hS

theorem State.storeEnds_keeps {P} (hP : Closed P) {s c pa how} (hS : P s) : P (State.storeEnds s c pa how) := by
  unfold State.storeEnds
  dsimp only
  exact ok_ite (State.tryBarriers_keeps hP (ok_ite (State.setHost_keeps hP hS) (State.lostStore_keeps hP
      (State.setHost_keeps hP hS)))) hS

theorem State.issuePeers_keeps {P} (hP : Closed P) {s c} (hS : P s) : P (State.issuePeers s c) := by
  unfold State.issuePeers
  dsimp only
  refine State.each_keeps hP hS (fun v0 v1 h2 => ?_)
  split
  · rename_i x10 x11 x12
    exact okL_fst (ok_eq x12 (State.peerWrite_keeps hP (State.setHost_keeps hP h2)))
  · rename_i x10 x11 x12 x13 x14
    exact State.storeEnds_keeps hP (okL_fst (ok_eq x14 (State.peerWrite_keeps hP (State.setHost_keeps hP h2))))

theorem State.loadReturns_keeps {P} (hP : Closed P) {s c pa size d poison} (hS : P s) : P (State.loadReturns s c pa size d
    poison) := by
  unfold State.loadReturns
  dsimp only
  exact State.tryBarriers_keeps hP (State.issuePeers_keeps hP (ok_ite (State.answer_keeps hP (State.hostExc_keeps hP hS))
      (State.answerLine_keeps hP (State.setHost_keeps hP hS))))

theorem State.peerLoadDone_keeps {P} (hP : Closed P) {s c line size d poison} (hS : P s) : P (State.peerLoadDone s c line
    size d poison) := by
  unfold State.peerLoadDone
  dsimp only
  split
  · rename_i x0 x1
    exact hS
  · rename_i x0 x1 x2
    exact State.loadReturns_keeps hP (State.setHost_keeps hP hS)

theorem State.linesLost_keeps {P} (hP : ClosedMem P) {s ls} (hS : P s) : P (State.linesLost s ls) := by
  have hc := hP.toClosed
  unfold State.linesLost
  dsimp only
  refine State.each_keeps hc (State.each_keeps hc hS (fun v0 v1 h2 => ?_)) (fun v0 v1 h2 => ?_)
  · split
    · rename_i x10 x11 x12
      exact Closed.upd hc h2
    · rename_i x10 x11
      exact h2
  · split
    · rename_i x10 x11
      exact h2
    · rename_i x10 x11 x12 x13
      exact State.faultRecord_keeps hP (State.bump_keeps hc h2)

theorem State.loseCore_keeps {P} (hP : ClosedMem P) {s c} (hS : P s) : P (State.loseCore s c) := by
  have hc := hP.toClosed
  unfold State.loseCore
  dsimp only
  exact State.linesLost_keeps hP (State.setHost_keeps hc (Closed.upd hc hS))

/-! ### Tier -/

theorem execCxlLinkRecovery_keeps {P} (hP : Closed P) {t port s} (hS : P s) : OkN P (execCxlLinkRecovery t port s) := by
  unfold execCxlLinkRecovery
  exact State.live_keeps hP hS (fun v0 h1 => (ok_ite (Closed.upd hP h1) h1))

theorem State.endRecovery_keeps {P} (hP : ClosedMem P) {s p} (hS : P s) : P (State.endRecovery s p) := by
  have hc := hP.toClosed
  unfold State.endRecovery
  exact State.releaseReqs_keeps hP (Closed.upd hc hS)

theorem execCxlLinkRecovered_keeps {P} (hP : ClosedMem P) {t port s} (hS : P s) : OkN P (execCxlLinkRecovered t port s) :=
    by
  have hc := hP.toClosed
  unfold execCxlLinkRecovered
  exact State.live_keeps hc hS (fun v0 h1 => (ok_ite (State.endRecovery_keeps hP h1) h1))

theorem execCxlPortDown_keeps {P} (hP : ClosedMem P) {t port s} (hS : P s) : OkN P (execCxlPortDown t port s) := by
  have hc := hP.toClosed
  unfold execCxlPortDown
  exact State.live_keeps hc hS (fun v0 h1 => (ok_ite (State.endRecovery_keeps hP (State.wr_keeps hc h1)) h1))

theorem execCxlError_keeps {P} (hP : ClosedMem P) {t port status s} (hS : P s) : OkN P (execCxlError t port status s) := by
  have hc := hP.toClosed
  unfold execCxlError
  exact State.live_keeps hc hS (fun v0 h1 => (ok_ite h1 (State.faultRecord_keeps hP h1)))

theorem State.objStore_keeps {P} (hP : Closed P) {s agent n v} (hS : P s) : P (State.objStore s agent n v) := by
  unfold State.objStore
  dsimp only
  exact ok_ite (State.wr_keeps hP (State.storeReg_keeps hP hS)) (State.storeReg_keeps hP hS)

theorem execTierObjCfg_keeps {P} (hP : Closed P) {t agent n v s} (hS : P s) : OkN P (execTierObjCfg t agent n v s) := by
  unfold execTierObjCfg
  exact State.live_keeps hP hS (fun v0 h1 => (ok_ite h1 (State.gate_keeps hP h1 (fun v2 h3 => (State.objStore_keeps hP
      h3)))))

theorem State.entryAt_keeps {P} (hP : ClosedMem P) {s tag va level a z5} (hS : P s) : OkR P (State.entryAt s tag va level a
    z5) := by
  have hc := hP.toClosed
  induction a generalizing s tag va level z5 with
  | nil  =>
    unfold State.entryAt
    exact okR_mk hS
  | cons x0 x1 x2 =>
    unfold State.entryAt
    dsimp only
    split
    · rename_i x3 x4 x5
      exact okR_mk (okR_snd (ok_eq x5 (State.readPte_keeps hP hS)))
    · rename_i x3 x4 x5 x6
      exact ok_ite (okR_mk (okR_snd (ok_eq x6 (State.readPte_keeps hP hS)))) (ok_ite (x2 (okR_snd (ok_eq x6
          (State.readPte_keeps hP hS)))) (okR_mk (okR_snd (ok_eq x6 (State.readPte_keeps hP hS)))))

theorem State.objEntry_keeps {P} (hP : ClosedMem P) {s n k} (hS : P s) : OkR P (State.objEntry s n k) := by
  have hc := hP.toClosed
  unfold State.objEntry
  dsimp only
  exact State.entryAt_keeps hP hS

theorem State.leafOk_keeps {P} (hP : ClosedMem P) {s n k} (hS : P s) : OkR P (State.leafOk s n k) := by
  have hc := hP.toClosed
  unfold State.leafOk
  dsimp only
  split
  · rename_i x0 x1 x2
    exact okR_mk (okR_snd (ok_eq x2 (State.objEntry_keeps hP hS)))
  · rename_i x0 x1 x2 x3 x4
    exact okR_mk (okR_snd (ok_eq x4 (State.objEntry_keeps hP hS)))

theorem State.leavesOk_keeps {P} (hP : ClosedMem P) {s n} (hS : P s) : OkR P (State.leavesOk s n) := by
  have hc := hP.toClosed
  unfold State.leavesOk
  refine ok_ite (ok_foldl (fun v0 v1 h2 => ?_) _ _ (okR_mk hS)) (okR_mk hS)
  dsimp only
  exact okR_mk (okR_snd (State.leafOk_keeps hP (okR_snd h2)))

theorem State.rewriteLeaf_keeps {P} (hP : ClosedMem P) {s n k f} (hS : P s) : P (State.rewriteLeaf s n k f) := by
  have hc := hP.toClosed
  unfold State.rewriteLeaf
  split
  · rename_i x0 x1 x2
    exact okR_snd (ok_eq x2 (State.objEntry_keeps hP hS))
  · rename_i x0 x1 x2 x3 x4
    exact State.engStore_keeps hP (okR_snd (ok_eq x4 (State.objEntry_keeps hP hS)))

theorem State.rewriteLeaves_keeps {P} (hP : ClosedMem P) {s n f} (hS : P s) : P (State.rewriteLeaves s n f) := by
  have hc := hP.toClosed
  unfold State.rewriteLeaves
  exact State.each_keeps hc hS (fun v0 v1 h2 => (State.rewriteLeaf_keeps hP h2))

theorem State.tracePhase_keeps {P} (hP : Closed P) {s m phase} (hS : P s) : P (State.tracePhase s m phase) := by
  unfold State.tracePhase
  exact State.offer_keeps hP (State.wr_keeps hP hS)

theorem State.submitMig_keeps {P} (hP : Closed P) {s m} (hS : P s) : P (State.submitMig s m) := by
  unfold State.submitMig
  dsimp only
  exact Closed.upd hP (ok_ite (State.wr_keeps hP hS) hS)

theorem State.releaseGate_keeps {P} (hP : Closed P) {s m} (hS : P s) : P (State.releaseGate s m) := by
  unfold State.releaseGate
  split
  · rename_i x0 x1
    exact hS
  · rename_i x0 x1 x2 x3
    dsimp only
    exact ok_ite hS (ok_ite (State.ungate_keeps hP hS) (State.setQueue_keeps hP (State.ungate_keeps hP hS)))

theorem State.endMig_keeps {P} (hP : Closed P) {s m status detail failed} (hS : P s) : P (State.endMig s m status detail
    failed) := by
  unfold State.endMig
  dsimp only
  refine State.releaseGate_keeps hP ?_
  split
  · rename_i x10 x11 x12 x13
    refine ok_ite (State.bump_keeps hP (State.wr_keeps hP ?_)) (State.wr_keeps hP ?_)
    · split
      · rename_i x24 x25 x26 x27
        exact ok_ite (State.wr_keeps hP (Closed.upd hP hS)) (State.finish_keeps hP (State.wr_keeps hP (Closed.upd hP hS)))
      · rename_i x24 x25
        exact State.wr_keeps hP (Closed.upd hP hS)
    · split
      · rename_i x24 x25 x26 x27
        exact ok_ite (State.wr_keeps hP (Closed.upd hP hS)) (State.finish_keeps hP (State.wr_keeps hP (Closed.upd hP hS)))
      · rename_i x24 x25
        exact State.wr_keeps hP (Closed.upd hP hS)
  · rename_i x10 x11
    split
    · rename_i x12 x13 x14 x15
      exact ok_ite (State.wr_keeps hP (Closed.upd hP hS)) (State.finish_keeps hP (State.wr_keeps hP (Closed.upd hP hS)))
    · rename_i x12 x13
      exact State.wr_keeps hP (Closed.upd hP hS)

theorem State.startInval_keeps {P} (hP : Closed P) {s m} (hS : P s) : OkL P (State.startInval s m) := by
  unfold State.startInval
  exact ok_ite (okL_mk (State.invalidate_keeps hP hS)) (okL_mk hS)

theorem State.setMig_keeps {P} (hP : Closed P) {s old new} (hS : P s) : P (State.setMig s old new) := by
  unfold State.setMig
  exact Closed.upd hP hS

theorem State.checkMig_keeps {P} (hP : ClosedMem P) {s n m} (hS : P s) : P (State.checkMig s n m) := by
  have hc := hP.toClosed
  unfold State.checkMig
  split
  · rename_i x0 x1 x2
    exact State.endMig_keeps hc (State.wr_keeps hc (okR_snd (ok_eq x2 (State.leavesOk_keeps hP hS))))
  · rename_i x0 x1 x2
    dsimp only
    exact State.setMig_keeps hc (okL_fst (State.startInval_keeps hc (State.tlbDrop_keeps hc (State.tracePhase_keeps hc
        (State.rewriteLeaves_keeps hP (State.tracePhase_keeps hc (State.wr_keeps hc (okR_snd (ok_eq x2 (State.leavesOk_keeps
        hP hS))))))))))

theorem execMigrationCheck_keeps {P} (hP : ClosedMem P) {t n found s} (hS : P s) : OkN P (execMigrationCheck t n found s) :=
    by
  have hc := hP.toClosed
  unfold execMigrationCheck
  refine State.live_keeps hc hS (fun v0 h1 => ?_)
  split
  · rename_i x10 x11
    exact h1
  · rename_i x10 x11 x12
    exact ok_ite h1 (ok_ite (State.endMig_keeps hc (State.bump_keeps hc h1)) (State.reads_keeps hP h1 (fun v13 h14 =>
        (State.checkMig_keeps hP h14))))

theorem execMigrationDrain_keeps {P} (hP : Closed P) {t n s} (hS : P s) : OkN P (execMigrationDrain t n s) := by
  unfold execMigrationDrain
  refine State.live_keeps hP hS (fun v0 h1 => ?_)
  split
  · rename_i x10 x11
    exact h1
  · rename_i x10 x11 x12
    dsimp only
    refine ok_ite h1 ?_
    split
    · rename_i x23 x24
      exact State.setMig_keeps hP (okL_fst (State.startInval_keeps hP h1))
    · rename_i x23 x24 x25
      exact ok_ite h1 (State.tracePhase_keeps hP (State.setMig_keeps hP h1))

theorem State.moveLines_keeps {P} (hP : ClosedMem P) {s old new ks} (hS : P s) : OkR (OkR P) (State.moveLines s old new ks)
    := by
  have hc := hP.toClosed
  unfold State.moveLines
  dsimp only
  exact ok_foldl (fun v0 v1 h2 => (okR_mk (okR_mk (ok_ite (State.engPoison_keeps hP (okR_snd (okR_snd (State.engLine_keeps
      hP (okR_snd (okR_snd h2)))))) (State.engStore_keeps hP (okR_snd (okR_snd (State.engLine_keeps hP (okR_snd (okR_snd
      h2)))))))))) _ _ (okR_mk (okR_mk hS))

theorem State.remap_keeps {P} (hP : ClosedMem P) {s m bad lost} (hS : P s) : P (State.remap s m bad lost) := by
  have hc := hP.toClosed
  unfold State.remap
  dsimp only
  exact ok_ite (State.endMig_keeps hc (State.bump_keeps hc (State.wr_keeps hc (State.rewriteLeaves_keeps hP
      (State.tracePhase_keeps hc hS))))) (ok_ite (State.endMig_keeps hc (State.bump_keeps hc (State.wr_keeps hc
      (State.rewriteLeaves_keeps hP (State.tracePhase_keeps hc hS))))) (State.endMig_keeps hc (State.bump_keeps hc
      (State.wr_keeps hc (State.rewriteLeaves_keeps hP (State.tracePhase_keeps hc hS))))))

theorem State.copyMig_keeps {P} (hP : ClosedMem P) {s n m only} (hS : P s) : P (State.copyMig s n m only) := by
  have hc := hP.toClosed
  unfold State.copyMig
  dsimp only
  exact ok_ite (State.setMig_keeps hc (okR_snd (okR_snd (State.moveLines_keeps hP hS)))) (State.remap_keeps hP (okR_snd
      (okR_snd (State.moveLines_keeps hP hS))))

theorem execMigrationCopy_keeps {P} (hP : ClosedMem P) {t n only found s} (hS : P s) : OkN P (execMigrationCopy t n only
    found s) := by
  have hc := hP.toClosed
  unfold execMigrationCopy
  refine State.live_keeps hc hS (fun v0 h1 => ?_)
  split
  · rename_i x10 x11
    exact h1
  · rename_i x10 x11 x12
    exact ok_ite h1 (State.reads_keeps hP h1 (fun v13 h14 => (State.copyMig_keeps hP h14)))

theorem State.rillEnabled_keeps {P} (hP : Closed P) {s n} (hS : P s) : P (State.rillEnabled s n) := by
  unfold State.rillEnabled
  dsimp only
  exact Closed.upd hP (State.wr_keeps hP hS)

theorem State.rillStore_keeps {P} (hP : Closed P) {s agent n v} (hS : P s) : P (State.rillStore s agent n v) := by
  unfold State.rillStore
  dsimp only
  exact ok_ite (State.rillEnabled_keeps hP (State.storeReg_keeps hP hS)) (State.storeReg_keeps hP hS)

theorem execRillEnable_keeps {P} (hP : Closed P) {t agent n v s} (hS : P s) : OkN P (execRillEnable t agent n v s) := by
  unfold execRillEnable
  refine State.live_keeps hP hS (fun v0 h1 => ?_)
  dsimp only
  exact ok_ite h1 (State.gate_keeps hP h1 (fun v10 h11 => (State.txnWrite_keeps hP h11 (fun v12 h13 =>
      (State.rillStore_keeps hP h13)))))

theorem State.rillEntries_keeps {P} (hP : ClosedMem P) {s n q} (hS : P s) : OkR P (State.rillEntries s n q) := by
  have hc := hP.toClosed
  unfold State.rillEntries
  dsimp only
  exact ok_ite (okR_mk (okR_snd (okR_snd (State.engWords_keeps hP hS)))) (okR_mk hS)

theorem State.setIssued_keeps {P} (hP : Closed P) {s n e b} (hS : P s) : P (State.setIssued s n e b) := by
  unfold State.setIssued
  exact Closed.upd hP hS

theorem State.issueRill_keeps {P} (hP : Closed P) {s n q e w} (hS : P s) : P (State.issueRill s n q e w) := by
  unfold State.issueRill
  dsimp only
  split
  · rename_i x0 x1
    exact State.submitMig_keeps hP (State.bump_keeps hP (State.setIssued_keeps hP hS))
  · rename_i x0 x1
    exact State.bump_keeps hP (ok_ite (State.wr_keeps hP (State.setIssued_keeps hP hS)) (State.setIssued_keeps hP hS))

theorem State.evalRill_keeps {P} (hP : ClosedMem P) {s q layer n} (hS : P s) : P (State.evalRill s q layer n) := by
  have hc := hP.toClosed
  unfold State.evalRill
  split
  · rename_i x0 x1 x2
    exact okR_snd (ok_eq x2 (State.rillEntries_keeps hP hS))
  · rename_i x0 x1 x2 x3
    dsimp only
    split
    · rename_i x4 x5
      exact okR_snd (ok_eq x3 (State.rillEntries_keeps hP hS))
    · rename_i x4 x5 x6
      exact State.each_keeps hc (State.wr_keeps hc (ok_ite (State.bumpWrap_keeps hc (State.each_keeps hc (okR_snd (ok_eq x3
          (State.rillEntries_keeps hP hS))) (fun v7 v8 h9 => (State.setIssued_keeps hc h9)))) (State.each_keeps hc (okR_snd
          (ok_eq x3 (State.rillEntries_keeps hP hS))) (fun v7 v8 h9 => (State.setIssued_keeps hc h9))))) (fun v7 v8 h9 =>
          (ok_ite (State.issueRill_keeps hc h9) h9))

theorem execRillEvaluation_keeps {P} (hP : ClosedMem P) {t q found s} (hS : P s) : OkN P (execRillEvaluation t q found s) :=
    by
  have hc := hP.toClosed
  unfold execRillEvaluation
  refine State.live_keeps hc hS (fun v0 h1 => ?_)
  split
  · rename_i x10 x11
    exact h1
  · rename_i x10 x11 x12 x13
    dsimp only
    exact ok_ite h1 (State.reads_keeps hP h1 (fun v14 h15 => (State.setQueue_keeps hc (State.each_keeps hc h15 (fun v16 v17
        h18 => (State.evalRill_keeps hP h18))))))

end Sys2Proof.Machine
end

