-- ==== Sys2Proof/Laws/KeepsTile.lean ====
section
/-! SUPPORT. What survives the instructions of a tile core, the Sluice and launches. -/

namespace Sys2Proof.Machine

/-! ### TileArray -/

theorem State.enqueue_keeps {P} (hP : Closed P) {s c pc o} (hS : P s) : P (State.enqueue s c pc o) := by
  unfold State.enqueue
  dsimp only
  exact State.passPc_keeps hP (State.setCore_keeps hP hS)

theorem execMpass_keeps {P} (hP : Closed P) {t core body s} (hS : P s) : OkN P (execMpass t core body s) := by
  unfold execMpass
  refine State.live_keeps hP hS (fun v0 h1 => (State.issue_keeps hP h1 (fun v2 v3 h4 => ?_)))
  dsimp only
  exact ok_ite (okO_none) (State.checked_keeps hP h4 (okO_some (State.enqueue_keeps hP (State.setCore_keeps hP h4))))

theorem execMdrain_keeps {P} (hP : Closed P) {t core body s} (hS : P s) : OkN P (execMdrain t core body s) := by
  unfold execMdrain
  refine State.live_keeps hP hS (fun v0 h1 => (State.issue_keeps hP h1 (fun v2 v3 h4 => ?_)))
  dsimp only
  exact ok_ite (okO_none) (State.checked_keeps hP h4 (okO_some (State.enqueue_keeps hP (State.setCore_keeps hP h4))))

theorem execFillDone_keeps {P} (hP : ClosedMem P) {t core conflicts parityOk spBad s} (hS : P s) : OkN P (execFillDone t
    core conflicts parityOk spBad s) := by
  have hc := hP.toClosed
  unfold execFillDone
  refine State.live_keeps hc hS (fun v0 h1 => ?_)
  split
  · rename_i x10 x11
    exact h1
  · rename_i x10 x11 x12
    dsimp only
    exact ok_ite (ok_ite h1 (State.bumpWrap_keeps hc (State.spParity_keeps hP h1))) (ok_ite (State.integrity_keeps hP
        (ok_ite h1 (State.bumpWrap_keeps hc (State.spParity_keeps hP h1)))) (ok_ite (State.tryEnd_keeps hc
        (State.raise_keeps hc (State.setCore_keeps hc (ok_ite h1 (State.bumpWrap_keeps hc (State.spParity_keeps hP h1))))))
        (State.setCore_keeps hc (ok_ite h1 (State.bumpWrap_keeps hc (State.spParity_keeps hP h1))))))

theorem execStreamEnd_keeps {P} (hP : ClosedMem P) {t core stalls gated conflicts parityOk spBad s} (hS : P s) : OkN P
    (execStreamEnd t core stalls gated conflicts parityOk spBad s) := by
  have hc := hP.toClosed
  unfold execStreamEnd
  refine State.live_keeps hc hS (fun v0 h1 => ?_)
  split
  · rename_i x10 x11
    exact h1
  · rename_i x10 x11 x12
    dsimp only
    exact ok_ite h1 (ok_ite (State.integrity_keeps hP (State.setCore_keeps hc (State.pmcCore_keeps hc (State.pmcCore_keeps
        hc (State.bumpWrap_keeps hc (State.pmcCore_keeps hc (State.bumpWrap_keeps hc (State.bumpWrap_keeps hc
        (State.spParity_keeps hP h1))))))))) (State.tryEnd_keeps hc (ok_ite (State.raise_keeps hc (State.wr_keeps hc
        (State.setCore_keeps hc (State.pmcCore_keeps hc (State.pmcCore_keeps hc (State.bumpWrap_keeps hc
        (State.pmcCore_keeps hc (State.bumpWrap_keeps hc (State.bumpWrap_keeps hc (State.spParity_keeps hP h1))))))))))
        (State.orFlags_keeps hc (State.wr_keeps hc (State.setCore_keeps hc (State.pmcCore_keeps hc (State.pmcCore_keeps hc
        (State.bumpWrap_keeps hc (State.pmcCore_keeps hc (State.bumpWrap_keeps hc (State.bumpWrap_keeps hc
        (State.spParity_keeps hP h1)))))))))))))

theorem execRecirculationEnd_keeps {P} (hP : Closed P) {t core cycles s} (hS : P s) : OkN P (execRecirculationEnd t core
    cycles s) := by
  unfold execRecirculationEnd
  refine State.live_keeps hP hS (fun v0 h1 => (ok_ite ?_ h1))
  dsimp only
  exact State.wr_keeps hP (State.setCore_keeps hP (State.bumpWrap_keeps hP h1))

theorem execDrainDone_keeps {P} (hP : ClosedMem P) {t core conflicts parityOk s} (hS : P s) : OkN P (execDrainDone t core
    conflicts parityOk s) := by
  have hc := hP.toClosed
  unfold execDrainDone
  refine State.live_keeps hc hS (fun v0 h1 => ?_)
  dsimp only
  split
  · rename_i x10 x11
    exact h1
  · rename_i x10 x11 x12
    exact ok_ite h1 (ok_ite (State.integrity_keeps hP (State.bumpWrap_keeps hc h1)) (State.tryEnd_keeps hc
        (State.orFlags_keeps hc (State.setCore_keeps hc (State.bumpWrap_keeps hc h1)))))

/-! ### TileVector -/

theorem execVop_keeps {P} (hP : ClosedMem P) {t core body parityOk s} (hS : P s) : OkN P (execVop t core body parityOk s) :=
    by
  have hc := hP.toClosed
  unfold execVop
  refine State.live_keeps hc hS (fun v0 h1 => (State.issue_keeps hc h1 (fun v2 v3 h4 => (State.checked_keeps hc h4 (okO_some
      ?_)))))
  dsimp only
  exact ok_ite (State.integrity_keeps hP (State.pmcCore_keeps hc h4)) (State.orFlags_keeps hc (State.passPc_keeps hc
      (State.setFlags_keeps hc (State.setCore_keeps hc (State.pmcCore_keeps hc h4)))))

theorem execVld_keeps {P} (hP : ClosedMem P) {t core body spBad s} (hS : P s) : OkN P (execVld t core body spBad s) := by
  have hc := hP.toClosed
  unfold execVld
  refine State.live_keeps hc hS (fun v0 h1 => (State.issue_keeps hc h1 (fun v2 v3 h4 => ?_)))
  dsimp only
  exact State.checked_keeps hc h4 (ok_ite (okO_none) (ok_ite (okO_some (State.raise_keeps hc (State.passPc_keeps hc
      (State.spParity_keeps hP h4)))) (okO_some (State.passPc_keeps hc (State.setCore_keeps hc (State.spParity_keeps hP
      h4))))))

theorem execVst_keeps {P} (hP : Closed P) {t core body s} (hS : P s) : OkN P (execVst t core body s) := by
  unfold execVst
  refine State.live_keeps hP hS (fun v0 h1 => (State.issue_keeps hP h1 (fun v2 v3 h4 => ?_)))
  dsimp only
  exact State.checked_keeps hP h4 (ok_ite (okO_none) (okO_some (State.orFlags_keeps hP (State.passPc_keeps hP
      (State.setFlags_keeps hP (State.setCore_keeps hP h4))))))

theorem execSmove_keeps {P} (hP : ClosedMem P) {t core body spBad s} (hS : P s) : OkN P (execSmove t core body spBad s) :=
    by
  have hc := hP.toClosed
  unfold execSmove
  refine State.live_keeps hc hS (fun v0 h1 => (State.issue_keeps hc h1 (fun v2 v3 h4 => ?_)))
  dsimp only
  exact State.checked_keeps hc h4 (ok_ite (okO_some (State.passPc_keeps hc h4)) (ok_ite (okO_none) (ok_ite (okO_some
      (State.raise_keeps hc (State.passPc_keeps hc (ok_ite h4 (State.spParity_keeps hP h4))))) (okO_some (State.passPc_keeps
      hc (State.setCore_keeps hc (ok_ite h4 (State.spParity_keeps hP h4))))))))

/-! ### TileScalar -/

theorem State.passWith_keeps {P} (hP : Closed P) {s c pc f} (hS : P s) : P (State.passWith s c pc f) := by
  unfold State.passWith
  exact State.passPc_keeps hP (State.setCore_keeps hP hS)

theorem execNop_keeps {P} (hP : Closed P) {t core body s} (hS : P s) : OkN P (execNop t core body s) := by
  unfold execNop
  exact State.live_keeps hP hS (fun v0 h1 => (State.issue_keeps hP h1 (fun v2 v3 h4 => (State.checked_keeps hP h4 (okO_some
      (State.passPc_keeps hP h4))))))

theorem execEnd_keeps {P} (hP : Closed P) {t core body s} (hS : P s) : OkN P (execEnd t core body s) := by
  unfold execEnd
  exact State.live_keeps hP hS (fun v0 h1 => (State.issue_keeps hP h1 (fun v2 v3 h4 => (State.checked_keeps hP h4 (ok_ite
      (okO_some (State.endLaunch_keeps hP h4)) (okO_none))))))

theorem execFence_keeps {P} (hP : Closed P) {t core body s} (hS : P s) : OkN P (execFence t core body s) := by
  unfold execFence
  refine State.live_keeps hP hS (fun v0 h1 => (State.issue_keeps hP h1 (fun v2 v3 h4 => ?_)))
  dsimp only
  exact State.checked_keeps hP h4 (ok_ite (okO_some (State.passPc_keeps hP h4)) (okO_none))

theorem execCcwait_keeps {P} (hP : Closed P) {t core body s} (hS : P s) : OkN P (execCcwait t core body s) := by
  unfold execCcwait
  refine State.live_keeps hP hS (fun v0 h1 => (State.issue_keeps hP h1 (fun v2 v3 h4 => ?_)))
  dsimp only
  exact State.checked_keeps hP h4 (ok_ite (okO_some (State.passPc_keeps hP h4)) (okO_none))

theorem execCcset_keeps {P} (hP : Closed P) {t core body s} (hS : P s) : OkN P (execCcset t core body s) := by
  unfold execCcset
  exact State.live_keeps hP hS (fun v0 h1 => (State.issue_keeps hP h1 (fun v2 v3 h4 => (State.checked_keeps hP h4 (okO_some
      (State.passWith_keeps hP h4))))))

theorem State.coreSignal_keeps {P} (hP : Closed P) {s c obj set v layer opid} (hS : P s) : P (State.coreSignal s c obj set v
    layer opid) := by
  unfold State.coreSignal
  dsimp only
  exact State.offerAs_keeps hP (State.syPerform_keeps hP hS)

theorem execSsig_keeps {P} (hP : Closed P) {t core body s} (hS : P s) : OkN P (execSsig t core body s) := by
  unfold execSsig
  refine State.live_keeps hP hS (fun v0 h1 => (State.issue_keeps hP h1 (fun v2 v3 h4 => ?_)))
  dsimp only
  exact State.checked_keeps hP h4 (ok_ite (ok_ite (okO_none) (okO_some (State.passWith_keeps hP h4))) (okO_some
      (State.passPc_keeps hP (State.coreSignal_keeps hP h4))))

theorem execSwait_keeps {P} (hP : Closed P) {t core body s} (hS : P s) : OkN P (execSwait t core body s) := by
  unfold execSwait
  refine State.live_keeps hP hS (fun v0 h1 => (State.issue_keeps hP h1 (fun v2 v3 h4 => ?_)))
  dsimp only
  exact State.checked_keeps hP h4 (okO_some (ok_ite (State.passWith_keeps hP (State.offerCore_keeps hP h4)) (Closed.upd hP
      (State.setCore_keeps hP h4))))

theorem execTag_keeps {P} (hP : Closed P) {t core body s} (hS : P s) : OkN P (execTag t core body s) := by
  unfold execTag
  exact State.live_keeps hP hS (fun v0 h1 => (State.issue_keeps hP h1 (fun v2 v3 h4 => (State.checked_keeps hP h4 (okO_some
      (State.passWith_keeps hP h4))))))

theorem execAop_keeps {P} (hP : Closed P) {t core body s} (hS : P s) : OkN P (execAop t core body s) := by
  unfold execAop
  exact State.live_keeps hP hS (fun v0 h1 => (State.issue_keeps hP h1 (fun v2 v3 h4 => (State.checked_keeps hP h4 (okO_some
      (State.passWith_keeps hP h4))))))

theorem execAopi_keeps {P} (hP : Closed P) {t core body s} (hS : P s) : OkN P (execAopi t core body s) := by
  unfold execAopi
  exact State.live_keeps hP hS (fun v0 h1 => (State.issue_keeps hP h1 (fun v2 v3 h4 => (State.checked_keeps hP h4 (okO_some
      (State.passWith_keeps hP h4))))))

theorem execAli_keeps {P} (hP : Closed P) {t core body s} (hS : P s) : OkN P (execAli t core body s) := by
  unfold execAli
  exact State.live_keeps hP hS (fun v0 h1 => (State.issue_keeps hP h1 (fun v2 v3 h4 => (State.checked_keeps hP h4 (okO_some
      (State.passWith_keeps hP h4))))))

theorem execArd_keeps {P} (hP : Closed P) {t core body s} (hS : P s) : OkN P (execArd t core body s) := by
  unfold execArd
  exact State.live_keeps hP hS (fun v0 h1 => (State.issue_keeps hP h1 (fun v2 v3 h4 => (State.checked_keeps hP h4 (okO_some
      (State.passWith_keeps hP h4))))))

theorem State.branch_keeps {P} (hP : Closed P) {s c pc off} (hS : P s) : P (State.branch s c pc off) := by
  unfold State.branch
  dsimp only
  exact ok_ite (State.raise_keeps hP hS) (State.wr_keeps hP (State.setCore_keeps hP hS))

theorem execBr_keeps {P} (hP : Closed P) {t core body s} (hS : P s) : OkN P (execBr t core body s) := by
  unfold execBr
  exact State.live_keeps hP hS (fun v0 h1 => (State.issue_keeps hP h1 (fun v2 v3 h4 => (State.checked_keeps hP h4 (okO_some
      (State.branch_keeps hP h4))))))

theorem execBrc_keeps {P} (hP : Closed P) {t core body s} (hS : P s) : OkN P (execBrc t core body s) := by
  unfold execBrc
  refine State.live_keeps hP hS (fun v0 h1 => (State.issue_keeps hP h1 (fun v2 v3 h4 => ?_)))
  dsimp only
  exact State.checked_keeps hP h4 (okO_some (ok_ite (State.branch_keeps hP h4) (State.passPc_keeps hP h4)))

theorem execLoop_keeps {P} (hP : Closed P) {t core body s} (hS : P s) : OkN P (execLoop t core body s) := by
  unfold execLoop
  refine State.live_keeps hP hS (fun v0 h1 => (State.issue_keeps hP h1 (fun v2 v3 h4 => ?_)))
  dsimp only
  exact State.checked_keeps hP h4 (okO_some (ok_ite (State.passPc_keeps hP h4) (State.goPc_keeps hP (State.setCore_keeps hP
      h4))))

theorem execWatchdog_keeps {P} (hP : Closed P) {t core s} (hS : P s) : OkN P (execWatchdog t core s) := by
  unfold execWatchdog
  refine State.live_keeps hP hS (fun v0 h1 => ?_)
  dsimp only
  split
  · rename_i x10 x11 x12 x13 x14 x15
    exact ok_ite (State.raise_keeps hP h1) h1
  · rename_i x10 x11 x12
    exact h1

theorem execSibling_keeps {P} (hP : Closed P) {t core s} (hS : P s) : OkN P (execSibling t core s) := by
  unfold execSibling
  refine State.live_keeps hP hS (fun v0 h1 => ?_)
  dsimp only
  split
  · rename_i x10 x11
    exact h1
  · rename_i x10 x11 x12
    split
    · rename_i x13 x14 x15
      exact ok_ite h1 (State.raise_keeps hP h1)
    · rename_i x13 x14
      exact h1

/-! ### TileCopy -/

theorem State.addCounter_keeps {P} (hP : Closed P) {s c n} (hS : P s) : P (State.addCounter s c n) := by
  unfold State.addCounter
  dsimp only
  exact State.setCore_keeps hP hS

theorem State.releaseHeld_keeps {P} (hP : Closed P) {s c} (hS : P s) : P (State.releaseHeld s c) := by
  unfold State.releaseHeld
  dsimp only
  exact State.each_keeps hP (State.setCore_keeps hP hS) (fun v0 v1 h2 => (State.coreSignal_keeps hP h2))

theorem State.recordFault_keeps {P} (hP : Closed P) {s c o cause row} (hS : P s) : P (State.recordFault s c o cause row) :=
    by
  unfold State.recordFault
  dsimp only
  exact State.setReg_keeps hP (State.setCore_keeps hP hS)

theorem State.copyFault_keeps {P} (hP : Closed P) {s c o cause row va} (hS : P s) : P (State.copyFault s c o cause row va)
    := by
  unfold State.copyFault
  split
  · rename_i x0 x1
    exact State.raise_keeps hP (State.recordFault_keeps hP hS)
  · rename_i x0 x1 x2 x3
    dsimp only
    exact ok_ite (State.raise_keeps hP (State.recordFault_keeps hP (State.bump_keeps hP hS))) (State.bump_keeps hP hS)

theorem State.copyIn_keeps {P} (hP : Closed P) {s c sp b bad} (hS : P s) : P (State.copyIn s c sp b bad) := by
  unfold State.copyIn
  dsimp only
  exact State.bumpWrap_keeps hP (State.bump_keeps hP (State.setCore_keeps hP hS))

theorem State.burstIn_keeps {P} (hP : ClosedMem P) {s c pa len sp} (hS : P s) : P (State.burstIn s c pa len sp) := by
  have hc := hP.toClosed
  unfold State.burstIn
  dsimp only
  exact State.copyIn_keeps hc (okR_snd (okR_snd (ok_foldl (fun v0 v1 h2 => (okR_mk (okR_mk (okR_snd (okR_snd
      (State.engLine_keeps hP (okR_snd (okR_snd h2)))))))) _ _ (okR_mk (okR_mk hS)))))

theorem State.showCopies_keeps {P} (hP : Closed P) {s c} (hS : P s) : P (State.showCopies s c) := by
  unfold State.showCopies
  exact State.wr_keeps hP hS

theorem State.mapCopy_keeps {P} (hP : Closed P) {s c n f} (hS : P s) : P (State.mapCopy s c n f) := by
  unfold State.mapCopy
  dsimp only
  exact State.setCore_keeps hP hS

theorem State.readOut_keeps {P} (hP : ClosedMem P) {s c n spBad lines} (hS : P s) : P (State.readOut s c n spBad lines) :=
    by
  have hc := hP.toClosed
  unfold State.readOut
  split
  · rename_i x0 x1
    exact hS
  · rename_i x0 x1 x2
    dsimp only
    exact State.mapCopy_keeps hc (State.bump_keeps hc (State.spParity_keeps hP hS))

theorem State.outBytes_keeps {P} (hP : ClosedMem P) {s c n spBad b} (hS : P s) : OkR (OkR P) (State.outBytes s c n spBad b)
    := by
  have hc := hP.toClosed
  unfold State.outBytes
  split
  · rename_i x0 x1
    exact okR_mk (okR_mk hS)
  · rename_i x0 x1 x2
    dsimp only
    split
    · rename_i x3 x4
      exact okR_mk (okR_mk (State.readOut_keeps hP hS))
    · rename_i x3 x4 x5
      exact okR_mk (okR_mk (State.bumpWrap_keeps hc (State.readOut_keeps hP hS)))

theorem State.copyDone_keeps {P} (hP : Closed P) {s c o} (hS : P s) : P (State.copyDone s c o) := by
  unfold State.copyDone
  dsimp only
  exact State.releaseHeld_keeps hP (State.offerAs_keeps hP (State.addCounter_keeps hP (State.showCopies_keeps hP
      (State.setCore_keeps hP hS))))

theorem State.peerBegin_keeps {P} (hP : ClosedMem P) {s c o b spBad} (hS : P s) : P (State.peerBegin s c o b spBad) := by
  have hc := hP.toClosed
  unfold State.peerBegin
  dsimp only
  exact ok_ite (State.copyFault_keeps hc hS) (ok_ite (State.copyFault_keeps hc (okL_fst (ok_ite (State.peerWrite_keeps hc
      (okR_snd (okR_snd (State.outBytes_keeps hP hS)))) (State.peerRead_keeps hc hS)))) (okL_fst (ok_ite
      (State.peerWrite_keeps hc (okR_snd (okR_snd (State.outBytes_keeps hP hS)))) (State.peerRead_keeps hc hS))))

theorem State.beginBurst_keeps {P} (hP : ClosedMem P) {s c spBad o} (hS : P s) : P (State.beginBurst s c spBad o) := by
  have hc := hP.toClosed
  unfold State.beginBurst
  dsimp only
  split
  · rename_i x0 x1 x2
    exact ok_ite (State.peerBegin_keeps hP (State.setCore_keeps hc (State.mapCopy_keeps hc hS))) (State.setCore_keeps hc
        (State.mapCopy_keeps hc hS))
  · rename_i x0 x1
    exact State.setCore_keeps hc (State.mapCopy_keeps hc hS)

theorem State.serve_keeps {P} (hP : ClosedMem P) {s c spBad a} (hS : P s) : P (State.serve s c spBad a) := by
  have hc := hP.toClosed
  induction a generalizing s c spBad with
  | zero  =>
    unfold State.serve
    exact hS
  | succ x0 x1 =>
    unfold State.serve
    split
    · rename_i x2 x3
      exact hS
    · rename_i x2 x3 x4
      exact x1 (State.beginBurst_keeps hP hS)

theorem State.goOn_keeps {P} (hP : ClosedMem P) {s c spBad} (hS : P s) : P (State.goOn s c spBad) := by
  have hc := hP.toClosed
  unfold State.goOn
  exact State.serve_keeps hP hS

theorem execTcopy_keeps {P} (hP : ClosedMem P) {t core body spBad s} (hS : P s) : OkN P (execTcopy t core body spBad s) :=
    by
  have hc := hP.toClosed
  unfold execTcopy
  refine State.live_keeps hc hS (fun v0 h1 => (State.issue_keeps hc h1 (fun v2 v3 h4 => ?_)))
  dsimp only
  refine ok_ite (okO_none) (State.checked_keeps hc h4 ?_)
  split
  · rename_i x20 x21 x22
    exact okO_some (State.raise_keeps hc h4)
  · rename_i x20 x21
    exact ok_ite (okO_some (State.copyDone_keeps hc (State.showCopies_keeps hc (State.passWith_keeps hc h4)))) (okO_some
        (State.goOn_keeps hP (State.showCopies_keeps hc (State.passWith_keeps hc h4))))

theorem State.movePiece_keeps {P} (hP : ClosedMem P) {s core n found b} (hS : P s) : P (State.movePiece s core n found b) :=
    by
  have hc := hP.toClosed
  unfold State.movePiece
  split
  · rename_i x0 x1
    exact hS
  · rename_i x0 x1 x2
    dsimp only
    exact ok_ite (ok_ite (State.copyFault_keeps hc (State.engWrite_keeps hP (okR_snd (okR_snd (State.outBytes_keeps hP
        hS))))) (ok_ite (State.setPoison_keeps hP (State.engWrite_keeps hP (okR_snd (okR_snd (State.outBytes_keeps hP
        hS))))) (State.engWrite_keeps hP (okR_snd (okR_snd (State.outBytes_keeps hP hS)))))) (State.burstIn_keeps hP hS)

theorem State.copyLinesNow_keeps {P} (hP : ClosedMem P) {s core n only found} (hS : P s) : P (State.copyLinesNow s core n
    only found) := by
  have hc := hP.toClosed
  unfold State.copyLinesNow
  dsimp only
  split
  · rename_i x0 x1
    exact hS
  · rename_i x0 x1 x2
    exact State.goOn_keeps hP (State.mapCopy_keeps hc (Closed.upd hc (State.each_keeps hc hS (fun v3 v4 h5 =>
        (State.movePiece_keeps hP h5)))))

theorem State.moveAll_keeps {P} (hP : ClosedMem P) {s core n found a} (hS : P s) : P (State.moveAll s core n found a) := by
  have hc := hP.toClosed
  induction a generalizing s core n found with
  | zero  =>
    unfold State.moveAll
    exact hS
  | succ x0 x1 =>
    unfold State.moveAll
    exact x1 (State.copyLinesNow_keeps hP hS)

theorem execTcopyComplete_keeps {P} (hP : ClosedMem P) {t core k conflicts only found s} (hS : P s) : OkN P
    (execTcopyComplete t core k conflicts only found s) := by
  have hc := hP.toClosed
  unfold execTcopyComplete
  refine State.live_keeps hc hS (fun v0 h1 => ?_)
  split
  · rename_i x10 x11
    exact h1
  · rename_i x10 x11 x12
    dsimp only
    refine State.reads_keeps hP h1 (fun v13 h14 => ?_)
    split
    · rename_i x23 x24
      exact State.copyLinesNow_keeps hP (State.bumpWrap_keeps hc h14)
    · rename_i x23
      split
      · rename_i x24 x25 x26
        exact ok_ite (State.copyDone_keeps hc (State.pmcCore_keeps hc (State.moveAll_keeps hP (State.bumpWrap_keeps hc
            h14)))) (State.moveAll_keeps hP (State.bumpWrap_keeps hc h14))
      · rename_i x24 x25
        exact State.moveAll_keeps hP (State.bumpWrap_keeps hc h14)

theorem execCopyFault_keeps {P} (hP : Closed P) {t core k cause row va s} (hS : P s) : OkN P (execCopyFault t core k cause
    row va s) := by
  unfold execCopyFault
  refine State.live_keeps hP hS (fun v0 h1 => ?_)
  dsimp only
  split
  · rename_i x10 x11
    exact h1
  · rename_i x10 x11 x12
    exact ok_ite h1 (ok_ite (State.copyFault_keeps hP h1) h1)

/-! ### Sluice -/

theorem State.thrRecord_keeps {P} (hP : ClosedMem P) {s e cont} (hS : P s) : P (State.thrRecord s e cont) := by
  have hc := hP.toClosed
  unfold State.thrRecord
  dsimp only
  exact State.offer_keeps hc (State.ringRecord_keeps hP (ok_ite (Closed.upd hc hS) (Closed.upd hc hS)))

theorem State.openEvent_keeps {P} (hP : Closed P) {s reason polder w count detail act} (hS : P s) : P (State.openEvent s
    reason polder w count detail act) := by
  unfold State.openEvent
  refine ok_ite (Closed.upd hP hS) ?_
  dsimp only
  exact Closed.upd hP hS

theorem State.endAct_keeps {P} (hP : Closed P) {s reason polder} (hS : P s) : P (State.endAct s reason polder) := by
  unfold State.endAct
  exact Closed.upd hP hS

theorem State.closeEvents_keeps {P} (hP : ClosedMem P) {s} (hS : P s) : P (State.closeEvents s) := by
  have hc := hP.toClosed
  unfold State.closeEvents
  refine State.each_keeps hc hS (fun v0 v1 h2 => ?_)
  split
  · rename_i x10 x11
    exact h2
  · rename_i x10 x11 x12
    exact ok_ite h2 (State.thrRecord_keeps hP (Closed.upd hc h2))

theorem execThrottleCont_keeps {P} (hP : ClosedMem P) {t s} (hS : P s) : OkN P (execThrottleCont t s) := by
  have hc := hP.toClosed
  unfold execThrottleCont
  refine State.live_keeps hc hS (fun v0 h1 => (State.each_keeps hc h1 (fun v2 v3 h4 => ?_)))
  split
  · rename_i x10 x11
    exact h4
  · rename_i x10 x11 x12
    exact State.thrRecord_keeps hP (Closed.upd hc h4)

theorem State.setReserv_keeps {P} (hP : Closed P) {s r} (hS : P s) : P (State.setReserv s r) := by
  unfold State.setReserv
  exact Closed.upd hP hS

theorem State.hintOn_keeps {P} (hP : Closed P) {s h p} (hS : P s) : P (State.hintOn s h p) := by
  unfold State.hintOn
  dsimp only
  split
  · rename_i x0 x1 x2
    exact State.setReserv_keeps hP hS
  · rename_i x0 x1
    exact ok_ite (State.bump_keeps hP hS) (Closed.upd hP hS)

theorem State.tryGrant_keeps {P} (hP : ClosedMem P) {s r} (hS : P s) : P (State.tryGrant s r) := by
  have hc := hP.toClosed
  unfold State.tryGrant
  dsimp only
  split
  · rename_i x0 x1
    exact State.closeEvents_keeps hP (State.setReserv_keeps hc hS)
  · rename_i x0 x1 x2
    exact State.openEvent_keeps hc (State.setReserv_keeps hc hS)

theorem execReservationGrant_keeps {P} (hP : ClosedMem P) {t k s} (hS : P s) : OkN P (execReservationGrant t k s) := by
  have hc := hP.toClosed
  unfold execReservationGrant
  refine State.live_keeps hc hS (fun v0 h1 => ?_)
  split
  · rename_i x10 x11
    exact h1
  · rename_i x10 x11 x12
    exact ok_ite (State.tryGrant_keeps hP h1) h1

theorem State.windowEnds_keeps {P} (hP : Closed P) {s r} (hS : P s) : P (State.windowEnds s r) := by
  unfold State.windowEnds
  exact ok_ite (State.setReserv_keeps hP hS) (Closed.upd hP hS)

theorem execReservationEnd_keeps {P} (hP : ClosedMem P) {t k s} (hS : P s) : OkN P (execReservationEnd t k s) := by
  have hc := hP.toClosed
  unfold execReservationEnd
  refine State.live_keeps hc hS (fun v0 h1 => ?_)
  split
  · rename_i x10 x11
    exact h1
  · rename_i x10 x11 x12
    exact ok_ite (State.closeEvents_keeps hP (State.windowEnds_keeps hc h1)) h1

theorem State.moveClaims_keeps {P} (hP : Closed P) {s cs back} (hS : P s) : P (State.moveClaims s cs back) := by
  unfold State.moveClaims
  exact Closed.upd hP hS

theorem State.shrink_keeps {P} (hP : Closed P) {s a z2} (hS : P s) : P (State.shrink s a z2) := by
  induction a generalizing s z2 with
  | nil  =>
    unfold State.shrink
    exact hS
  | cons x0 x1 x2 =>
    unfold State.shrink
    dsimp only
    exact ok_ite (x2 hS) (x2 (State.openEvent_keeps hP (State.setReserv_keeps hP hS)))

theorem State.takeOver_keeps {P} (hP : Closed P) {s l p add} (hS : P s) : P (State.takeOver s l p add) := by
  unfold State.takeOver
  dsimp only
  exact State.shrink_keeps hP hS

theorem State.takePkg_keeps {P} (hP : Closed P) {s l adds} (hS : P s) : P (State.takePkg s l adds) := by
  unfold State.takePkg
  dsimp only
  exact State.shrink_keeps hP hS

theorem State.admitLaunch_keeps {P} (hP : Closed P) {s l} (hS : P s) : OkR (OkR P) (State.admitLaunch s l) := by
  unfold State.admitLaunch
  dsimp only
  exact okR_mk (okR_mk (Closed.upd hP (State.moveClaims_keeps hP (State.takePkg_keeps hP (State.each_keeps hP hS (fun v0 v1
      h2 => (State.takeOver_keeps hP h2)))))))

theorem State.gateDuty_keeps {P} (hP : Closed P) {s die n} (hS : P s) : P (State.gateDuty s die n) := by
  unfold State.gateDuty
  dsimp only
  exact ok_ite (State.each_keeps hP (State.wr_keeps hP hS) (fun v0 v1 h2 => (State.stopRecirc_keeps hP h2))) (State.wr_keeps
      hP hS)

theorem State.stepRamp_keeps {P} (hP : Closed P) {s l} (hS : P s) : P (State.stepRamp s l) := by
  unfold State.stepRamp
  refine State.each_keeps hP hS (fun v0 v1 h2 => (ok_ite ?_ h2))
  dsimp only
  exact Closed.upd hP (State.gateDuty_keeps hP h2)

theorem State.refuseLaunch_keeps {P} (hP : Closed P) {s q l w} (hS : P s) : P (State.refuseLaunch s q l w) := by
  unfold State.refuseLaunch
  dsimp only
  exact State.openEvent_keeps hP (State.setQueue_keeps hP (ok_ite (State.pmcHub_keeps hP hS) hS))

theorem State.holdLaunch_keeps {P} (hP : Closed P) {s q b} (hS : P s) : P (State.holdLaunch s q b) := by
  unfold State.holdLaunch
  split
  · rename_i x0 x1
    exact hS
  · rename_i x0 x1 x2
    dsimp only
    exact ok_ite hS (State.openEvent_keeps hP (State.setQueue_keeps hP hS))

theorem execStarve_keeps {P} (hP : Closed P) {t q s} (hS : P s) : OkN P (execStarve t q s) := by
  unfold execStarve
  refine State.live_keeps hP hS (fun v0 h1 => ?_)
  split
  · rename_i x10 x11 x12
    dsimp only
    exact ok_ite (State.setQueue_keeps hP h1) h1
  · rename_i x10 x11
    exact h1

theorem execHint_keeps {P} (hP : Closed P) {t core body s} (hS : P s) : OkN P (execHint t core body s) := by
  unfold execHint
  refine State.live_keeps hP hS (fun v0 h1 => (State.issue_keeps hP h1 (fun v2 v3 h4 => ?_)))
  dsimp only
  exact State.checked_keeps hP h4 (okO_some (ok_ite (State.bump_keeps hP (State.passPc_keeps hP h4)) (State.offerCore_keeps
      hP (State.hintOn_keeps hP (State.passWith_keeps hP h4)))))

/-! ### Launch -/

theorem State.startHead_keeps {P} (hP : Closed P) {s q f exts} (hS : P s) : P (State.startHead s q f exts) := by
  unfold State.startHead
  dsimp only
  exact State.setQueue_keeps hP (State.traceStart_keeps hP (State.start_keeps hP hS))

theorem State.leaveChoice_keeps {P} (hP : ClosedMem P) {s} (hS : P s) : P (State.leaveChoice s) := by
  have hc := hP.toClosed
  unfold State.leaveChoice
  refine State.closeEvents_keeps hP (State.each_keeps hc hS (fun v0 v1 h2 => ?_))
  dsimp only
  exact ok_ite (State.setQueue_keeps hc h2) h2

theorem State.newRound_keeps {P} (hP : Closed P) {s cls} (hS : P s) : P (State.newRound s cls) := by
  unfold State.newRound
  exact ok_ite hS (State.each_keeps hP hS (fun v0 v1 h2 => (State.setQueue_keeps hP h2)))

theorem State.passPtr_keeps {P} (hP : Closed P) {s q} (hS : P s) : P (State.passPtr s q) := by
  unfold State.passPtr
  dsimp only
  exact ok_ite (Closed.upd hP hS) hS

theorem State.choose_keeps {P} (hP : ClosedMem P) {s q} (hS : P s) : P (State.choose s q) := by
  have hc := hP.toClosed
  unfold State.choose
  dsimp only
  exact State.closeEvents_keeps hP (State.setQueue_keeps hc (State.passPtr_keeps hc hS))

theorem State.tryQueue_keeps {P} (hP : ClosedMem P) {s q} (hS : P s) : OkR P (State.tryQueue s q) := by
  have hc := hP.toClosed
  unfold State.tryQueue
  split
  · rename_i x0 x1
    exact okR_mk hS
  · rename_i x0 x1 x2 x3
    dsimp only
    refine ok_ite (okR_mk (State.failHead_keeps hP (State.passPtr_keeps hc hS))) (ok_ite (ok_ite (okR_mk hS) ?_) (okR_mk
        (State.choose_keeps hP hS)))
    split
    · rename_i x14 x15 x16
      exact okR_mk (State.holdLaunch_keeps hc hS)
    · rename_i x14 x15
      split
      · rename_i x16 x17 x18
        exact okR_mk (State.closeEvents_keeps hP (State.refuseLaunch_keeps hc hS))
      · rename_i x16 x17
        exact okR_mk (State.choose_keeps hP hS)

theorem State.tryQueues_keeps {P} (hP : ClosedMem P) {s a} (hS : P s) : P (State.tryQueues s a) := by
  have hc := hP.toClosed
  induction a generalizing s with
  | nil  =>
    unfold State.tryQueues
    exact hS
  | cons x0 x1 x2 =>
    unfold State.tryQueues
    split
    · rename_i x3 x4 x5
      exact okR_snd (ok_eq x5 (State.tryQueue_keeps hP hS))
    · rename_i x3 x4 x5
      exact x2 (okR_snd (ok_eq x5 (State.tryQueue_keeps hP hS)))

theorem execSluiceChoice_keeps {P} (hP : ClosedMem P) {t s} (hS : P s) : OkN P (execSluiceChoice t s) := by
  have hc := hP.toClosed
  unfold execSluiceChoice
  refine State.live_keeps hc hS (fun v0 h1 => (ok_ite h1 ?_))
  dsimp only
  exact State.tryQueues_keeps hP (State.leaveChoice_keeps hP (State.each_keeps hc h1 (fun v10 v11 h12 =>
      (State.newRound_keeps hc h12))))

theorem State.walkFails_keeps {P} (hP : ClosedMem P) {s q kind level va} (hS : P s) : P (State.walkFails s q kind level va)
    := by
  have hc := hP.toClosed
  unfold State.walkFails
  dsimp only
  exact ok_ite hS (State.parkXlate_keeps hP hS)

theorem State.walkEntries_keeps {P} (hP : ClosedMem P) {s q a z3} (hS : P s) : OkR P (State.walkEntries s q a z3) := by
  have hc := hP.toClosed
  induction a generalizing s q z3 with
  | nil  =>
    unfold State.walkEntries
    exact okR_mk hS
  | cons x0 x1 x2 =>
    unfold State.walkEntries
    split
    · rename_i x3 x4 x5 x6 x7 x8
      exact okR_mk (okR_snd (ok_eq x8 (State.translate_keeps hP hS)))
    · rename_i x3 x4 x5 x6
      exact okR_mk (okR_snd (ok_eq x6 (State.translate_keeps hP hS)))
    · rename_i x3 x4 x5 x6
      exact x2 (okR_snd (ok_eq x6 (State.translate_keeps hP hS)))
    · rename_i x3 x4 x5 x6 x7
      exact okR_mk (okR_snd (ok_eq x7 (State.translate_keeps hP hS)))

theorem State.readList_keeps {P} (hP : ClosedMem P) {s exts va n} (hS : P s) : OkR (OkR P) (State.readList s exts va n) :=
    by
  have hc := hP.toClosed
  unfold State.readList
  dsimp only
  exact ok_foldl (fun v0 v1 h2 => (okR_mk (okR_mk (okR_snd (okR_snd (State.engWords_keeps hP (okR_snd (okR_snd h2)))))))) _
      _ (okR_mk (okR_mk hS))

theorem State.prepLaunch_keeps {P} (hP : ClosedMem P) {s q w} (hS : P s) : OkR P (State.prepLaunch s q w) := by
  have hc := hP.toClosed
  unfold State.prepLaunch
  dsimp only
  split
  · rename_i x0 x1 x2 x3 x4 x5
    exact okR_mk (okR_snd (ok_eq x5 (State.translate_keeps hP hS)))
  · rename_i x0 x1 x2 x3
    exact okR_mk (okR_snd (ok_eq x3 (State.translate_keeps hP hS)))
  · rename_i x0 x1 x2 x3
    split
    · rename_i x4 x5 x6
      exact okR_mk (okR_snd (ok_eq x3 (State.translate_keeps hP hS)))
    · rename_i x4 x5
      refine ok_ite (okR_mk (okR_snd (okR_snd (State.readList_keeps hP (okR_snd (ok_eq x3 (State.translate_keeps hP
          hS))))))) ?_
      split
      · rename_i x16 x17 x18
        exact State.walkEntries_keeps hP (okR_snd (okR_snd (State.readList_keeps hP (okR_snd (ok_eq x3
            (State.translate_keeps hP hS))))))
      · rename_i x16 x17 x18 x19 x20
        exact okR_mk (okR_snd (okR_snd (State.readList_keeps hP (okR_snd (ok_eq x3 (State.translate_keeps hP hS))))))

theorem State.launchStart_keeps {P} (hP : ClosedMem P) {s q f} (hS : P s) : P (State.launchStart s q f) := by
  have hc := hP.toClosed
  unfold State.launchStart
  split
  · rename_i x0 x1 x2
    exact State.failHead_keeps hP hS
  · rename_i x0 x1
    dsimp only
    split
    · rename_i x2 x3 x4 x5 x6 x7
      exact State.walkFails_keeps hP (okR_snd (ok_eq x7 (State.prepLaunch_keeps hP hS)))
    · rename_i x2 x3 x4 x5 x6
      exact State.failHead_keeps hP (okR_snd (ok_eq x6 (State.prepLaunch_keeps hP hS)))
    · rename_i x2 x3 x4 x5
      refine ok_ite (State.setQueue_keeps hc (okR_snd (ok_eq x5 (State.prepLaunch_keeps hP hS)))) ?_
      split
      · rename_i x16 x17 x18
        exact State.setQueue_keeps hc (State.refuseLaunch_keeps hc (okR_snd (ok_eq x5 (State.prepLaunch_keeps hP hS))))
      · rename_i x16 x17
        refine State.closeEvents_keeps hP (State.passHead_keeps hP ?_)
        split
        · rename_i x28 x29 x30
          exact State.setFlight_keeps hc (State.startHead_keeps hc (okR_snd (okR_snd (State.admitLaunch_keeps hc
              (State.stepRamp_keeps hc (okR_snd (ok_eq x5 (State.prepLaunch_keeps hP hS))))))))
        · rename_i x28 x29
          exact State.startHead_keeps hc (okR_snd (okR_snd (State.admitLaunch_keeps hc (State.stepRamp_keeps hc (okR_snd
              (ok_eq x5 (State.prepLaunch_keeps hP hS)))))))

theorem execLaunch_keeps {P} (hP : ClosedMem P) {t q i found s} (hS : P s) : OkN P (execLaunch t q i found s) := by
  have hc := hP.toClosed
  unfold execLaunch
  refine State.live_keeps hc hS (fun v0 h1 => ?_)
  split
  · rename_i x10 x11
    exact h1
  · rename_i x10 x11 x12
    exact ok_ite (State.reads_keeps hP h1 (fun v13 h14 => (State.headWalk_keeps hc h14 (fun v15 h16 =>
        (State.launchStart_keeps hP h16))))) h1

theorem State.banksAtStart_keeps {P} (hP : Closed P) {s k ctx} (hS : P s) : OkR P (State.banksAtStart s k ctx) := by
  unfold State.banksAtStart
  dsimp only
  exact ok_ite (okR_mk hS) (okR_mk (okR_snd (State.free_keeps hP hS)))

theorem State.loadFails_keeps {P} (hP : Closed P) {s c va} (hS : P s) : P (State.loadFails s c va) := by
  unfold State.loadFails
  dsimp only
  exact State.setCore_keeps hP hS

theorem State.askBurst_keeps {P} (hP : Closed P) {s c l b} (hS : P s) : P (State.askBurst s c l b) := by
  unfold State.askBurst
  dsimp only
  exact ok_ite (State.loadFails_keeps hP (State.setCore_keeps hP hS)) (ok_ite (State.loadFails_keeps hP (okL_fst
      (State.peerRead_keeps hP (State.setCore_keeps hP hS)))) (okL_fst (State.peerRead_keeps hP (State.setCore_keeps hP
      hS))))

theorem State.askLoads_keeps {P} (hP : Closed P) {s c a} (hS : P s) : P (State.askLoads s c a) := by
  induction a generalizing s c with
  | zero  =>
    unfold State.askLoads
    exact hS
  | succ x0 x1 =>
    unfold State.askLoads
    dsimp only
    split
    · rename_i x2 x3
      exact hS
    · rename_i x2 x3 x4
      split
      · rename_i x5 x6
        exact hS
      · rename_i x5 x6 x7
        exact ok_ite (x1 (State.askBurst_keeps hP hS)) hS

theorem State.startLoad_keeps {P} (hP : Closed P) {s c} (hS : P s) : P (State.startLoad s c) := by
  unfold State.startLoad
  exact State.askLoads_keeps hP (State.recallReqs_keeps hP hS)

theorem State.beginCore_keeps {P} (hP : Closed P) {s x e} (hS : P s) : P (State.beginCore s x e) := by
  unfold State.beginCore
  dsimp only
  exact State.startLoad_keeps hP (State.offerCore_keeps hP (State.wr_keeps hP (State.setReg_keeps hP (State.setReg_keeps hP
      (State.setReg_keeps hP (State.setReg_keeps hP (State.setReg_keeps hP (State.wr_keeps hP (State.wr_keeps hP
      (State.setCore_keeps hP (okR_snd (State.banksAtStart_keeps hP hS))))))))))))

theorem State.endClaims_keeps {P} (hP : Closed P) {s x} (hS : P s) : P (State.endClaims s x) := by
  unfold State.endClaims
  exact State.moveClaims_keeps hP hS

theorem execLaunchDispatch_keeps {P} (hP : Closed P) {t q i s} (hS : P s) : OkN P (execLaunchDispatch t q i s) := by
  unfold execLaunchDispatch
  refine State.live_keeps hP hS (fun v0 h1 => ?_)
  split
  · rename_i x10 x11
    exact h1
  · rename_i x10 x11 x12
    dsimp only
    refine ok_ite h1 ?_
    split
    · rename_i x23 x24 x25
      exact State.finish_keeps hP (State.endClaims_keeps hP h1)
    · rename_i x23 x24
      exact ok_ite (State.each_keeps hP (State.setFlight_keeps hP h1) (fun v25 v26 h27 => (State.beginCore_keeps hP h27)))
          h1

theorem State.loadWords_keeps {P} (hP : ClosedMem P) {s c l va n} (hS : P s) : OkR (OkR P) (State.loadWords s c l va n) :=
    by
  have hc := hP.toClosed
  unfold State.loadWords
  refine ok_foldl (fun v0 v1 h2 => ?_) _ _ (okR_mk (okR_mk hS))
  dsimp only
  split
  · rename_i x10 x11
    exact okR_mk (okR_mk (okR_snd (okR_snd h2)))
  · rename_i x10 x11 x12
    exact ok_ite (okR_mk (okR_snd h2)) (ok_ite (okR_mk (okR_mk (okR_snd (okR_snd (State.engWords_keeps hP (okR_snd (okR_snd
        h2))))))) (okR_mk (okR_mk (okR_snd (okR_snd h2)))))

theorem State.storeProgram_keeps {P} (hP : Closed P) {s c l w} (hS : P s) : P (State.storeProgram s c l w) := by
  unfold State.storeProgram
  dsimp only
  exact State.setReg_keeps hP (State.setReg_keeps hP (State.setCore_keeps hP hS))

theorem State.loadCore_keeps {P} (hP : ClosedMem P) {s c l} (hS : P s) : P (State.loadCore s c l) := by
  have hc := hP.toClosed
  unfold State.loadCore
  dsimp only
  split
  · rename_i x0 x1 x2 x3
    exact State.setCore_keeps hc (ok_ite (okR_snd (okR_snd (ok_ite (okR_mk (okR_mk (okR_snd (okR_snd (ok_ite (okR_mk (okR_mk
        hS)) (State.loadWords_keeps hP hS)))))) (State.loadWords_keeps hP (okR_snd (okR_snd (ok_ite (okR_mk (okR_mk hS))
        (State.loadWords_keeps hP hS)))))))) (State.storeProgram_keeps hc (okR_snd (okR_snd (ok_ite (okR_mk (okR_mk (okR_snd
        (okR_snd (ok_ite (okR_mk (okR_mk hS)) (State.loadWords_keeps hP hS)))))) (State.loadWords_keeps hP (okR_snd (okR_snd
        (ok_ite (okR_mk (okR_mk hS)) (State.loadWords_keeps hP hS))))))))))
  · rename_i x0 x1 x2 x3
    exact State.raise_keeps hc (okR_snd (okR_snd (ok_ite (okR_mk (okR_mk (okR_snd (okR_snd (ok_ite (okR_mk (okR_mk hS))
        (State.loadWords_keeps hP hS)))))) (State.loadWords_keeps hP (okR_snd (okR_snd (ok_ite (okR_mk (okR_mk hS))
        (State.loadWords_keeps hP hS))))))))
  · rename_i x0 x1 x2 x3 x4
    exact State.raise_keeps hc (okR_snd (okR_snd (ok_ite (okR_mk (okR_mk (okR_snd (okR_snd (ok_ite (okR_mk (okR_mk hS))
        (State.loadWords_keeps hP hS)))))) (State.loadWords_keeps hP (okR_snd (okR_snd (ok_ite (okR_mk (okR_mk hS))
        (State.loadWords_keeps hP hS))))))))

theorem execProgramLoadDone_keeps {P} (hP : ClosedMem P) {t core found s} (hS : P s) : OkN P (execProgramLoadDone t core
    found s) := by
  have hc := hP.toClosed
  unfold execProgramLoadDone
  refine State.live_keeps hc hS (fun v0 h1 => ?_)
  dsimp only
  split
  · rename_i x10 x11
    exact h1
  · rename_i x10 x11 x12
    exact ok_ite h1 (State.reads_keeps hP h1 (fun v13 h14 => (State.loadCore_keeps hP h14)))

theorem State.finishLaunch_keeps {P} (hP : Closed P) {s x} (hS : P s) : P (State.finishLaunch s x) := by
  unfold State.finishLaunch
  dsimp only
  split
  · rename_i x0 x1
    exact State.finish_keeps hP (State.endClaims_keeps hP hS)
  · rename_i x0 x1 x2
    exact ok_ite (State.finish_keeps hP (State.endClaims_keeps hP hS)) (State.finish_keeps hP (State.endClaims_keeps hP hS))

theorem execLaunchComplete_keeps {P} (hP : Closed P) {t q i s} (hS : P s) : OkN P (execLaunchComplete t q i s) := by
  unfold execLaunchComplete
  refine State.live_keeps hP hS (fun v0 h1 => ?_)
  split
  · rename_i x10 x11
    exact h1
  · rename_i x10 x11 x12
    exact ok_ite (State.finishLaunch_keeps hP h1) h1

end Sys2Proof.Machine
end

