-- ==== Sys2Proof/Laws/KeepsFabric.lean ====
section
/-! SUPPORT. What survives the gradient reduction, the commands of a queue, power, links and saves. -/

namespace Sys2Proof.Machine

/-! ### Cascade -/

theorem State.readMembers_keeps {P} (hP : ClosedMem P) {s n} (hS : P s) : OkR P (State.readMembers s n) := by
  have hc := hP.toClosed
  unfold State.readMembers
  dsimp only
  exact ok_ite (okR_mk (okR_snd (okR_snd (State.engWords_keeps hP hS)))) (okR_mk hS)

theorem State.epochRefused_keeps {P} (hP : Closed P) {s n cause} (hS : P s) : P (State.epochRefused s n cause) := by
  unfold State.epochRefused
  exact State.setReg_keeps hP hS

theorem State.checkEpoch_keeps {P} (hP : ClosedMem P) {s n} (hS : P s) : P (State.checkEpoch s n) := by
  have hc := hP.toClosed
  unfold State.checkEpoch
  split
  · rename_i x0 x1 x2
    exact State.epochRefused_keeps hc (okR_snd (ok_eq x2 (State.readMembers_keeps hP hS)))
  · rename_i x0 x1 x2 x3 x4
    dsimp only
    refine ok_ite (State.epochRefused_keeps hc (okR_snd (ok_eq x4 (State.readMembers_keeps hP hS)))) (ok_ite
        (State.epochRefused_keeps hc (okR_snd (ok_eq x4 (State.readMembers_keeps hP hS)))) ?_)
    split
    · rename_i x15 x16
      exact State.epochRefused_keeps hc (okR_snd (ok_eq x4 (State.readMembers_keeps hP hS)))
    · rename_i x15 x16 x17
      exact Closed.upd hc (State.setReg_keeps hc (okR_snd (ok_eq x4 (State.readMembers_keeps hP hS))))

theorem State.useEpoch_keeps {P} (hP : Closed P) {s agent n} (hS : P s) : P (State.useEpoch s agent n) := by
  unfold State.useEpoch
  dsimp only
  exact ok_ite (Closed.upd hP (State.setReg_keeps hP (Closed.upd hP hS))) (State.setReg_keeps hP (Closed.upd hP hS))

theorem State.epochStore_keeps {P} (hP : Closed P) {s agent n v} (hS : P s) : P (State.epochStore s agent n v) := by
  unfold State.epochStore
  dsimp only
  exact ok_ite (State.storeReg_keeps hP hS) (State.useEpoch_keeps hP (State.storeReg_keeps hP hS))

theorem State.setBucket_keeps {P} (hP : Closed P) {s b} (hS : P s) : P (State.setBucket s b) := by
  unfold State.setBucket
  exact Closed.upd hP hS

theorem State.ceRead_keeps {P} (hP : ClosedMem P) {s b va} (hS : P s) : OkR (OkR P) (State.ceRead s b va) := by
  have hc := hP.toClosed
  unfold State.ceRead
  exact State.engLine_keeps hP hS

theorem State.ceWrite_keeps {P} (hP : ClosedMem P) {s b va mask d} (hS : P s) : P (State.ceWrite s b va mask d) := by
  have hc := hP.toClosed
  unfold State.ceWrite
  dsimp only
  exact State.engStore_keeps hP hS

theorem State.ceAdd_keeps {P} (hP : ClosedMem P) {s b va mask d} (hS : P s) : P (State.ceAdd s b va mask d) := by
  have hc := hP.toClosed
  unfold State.ceAdd
  exact okR_snd (State.mopLine_keeps hP hS)

theorem State.sourceUnit_keeps {P} (hP : ClosedMem P) {s b x j u} (hS : P s) : OkR (OkR P) (State.sourceUnit s b x j u) :=
    by
  have hc := hP.toClosed
  unfold State.sourceUnit
  dsimp only
  exact okR_mk (okR_mk (okR_snd (okR_snd (State.ceRead_keeps hP hS))))

theorem State.putPart_keeps {P} (hP : ClosedMem P) {s b x u d bad} (hS : P s) : P (State.putPart s b x u d bad) := by
  have hc := hP.toClosed
  unfold State.putPart
  exact ok_ite (State.engPoison_keeps hP hS) (State.ceWrite_keeps hP hS)

theorem State.foldSources_keeps {P} (hP : ClosedMem P) {s b x u} (hS : P s) : P (State.foldSources s b x u) := by
  unfold State.foldSources
  split
  rename_i e0
  refine ok_foldl ?_ _ _ (State.putPart_keeps hP (okR_snd (okR_snd (ok_eq e0 (State.sourceUnit_keeps hP hS)))))
  intro v2 v3 h4
  split
  rename_i e5
  have h6 : P _ := okR_snd (okR_snd (ok_eq e5 (State.sourceUnit_keeps hP h4)))
  exact ok_ite (State.engPoison_keeps hP h6) (State.ceAdd_keeps hP h6)

theorem State.ceSend_keeps {P} (hP : Closed P) {s b pos lvl code first data} (hS : P s) : P (State.ceSend s b pos lvl code
    first data) := by
  unfold State.ceSend
  dsimp only
  split
  · rename_i x0 x1 x2
    exact State.bumpWrap_keeps hP (okO_eq x2 (ok_ite (State.sendReq_keeps hP hS) (okO_none)))
  · rename_i x0 x1
    exact State.setBucket_keeps hP (State.bump_keeps hP hS)

theorem State.noteUnit_keeps {P} (hP : Closed P) {s b lvl pos u} (hS : P s) : P (State.noteUnit s b lvl pos u) := by
  unfold State.noteUnit
  dsimp only
  exact State.setBucket_keeps hP hS

theorem State.sendLevel1_keeps {P} (hP : ClosedMem P) {s b x u} (hS : P s) : P (State.sendLevel1 s b x u) := by
  have hc := hP.toClosed
  unfold State.sendLevel1
  split
  · rename_i x0 x1 x2 x3 x4
    dsimp only
    exact ok_ite (okR_snd (okR_snd (ok_eq x4 (State.ceRead_keeps hP hS)))) (ok_ite (State.noteUnit_keeps hc
        (State.ceWrite_keeps hP (okR_snd (okR_snd (ok_eq x4 (State.ceRead_keeps hP hS)))))) (State.ceSend_keeps hc (okR_snd
        (okR_snd (ok_eq x4 (State.ceRead_keeps hP hS))))))

theorem State.sendLevel2_keeps {P} (hP : ClosedMem P) {s b x u} (hS : P s) : P (State.sendLevel2 s b x u) := by
  have hc := hP.toClosed
  unfold State.sendLevel2
  split
  · rename_i x0 x1 x2 x3 x4
    dsimp only
    exact ok_ite (okR_snd (okR_snd (ok_eq x4 (State.ceRead_keeps hP hS)))) (ok_ite (State.noteUnit_keeps hc
        (State.ceWrite_keeps hP (okR_snd (okR_snd (ok_eq x4 (State.ceRead_keeps hP hS)))))) (State.ceSend_keeps hc (okR_snd
        (okR_snd (ok_eq x4 (State.ceRead_keeps hP hS))))))

theorem State.foldSlots_keeps {P} (hP : ClosedMem P) {s b x u n slot} (hS : P s) : P (State.foldSlots s b x u n slot) := by
  have hc := hP.toClosed
  unfold State.foldSlots
  dsimp only
  exact ok_foldl (fun v0 v1 h2 => (ok_ite (State.engPoison_keeps hP (okR_snd (okR_snd (State.ceRead_keeps hP h2))))
      (State.ceAdd_keeps hP (okR_snd (okR_snd (State.ceRead_keeps hP h2)))))) _ _ (State.putPart_keeps hP (okR_snd (okR_snd
      (State.ceRead_keeps hP hS))))

theorem State.addCells_keeps {P} (hP : ClosedMem P) {s b x f u codes} (hS : P s) : OkR P (State.addCells s b x f u codes) :=
    by
  have hc := hP.toClosed
  unfold State.addCells
  dsimp only
  exact ok_foldl (fun v0 v1 h2 => (okR_mk (okR_snd (State.eaCell_keeps hP (okR_snd h2))))) _ _ (okR_mk (State.countMop_keeps
      hc hS))

theorem State.contribute_keeps {P} (hP : ClosedMem P) {s b x f u codes} (hS : P s) : P (State.contribute s b x f u codes) :=
    by
  have hc := hP.toClosed
  unfold State.contribute
  dsimp only
  exact ok_ite (ok_ite (State.setBucket_keeps hc (okR_snd (State.addCells_keeps hP hS))) (okR_snd (State.addCells_keeps hP
      hS))) (State.ceSend_keeps hc hS)

theorem State.sourceCodes_keeps {P} (hP : ClosedMem P) {s b x j u} (hS : P s) : OkR (OkR P) (State.sourceCodes s b x j u) :=
    by
  have hc := hP.toClosed
  unfold State.sourceCodes
  dsimp only
  exact okR_mk (okR_mk (okR_snd (okR_snd (State.ceRead_keeps hP hS))))

theorem State.zeroCells_keeps {P} (hP : ClosedMem P) {s b x} (hS : P s) : P (State.zeroCells s b x) := by
  have hc := hP.toClosed
  unfold State.zeroCells
  exact State.each_keeps hc hS (fun v0 v1 h2 => (State.each_keeps hc h2 (fun v3 v4 h5 => (State.ceWrite_keeps hP h5))))

theorem State.sendDones_keeps {P} (hP : Closed P) {s b x} (hS : P s) : P (State.sendDones s b x) := by
  unfold State.sendDones
  refine State.each_keeps hP hS (fun v0 v1 h2 => ?_)
  dsimp only
  exact ok_ite h2 (ok_ite (State.setBucket_keeps hP h2) (State.ceSend_keeps hP (State.setBucket_keeps hP h2)))

theorem State.settleUnit_keeps {P} (hP : ClosedMem P) {s b x u} (hS : P s) : P (State.settleUnit s b x u) := by
  have hc := hP.toClosed
  unfold State.settleUnit
  dsimp only
  exact ok_ite (State.setPoison_keeps hP (State.ceWrite_keeps hP (okR_snd (okR_snd (ok_foldl (fun v0 v1 h2 => (okR_mk
      (okR_mk (okR_snd (okR_snd (State.settleCell_keeps hP (okR_snd (okR_snd h2)))))))) _ _ (okR_mk (okR_mk
      (State.countMop_keeps hc hS)))))))) (State.ceWrite_keeps hP (okR_snd (okR_snd (ok_foldl (fun v0 v1 h2 => (okR_mk
      (okR_mk (okR_snd (okR_snd (State.settleCell_keeps hP (okR_snd (okR_snd h2)))))))) _ _ (okR_mk (okR_mk
      (State.countMop_keeps hc hS)))))))

theorem State.unitIn_keeps {P} (hP : ClosedMem P) {s b x u sum} (hS : P s) : OkR P (State.unitIn s b x u sum) := by
  have hc := hP.toClosed
  unfold State.unitIn
  dsimp only
  exact okR_mk (okR_snd (okR_snd (ok_ite (okR_mk (okR_mk (okR_snd (okR_snd (ok_ite (State.ceRead_keeps hP (okR_snd (okR_snd
      (ok_ite (State.ceRead_keeps hP hS) (okR_mk (okR_mk hS)))))) (okR_mk (okR_mk (okR_snd (okR_snd (ok_ite
      (State.ceRead_keeps hP hS) (okR_mk (okR_mk hS)))))))))))) (ok_ite (State.ceRead_keeps hP (okR_snd (okR_snd (ok_ite
      (State.ceRead_keeps hP (okR_snd (okR_snd (ok_ite (State.ceRead_keeps hP hS) (okR_mk (okR_mk hS)))))) (okR_mk (okR_mk
      (okR_snd (okR_snd (ok_ite (State.ceRead_keeps hP hS) (okR_mk (okR_mk hS))))))))))) (State.ceRead_keeps hP (okR_snd
      (okR_snd (ok_ite (State.ceRead_keeps hP (okR_snd (okR_snd (ok_ite (State.ceRead_keeps hP hS) (okR_mk (okR_mk hS))))))
      (okR_mk (okR_mk (okR_snd (okR_snd (ok_ite (State.ceRead_keeps hP hS) (okR_mk (okR_mk hS)))))))))))))))

theorem State.updateUnit_keeps {P} (hP : ClosedMem P) {s b x u i} (hS : P s) : P (State.updateUnit s b x u i) := by
  have hc := hP.toClosed
  unfold State.updateUnit
  dsimp only
  exact State.ceWrite_keeps hP (ok_ite (State.ceWrite_keeps hP (ok_ite (State.ceWrite_keeps hP (ok_ite (State.ceWrite_keeps
      hP hS) hS)) (ok_ite (State.ceWrite_keeps hP hS) hS))) (ok_ite (State.ceWrite_keeps hP (ok_ite (State.ceWrite_keeps hP
      hS) hS)) (ok_ite (State.ceWrite_keeps hP hS) hS)))

theorem State.gatherWords_keeps {P} (hP : ClosedMem P) {s b x u} (hS : P s) : OkR P (State.gatherWords s b x u) := by
  have hc := hP.toClosed
  unfold State.gatherWords
  refine ok_ite ?_ (okR_mk hS)
  dsimp only
  split
  · rename_i x10 x11 x12
    exact okR_mk hS
  · rename_i x10 x11
    exact okR_mk (okR_snd (okR_snd (State.ceRead_keeps hP hS)))

theorem State.placeParam_keeps {P} (hP : ClosedMem P) {s b x u d} (hS : P s) : P (State.placeParam s b x u d) := by
  have hc := hP.toClosed
  unfold State.placeParam
  dsimp only
  refine ok_ite (State.ceWrite_keeps hP hS) ?_
  split
  · rename_i x10 x11
    exact State.setBucket_keeps hc hS
  · rename_i x10 x11 x12
    exact State.ceWrite_keeps hP (State.setBucket_keeps hc hS)

theorem State.placeUnit_keeps {P} (hP : ClosedMem P) {s b x u w} (hS : P s) : P (State.placeUnit s b x u w) := by
  have hc := hP.toClosed
  unfold State.placeUnit
  dsimp only
  exact ok_ite (State.placeParam_keeps hP hS) (State.setBucket_keeps hc hS)

theorem State.sendGather_keeps {P} (hP : ClosedMem P) {s b x us ps} (hS : P s) : P (State.sendGather s b x us ps) := by
  have hc := hP.toClosed
  unfold State.sendGather
  refine State.each_keeps hc hS (fun v0 v1 h2 => ?_)
  split
  · rename_i x10 x11 x12
    exact okR_snd (ok_eq x12 (State.gatherWords_keeps hP h2))
  · rename_i x10 x11 x12 x13
    exact State.each_keeps hc (okR_snd (ok_eq x13 (State.gatherWords_keeps hP h2))) (fun v14 v15 h16 => (State.ceSend_keeps
        hc h16))

theorem State.levelZero_keeps {P} (hP : ClosedMem P) {s b x u} (hS : P s) : OkR (OkR P) (State.levelZero s b x u) := by
  have hc := hP.toClosed
  unfold State.levelZero
  refine ok_foldl (fun v0 v1 h2 => ?_) _ _ (okR_mk (okR_mk hS))
  split
  · rename_i x10 x11 x12 x13 x14
    dsimp only
    exact okR_mk (okR_mk (okR_snd (okR_snd (ok_eq x14 (State.sourceUnit_keeps hP (okR_snd (okR_snd h2)))))))

theorem State.ceFloats_keeps {P} (hP : ClosedMem P) {s b va n} (hS : P s) : OkR (OkR P) (State.ceFloats s b va n) := by
  have hc := hP.toClosed
  unfold State.ceFloats
  dsimp only
  exact ok_foldl (fun v0 v1 h2 => (okR_mk (okR_mk (okR_snd (okR_snd (State.ceRead_keeps hP (okR_snd (okR_snd h2)))))))) _ _
      (okR_mk (okR_mk hS))

theorem State.beginFactors_keeps {P} (hP : ClosedMem P) {s b} (hS : P s) : OkR P (State.beginFactors s b) := by
  have hc := hP.toClosed
  unfold State.beginFactors
  dsimp only
  exact okR_mk (okR_snd (okR_snd (ok_ite (State.ceFloats_keeps hP (okR_snd (okR_snd (State.ceRead_keeps hP (okR_snd (okR_snd
      (State.ceFloats_keeps hP (okR_snd (okR_snd (ok_foldl (fun v0 v1 h2 => (okR_mk (okR_mk (okR_snd (okR_snd
      (State.levelZero_keeps hP (okR_snd (okR_snd h2)))))))) _ _ (okR_mk (okR_mk hS)))))))))))) (okR_mk (okR_mk (okR_snd
      (okR_snd (State.ceRead_keeps hP (okR_snd (okR_snd (State.ceFloats_keeps hP (okR_snd (okR_snd (ok_foldl (fun v0 v1 h2
      => (okR_mk (okR_mk (okR_snd (okR_snd (State.levelZero_keeps hP (okR_snd (okR_snd h2)))))))) _ _ (okR_mk (okR_mk
      hS))))))))))))))))

theorem State.putFloats_keeps {P} (hP : ClosedMem P) {s b va l} (hS : P s) : P (State.putFloats s b va l) := by
  have hc := hP.toClosed
  unfold State.putFloats
  exact State.each_keeps hc hS (fun v0 v1 h2 => (State.ceWrite_keeps hP h2))

theorem State.endFactors_keeps {P} (hP : ClosedMem P) {s b q} (hS : P s) : P (State.endFactors s b q) := by
  have hc := hP.toClosed
  unfold State.endFactors
  dsimp only
  exact State.ceWrite_keeps hP (State.putFloats_keeps hP (State.putFloats_keeps hP hS))

theorem State.factorCore_keeps {P} (hP : Closed P) {s b l e} (hS : P s) : P (State.factorCore s b l e) := by
  unfold State.factorCore
  dsimp only
  exact State.offer_keeps hP (State.offer_keeps hP (State.wr_keeps hP (State.setReg_keeps hP (State.setReg_keeps hP
      (State.setReg_keeps hP (State.setReg_keeps hP (State.setReg_keeps hP (State.wr_keeps hP (State.wr_keeps hP
      (State.setCore_keeps hP hS))))))))))

theorem State.runFactors_keeps {P} (hP : Closed P) {s b} (hS : P s) : P (State.runFactors s b) := by
  unfold State.runFactors
  dsimp only
  exact State.each_keeps hP (State.moveClaims_keeps hP (okR_snd (okR_snd (State.admitLaunch_keeps hP hS)))) (fun v0 v1 h2 =>
      (State.factorCore_keeps hP h2))

theorem State.factorPass_keeps {P} (hP : ClosedMem P) {s b vec} (hS : P s) : P (State.factorPass s b vec) := by
  have hc := hP.toClosed
  unfold State.factorPass
  dsimp only
  exact ok_ite (State.each_keeps hc (State.zeroCells_keeps hP (State.setBucket_keeps hc hS)) (fun v0 v1 h2 =>
      (State.contribute_keeps hP h2))) (State.each_keeps hc (State.each_keeps hc (State.setBucket_keeps hc hS) (fun v0 v1 h2
      => (State.putPart_keeps hP h2))) (fun v0 v1 h2 => (State.sendLevel1_keeps hP h2)))

theorem State.beginPass_keeps {P} (hP : ClosedMem P) {s b} (hS : P s) : P (State.beginPass s b) := by
  have hc := hP.toClosed
  unfold State.beginPass
  refine ok_ite (ok_ite (State.setBucket_keeps hc hS) (ok_ite ?_ ?_)) (ok_ite hS (ok_ite ?_
    (State.factorPass_keeps hP (State.runFactors_keeps hc hS))))
  · refine State.each_keeps hc (State.zeroCells_keeps hP (State.setBucket_keeps hc hS)) (fun s u h => ?_)
    refine State.each_keeps hc h (fun s j h => ?_)
    split
    rename_i e
    have h6 : P _ := okR_snd (okR_snd (ok_eq e (State.sourceCodes_keeps hP h)))
    exact ok_ite (State.setBucket_keeps hc h6) (State.contribute_keeps hP h6)
  · exact State.each_keeps hc (State.each_keeps hc (State.setBucket_keeps hc hS) (fun _ _ h => State.foldSources_keeps hP
        h))
      (fun _ _ h => State.sendLevel1_keeps hP h)
  · split
    · rename_i e
      exact okR_snd (ok_eq e (State.beginFactors_keeps hP (State.runFactors_keeps hc hS)))
    · rename_i e
      exact State.factorPass_keeps hP (okR_snd (ok_eq e (State.beginFactors_keeps hP (State.runFactors_keeps hc hS))))

theorem State.reduced_keeps {P} (hP : ClosedMem P) {s b x u} (hS : P s) : OkR P (State.reduced s b x u) := by
  have hc := hP.toClosed
  unfold State.reduced
  refine ok_ite (okR_mk hS) ?_
  dsimp only
  exact okR_mk (okR_snd (okR_snd (State.ceRead_keeps hP hS)))

theorem State.takeUnit_keeps {P} (hP : ClosedMem P) {s b x u} (hS : P s) : OkR P (State.takeUnit s b x u) := by
  have hc := hP.toClosed
  unfold State.takeUnit
  split
  · rename_i x0 x1 x2
    exact okR_mk (okR_snd (ok_eq x2 (State.reduced_keeps hP hS)))
  · rename_i x0 x1 x2 x3
    exact ok_ite (State.unitIn_keeps hP (okR_snd (ok_eq x3 (State.reduced_keeps hP hS)))) (okR_mk (okR_snd (ok_eq x3
        (State.reduced_keeps hP hS))))

theorem State.sums_keeps {P} (hP : ClosedMem P) {s b x} (hS : P s) : OkR P (State.sums s b x) := by
  have hc := hP.toClosed
  unfold State.sums
  refine ok_foldl (fun v0 v1 h2 => ?_) _ _ (okR_mk hS)
  split
  · rename_i x10 x11 x12 x13
    exact okR_mk (okR_snd (ok_eq x13 (State.takeUnit_keeps hP (okR_snd h2))))

theorem State.reducePass_keeps {P} (hP : ClosedMem P) {s b x sums} (hS : P s) : P (State.reducePass s b x sums) := by
  have hc := hP.toClosed
  unfold State.reducePass
  dsimp only
  exact ok_ite (State.sendGather_keeps hP (State.setBucket_keeps hc (State.each_keeps hc hS (fun v0 v1 h2 => (ok_ite
      (State.updateUnit_keeps hP h2) (State.placeUnit_keeps hP h2)))))) (State.setBucket_keeps hc (State.each_keeps hc hS
      (fun v0 v1 h2 => (ok_ite (State.updateUnit_keeps hP h2) (State.placeUnit_keeps hP h2)))))

theorem State.reduce_keeps {P} (hP : ClosedMem P) {s b x} (hS : P s) : P (State.reduce s b x) := by
  have hc := hP.toClosed
  unfold State.reduce
  split
  · rename_i x0 x1 x2 x3
    exact State.reducePass_keeps hP (okR_snd (ok_eq x3 (State.sums_keeps hP hS)))
  · rename_i x0 x1 x2
    exact okR_snd (ok_eq x2 (State.sums_keeps hP hS))

theorem State.spreadNode_keeps {P} (hP : ClosedMem P) {s b x} (hS : P s) : P (State.spreadNode s b x) := by
  have hc := hP.toClosed
  unfold State.spreadNode
  dsimp only
  exact State.sendGather_keeps hP (State.setBucket_keeps hc hS)

theorem State.nextPass_keeps {P} (hP : ClosedMem P) {s b x} (hS : P s) : P (State.nextPass s b x) := by
  have hc := hP.toClosed
  unfold State.nextPass
  dsimp only
  exact ok_ite (State.setBucket_keeps hc hS) (ok_ite (State.setBucket_keeps hc hS) (State.setBucket_keeps hc
      (State.endFactors_keeps hP hS)))

theorem State.ceMove_keeps {P} (hP : ClosedMem P) {s b} (hS : P s) : OkO P (State.ceMove s b) := by
  have hc := hP.toClosed
  unfold State.ceMove
  dsimp only
  split
  · rename_i x0 x1
    exact ok_ite (okO_none) (okO_some (State.beginPass_keeps hP hS))
  · rename_i x0 x1
    exact ok_ite (ok_ite (okO_some (State.setBucket_keeps hc (State.each_keeps hc hS (fun v2 v3 h4 =>
        (State.settleUnit_keeps hP h4))))) (okO_none)) (ok_ite (okO_some (State.each_keeps hc (State.setBucket_keeps hc
        (State.each_keeps hc hS (fun v2 v3 h4 => (State.foldSlots_keeps hP h4)))) (fun v2 v3 h4 => (State.sendLevel2_keeps
        hP h4)))) (okO_none))
  · rename_i x0 x1
    exact ok_ite (okO_some (State.reduce_keeps hP hS)) (ok_ite (okO_some (State.reduce_keeps hP (State.each_keeps hc hS (fun
        v2 v3 h4 => (State.foldSlots_keeps hP h4))))) (okO_none))
  · rename_i x0 x1
    exact ok_ite (okO_some (State.setBucket_keeps hc hS)) (ok_ite (okO_some (State.spreadNode_keeps hP hS)) (ok_ite
        (okO_some (ok_ite (State.setBucket_keeps hc hS) (State.nextPass_keeps hP hS))) (okO_none)))
  · rename_i x0 x1 x2 x3 x4
    exact okO_none

theorem State.ceStep_keeps {P} (hP : ClosedMem P) {s b} (hS : P s) : OkO P (State.ceStep s b) := by
  have hc := hP.toClosed
  unfold State.ceStep
  refine ok_ite ?_ (State.ceMove_keeps hP hS)
  dsimp only
  exact okO_some (okO_getD (State.ceMove_keeps hP (State.sendDones_keeps hc hS)) (State.sendDones_keeps hc hS))

theorem State.ceRun_keeps {P} (hP : ClosedMem P) {s b a} (hS : P s) : P (State.ceRun s b a) := by
  have hc := hP.toClosed
  induction a generalizing s b with
  | zero  =>
    unfold State.ceRun
    exact hS
  | succ x0 x1 =>
    unfold State.ceRun
    split
    · rename_i x2 x3
      exact hS
    · rename_i x2 x3 x4
      exact ok_ite (okO_eq x4 (State.ceStep_keeps hP hS)) (x1 (okO_eq x4 (State.ceStep_keeps hP hS)))

theorem State.ceGo_keeps {P} (hP : ClosedMem P) {s b} (hS : P s) : P (State.ceGo s b) := by
  have hc := hP.toClosed
  unfold State.ceGo
  exact State.ceRun_keeps hP (State.readAs_keeps hc hS)

theorem State.ceEnd_keeps {P} (hP : Closed P) {s b status detail} (hS : P s) : P (State.ceEnd s b status detail) := by
  unfold State.ceEnd
  dsimp only
  exact State.finish_keeps hP (Closed.upd hP hS)

theorem State.ceLoseCore_keeps {P} (hP : Closed P) {s c} (hS : P s) : P (State.ceLoseCore s c) := by
  unfold State.ceLoseCore
  exact State.each_keeps hP hS (fun v0 v1 h2 => (State.ceEnd_keeps hP h2))

/-! ### Collective -/

theorem State.walkRegions_keeps {P} (hP : ClosedMem P) {s q a z3} (hS : P s) : OkR P (State.walkRegions s q a z3) := by
  have hc := hP.toClosed
  induction a generalizing s q z3 with
  | nil  =>
    unfold State.walkRegions
    exact okR_mk hS
  | cons x0 x1 x2 =>
    unfold State.walkRegions
    dsimp only
    split
    · rename_i x3 x4 x5 x6 x7 x8
      exact okR_mk (okR_snd (ok_eq x8 (State.translate_keeps hP hS)))
    · rename_i x3 x4 x5 x6
      exact okR_mk (okR_snd (ok_eq x6 (State.translate_keeps hP hS)))
    · rename_i x3 x4 x5 x6
      split
      · rename_i x7 x8 x9
        exact okR_mk (okR_snd (ok_eq x6 (State.translate_keeps hP hS)))
      · rename_i x7 x8
        exact ok_ite (okR_mk (okR_snd (ok_eq x6 (State.translate_keeps hP hS)))) (x2 (okR_snd (ok_eq x6
            (State.translate_keeps hP hS))))

theorem State.readDesc_keeps {P} (hP : ClosedMem P) {s q w} (hS : P s) : OkR (OkR P) (State.readDesc s q w) := by
  have hc := hP.toClosed
  unfold State.readDesc
  dsimp only
  split
  · rename_i x0 x1 x2 x3 x4 x5
    exact okR_mk (okR_mk (okR_snd (ok_eq x5 (State.translate_keeps hP hS))))
  · rename_i x0 x1 x2 x3
    exact okR_mk (okR_mk (okR_snd (ok_eq x3 (State.translate_keeps hP hS))))
  · rename_i x0 x1 x2 x3
    split
    · rename_i x4 x5 x6
      exact okR_mk (okR_mk (okR_snd (ok_eq x3 (State.translate_keeps hP hS))))
    · rename_i x4 x5
      exact ok_ite (okR_mk (okR_mk (okR_snd (okR_snd (State.engWords_keeps hP (okR_snd (okR_snd (State.engWords_keeps hP
          (okR_snd (ok_eq x3 (State.translate_keeps hP hS))))))))))) (okR_mk (okR_mk (okR_snd (okR_snd (State.engWords_keeps
          hP (okR_snd (okR_snd (State.engWords_keeps hP (okR_snd (ok_eq x3 (State.translate_keeps hP hS)))))))))))

theorem State.collEnter_keeps {P} (hP : ClosedMem P) {s q f slot desc} (hS : P s) : P (State.collEnter s q f slot desc) :=
    by
  have hc := hP.toClosed
  unfold State.collEnter
  split
  · rename_i x0 x1 x2
    exact State.failHead_keeps hP hS
  · rename_i x0 x1
    dsimp only
    split
    · rename_i x2 x3 x4 x5 x6 x7
      exact State.walkFails_keeps hP (okR_snd (ok_eq x7 (State.walkRegions_keeps hP hS)))
    · rename_i x2 x3 x4 x5 x6
      exact State.failHead_keeps hP (okR_snd (ok_eq x6 (State.walkRegions_keeps hP hS)))
    · rename_i x2 x3 x4 x5
      refine State.ceGo_keeps hP ?_
      split
      · rename_i x16 x17 x18
        exact State.setFlight_keeps hc (Closed.upd hc (State.passHead_keeps hP (State.startHead_keeps hc (okR_snd (ok_eq x5
            (State.walkRegions_keeps hP hS))))))
      · rename_i x16 x17
        exact Closed.upd hc (State.passHead_keeps hP (State.startHead_keeps hc (okR_snd (ok_eq x5 (State.walkRegions_keeps
            hP hS)))))

theorem State.collStart_keeps {P} (hP : ClosedMem P) {s q f} (hS : P s) : P (State.collStart s q f) := by
  have hc := hP.toClosed
  unfold State.collStart
  split
  · rename_i x0 x1
    exact State.failHead_keeps hP hS
  · rename_i x0 x1 x2
    split
    · rename_i x3 x4 x5 x6 x7 x8 x9
      exact State.walkFails_keeps hP (okR_snd (okR_snd (ok_eq x9 (State.readDesc_keeps hP hS))))
    · rename_i x3 x4 x5 x6 x7 x8
      exact State.failHead_keeps hP (okR_snd (okR_snd (ok_eq x8 (State.readDesc_keeps hP hS))))
    · rename_i x3 x4 x5 x6 x7
      exact State.collEnter_keeps hP (okR_snd (okR_snd (ok_eq x7 (State.readDesc_keeps hP hS))))

theorem execCollective_keeps {P} (hP : ClosedMem P) {t q i found s} (hS : P s) : OkN P (execCollective t q i found s) := by
  have hc := hP.toClosed
  unfold execCollective
  refine State.live_keeps hc hS (fun v0 h1 => ?_)
  split
  · rename_i x10 x11
    exact h1
  · rename_i x10 x11 x12
    exact ok_ite (State.reads_keeps hP h1 (fun v13 h14 => (State.headWalk_keeps hc h14 (fun v15 h16 =>
        (State.collStart_keeps hP h16))))) h1

theorem execCeEpochCfg_keeps {P} (hP : Closed P) {t agent n v s} (hS : P s) : OkN P (execCeEpochCfg t agent n v s) := by
  unfold execCeEpochCfg
  refine State.live_keeps hP hS (fun v0 h1 => ?_)
  dsimp only
  exact ok_ite h1 (State.gate_keeps hP h1 (fun v10 h11 => (State.txnWrite_keeps hP h11 (fun v12 h13 =>
      (State.epochStore_keeps hP h13)))))

theorem execEpochCheckDone_keeps {P} (hP : ClosedMem P) {t n found s} (hS : P s) : OkN P (execEpochCheckDone t n found s) :=
    by
  have hc := hP.toClosed
  unfold execEpochCheckDone
  exact State.live_keeps hc hS (fun v0 h1 => (ok_ite (State.reads_keeps hP h1 (fun v2 h3 => (State.checkEpoch_keeps hP h3)))
      h1))

theorem State.ceLate_keeps {P} (hP : Closed P) {s hub} (hS : P s) : OkR P (State.ceLate s hub) := by
  unfold State.ceLate
  exact okR_mk (State.bump_keeps hP hS)

theorem State.ceNotReady_keeps {P} (hP : Closed P) {s hub} (hS : P s) : OkR P (State.ceNotReady s hub) := by
  unfold State.ceNotReady
  exact okR_mk (State.bump_keeps hP hS)

theorem State.ceDoneMsg_keeps {P} (hP : ClosedMem P) {s b pos} (hS : P s) : OkR P (State.ceDoneMsg s b pos) := by
  have hc := hP.toClosed
  unfold State.ceDoneMsg
  exact ok_ite (State.ceLate_keeps hc hS) (okR_mk (State.ceGo_keeps hP (State.setBucket_keeps hc hS)))

theorem State.ceCells_keeps {P} (hP : ClosedMem P) {s b x code pos u data} (hS : P s) : OkR P (State.ceCells s b x code pos
    u data) := by
  have hc := hP.toClosed
  unfold State.ceCells
  refine ok_ite (State.ceNotReady_keeps hc hS) (ok_ite (State.ceLate_keeps hc hS) ?_)
  split
  · rename_i x10 x11
    exact okR_mk hS
  · rename_i x10 x11 x12
    dsimp only
    exact okR_mk (okR_snd (State.addCells_keeps hP hS))

theorem State.ceUnit_keeps {P} (hP : ClosedMem P) {s b x lvl pos u data} (hS : P s) : OkR P (State.ceUnit s b x lvl pos u
    data) := by
  have hc := hP.toClosed
  unfold State.ceUnit
  dsimp only
  refine ok_ite (State.ceLate_keeps hc hS) (ok_ite (ok_ite (okR_mk (State.bumpWrap_keeps hc (State.noteUnit_keeps hc
      (State.placeUnit_keeps hP hS)))) (State.ceLate_keeps hc hS)) ?_)
  split
  · rename_i x10 x11
    exact State.ceLate_keeps hc hS
  · rename_i x10 x11 x12
    exact okR_mk (State.bumpWrap_keeps hc (State.noteUnit_keeps hc (State.ceWrite_keeps hP hS)))

theorem State.ceArrive_keeps {P} (hP : ClosedMem P) {s port m} (hS : P s) : OkR P (State.ceArrive s port m) := by
  have hc := hP.toClosed
  unfold State.ceArrive
  dsimp only
  split
  · rename_i x0 x1
    exact ok_ite (okR_mk hS) (ok_ite (State.ceLate_keeps hc hS) (State.ceNotReady_keeps hc hS))
  · rename_i x0 x1 x2
    exact ok_ite (okR_mk hS) (ok_ite (ok_ite (State.ceDoneMsg_keeps hP hS) (State.ceLate_keeps hc hS)) (ok_ite
        (State.ceLate_keeps hc hS) (ok_ite (State.ceNotReady_keeps hc hS) (okR_mk (State.ceGo_keeps hP (okR_snd (ok_ite
        (ok_ite (okR_mk (State.bumpWrap_keeps hc (okR_snd (State.ceCells_keeps hP hS)))) (State.ceCells_keeps hP hS))
        (State.ceUnit_keeps hP hS))))))))

theorem State.ceDone_keeps {P} (hP : Closed P) {s r hub q i code} (hS : P s) : P (State.ceDone s r hub q i code) := by
  unfold State.ceDone
  split
  · rename_i x0 x1
    exact hS
  · rename_i x0 x1 x2
    split
    · rename_i x3
      exact ok_ite (State.sendDones_keeps hP hS) hS
    · rename_i x3
      exact Closed.upd hP hS
    · rename_i x3 x4 x5 x6
      exact State.setBucket_keeps hP hS
    · rename_i x3
      exact State.setBucket_keeps hP hS

theorem State.resend_keeps {P} (hP : Closed P) {s r} (hS : P s) : P (State.resend s r) := by
  unfold State.resend
  dsimp only
  split
  · rename_i x0 x1
    exact Closed.upd hP hS
  · rename_i x0 x1 x2
    split
    · rename_i x3 x4 x5
      exact State.bumpWrap_keeps hP (okO_eq x5 (State.sendReq_keeps hP (Closed.upd hP hS)))
    · rename_i x3 x4
      exact State.setBucket_keeps hP (State.bump_keeps hP (Closed.upd hP hS))

theorem execCollResend_keeps {P} (hP : Closed P) {t h s} (hS : P s) : OkN P (execCollResend t h s) := by
  unfold execCollResend
  refine State.live_keeps hP hS (fun v0 h1 => ?_)
  split
  · rename_i x10 x11
    exact h1
  · rename_i x10 x11 x12
    exact State.resend_keeps hP h1

theorem execBucketComplete_keeps {P} (hP : ClosedMem P) {t q i found s} (hS : P s) : OkN P (execBucketComplete t q i found
    s) := by
  have hc := hP.toClosed
  unfold execBucketComplete
  refine State.live_keeps hc hS (fun v0 h1 => ?_)
  split
  · rename_i x10 x11
    exact h1
  · rename_i x10 x11 x12
    dsimp only
    exact State.reads_keeps hP h1 (fun v13 h14 => (ok_ite (State.ceEnd_keeps hc (State.ceGo_keeps hP h14)) (State.ceGo_keeps
        hP h14)))

theorem execBucketTimeout_keeps {P} (hP : Closed P) {t q i s} (hS : P s) : OkN P (execBucketTimeout t q i s) := by
  unfold execBucketTimeout
  refine State.live_keeps hP hS (fun v0 h1 => ?_)
  split
  · rename_i x10 x11
    exact h1
  · rename_i x10 x11 x12
    exact ok_ite (State.ceEnd_keeps hP h1) h1

/-! ### Commands -/

theorem State.onFlight_keeps {P} (hP : Closed P) {s q i f} (hS : P s) : P (State.onFlight s q i f) := by
  unfold State.onFlight
  exact State.mapFlights_keeps hP hS

theorem State.lookSide_keeps {P} (hP : ClosedMem P) {s hub tag va sp wr exts} (hS : P s) : OkR P (State.lookSide s hub tag
    va sp wr exts) := by
  have hc := hP.toClosed
  unfold State.lookSide
  refine ok_ite (okR_mk hS) ?_
  split
  · rename_i x10 x11 x12 x13 x14
    exact okR_mk (okR_snd (ok_eq x14 (State.walk1_keeps hP hS)))
  · rename_i x10 x11 x12 x13 x14 x15
    exact okR_mk (okR_snd (ok_eq x15 (State.walk1_keeps hP hS)))

theorem State.prefixFrom_keeps {P} (hP : ClosedMem P) {s hub tag w pos stop a z7 z8 z9} (hS : P s) : OkR P (State.prefixFrom
    s hub tag w pos stop a z7 z8 z9) := by
  have hc := hP.toClosed
  induction a generalizing s hub tag w pos stop z7 z8 z9 with
  | zero  =>
    unfold State.prefixFrom
    exact okR_mk hS
  | succ x0 x1 =>
    unfold State.prefixFrom
    refine ok_ite (okR_mk hS) ?_
    split
    · rename_i x12 x13 x14
      exact okR_mk (okR_snd (ok_eq x14 (State.lookSide_keeps hP hS)))
    · rename_i x12 x13 x14 x15 x16
      dsimp only
      split
      · rename_i x17 x18 x19
        exact okR_mk (okR_snd (ok_eq x19 (State.lookSide_keeps hP (okR_snd (ok_eq x16 (State.lookSide_keeps hP hS))))))
      · rename_i x17 x18 x19 x20 x21
        exact ok_ite (okR_mk (okR_snd (ok_eq x21 (State.lookSide_keeps hP (okR_snd (ok_eq x16 (State.lookSide_keeps hP
            hS))))))) (x1 (okR_snd (ok_eq x21 (State.lookSide_keeps hP (okR_snd (ok_eq x16 (State.lookSide_keeps hP
            hS)))))))

theorem State.descEnd_keeps {P} (hP : ClosedMem P) {s hub tag w pos} (hS : P s) : OkR P (State.descEnd s hub tag w pos) :=
    by
  have hc := hP.toClosed
  unfold State.descEnd
  dsimp only
  exact ok_ite (okR_mk (okR_snd (State.prefixFrom_keeps hP hS))) (okR_mk (okR_snd (State.prefixFrom_keeps hP hS)))

theorem State.walkSide_keeps {P} (hP : ClosedMem P) {s hub tag va len sp wr} (hS : P s) : OkR P (State.walkSide s hub tag va
    len sp wr) := by
  have hc := hP.toClosed
  unfold State.walkSide
  refine ok_ite (okR_mk hS) ?_
  split
  · rename_i x10 x11 x12 x13
    split
    · rename_i x14 x15 x16
      exact okR_mk (okR_snd (ok_eq x13 (State.translate_keeps hP hS)))
    · rename_i x14 x15
      exact okR_mk (okR_snd (ok_eq x13 (State.translate_keeps hP hS)))
  · rename_i x10 x11
    exact State.translate_keeps hP hS

theorem State.copyDenied_keeps {P} (hP : ClosedMem P) {s q f va} (hS : P s) : P (State.copyDenied s q f va) := by
  have hc := hP.toClosed
  unfold State.copyDenied
  split
  · rename_i x0 x1
    exact State.failHead_keeps hP hS
  · rename_i x0 x1 x2
    exact State.cmdSettle_keeps hc (State.passHead_keeps hP (State.setFlight_keeps hc hS))

theorem State.startDesc_keeps {P} (hP : ClosedMem P) {s q f d} (hS : P s) : P (State.startDesc s q f d) := by
  have hc := hP.toClosed
  unfold State.startDesc
  dsimp only
  exact ok_ite (State.passHead_keeps hP (State.onFlight_keeps hc (ok_ite hS (State.startHead_keeps hc hS))))
      (State.setQueue_keeps hc (State.onFlight_keeps hc (ok_ite hS (State.startHead_keeps hc hS))))

theorem State.copyStart_keeps {P} (hP : ClosedMem P) {s q f} (hS : P s) : P (State.copyStart s q f) := by
  have hc := hP.toClosed
  unfold State.copyStart
  dsimp only
  refine ok_ite (State.passHead_keeps hP (State.finish_keeps hc (State.startHead_keeps hc hS))) ?_
  split
  · rename_i x10 x11 x12
    exact State.failHead_keeps hP hS
  · rename_i x10 x11
    split
    · rename_i x12 x13 x14 x15 x16 x17
      exact State.walkFails_keeps hP (okR_snd (ok_eq x17 (State.walkSide_keeps hP (okR_snd (State.descEnd_keeps hP hS)))))
    · rename_i x12 x13 x14 x15
      exact State.copyDenied_keeps hP (okR_snd (ok_eq x15 (State.walkSide_keeps hP (okR_snd (State.descEnd_keeps hP hS)))))
    · rename_i x12 x13 x14 x15
      split
      · rename_i x16 x17 x18 x19 x20 x21
        exact State.walkFails_keeps hP (okR_snd (ok_eq x21 (State.walkSide_keeps hP (okR_snd (ok_eq x15
            (State.walkSide_keeps hP (okR_snd (State.descEnd_keeps hP hS))))))))
      · rename_i x16 x17 x18 x19
        exact State.copyDenied_keeps hP (okR_snd (ok_eq x19 (State.walkSide_keeps hP (okR_snd (ok_eq x15
            (State.walkSide_keeps hP (okR_snd (State.descEnd_keeps hP hS))))))))
      · rename_i x16 x17 x18 x19
        exact State.startDesc_keeps hP (okR_snd (ok_eq x19 (State.walkSide_keeps hP (okR_snd (ok_eq x15
            (State.walkSide_keeps hP (okR_snd (State.descEnd_keeps hP hS))))))))

theorem State.inlineStart_keeps {P} (hP : ClosedMem P) {s q f} (hS : P s) : P (State.inlineStart s q f) := by
  have hc := hP.toClosed
  unfold State.inlineStart
  dsimp only
  split
  · rename_i x0 x1 x2 x3 x4 x5
    exact State.walkFails_keeps hP (okR_snd (ok_eq x5 (State.walkSide_keeps hP hS)))
  · rename_i x0 x1 x2 x3
    exact State.failHead_keeps hP (okR_snd (ok_eq x3 (State.walkSide_keeps hP hS)))
  · rename_i x0 x1 x2 x3
    exact State.passHead_keeps hP (State.onFlight_keeps hc (State.startHead_keeps hc (okR_snd (ok_eq x3
        (State.walkSide_keeps hP hS)))))

theorem State.plainStart_keeps {P} (hP : ClosedMem P) {s q f} (hS : P s) : P (State.plainStart s q f) := by
  have hc := hP.toClosed
  unfold State.plainStart
  exact State.passHead_keeps hP (State.startHead_keeps hc hS)

theorem State.objStart_keeps {P} (hP : ClosedMem P) {s q f} (hS : P s) : P (State.objStart s q f) := by
  have hc := hP.toClosed
  unfold State.objStart
  dsimp only
  exact ok_ite (State.plainStart_keeps hP hS) (State.failHead_keeps hP hS)

theorem State.migrateStart_keeps {P} (hP : ClosedMem P) {s q f} (hS : P s) : P (State.migrateStart s q f) := by
  have hc := hP.toClosed
  unfold State.migrateStart
  dsimp only
  split
  · rename_i x0 x1
    exact State.plainStart_keeps hP hS
  · rename_i x0 x1
    exact State.failHead_keeps hP (State.wr_keeps hc hS)
  · rename_i x0 x1 x2
    exact State.failHead_keeps hP (State.wr_keeps hc hS)

theorem State.walkHead_keeps {P} (hP : ClosedMem P) {s q f} (hS : P s) : P (State.walkHead s q f) := by
  have hc := hP.toClosed
  unfold State.walkHead
  refine ok_ite (State.failHead_keeps hP hS) (ok_ite (ok_ite hS (State.setQueue_keeps hc hS)) ?_)
  split
  · rename_i x10 x11
    exact State.launchStart_keeps hP hS
  · rename_i x10 x11
    exact State.copyStart_keeps hP hS
  · rename_i x10 x11
    exact State.inlineStart_keeps hP hS
  · rename_i x10 x11
    exact State.objStart_keeps hP hS
  · rename_i x10 x11
    exact State.objStart_keeps hP hS
  · rename_i x10 x11
    dsimp only
    exact ok_ite (State.collStart_keeps hP hS) (State.setQueue_keeps hc hS)
  · rename_i x10 x11
    exact State.migrateStart_keeps hP hS
  · rename_i x10 x11 x12 x13 x14 x15 x16 x17
    exact State.plainStart_keeps hP hS

theorem State.walkQueue_keeps {P} (hP : ClosedMem P) {s q} (hS : P s) : P (State.walkQueue s q) := by
  have hc := hP.toClosed
  unfold State.walkQueue
  dsimp only
  refine ok_ite ?_ (ok_ite (State.activate_keeps hP hS) hS)
  split
  · rename_i x10 x11
    exact ok_ite (State.activate_keeps hP hS) hS
  · rename_i x10 x11 x12 x13
    exact State.headWalk_keeps hc (ok_ite (State.activate_keeps hP hS) hS) (fun v14 h15 => (State.walkHead_keeps hP h15))

theorem execWalk_keeps {P} (hP : ClosedMem P) {t q found s} (hS : P s) : OkN P (execWalk t q found s) := by
  have hc := hP.toClosed
  unfold execWalk
  exact State.live_keeps hc hS (fun v0 h1 => (ok_ite (State.reads_keeps hP h1 (fun v2 h3 => (State.walkQueue_keeps hP h3)))
      h1))

theorem State.readSeg_keeps {P} (hP : ClosedMem P) {s pa len} (hS : P s) : OkR (OkR P) (State.readSeg s pa len) := by
  have hc := hP.toClosed
  unfold State.readSeg
  dsimp only
  exact ok_foldl (fun v0 v1 h2 => (okR_mk (okR_mk (okR_snd (okR_snd (State.engLine_keeps hP (okR_snd (okR_snd h2)))))))) _ _
      (okR_mk (okR_mk hS))

theorem State.writeSeg_keeps {P} (hP : ClosedMem P) {s pa b bad} (hS : P s) : P (State.writeSeg s pa b bad) := by
  have hc := hP.toClosed
  unfold State.writeSeg
  exact State.each_keeps hc (State.engWrite_keeps hP hS) (fun v0 v1 h2 => (State.setPoison_keeps hP h2))

theorem State.overlapFree_keeps {P} (hP : Closed P) {s w o b} (hS : P s) : OkR P (State.overlapFree s w o b) := by
  unfold State.overlapFree
  dsimp only
  exact ok_ite (okR_mk hS) (okR_mk (Closed.upd hP hS))

theorem State.noteFailed_keeps {P} (hP : Closed P) {s q i pa len} (hS : P s) : P (State.noteFailed s q i pa len) := by
  unfold State.noteFailed
  dsimp only
  exact State.onFlight_keeps hP hS

theorem State.deposit_keeps {P} (hP : ClosedMem P) {s q i d o b bad} (hS : P s) : P (State.deposit s q i d o b bad) := by
  have hc := hP.toClosed
  unfold State.deposit
  split
  · rename_i x0 x1
    exact hS
  · rename_i x0 x1 x2
    dsimp only
    refine ok_ite (ok_ite (State.onFlight_keeps hc hS) (State.copyIn_keeps hc hS)) ?_
    split
    · rename_i x13 x14
      exact hS
    · rename_i x13 x14 x15
      exact ok_ite (State.onFlight_keeps hc (okL_fst (State.peerWrite_keeps hc hS))) (State.writeSeg_keeps hP
          (State.noteFailed_keeps hc hS))

theorem State.moveSeg_keeps {P} (hP : ClosedMem P) {s q i found d g} (hS : P s) : P (State.moveSeg s q i found d g) := by
  have hc := hP.toClosed
  unfold State.moveSeg
  split
  · rename_i x0 x1
    exact hS
  · rename_i x0 x1 x2
    dsimp only
    refine ok_ite (ok_ite (State.deposit_keeps hP (ok_ite hS (State.onFlight_keeps hc hS))) (State.deposit_keeps hP
        (State.onFlight_keeps hc (State.bump_keeps hc (State.spParity_keeps hP hS))))) ?_
    split
    · rename_i x13 x14
      exact hS
    · rename_i x13 x14 x15
      exact ok_ite (State.onFlight_keeps hc (okL_fst (State.peerRead_keeps hc hS))) (State.deposit_keeps hP (okR_snd
          (State.overlapFree_keeps hc (State.onFlight_keeps hc (okR_snd (okR_snd (State.readSeg_keeps hP hS)))))))

theorem State.moveDesc_keeps {P} (hP : ClosedMem P) {s q i found x} (hS : P s) : P (State.moveDesc s q i found x) := by
  have hc := hP.toClosed
  unfold State.moveDesc
  split
  · rename_i x0 x1
    exact State.cmdSettle_keeps hc hS
  · rename_i x0 x1 x2
    dsimp only
    exact State.cmdSettle_keeps hc (State.each_keeps hc (State.onFlight_keeps hc hS) (fun v3 v4 h5 => (State.moveSeg_keeps
        hP h5)))

theorem execCopy_keeps {P} (hP : ClosedMem P) {t q i found s} (hS : P s) : OkN P (execCopy t q i found s) := by
  have hc := hP.toClosed
  unfold execCopy
  refine State.live_keeps hc hS (fun v0 h1 => ?_)
  split
  · rename_i x10 x11
    exact h1
  · rename_i x10 x11 x12
    exact State.reads_keeps hP h1 (fun v13 h14 => (State.moveDesc_keeps hP h14))

theorem State.inlineSeg_keeps {P} (hP : ClosedMem P) {s x g} (hS : P s) : P (State.inlineSeg s x g) := by
  have hc := hP.toClosed
  unfold State.inlineSeg
  dsimp only
  split
  · rename_i x0 x1
    exact hS
  · rename_i x0 x1 x2
    exact ok_ite (State.onFlight_keeps hc (okL_fst (State.peerWrite_keeps hc hS))) (State.writeSeg_keeps hP
        (State.noteFailed_keeps hc hS))

theorem State.doInline_keeps {P} (hP : ClosedMem P) {s q i x} (hS : P s) : P (State.doInline s q i x) := by
  have hc := hP.toClosed
  unfold State.doInline
  dsimp only
  exact State.cmdSettle_keeps hc (State.each_keeps hc (State.onFlight_keeps hc hS) (fun v0 v1 h2 => (State.inlineSeg_keeps
      hP h2)))

theorem execInlineWrite_keeps {P} (hP : ClosedMem P) {t q i found s} (hS : P s) : OkN P (execInlineWrite t q i found s) :=
    by
  have hc := hP.toClosed
  unfold execInlineWrite
  refine State.live_keeps hc hS (fun v0 h1 => ?_)
  split
  · rename_i x10 x11
    exact h1
  · rename_i x10 x11 x12
    exact ok_ite h1 (State.reads_keeps hP h1 (fun v13 h14 => (State.doInline_keeps hP h14)))

theorem State.doSignal_keeps {P} (hP : Closed P) {s q i x} (hS : P s) : P (State.doSignal s q i x) := by
  unfold State.doSignal
  dsimp only
  exact State.finish_keeps hP (State.offerQueue_keeps hP (State.syPerform_keeps hP hS))

theorem execSignal_keeps {P} (hP : Closed P) {t q i s} (hS : P s) : OkN P (execSignal t q i s) := by
  unfold execSignal
  refine State.live_keeps hP hS (fun v0 h1 => ?_)
  split
  · rename_i x10 x11
    exact h1
  · rename_i x10 x11 x12
    exact State.doSignal_keeps hP h1

theorem execWait_keeps {P} (hP : Closed P) {t q i s} (hS : P s) : OkN P (execWait t q i s) := by
  unfold execWait
  refine State.live_keeps hP hS (fun v0 h1 => ?_)
  split
  · rename_i x10 x11
    exact h1
  · rename_i x10 x11 x12
    exact ok_ite h1 (State.registerWait_keeps hP (State.onFlight_keeps hP h1))

theorem execMigrate_keeps {P} (hP : Closed P) {t q i s} (hS : P s) : OkN P (execMigrate t q i s) := by
  unfold execMigrate
  refine State.live_keeps hP hS (fun v0 h1 => ?_)
  split
  · rename_i x10 x11
    exact h1
  · rename_i x10 x11 x12
    dsimp only
    exact ok_ite h1 (State.submitMig_keeps hP (State.onFlight_keeps hP h1))

theorem State.doHint_keeps {P} (hP : Closed P) {s q i x} (hS : P s) : P (State.doHint s q i x) := by
  unfold State.doHint
  dsimp only
  exact State.finish_keeps hP (State.offerQueue_keeps hP (State.each_keeps hP hS (fun v0 v1 h2 => (State.hintOn_keeps hP
      h2))))

theorem execHintCommand_keeps {P} (hP : Closed P) {t q i s} (hS : P s) : OkN P (execHintCommand t q i s) := by
  unfold execHintCommand
  refine State.live_keeps hP hS (fun v0 h1 => ?_)
  split
  · rename_i x10 x11
    exact h1
  · rename_i x10 x11 x12
    exact State.doHint_keeps hP h1

theorem execFenceCommand_keeps {P} (hP : Closed P) {t q i s} (hS : P s) : OkN P (execFenceCommand t q i s) := by
  unfold execFenceCommand
  refine State.live_keeps hP hS (fun v0 h1 => ?_)
  split
  · rename_i x10 x11
    exact h1
  · rename_i x10 x11 x12
    exact ok_ite h1 (State.finish_keeps hP h1)

theorem State.complete_keeps {P} (hP : ClosedMem P) {s q x status} (hS : P s) : P (State.complete s q x status) := by
  have hc := hP.toClosed
  unfold State.complete
  dsimp only
  exact State.tryDisable_keeps hc (ok_ite (State.park_keeps hP (ok_ite (State.offerQueue_keeps hc (Closed.upd hc hS))
      (State.cqPut_keeps hP (State.offerQueue_keeps hc (Closed.upd hc hS))))) (ok_ite (State.offerQueue_keeps hc (Closed.upd
      hc hS)) (State.cqPut_keeps hP (State.offerQueue_keeps hc (Closed.upd hc hS)))))

theorem execCommandComplete_keeps {P} (hP : ClosedMem P) {t q i s} (hS : P s) : OkN P (execCommandComplete t q i s) := by
  have hc := hP.toClosed
  unfold execCommandComplete
  refine State.live_keeps hc hS (fun v0 h1 => ?_)
  split
  · rename_i x10 x11
    exact h1
  · rename_i x10 x11 x12
    split
    · rename_i x13 x14 x15
      exact ok_ite (State.complete_keeps hP h1) h1
    · rename_i x13 x14
      exact h1

/-! ### Power -/

theorem State.openLimits_keeps {P} (hP : Closed P) {s p l} (hS : P s) : P (State.openLimits s p l) := by
  unfold State.openLimits
  exact State.each_keeps hP hS (fun v0 v1 h2 => (State.openEvent_keeps hP h2))

theorem State.endLimits_keeps {P} (hP : Closed P) {s p} (hS : P s) : P (State.endLimits s p) := by
  unfold State.endLimits
  exact State.endAct_keeps hP (State.endAct_keeps hP hS)

theorem State.setDuty_keeps {P} (hP : Closed P) {s p n} (hS : P s) : P (State.setDuty s p n) := by
  unfold State.setDuty
  exact State.gateDuty_keeps hP hS

theorem State.dutyStep_keeps {P} (hP : Closed P) {s p pkgOver pkgLow amps} (hS : P s) : P (State.dutyStep s p pkgOver pkgLow
    amps) := by
  unfold State.dutyStep
  dsimp only
  exact ok_ite (State.setDuty_keeps hP (State.openEvent_keeps hP (State.openLimits_keeps hP hS))) (ok_ite
      (State.setDuty_keeps hP (State.openLimits_keeps hP hS)) (ok_ite (ok_ite (State.endLimits_keeps hP (ok_ite
      (State.setDuty_keeps hP (State.openLimits_keeps hP hS)) (State.openLimits_keeps hP hS))) (ok_ite (State.setDuty_keeps
      hP (State.openLimits_keeps hP hS)) (State.openLimits_keeps hP hS))) (State.openLimits_keeps hP hS)))

theorem State.setCap_keeps {P} (hP : Closed P) {s p n} (hS : P s) : P (State.setCap s p n) := by
  unfold State.setCap
  dsimp only
  exact Closed.upd hP hS

theorem State.capStep_keeps {P} (hP : Closed P) {s p} (hS : P s) : P (State.capStep s p) := by
  unfold State.capStep
  dsimp only
  exact ok_ite (State.openLimits_keeps hP hS) (ok_ite (State.setCap_keeps hP (State.openLimits_keeps hP hS)) (ok_ite (ok_ite
      (State.endLimits_keeps hP (State.setCap_keeps hP (State.openLimits_keeps hP hS))) (State.setCap_keeps hP
      (State.openLimits_keeps hP hS))) (State.openLimits_keeps hP hS)))

theorem State.hostPower_keeps {P} (hP : Closed P) {s} (hS : P s) : P (State.hostPower s) := by
  unfold State.hostPower
  dsimp only
  exact ok_ite (State.endLimits_keeps hP (State.openLimits_keeps hP hS)) (State.openLimits_keeps hP hS)

theorem State.sagStep_keeps {P} (hP : Closed P) {s mv} (hS : P s) : P (State.sagStep s mv) := by
  unfold State.sagStep
  refine ok_ite ?_ (ok_ite (ok_ite (Closed.upd hP hS) ?_) hS)
  · dsimp only
    exact State.each_keeps hP (Closed.upd hP (State.openEvent_keeps hP (State.wr_keeps hP hS))) (fun v10 v11 h12 =>
        (State.setDuty_keeps hP h12))
  · dsimp only
    exact ok_ite (State.each_keeps hP (Closed.upd hP (State.endAct_keeps hP (State.wr_keeps hP hS))) (fun v10 v11 h12 =>
        (ok_ite h12 (State.setDuty_keeps hP h12)))) (Closed.upd hP hS)

theorem State.noteYields_keeps {P} (hP : Closed P) {s} (hS : P s) : P (State.noteYields s) := by
  unfold State.noteYields
  exact Closed.upd hP hS

theorem State.keepSample_keeps {P} (hP : Closed P) {s x} (hS : P s) : P (State.keepSample s x) := by
  unfold State.keepSample
  dsimp only
  exact ok_ite (Closed.upd hP (State.each_keeps hP (State.wr_keeps hP (Closed.upd hP hS)) (fun v0 v1 h2 =>
      (State.bumpWrap_keeps hP h2)))) (State.each_keeps hP (State.wr_keeps hP (Closed.upd hP hS)) (fun v0 v1 h2 =>
      (State.bumpWrap_keeps hP h2)))

theorem State.actOn_keeps {P} (hP : ClosedMem P) {s x} (hS : P s) : P (State.actOn s x) := by
  have hc := hP.toClosed
  unfold State.actOn
  dsimp only
  exact State.closeEvents_keeps hP (State.noteYields_keeps hc (State.sagStep_keeps hc (State.hostPower_keeps hc
      (State.each_keeps hc (ok_ite (State.endLimits_keeps hc (State.each_keeps hc (ok_ite (State.openEvent_keeps hc
      (State.openLimits_keeps hc hS)) (State.openLimits_keeps hc hS)) (fun v0 v1 h2 => (State.dutyStep_keeps hc h2))))
      (State.each_keeps hc (ok_ite (State.openEvent_keeps hc (State.openLimits_keeps hc hS)) (State.openLimits_keeps hc hS))
      (fun v0 v1 h2 => (State.dutyStep_keeps hc h2)))) (fun v0 v1 h2 => (State.capStep_keeps hc h2))))))

theorem execPowerSample_keeps {P} (hP : ClosedMem P) {t x s} (hS : P s) : OkN P (execPowerSample t x s) := by
  have hc := hP.toClosed
  unfold execPowerSample
  refine okN_next ?_
  dsimp only
  exact ok_ite (ok_ite (State.actOn_keeps hP (State.keepSample_keeps hc (State.advance_keeps hc hS)))
      (State.keepSample_keeps hc (State.advance_keeps hc hS))) (State.advance_keeps hc hS)

theorem execDutyRamp_keeps {P} (hP : Closed P) {t die s} (hS : P s) : OkN P (execDutyRamp t die s) := by
  unfold execDutyRamp
  refine State.live_keeps hP hS (fun v0 h1 => (ok_ite ?_ h1))
  dsimp only
  exact ok_ite (Closed.upd hP (State.setDuty_keeps hP h1)) (State.setDuty_keeps hP h1)

theorem execHclkStep_keeps {P} (hP : Closed P) {t cluster up s} (hS : P s) : OkN P (execHclkStep t cluster up s) := by
  unfold execHclkStep
  refine State.live_keeps hP hS (fun v0 h1 => ?_)
  dsimp only
  exact ok_ite h1 (ok_ite (ok_ite (Closed.upd hP (State.wr_keeps hP h1)) h1) (ok_ite (Closed.upd hP (State.wr_keeps hP h1))
      h1))

theorem State.thermalAct_keeps {P} (hP : Closed P) {s p} (hS : P s) : P (State.thermalAct s p) := by
  unfold State.thermalAct
  split
  · rename_i x0 x1
    exact hS
  · rename_i x0 x1 x2
    exact ok_ite (ok_ite (State.setDuty_keeps hP hS) (ok_ite hS (State.setCap_keeps hP hS))) hS

theorem State.thermalEnd_keeps {P} (hP : Closed P) {s p} (hS : P s) : P (State.thermalEnd s p) := by
  unfold State.thermalEnd
  refine ok_ite ?_ hS
  dsimp only
  exact ok_ite (ok_ite (State.endAct_keeps hP hS) (State.setDuty_keeps hP (State.endAct_keeps hP hS))) (ok_ite
      (State.endAct_keeps hP hS) (ok_ite (State.endAct_keeps hP hS) (State.setCap_keeps hP (State.endAct_keeps hP hS))))

theorem State.readTemp_keeps {P} (hP : Closed P) {s p temp} (hS : P s) : P (State.readTemp s p temp) := by
  unfold State.readTemp
  dsimp only
  exact ok_ite (State.setDuty_keeps hP (ok_ite (State.thermalAct_keeps hP (State.openEvent_keeps hP (State.wr_keeps hP hS)))
      (ok_ite (State.thermalEnd_keeps hP (State.wr_keeps hP hS)) (State.wr_keeps hP hS)))) (ok_ite (ok_ite
      (State.thermalAct_keeps hP (State.openEvent_keeps hP (State.wr_keeps hP hS))) (ok_ite (State.thermalEnd_keeps hP
      (State.wr_keeps hP hS)) (State.wr_keeps hP hS))) (State.setCap_keeps hP (ok_ite (State.thermalAct_keeps hP
      (State.openEvent_keeps hP (State.wr_keeps hP hS))) (ok_ite (State.thermalEnd_keeps hP (State.wr_keeps hP hS))
      (State.wr_keeps hP hS)))))

/-! ### Links -/

theorem State.gotLines_keeps {P} (hP : ClosedMem P) {s q i d w r data} (hS : P s) : P (State.gotLines s q i d w r data) :=
    by
  have hc := hP.toClosed
  unfold State.gotLines
  refine State.each_keeps hc hS (fun v0 v1 h2 => ?_)
  split
  · rename_i x10 x11
    exact h2
  · rename_i x10 x11 x12
    dsimp only
    exact ok_ite (State.deposit_keeps hP h2) h2

theorem State.cmdReqEnd_keeps {P} (hP : ClosedMem P) {s q i pos r e} (hS : P s) : P (State.cmdReqEnd s q i pos r e) := by
  have hc := hP.toClosed
  unfold State.cmdReqEnd
  split
  · rename_i x0 x1 x2 x3
    exact hS
  · rename_i x0 x1 x2 x3 x4
    refine State.cmdSettle_keeps hc ?_
    split
    · rename_i x15 x16 x17
      exact State.gotLines_keeps hP hS
    · rename_i x15 x16
      exact hS
  · rename_i x0 x1 x2 x3 x4
    dsimp only
    exact State.cmdSettle_keeps hc (State.onFlight_keeps hc hS)
  · rename_i x0 x1 x2 x3
    exact State.cmdSettle_keeps hc (State.onFlight_keeps hc hS)

theorem State.copyReqEnd_keeps {P} (hP : Closed P) {s c n r e} (hS : P s) : P (State.copyReqEnd s c n r e) := by
  unfold State.copyReqEnd
  dsimp only
  split
  · rename_i x0 x1
    exact hS
  · rename_i x0 x1 x2
    split
    · rename_i x3 x4
      refine ok_ite hS (ok_ite (ok_ite (State.setCore_keeps hP hS) hS) (State.each_keeps hP hS (fun v5 v6 h7 => ?_)))
      split
      · rename_i x15 x16 x17 x18
        exact State.copyIn_keeps hP h7
      · rename_i x15 x16
        exact h7
    · rename_i x3 x4
      exact State.copyFault_keeps hP hS

theorem State.loadReqEnd_keeps {P} (hP : Closed P) {s c r e} (hS : P s) : P (State.loadReqEnd s c r e) := by
  unfold State.loadReqEnd
  dsimp only
  split
  · rename_i x0 x1
    exact hS
  · rename_i x0 x1 x2
    refine State.askLoads_keeps hP ?_
    split
    · rename_i x13 x14
      exact State.setCore_keeps hP hS
    · rename_i x13 x14
      exact State.loadFails_keeps hP hS

theorem State.siteReqEnd_keeps {P} (hP : Closed P) {s agent pa size r e} (hS : P s) : P (State.siteReqEnd s agent pa size r
    e) := by
  unfold State.siteReqEnd
  split
  · rename_i x0 x1
    exact ok_ite (State.answerLine_keeps hP hS) (State.answer_keeps hP hS)
  · rename_i x0 x1
    exact State.answer_keeps hP hS
  · rename_i x0
    exact State.answer_keeps hP hS

theorem State.reqEnd_keeps {P} (hP : ClosedMem P) {s r e} (hS : P s) : P (State.reqEnd s r e) := by
  have hc := hP.toClosed
  unfold State.reqEnd
  dsimp only
  split
  · rename_i x0 x1
    exact ok_ite (State.bump_keeps hc (Closed.upd hc hS)) (Closed.upd hc hS)
  · rename_i x0 x1 x2 x3 x4
    exact State.cmdReqEnd_keeps hP (ok_ite (State.bump_keeps hc (Closed.upd hc hS)) (Closed.upd hc hS))
  · rename_i x0 x1 x2 x3
    exact State.copyReqEnd_keeps hc (ok_ite (State.bump_keeps hc (Closed.upd hc hS)) (Closed.upd hc hS))
  · rename_i x0 x1 x2
    exact State.loadReqEnd_keeps hc (ok_ite (State.bump_keeps hc (Closed.upd hc hS)) (Closed.upd hc hS))
  · rename_i x0 x1 x2 x3
    split
    · rename_i x4 x5
      exact State.storeEnds_keeps hc (ok_ite (State.bump_keeps hc (Closed.upd hc hS)) (Closed.upd hc hS))
    · rename_i x4
      exact State.storeEnds_keeps hc (ok_ite (State.bump_keeps hc (Closed.upd hc hS)) (Closed.upd hc hS))
    · rename_i x4 x5
      exact State.storeEnds_keeps hc (ok_ite (State.bump_keeps hc (Closed.upd hc hS)) (Closed.upd hc hS))
  · rename_i x0 x1 x2 x3
    split
    · rename_i x4 x5
      exact State.peerLoadDone_keeps hc (ok_ite (State.bump_keeps hc (Closed.upd hc hS)) (Closed.upd hc hS))
    · rename_i x4 x5
      exact State.peerLoadDone_keeps hc (ok_ite (State.bump_keeps hc (Closed.upd hc hS)) (Closed.upd hc hS))
  · rename_i x0 x1 x2 x3 x4
    split
    · rename_i x5 x6
      exact State.ceDone_keeps hc (ok_ite (State.bump_keeps hc (Closed.upd hc hS)) (Closed.upd hc hS))
    · rename_i x5 x6
      exact State.ceDone_keeps hc (ok_ite (State.bump_keeps hc (Closed.upd hc hS)) (Closed.upd hc hS))
    · rename_i x5
      exact State.ceDone_keeps hc (ok_ite (State.bump_keeps hc (Closed.upd hc hS)) (Closed.upd hc hS))
  · rename_i x0 x1 x2 x3 x4
    exact State.siteReqEnd_keeps hc (ok_ite (State.bump_keeps hc (Closed.upd hc hS)) (Closed.upd hc hS))

theorem State.withReq_keeps {P} (_hP : Closed P) {s r f} (hS : P s) (hFf : ∀ v0 v1, P v0 → P (f v0 v1)) :
    P (State.withReq s r f) := by
  unfold State.withReq
  split
  · exact hFf _ _ hS
  · exact hS

theorem State.loseReqs_keeps {P} (hP : ClosedMem P) {s rs} (hS : P s) : P (State.loseReqs s rs) := by
  have hc := hP.toClosed
  unfold State.loseReqs
  exact State.each_keeps hc hS (fun v0 v1 h2 => (State.withReq_keeps hc h2 (fun v3 v4 h5 => (State.reqEnd_keeps hP h5))))

theorem execPeerTimeout_keeps {P} (hP : ClosedMem P) {t tag s} (hS : P s) : OkN P (execPeerTimeout t tag s) := by
  have hc := hP.toClosed
  unfold execPeerTimeout
  refine State.live_keeps hc hS (fun v0 h1 => ?_)
  split
  · rename_i x10 x11 x12
    exact ok_ite (State.reqEnd_keeps hP h1) h1
  · rename_i x10 x11
    exact h1

theorem State.latBound_keeps {P} (hP : Closed P) {s l reason} (hS : P s) : P (State.latBound s l reason) := by
  unfold State.latBound
  dsimp only
  exact State.pmcHub_keeps hP (State.offer_keeps hP (okR_snd (State.free_keeps hP hS)))

theorem State.leaveMsgs_keeps {P} (hP : Closed P) {s ms} (hS : P s) : P (State.leaveMsgs s ms) := by
  unfold State.leaveMsgs
  dsimp only
  refine State.each_keeps hP (State.markSent_keeps hP hS) (fun v0 v1 h2 => ?_)
  split
  · rename_i x10 x11 x12 x13
    exact State.cmdSettle_keeps hP h2
  · rename_i x10 x11
    exact h2

theorem State.onLanes_keeps {P} (hP : Closed P) {s l f} (hS : P s) : P (State.onLanes s l f) := by
  unfold State.onLanes
  exact Closed.upd hP hS

theorem State.countFlit_keeps {P} (hP : Closed P) {s l f} (hS : P s) : P (State.countFlit s l f) := by
  unfold State.countFlit
  exact State.pmcHub_keeps hP (State.bump_keeps hP (State.onLanes_keeps hP hS))

theorem State.sentBound_keeps {P} (hP : Closed P) {s l token head ms} (hS : P s) : P (State.sentBound s l token head ms) :=
    by
  unfold State.sentBound
  exact ok_ite (State.each_keeps hP (State.bump_keeps hP hS) (fun v0 v1 h2 => (State.latBound_keeps hP h2))) (ok_ite
      (State.latBound_keeps hP hS) hS)

theorem State.sendNew_keeps {P} (hP : Closed P) {s l p turns} (hS : P s) : P (State.sendNew s l p turns) := by
  unfold State.sendNew
  dsimp only
  exact State.leaveMsgs_keeps hP (ok_ite (State.sentBound_keeps hP (State.countFlit_keeps hP (State.setLink_keeps hP hS)))
      (State.countFlit_keeps hP (State.setLink_keeps hP hS)))

theorem State.sendAgain_keeps {P} (hP : Closed P) {s l f} (hS : P s) : P (State.sendAgain s l f) := by
  unfold State.sendAgain
  dsimp only
  exact State.countFlit_keeps hP (State.setLink_keeps hP hS)

theorem State.sendNull_keeps {P} (hP : Closed P) {s l} (hS : P s) : P (State.sendNull s l) := by
  unfold State.sendNull
  dsimp only
  exact State.onLanes_keeps hP (State.setLink_keeps hP (okR_snd (State.free_keeps hP hS)))

theorem execFlitSend_keeps {P} (hP : Closed P) {t link s} (hS : P s) : OkN P (execFlitSend t link s) := by
  unfold execFlitSend
  refine State.live_keeps hP hS (fun v0 h1 => (ok_ite ?_ h1))
  split
  · rename_i x10 x11 x12 x13
    exact State.sendAgain_keeps hP h1
  · rename_i x10 x11
    refine ok_ite (State.sendNull_keeps hP h1) ?_
    split
    · rename_i x22 x23 x24 x25
      exact State.sendNew_keeps hP h1
    · rename_i x22 x23
      exact State.sendNull_keeps hP h1

theorem State.startReplay_keeps {P} (hP : Closed P) {s l} (hS : P s) : P (State.startReplay s l) := by
  unfold State.startReplay
  dsimp only
  exact State.bump_keeps hP (State.setLink_keeps hP hS)

theorem State.flitHeader_keeps {P} (hP : Closed P) {s l f} (hS : P s) : P (State.flitHeader s l f) := by
  unfold State.flitHeader
  dsimp only
  exact ok_ite (State.startReplay_keeps hP (State.setLink_keeps hP hS)) (State.setLink_keeps hP hS)

theorem State.discardFlit_keeps {P} (hP : Closed P) {s l} (hS : P s) : P (State.discardFlit s l) := by
  unfold State.discardFlit
  dsimp only
  exact State.setLink_keeps hP hS

theorem State.deliver_keeps {P} (hP : Closed P) {s port entry cls m c0} (hS : P s) : P (State.deliver s port entry cls m c0)
    := by
  unfold State.deliver
  dsimp only
  exact ok_ite (Closed.upd hP hS) (State.respond_keeps hP hS)

theorem State.suspended_keeps {P} (hP : Closed P) {s l m} (hS : P s) : P (State.suspended s l m) := by
  unfold State.suspended
  dsimp only
  exact ok_ite (State.latBound_keeps hP (State.setLink_keeps hP hS)) hS

theorem State.acceptFlit_keeps {P} (hP : Closed P) {s l f} (hS : P s) : P (State.acceptFlit s l f) := by
  unfold State.acceptFlit
  dsimp only
  exact State.each_keeps hP (State.bump_keeps hP (State.setLink_keeps hP hS)) (fun v0 v1 h2 => (State.deliver_keeps hP
      (ok_ite (State.suspended_keeps hP h2) h2)))

theorem execFlitReceive_keeps {P} (hP : Closed P) {t link words fecCorr fecBad s} (hS : P s) : OkN P (execFlitReceive t link
    words fecCorr fecBad s) := by
  unfold execFlitReceive
  refine State.live_keeps hP hS (fun v0 h1 => (ok_ite ?_ h1))
  dsimp only
  exact ok_ite (State.discardFlit_keeps hP (State.bump_keeps hP (State.bump_keeps hP h1))) (ok_ite (State.discardFlit_keeps
      hP (State.bump_keeps hP (State.bump_keeps hP h1))) (ok_ite (State.flitHeader_keeps hP (State.bump_keeps hP h1))
      (ok_ite (State.acceptFlit_keeps hP (State.flitHeader_keeps hP (State.bump_keeps hP h1))) (State.discardFlit_keeps hP
      (State.bump_keeps hP h1)))))

theorem execReplayTimeout_keeps {P} (hP : Closed P) {t link s} (hS : P s) : OkN P (execReplayTimeout t link s) := by
  unfold execReplayTimeout
  refine State.live_keeps hP hS (fun v0 h1 => ?_)
  dsimp only
  exact ok_ite (State.startReplay_keeps hP h1) h1

theorem execTokenEarn_keeps {P} (hP : Closed P) {t link s} (hS : P s) : OkN P (execTokenEarn t link s) := by
  unfold execTokenEarn
  refine State.live_keeps hP hS (fun v0 h1 => ?_)
  dsimp only
  exact ok_ite (State.setLink_keeps hP h1) h1

theorem State.reroute_keeps {P} (hP : ClosedMem P) {s r} (hS : P s) : P (State.reroute s r) := by
  have hc := hP.toClosed
  unfold State.reroute
  split
  · rename_i x0 x1
    exact State.reqEnd_keeps hP hS
  · rename_i x0 x1 x2
    dsimp only
    exact State.pushMsg_keeps hc (Closed.upd hc hS)

theorem State.muteRx_keeps {P} (hP : Closed P) {s l} (hS : P s) : P (State.muteRx s l) := by
  unfold State.muteRx
  dsimp only
  exact Closed.upd hP hS

theorem State.linkDown_keeps {P} (hP : ClosedMem P) {s l} (hS : P s) : P (State.linkDown s l) := by
  have hc := hP.toClosed
  unfold State.linkDown
  dsimp only
  exact State.each_keeps hc (State.loseReqs_keeps hP (Closed.upd hc (State.muteRx_keeps hc (State.wr_keeps hc
      (State.wr_keeps hc (State.setLink_keeps hc hS)))))) (fun v0 v1 h2 => (State.withReq_keeps hc h2 (fun v3 v4 h5 =>
      (State.reroute_keeps hP h5))))

theorem State.beginTraining_keeps {P} (hP : Closed P) {s l} (hS : P s) : P (State.beginTraining s l) := by
  unfold State.beginTraining
  exact State.wr_keeps hP (State.setLink_keeps hP hS)

theorem State.activeFresh_keeps {P} (hP : Closed P) {s l peer} (hS : P s) : P (State.activeFresh s l peer) := by
  unfold State.activeFresh
  dsimp only
  exact State.wr_keeps hP (State.wr_keeps hP (State.wr_keeps hP (State.setLink_keeps hP hS)))

theorem State.linkConfigured_keeps {P} (hP : ClosedMem P) {s l} (hS : P s) : P (State.linkConfigured s l) := by
  have hc := hP.toClosed
  unfold State.linkConfigured
  exact ok_ite (ok_ite (State.beginTraining_keeps hc hS) hS) (ok_ite hS (State.wr_keeps hc (State.linkDown_keeps hP hS)))

theorem State.linkStore_keeps {P} (hP : ClosedMem P) {s agent l v} (hS : P s) : P (State.linkStore s agent l v) := by
  have hc := hP.toClosed
  unfold State.linkStore
  exact State.linkConfigured_keeps hP (State.storeReg_keeps hc hS)

theorem execLinkEnable_keeps {P} (hP : ClosedMem P) {t agent link v s} (hS : P s) : OkN P (execLinkEnable t agent link v s)
    := by
  have hc := hP.toClosed
  unfold execLinkEnable
  refine State.live_keeps hc hS (fun v0 h1 => (ok_ite ?_ h1))
  dsimp only
  exact State.gate_keeps hc h1 (fun v10 h11 => (State.txnWrite_keeps hc h11 (fun v12 h13 => (State.linkStore_keeps hP
      h13))))

theorem State.resumeLink_keeps {P} (hP : Closed P) {s l peer lastSeq} (hS : P s) : P (State.resumeLink s l peer lastSeq) :=
    by
  unfold State.resumeLink
  dsimp only
  exact State.wr_keeps hP (State.wr_keeps hP (State.wr_keeps hP (State.setLink_keeps hP hS)))

theorem execTrainingDone_keeps {P} (hP : ClosedMem P) {t link peer resume lastSeq s} (hS : P s) : OkN P (execTrainingDone t
    link peer resume lastSeq s) := by
  have hc := hP.toClosed
  unfold execTrainingDone
  refine State.live_keeps hc hS (fun v0 h1 => ?_)
  split
  · rename_i x10 x11
    exact State.activeFresh_keeps hc h1
  · rename_i x10 x11
    exact ok_ite (State.resumeLink_keeps hc h1) (State.activeFresh_keeps hc (State.bump_keeps hc (State.linkDown_keeps hP
        h1)))
  · rename_i x10 x11 x12
    exact h1

theorem execTrainingTimeout_keeps {P} (hP : ClosedMem P) {t link s} (hS : P s) : OkN P (execTrainingTimeout t link s) := by
  have hc := hP.toClosed
  unfold execTrainingTimeout
  exact State.live_keeps hc hS (fun v0 h1 => (ok_ite (State.linkDown_keeps hP h1) h1))

theorem State.enterRetrain_keeps {P} (hP : Closed P) {s l} (hS : P s) : P (State.enterRetrain s l) := by
  unfold State.enterRetrain
  dsimp only
  exact State.bump_keeps hP (State.wr_keeps hP (State.wr_keeps hP (State.setLink_keeps hP hS)))

theorem State.retrainLink_keeps {P} (hP : Closed P) {s l} (hS : P s) : P (State.retrainLink s l) := by
  unfold State.retrainLink
  exact ok_ite (State.enterRetrain_keeps hP hS) hS

theorem execLinkRetrain_keeps {P} (hP : Closed P) {t link cause agent s} (hS : P s) : OkN P (execLinkRetrain t link cause
    agent s) := by
  unfold execLinkRetrain
  refine State.live_keeps hP hS (fun v0 h1 => ?_)
  dsimp only
  exact ok_ite h1 (ok_ite (State.gate_keeps hP h1 (fun v10 h11 => (State.retrainLink_keeps hP h11))) (ok_ite (ok_ite
      (State.retrainLink_keeps hP h1) h1) (State.retrainLink_keeps hP h1)))

theorem execRetrainTimeout_keeps {P} (hP : ClosedMem P) {t link s} (hS : P s) : OkN P (execRetrainTimeout t link s) := by
  have hc := hP.toClosed
  unfold execRetrainTimeout
  exact State.live_keeps hc hS (fun v0 h1 => (ok_ite (State.linkDown_keeps hP h1) h1))

theorem execAutoTrain_keeps {P} (hP : Closed P) {t link s} (hS : P s) : OkN P (execAutoTrain t link s) := by
  unfold execAutoTrain
  exact State.live_keeps hP hS (fun v0 h1 => (ok_ite (State.beginTraining_keeps hP h1) h1))

theorem State.trainLink_keeps {P} (hP : Closed P) {s l} (hS : P s) : P (State.trainLink s l) := by
  unfold State.trainLink
  exact ok_ite (State.beginTraining_keeps hP hS) hS

theorem execTrain_keeps {P} (hP : Closed P) {t agent link s} (hS : P s) : OkN P (execTrain t agent link s) := by
  unfold execTrain
  exact State.live_keeps hP hS (fun v0 h1 => (ok_ite (State.gate_keeps hP h1 (fun v2 h3 => (State.trainLink_keeps hP h3)))
      h1))

theorem State.winCheck_keeps {P} (hP : Closed P) {s w} (hS : P s) : P (State.winCheck s w) := by
  unfold State.winCheck
  dsimp only
  exact State.wr_keeps hP hS

theorem State.winStore_keeps {P} (hP : Closed P) {s agent w v} (hS : P s) : P (State.winStore s agent w v) := by
  unfold State.winStore
  dsimp only
  exact ok_ite (State.winCheck_keeps hP (State.storeReg_keeps hP hS)) (State.storeReg_keeps hP hS)

theorem execWindowValid_keeps {P} (hP : Closed P) {t agent w v s} (hS : P s) : OkN P (execWindowValid t agent w v s) := by
  unfold execWindowValid
  refine State.live_keeps hP hS (fun v0 h1 => (ok_ite ?_ h1))
  dsimp only
  exact State.gate_keeps hP h1 (fun v10 h11 => (State.txnWrite_keeps hP h11 (fun v12 h13 => (State.winStore_keeps hP h13))))

theorem execLinkRejoin_keeps {P} (hP : Closed P) {t w link s} (hS : P s) : OkN P (execLinkRejoin t w link s) := by
  unfold execLinkRejoin
  exact State.live_keeps hP hS (fun v0 h1 => (ok_ite (Closed.upd hP h1) h1))

/-! ### Save -/

theorem State.packageReset_keeps {P : State → Prop} (hP : ClosedMem P) {s : State} (hS : P s) : P (State.packageReset s) :=
  hP.reset _ hS

theorem State.resetDue_keeps {P} (hP : ClosedMem P) {s} (hS : P s) : P (State.resetDue s) := by
  have hc := hP.toClosed
  unfold State.resetDue
  exact ok_ite (Closed.upd hc hS) (State.packageReset_keeps hP hS)

theorem execPackageReset_keeps {P} (hP : ClosedMem P) {t src s} (hS : P s) : OkN P (execPackageReset t src s) := by
  have hc := hP.toClosed
  unfold execPackageReset
  refine okN_next ?_
  dsimp only
  refine ok_ite ?_ (State.advance_keeps hc hS)
  split
  · rename_i x20
    exact State.packageReset_keeps hP (State.advance_keeps hc hS)
  · rename_i x20 x21
    exact State.resetDue_keeps hP (State.advance_keeps hc hS)

theorem State.startSave_keeps {P} (hP : Closed P) {s cause} (hS : P s) : P (State.startSave s cause) := by
  unfold State.startSave
  refine ok_ite ?_ hS
  dsimp only
  exact Closed.upd hP (State.wr_keeps hP (State.wr_keeps hP (State.wr_keeps hP (ok_ite (State.openEvent_keeps hP hS) hS))))

theorem execSaveStart_keeps {P} (hP : Closed P) {t cause s} (hS : P s) : OkN P (execSaveStart t cause s) := by
  unfold execSaveStart
  exact okN_next (State.startSave_keeps hP (State.advance_keeps hP hS))

theorem State.abandonStores_keeps {P} (hP : Closed P) {s} (hS : P s) : P (State.abandonStores s) := by
  unfold State.abandonStores
  dsimp only
  exact State.each_keeps hP (Closed.upd hP hS) (fun v0 v1 h2 => (State.setHost_keeps hP h2))

theorem execSaveDrainEnd_keeps {P} (hP : ClosedMem P) {t s} (hS : P s) : OkN P (execSaveDrainEnd t s) := by
  have hc := hP.toClosed
  unfold execSaveDrainEnd
  refine okN_next ?_
  dsimp only
  exact ok_ite (State.engWrite_keeps hP (Closed.upd hc (State.abandonStores_keeps hc (State.advance_keeps hc hS))))
      (State.advance_keeps hc hS)

theorem State.saveEnds_keeps {P} (hP : ClosedMem P) {s phase} (hS : P s) : P (State.saveEnds s phase) := by
  have hc := hP.toClosed
  unfold State.saveEnds
  dsimp only
  exact ok_ite (State.packageReset_keeps hP (Closed.upd hc hS)) (Closed.upd hc hS)

theorem execSaveComplete_keeps {P} (hP : ClosedMem P) {t s} (hS : P s) : OkN P (execSaveComplete t s) := by
  have hc := hP.toClosed
  unfold execSaveComplete
  refine okN_next ?_
  dsimp only
  exact ok_ite (State.saveEnds_keeps hP (State.engWrite_keeps hP (State.each_keeps hc (State.advance_keeps hc hS) (fun v10
      v11 h12 => (State.engWrite_keeps hP h12))))) (State.advance_keeps hc hS)

theorem execHoldVinLoss_keeps {P} (hP : ClosedMem P) {t s} (hS : P s) : OkN P (execHoldVinLoss t s) := by
  have hc := hP.toClosed
  unfold execHoldVinLoss
  refine okN_next ?_
  dsimp only
  exact ok_ite (State.saveEnds_keeps hP (Closed.upd hc (State.advance_keeps hc hS))) (Closed.upd hc (State.advance_keeps hc
      hS))

theorem execHoldOkChange_keeps {P} (hP : Closed P) {t mv s} (hS : P s) : OkN P (execHoldOkChange t mv s) := by
  unfold execHoldOkChange
  refine okN_next ?_
  dsimp only
  exact Closed.upd hP (State.advance_keeps hP hS)

theorem execThermalSample_keeps {P} (hP : ClosedMem P) {t temps s} (hS : P s) : OkN P (execThermalSample t temps s) := by
  have hc := hP.toClosed
  unfold execThermalSample
  refine okN_next ?_
  dsimp only
  exact ok_ite (State.advance_keeps hc hS) (ok_ite (State.startSave_keeps hc (Closed.upd hc (ok_ite (State.closeEvents_keeps
      hP (State.noteYields_keeps hc (State.each_keeps hc (State.advance_keeps hc hS) (fun v10 v11 h12 =>
      (State.readTemp_keeps hc h12))))) (State.advance_keeps hc hS)))) (ok_ite (State.closeEvents_keeps hP
      (State.noteYields_keeps hc (State.each_keeps hc (State.advance_keeps hc hS) (fun v10 v11 h12 => (State.readTemp_keeps
      hc h12))))) (State.advance_keeps hc hS)))

end Sys2Proof.Machine
end

