-- ==== Sys2Proof/Laws/KeepsSystem.lean ====
section
/-! SUPPORT. What survives objects, mailboxes, transactions, resets, registers, firmware, host cores and messages. -/

namespace Sys2Proof.Machine

/-! ### Sync -/

theorem execSyAdd_keeps {P} (hP : Closed P) {t agent obj v s} (hS : P s) : OkN P (execSyAdd t agent obj v s) := by
  unfold execSyAdd
  exact State.live_keeps hP hS (fun v0 h1 => (ok_ite h1 (State.gate_keeps hP h1 (fun v2 h3 => (State.syPerform_keeps hP
      h3)))))

theorem execSySet_keeps {P} (hP : Closed P) {t agent obj v s} (hS : P s) : OkN P (execSySet t agent obj v s) := by
  unfold execSySet
  exact State.live_keeps hP hS (fun v0 h1 => (ok_ite h1 (State.gate_keeps hP h1 (fun v2 h3 => (State.syPerform_keeps hP
      h3)))))

theorem State.trigChanged_keeps {P} (hP : Closed P) {s obj before} (hS : P s) : P (State.trigChanged s obj before) := by
  unfold State.trigChanged
  dsimp only
  exact ok_ite (ok_ite (State.evalTrigger_keeps hP (State.wr_keeps hP hS)) (State.wr_keeps hP hS)) hS

theorem State.trigStore_keeps {P} (hP : Closed P) {s agent obj v} (hS : P s) : P (State.trigStore s agent obj v) := by
  unfold State.trigStore
  dsimp only
  exact ok_ite (State.trigChanged_keeps hP (State.storeReg_keeps hP hS)) (State.storeReg_keeps hP hS)

theorem execSyTrigCfg_keeps {P} (hP : Closed P) {t agent obj v s} (hS : P s) : OkN P (execSyTrigCfg t agent obj v s) := by
  unfold execSyTrigCfg
  refine State.live_keeps hP hS (fun v0 h1 => ?_)
  dsimp only
  exact ok_ite h1 (State.gate_keeps hP h1 (fun v10 h11 => (State.txnWrite_keeps hP h11 (fun v12 h13 =>
      (State.trigStore_keeps hP h13)))))

theorem execAdvance_keeps {P} (hP : ClosedMem P) {t s} (hS : P s) : OkN P (execAdvance t s) := by
  have hc := hP.toClosed
  unfold execAdvance
  refine State.live_keeps hc hS (fun v0 h1 => ?_)
  split
  · rename_i x10 x11
    exact h1
  · rename_i x10 x11 x12 x13 x14
    exact State.tailTo_keeps hP (Closed.upd hc h1)

theorem State.eventRead_keeps {P} (hP : Closed P) {s agent c} (hS : P s) : P (State.eventRead s agent c) := by
  unfold State.eventRead
  dsimp only
  exact Closed.upd hP (State.answer_keeps hP hS)

theorem execSyEventRead_keeps {P} (hP : Closed P) {t agent core s} (hS : P s) : OkN P (execSyEventRead t agent core s) := by
  unfold execSyEventRead
  exact State.live_keeps hP hS (fun v0 h1 => (ok_ite h1 (State.gate_keeps hP h1 (fun v2 h3 => (State.eventRead_keeps hP
      h3)))))

theorem State.expire_keeps {P} (hP : ClosedMem P) {s w} (hS : P s) : P (State.expire s w) := by
  have hc := hP.toClosed
  unfold State.expire
  dsimp only
  split
  · rename_i x0 x1 x2
    split
    · rename_i x3 x4 x5
      exact ok_ite (State.passPc_keeps hc (State.setCore_keeps hc (State.offerCore_keeps hc (Closed.upd hc hS))))
          (State.raise_keeps hc (State.setCore_keeps hc (State.offerCore_keeps hc (Closed.upd hc hS))))
    · rename_i x3 x4
      exact State.offerCore_keeps hc (Closed.upd hc hS)
  · rename_i x0 x1 x2
    refine State.park_keeps hP ?_
    split
    · rename_i x13 x14 x15
      exact State.offerQueue_keeps hc (Closed.upd hc hS)
    · rename_i x13 x14
      exact Closed.upd hc hS

theorem execWaitTimeout_keeps {P} (hP : ClosedMem P) {t w s} (hS : P s) : OkN P (execWaitTimeout t w s) := by
  have hc := hP.toClosed
  unfold execWaitTimeout
  refine State.live_keeps hc hS (fun v0 h1 => ?_)
  split
  · rename_i x10 x11 x12
    exact ok_ite h1 (State.expire_keeps hP h1)
  · rename_i x10 x11
    exact h1

/-! ### Mailbox -/

theorem State.mbForeign_keeps {P} (hP : Closed P) {s m} (hS : P s) : P (State.mbForeign s m) := by
  unfold State.mbForeign
  exact State.bump_keeps hP hS

theorem State.mbFree_keeps {P} (hP : Closed P) {s m} (hS : P s) : P (State.mbFree s m) := by
  unfold State.mbFree
  dsimp only
  exact State.setMbox_keeps hP (State.wr_keeps hP (State.wr_keeps hP (State.wr_keeps hP hS)))

theorem State.mbLockRead_keeps {P} (hP : Closed P) {s agent m} (hS : P s) : P (State.mbLockRead s agent m) := by
  unfold State.mbLockRead
  exact ok_ite (State.answer_keeps hP (State.wr_keeps hP (State.wr_keeps hP hS))) (ok_ite (State.answer_keeps hP hS) (ok_ite
      (State.answer_keeps hP hS) (State.answer_keeps hP hS)))

theorem execMbLock_keeps {P} (hP : Closed P) {t agent m s} (hS : P s) : OkN P (execMbLock t agent m s) := by
  unfold execMbLock
  exact State.live_keeps hP hS (fun v0 h1 => (ok_ite h1 (State.gate_keeps hP h1 (fun v2 h3 => (State.mbLockRead_keeps hP
      h3)))))

theorem State.mbReleaseWrite_keeps {P} (hP : Closed P) {s agent m v} (hS : P s) : P (State.mbReleaseWrite s agent m v) := by
  unfold State.mbReleaseWrite
  dsimp only
  exact ok_ite (ok_ite (State.mbFree_keeps hP hS) hS) (ok_ite (ok_ite (State.bump_keeps hP (State.mbFree_keeps hP hS)) hS)
      (State.mbForeign_keeps hP hS))

theorem execMbRelease_keeps {P} (hP : Closed P) {t agent m v s} (hS : P s) : OkN P (execMbRelease t agent m v s) := by
  unfold execMbRelease
  refine State.live_keeps hP hS (fun v0 h1 => ?_)
  dsimp only
  exact ok_ite h1 (State.gate_keeps hP h1 (fun v10 h11 => (State.mbReleaseWrite_keeps hP (State.storeReg_keeps hP h11))))

theorem State.mbReqPush_keeps {P} (hP : Closed P) {s agent m v} (hS : P s) : P (State.mbReqPush s agent m v) := by
  unfold State.mbReqPush
  dsimp only
  exact ok_ite (ok_ite (State.setMbox_keeps hP hS) (State.wr_keeps hP hS)) (State.mbForeign_keeps hP hS)

theorem execMbReqWrite_keeps {P} (hP : Closed P) {t agent m v s} (hS : P s) : OkN P (execMbReqWrite t agent m v s) := by
  unfold execMbReqWrite
  exact State.live_keeps hP hS (fun v0 h1 => (ok_ite h1 (State.gate_keeps hP h1 (fun v2 h3 => (State.mbReqPush_keeps hP
      h3)))))

theorem State.mbReqPop_keeps {P} (hP : Closed P) {s agent m} (hS : P s) : P (State.mbReqPop s agent m) := by
  unfold State.mbReqPop
  dsimp only
  refine ok_ite ?_ (ok_ite (State.answer_keeps hP (State.wr_keeps hP hS)) (State.answer_keeps hP hS))
  split
  · rename_i x10 x11 x12 x13
    exact State.answer_keeps hP (State.setMbox_keeps hP hS)
  · rename_i x10 x11
    exact State.answer_keeps hP (State.wr_keeps hP hS)

theorem execMbReqRead_keeps {P} (hP : Closed P) {t agent m s} (hS : P s) : OkN P (execMbReqRead t agent m s) := by
  unfold execMbReqRead
  exact State.live_keeps hP hS (fun v0 h1 => (ok_ite h1 (State.gate_keeps hP h1 (fun v2 h3 => (State.mbReqPop_keeps hP
      h3)))))

theorem State.mbRspPush_keeps {P} (hP : Closed P) {s agent m v} (hS : P s) : P (State.mbRspPush s agent m v) := by
  unfold State.mbRspPush
  dsimp only
  exact ok_ite (ok_ite (State.setMbox_keeps hP hS) hS) (State.mbForeign_keeps hP hS)

theorem execMbRspWrite_keeps {P} (hP : Closed P) {t agent m v s} (hS : P s) : OkN P (execMbRspWrite t agent m v s) := by
  unfold execMbRspWrite
  exact State.live_keeps hP hS (fun v0 h1 => (ok_ite h1 (State.gate_keeps hP h1 (fun v2 h3 => (State.mbRspPush_keeps hP
      h3)))))

theorem State.mbRspPop_keeps {P} (hP : Closed P) {s agent m} (hS : P s) : P (State.mbRspPop s agent m) := by
  unfold State.mbRspPop
  dsimp only
  refine ok_ite ?_ (ok_ite (State.answer_keeps hP (State.wr_keeps hP hS)) (State.answer_keeps hP hS))
  split
  · rename_i x10 x11 x12 x13
    exact State.answer_keeps hP (State.setMbox_keeps hP hS)
  · rename_i x10 x11
    exact State.answer_keeps hP (State.wr_keeps hP hS)

theorem execMbRspRead_keeps {P} (hP : Closed P) {t agent m s} (hS : P s) : OkN P (execMbRspRead t agent m s) := by
  unfold execMbRspRead
  exact State.live_keeps hP hS (fun v0 h1 => (ok_ite h1 (State.gate_keeps hP h1 (fun v2 h3 => (State.mbRspPop_keeps hP
      h3)))))

theorem State.mbSendWrite_keeps {P} (hP : Closed P) {s agent m v} (hS : P s) : P (State.mbSendWrite s agent m v) := by
  unfold State.mbSendWrite
  refine ok_ite ?_ (State.mbForeign_keeps hP hS)
  dsimp only
  exact ok_ite (State.wr_keeps hP (State.wr_keeps hP (State.setMbox_keeps hP hS))) (ok_ite (State.wr_keeps hP
      (State.setMbox_keeps hP hS)) (ok_ite (State.notify_keeps hP (State.wr_keeps hP (State.setMbox_keeps hP hS)))
      (State.wr_keeps hP (State.setMbox_keeps hP hS))))

theorem execMbSend_keeps {P} (hP : Closed P) {t agent m v s} (hS : P s) : OkN P (execMbSend t agent m v s) := by
  unfold execMbSend
  refine State.live_keeps hP hS (fun v0 h1 => ?_)
  dsimp only
  exact ok_ite h1 (State.gate_keeps hP h1 (fun v10 h11 => (State.mbSendWrite_keeps hP (State.storeReg_keeps hP h11))))

theorem State.mbDone_keeps {P} (hP : Closed P) {s m code} (hS : P s) : P (State.mbDone s m code) := by
  unfold State.mbDone
  dsimp only
  exact State.setMbox_keeps hP (State.wr_keeps hP (State.wr_keeps hP hS))

theorem State.mbTimeout_keeps {P} (hP : Closed P) {s m} (hS : P s) : P (State.mbTimeout s m) := by
  unfold State.mbTimeout
  exact State.setMbox_keeps hP (State.wr_keeps hP (State.wr_keeps hP hS))

theorem State.mbAckWrite_keeps {P} (hP : Closed P) {s agent m v} (hS : P s) : P (State.mbAckWrite s agent m v) := by
  unfold State.mbAckWrite
  dsimp only
  exact ok_ite (State.report_keeps hP (State.bump_keeps hP hS)) (ok_ite (ok_ite (State.report_keeps hP (State.bump_keeps hP
      (State.mbTimeout_keeps hP hS))) (ok_ite (State.report_keeps hP (State.mbDone_keeps hP hS)) (State.report_keeps hP
      hS))) (State.report_keeps hP (State.mbForeign_keeps hP hS)))

theorem execMbAck_keeps {P} (hP : Closed P) {t agent m v s} (hS : P s) : OkN P (execMbAck t agent m v s) := by
  unfold execMbAck
  exact State.live_keeps hP hS (fun v0 h1 => (ok_ite h1 (State.gate_keeps hP h1 (fun v2 h3 => (State.mbAckWrite_keeps hP
      h3)))))

theorem execMailboxTimeout_keeps {P} (hP : Closed P) {t m s} (hS : P s) : OkN P (execMailboxTimeout t m s) := by
  unfold execMailboxTimeout
  exact State.live_keeps hP hS (fun v0 h1 => (ok_ite (State.mbTimeout_keeps hP h1) h1))

theorem State.mbOwnerReset_keeps {P} (hP : Closed P) {s agent} (hS : P s) : P (State.mbOwnerReset s agent) := by
  unfold State.mbOwnerReset
  exact State.each_keeps hP hS (fun v0 v1 h2 => (ok_ite (State.bump_keeps hP (State.mbFree_keeps hP h2)) h2))

/-! ### Txn -/

theorem State.txnEnd_keeps {P} (hP : Closed P) {s result tick} (hS : P s) : P (State.txnEnd s result tick) := by
  unfold State.txnEnd
  dsimp only
  exact ok_ite (State.notify_keeps hP (Closed.upd hP (State.offer_keeps hP (State.setReg_keeps hP (State.wr_keeps hP
      (State.wr_keeps hP (State.wr_keeps hP (State.wr_keeps hP hS)))))))) (Closed.upd hP (State.offer_keeps hP
      (State.setReg_keeps hP (State.wr_keeps hP (State.wr_keeps hP (State.wr_keeps hP (State.wr_keeps hP hS)))))))

theorem State.txnBegin_keeps {P} (hP : Closed P) {s agent} (hS : P s) : P (State.txnBegin s agent) := by
  unfold State.txnBegin
  refine ok_ite (State.answer_keeps hP hS) (ok_ite ?_ (ok_ite (State.answer_keeps hP hS) (State.answer_keeps hP hS)))
  dsimp only
  exact State.answer_keeps hP (Closed.upd hP (State.wr_keeps hP (State.wr_keeps hP hS)))

theorem execTxnBegin_keeps {P} (hP : Closed P) {t agent s} (hS : P s) : OkN P (execTxnBegin t agent s) := by
  unfold execTxnBegin
  exact State.live_keeps hP hS (fun v0 h1 => (State.gate_keeps hP h1 (fun v2 h3 => (State.txnBegin_keeps hP h3))))

theorem State.txnCommit_keeps {P} (hP : Closed P) {s agent v} (hS : P s) : P (State.txnCommit s agent v) := by
  unfold State.txnCommit
  split
  · rename_i x0 x1
    exact hS
  · rename_i x0 x1
    dsimp only
    exact ok_ite (Closed.upd hP (State.wr_keeps hP hS)) (State.bump_keeps hP hS)
  · rename_i x0 x1 x2
    exact State.bump_keeps hP hS

theorem execTxnCommit_keeps {P} (hP : Closed P) {t agent v s} (hS : P s) : OkN P (execTxnCommit t agent v s) := by
  unfold execTxnCommit
  exact State.live_keeps hP hS (fun v0 h1 => (State.gate_keeps hP h1 (fun v2 h3 => (State.txnCommit_keeps hP
      (State.storeReg_keeps hP h3)))))

theorem State.txnRollback_keeps {P} (hP : Closed P) {s agent v} (hS : P s) : P (State.txnRollback s agent v) := by
  unfold State.txnRollback
  split
  · rename_i x0 x1
    exact hS
  · rename_i x0 x1
    exact ok_ite (State.bump_keeps hP hS) (ok_ite (State.txnEnd_keeps hP hS) hS)
  · rename_i x0 x1 x2
    exact State.bump_keeps hP hS

theorem execTxnRollback_keeps {P} (hP : Closed P) {t agent v s} (hS : P s) : OkN P (execTxnRollback t agent v s) := by
  unfold execTxnRollback
  exact State.live_keeps hP hS (fun v0 h1 => (State.gate_keeps hP h1 (fun v2 h3 => (State.txnRollback_keeps hP
      (State.storeReg_keeps hP h3)))))

theorem State.txnAbort_keeps {P} (hP : Closed P) {s v} (hS : P s) : P (State.txnAbort s v) := by
  unfold State.txnAbort
  exact ok_ite (State.txnEnd_keeps hP hS) hS

theorem execTxnAbort_keeps {P} (hP : Closed P) {t agent v s} (hS : P s) : OkN P (execTxnAbort t agent v s) := by
  unfold execTxnAbort
  exact State.live_keeps hP hS (fun v0 h1 => (State.gate_keeps hP h1 (fun v2 h3 => (State.txnAbort_keeps hP
      (State.storeReg_keeps hP h3)))))

theorem execLeaseExpiry_keeps {P} (hP : Closed P) {t s} (hS : P s) : OkN P (execLeaseExpiry t s) := by
  unfold execLeaseExpiry
  exact State.live_keeps hP hS (fun v0 h1 => (ok_ite (State.txnEnd_keeps hP h1) h1))

theorem State.txnOwnerReset_keeps {P} (hP : Closed P) {s agent} (hS : P s) : P (State.txnOwnerReset s agent) := by
  unfold State.txnOwnerReset
  exact ok_ite (State.txnEnd_keeps hP hS) hS

/-! ### Resets -/

theorem State.rstPut_keeps {P} (hP : ClosedMem P) {s es} (hS : P s) : OkR P (State.rstPut s es) := by
  have hc := hP.toClosed
  unfold State.rstPut
  dsimp only
  exact ok_ite (okR_mk (ok_ite (State.notify_keeps hc (State.wr_keeps hc (State.each_keeps hc hS (fun v0 v1 h2 =>
      (State.engWrite_keeps hP h2))))) (State.wr_keeps hc (State.each_keeps hc hS (fun v0 v1 h2 => (State.engWrite_keeps hP
      h2)))))) (okR_mk hS)

theorem State.rstRecord_keeps {P} (hP : ClosedMem P) {s x ctx cause start agent seq} (hS : P s) : P (State.rstRecord s x ctx
    cause start agent seq) := by
  have hc := hP.toClosed
  unfold State.rstRecord
  dsimp only
  refine ok_ite (State.bump_keeps hc hS) (ok_ite ?_ (State.bump_keeps hc (okR_snd (State.rstPut_keeps hP hS))))
  split
  · rename_i x10 x11 x12
    exact okR_snd (ok_eq x12 (State.rstPut_keeps hP hS))
  · rename_i x10 x11 x12
    exact State.bump_keeps hc (okR_snd (ok_eq x12 (State.rstPut_keeps hP hS)))

theorem State.requestReset_keeps {P} (hP : Closed P) {s r} (hS : P s) : P (State.requestReset s r) := by
  unfold State.requestReset
  exact ok_ite (State.bump_keeps hP (Closed.upd hP hS)) (ok_ite (State.bump_keeps hP hS) (Closed.upd hP hS))

theorem State.ctxrstWrite_keeps {P} (hP : Closed P) {s agent v} (hS : P s) : P (State.ctxrstWrite s agent v) := by
  unfold State.ctxrstWrite
  exact State.requestReset_keeps hP hS

theorem execDbgCtxrst_keeps {P} (hP : Closed P) {t agent v s} (hS : P s) : OkN P (execDbgCtxrst t agent v s) := by
  unfold execDbgCtxrst
  refine State.live_keeps hP hS (fun v0 h1 => ?_)
  dsimp only
  exact State.gate_keeps hP h1 (fun v10 h11 => (State.ctxrstWrite_keeps hP (State.storeReg_keeps hP h11)))

theorem State.stopArray_keeps {P} (hP : Closed P) {s c} (hS : P s) : P (State.stopArray s c) := by
  unfold State.stopArray
  dsimp only
  exact State.setCore_keeps hP (State.stopRecirc_keeps hP (State.dropArr_keeps hP hS))

theorem State.abortCore_keeps {P} (hP : Closed P) {s c} (hS : P s) : P (State.abortCore s c) := by
  unfold State.abortCore
  dsimp only
  exact State.setCore_keeps hP (State.tryEnd_keeps hP (State.raise_keeps hP (State.stopArray_keeps hP hS)))

theorem State.ctxPark_keeps {P} (hP : ClosedMem P) {s c} (hS : P s) : P (State.ctxPark s c) := by
  have hc := hP.toClosed
  unfold State.ctxPark
  dsimp only
  exact State.leaveChoice_keeps hP (Closed.upd hc (State.each_keeps hc hS (fun v0 v1 h2 => (State.park_keeps hP
      (State.leaveFault_keeps hc h2)))))

theorem State.ctxStop_keeps {P} (hP : Closed P) {s c} (hS : P s) : P (State.ctxStop s c) := by
  unfold State.ctxStop
  dsimp only
  exact State.each_keeps hP (State.each_keeps hP (State.each_keeps hP (State.each_keeps hP (Closed.upd hP hS) (fun v0 v1 h2
      => (State.abortCore_keeps hP h2))) (fun v0 v1 h2 => (State.ceEnd_keeps hP h2))) (fun v0 v1 h2 => (State.endMig_keeps
      hP (State.wr_keeps hP h2)))) (fun v0 v1 h2 => (State.setMig_keeps hP h2))

theorem State.abortCmd_keeps {P} (hP : ClosedMem P) {s x} (hS : P s) : P (State.abortCmd s x) := by
  have hc := hP.toClosed
  unfold State.abortCmd
  dsimp only
  split
  · rename_i x0 x1 x2 x3
    exact ok_ite (State.passHead_keeps hP (State.finish_keeps hc (ok_ite (State.endClaims_keeps hc hS) hS)))
        (State.finish_keeps hc (ok_ite (State.endClaims_keeps hc hS) hS))
  · rename_i x0 x1
    exact State.finish_keeps hc (ok_ite (State.endClaims_keeps hc hS) hS)

theorem State.completeAll_keeps {P} (hP : ClosedMem P) {s q a} (hS : P s) : P (State.completeAll s q a) := by
  have hc := hP.toClosed
  induction a generalizing s q with
  | zero  =>
    unfold State.completeAll
    exact hS
  | succ x0 x1 =>
    unfold State.completeAll
    split
    · rename_i x2 x3
      exact hS
    · rename_i x2 x3 x4
      exact x1 (State.complete_keeps hP hS)

theorem State.ctxEnd_keeps {P} (hP : ClosedMem P) {s c} (hS : P s) : P (State.ctxEnd s c) := by
  have hc := hP.toClosed
  unfold State.ctxEnd
  dsimp only
  exact State.each_keeps hc (State.each_keeps hc hS (fun v0 v1 h2 => (State.abortCmd_keeps hP h2))) (fun v0 v1 h2 =>
      (State.completeAll_keeps hP h2))

theorem State.resetContext_keeps {P} (hP : ClosedMem P) {s r} (hS : P s) : P (State.resetContext s r) := by
  have hc := hP.toClosed
  unfold State.resetContext
  dsimp only
  exact State.each_keeps hc (State.each_keeps hc (State.faultRecord_keeps hP (State.rstRecord_keeps hP (Closed.upd hc
      (State.ctxEnd_keeps hP (State.ctxStop_keeps hc (State.ctxPark_keeps hP hS)))))) (fun v0 v1 h2 => (State.notify_keeps
      hc h2))) (fun v0 v1 h2 => (State.bump_keeps hc (Closed.upd hc h2)))

theorem execContextReset_keeps {P} (hP : ClosedMem P) {t s} (hS : P s) : OkN P (execContextReset t s) := by
  have hc := hP.toClosed
  unfold execContextReset
  refine State.live_keeps hc hS (fun v0 h1 => ?_)
  split
  · rename_i x10 x11
    exact h1
  · rename_i x10 x11 x12 x13
    exact ok_ite (State.resetContext_keeps hP (Closed.upd hc h1)) h1

theorem State.fenceCore_keeps {P} (hP : ClosedMem P) {s c} (hS : P s) : P (State.fenceCore s c) := by
  have hc := hP.toClosed
  unfold State.fenceCore
  dsimp only
  exact State.faultRecord_keeps hP (State.ceLoseCore_keeps hc (State.wr_keeps hc (State.abortCore_keeps hc hS)))

theorem State.unfenceCore_keeps {P} (hP : ClosedMem P) {s c} (hS : P s) : P (State.unfenceCore s c) := by
  have hc := hP.toClosed
  unfold State.unfenceCore
  exact State.faultRecord_keeps hP (State.wr_keeps hc hS)

theorem State.tcFenceStore_keeps {P} (hP : ClosedMem P) {s agent n v} (hS : P s) : P (State.tcFenceStore s agent n v) := by
  have hc := hP.toClosed
  unfold State.tcFenceStore
  dsimp only
  exact State.each_keeps hc (ok_ite (State.report_keeps hc (State.storeReg_keeps hc hS)) (State.storeReg_keeps hc hS)) (fun
      v0 v1 h2 => (ok_ite (State.fenceCore_keeps hP h2) (ok_ite (State.unfenceCore_keeps hP h2) h2)))

theorem execTcFence_keeps {P} (hP : ClosedMem P) {t agent n v s} (hS : P s) : OkN P (execTcFence t agent n v s) := by
  have hc := hP.toClosed
  unfold execTcFence
  exact State.live_keeps hc hS (fun v0 h1 => (ok_ite h1 (State.gate_keeps hc h1 (fun v2 h3 => (State.tcFenceStore_keeps hP
      h3)))))

theorem State.resetHostRegs_keeps {P} (hP : Closed P) {s c} (hS : P s) : P (State.resetHostRegs s c) := by
  unfold State.resetHostRegs
  refine State.each_keeps hP hS (fun v0 v1 h2 => ?_)
  dsimp only
  exact State.setReg_keeps hP h2

theorem State.resetHost_keeps {P} (hP : ClosedMem P) {s c} (hS : P s) : P (State.resetHost s c) := by
  have hc := hP.toClosed
  unfold State.resetHost
  dsimp only
  exact State.mbOwnerReset_keeps hc (State.txnOwnerReset_keeps hc (State.setHost_keeps hc (State.resetHostRegs_keeps hc
      (State.loseCore_keeps hP hS))))

theorem State.hcFenceStore_keeps {P} (hP : ClosedMem P) {s agent n v} (hS : P s) : P (State.hcFenceStore s agent n v) := by
  have hc := hP.toClosed
  unfold State.hcFenceStore
  dsimp only
  exact State.each_keeps hc (State.storeReg_keeps hc hS) (fun v0 v1 h2 => (ok_ite (State.faultRecord_keeps hP
      (State.resetHost_keeps hP h2)) (ok_ite (State.faultRecord_keeps hP h2) h2)))

theorem execHcFence_keeps {P} (hP : ClosedMem P) {t agent n v s} (hS : P s) : OkN P (execHcFence t agent n v s) := by
  have hc := hP.toClosed
  unfold execHcFence
  refine State.live_keeps hc hS (fun v0 h1 => ?_)
  dsimp only
  exact ok_ite h1 (State.gate_keeps hc h1 (fun v10 h11 => (State.hcFenceStore_keeps hP h11)))

theorem State.resetHostDie_keeps {P} (hP : ClosedMem P) {s cause agent} (hS : P s) : P (State.resetHostDie s cause agent) :=
    by
  have hc := hP.toClosed
  unfold State.resetHostDie
  dsimp only
  exact State.faultRecord_keeps hP (State.each_keeps hc (State.linesLost_keeps hP (Closed.upd hc hS)) (fun v0 v1 h2 =>
      (State.resetHost_keeps hP h2)))

theorem execHostDieReset_keeps {P} (hP : ClosedMem P) {t agent v s} (hS : P s) : OkN P (execHostDieReset t agent v s) := by
  have hc := hP.toClosed
  unfold execHostDieReset
  refine State.live_keeps hc hS (fun v0 h1 => ?_)
  dsimp only
  exact State.gate_keeps hc h1 (fun v10 h11 => (ok_ite (State.resetHostDie_keeps hP (State.storeReg_keeps hc h11))
      (State.storeReg_keeps hc h11)))

theorem State.setDie_keeps {P} (hP : ClosedMem P) {s d st} (hS : P s) : P (State.setDie s d st) := by
  have hc := hP.toClosed
  unfold State.setDie
  exact State.faultRecord_keeps hP (State.wr_keeps hc hS)

theorem State.clkBit_keeps {P} (hP : Closed P) {s f k b} (hS : P s) : P (State.clkBit s f k b) := by
  unfold State.clkBit
  dsimp only
  exact State.wr_keeps hP hS

theorem State.wallDie_keeps {P} (hP : ClosedMem P) {s d cause agent} (hS : P s) : P (State.wallDie s d cause agent) := by
  have hc := hP.toClosed
  unfold State.wallDie
  dsimp only
  exact State.each_keeps hc (State.closeEvents_keeps hP (Closed.upd hc (State.mapFlights_keeps hc (State.each_keeps hc
      (State.each_keeps hc (State.wr_keeps hc (State.setDie_keeps hP (State.faultRecord_keeps hP (State.clkBit_keeps hc
      hS)))) (fun v0 v1 h2 => (State.ceLoseCore_keeps hc h2))) (fun v0 v1 h2 => (State.setCore_keeps hc
      (State.stopArray_keeps hc (State.dropUnsent_keeps hc h2)))))))) (fun v0 v1 h2 => (State.requestReset_keeps hc h2))

theorem State.cofferdam_keeps {P} (hP : ClosedMem P) {s d cause agent} (hS : P s) : P (State.cofferdam s d cause agent) :=
    by
  have hc := hP.toClosed
  unfold State.cofferdam
  exact ok_ite (State.wallDie_keeps hP hS) hS

theorem State.dieLoss_keeps {P} (hP : ClosedMem P) {s d} (hS : P s) : P (State.dieLoss s d) := by
  have hc := hP.toClosed
  unfold State.dieLoss
  exact State.cofferdam_keeps hP (State.clkBit_keeps hc hS)

theorem execCofferdam_keeps {P} (hP : ClosedMem P) {t die software agent s} (hS : P s) : OkN P (execCofferdam t die software
    agent s) := by
  have hc := hP.toClosed
  unfold execCofferdam
  refine State.live_keeps hc hS (fun v0 h1 => ?_)
  dsimp only
  exact ok_ite h1 (ok_ite (State.gate_keeps hc h1 (fun v10 h11 => (State.cofferdam_keeps hP (State.storeReg_keeps hc h11))))
      (State.dieLoss_keeps hP h1))

theorem State.clearDie_keeps {P : State → Prop} (hP : Closed P) {s : State} {d : Nat} (hS : P s) : P (State.clearDie s d) :=
    by
  unfold State.clearDie
  exact State.each_keeps hP (hP.dropReg s _ _ rfl rfl rfl rfl hS) (fun _ _ h => State.wr_keeps hP h)

theorem execDieResetting_keeps {P} (hP : ClosedMem P) {t die s} (hS : P s) : OkN P (execDieResetting t die s) := by
  have hc := hP.toClosed
  unfold execDieResetting
  exact State.live_keeps hc hS (fun v0 h1 => (ok_ite h1 (State.clearDie_keeps hc (State.bump_keeps hc (State.setDie_keeps hP
      (State.clkBit_keeps hc h1))))))

theorem execDieResetDone_keeps {P} (hP : ClosedMem P) {t die locked s} (hS : P s) : OkN P (execDieResetDone t die locked s)
    := by
  have hc := hP.toClosed
  unfold execDieResetDone
  refine State.live_keeps hc hS (fun v0 h1 => (ok_ite h1 (ok_ite ?_ (State.setDie_keeps hP h1))))
  dsimp only
  exact State.each_keeps hc (State.setDie_keeps hP (State.clkBit_keeps hc h1)) (fun v10 v11 h12 => (State.setReg_keeps hc
      h12))

theorem State.readmitDie_keeps {P} (hP : ClosedMem P) {s d} (hS : P s) : P (State.readmitDie s d) := by
  have hc := hP.toClosed
  unfold State.readmitDie
  dsimp only
  exact State.each_keeps hc (State.setDie_keeps hP (State.clkBit_keeps hc hS)) (fun v0 v1 h2 => (State.setReg_keeps hc h2))

theorem State.readmitStore_keeps {P} (hP : ClosedMem P) {s agent d} (hS : P s) : P (State.readmitStore s agent d) := by
  have hc := hP.toClosed
  unfold State.readmitStore
  exact ok_ite (State.readmitDie_keeps hP hS) (State.report_keeps hc hS)

theorem execReadmit_keeps {P} (hP : ClosedMem P) {t agent die s} (hS : P s) : OkN P (execReadmit t agent die s) := by
  have hc := hP.toClosed
  unfold execReadmit
  exact State.live_keeps hc hS (fun v0 h1 => (ok_ite h1 (State.gate_keeps hc h1 (fun v2 h3 => (State.readmitStore_keeps hP
      h3)))))

theorem execHubControlError_keeps {P} (hP : ClosedMem P) {t hub s} (hS : P s) : OkN P (execHubControlError t hub s) := by
  have hc := hP.toClosed
  unfold execHubControlError
  refine State.live_keeps hc hS (fun v0 h1 => ?_)
  dsimp only
  exact State.packageReset_keeps hP h1

/-! ### TraceDebug -/

theorem State.tracePut_keeps {P} (hP : ClosedMem P) {s n e} (hS : P s) : OkR P (State.tracePut s n e) := by
  have hc := hP.toClosed
  unfold State.tracePut
  dsimp only
  exact okR_mk (Closed.upd hc (okR_snd (State.ringPut_keeps hP hS)))

theorem State.traceDrop_keeps {P} (hP : Closed P) {s n bar e} (hS : P s) : P (State.traceDrop s n bar e) := by
  unfold State.traceDrop
  dsimp only
  split
  · rename_i x0 x1 x2
    exact Closed.upd hP (ok_ite (Closed.upd hP (State.pmcHub_keeps hP hS)) (State.pmcHub_keeps hP hS))
  · rename_i x0 x1
    exact Closed.upd hP (ok_ite (Closed.upd hP (State.pmcHub_keeps hP hS)) (State.pmcHub_keeps hP hS))

theorem State.spill_keeps {P} (hP : ClosedMem P) {s n e} (hS : P s) : OkO P (State.spill s n e) := by
  have hc := hP.toClosed
  unfold State.spill
  split
  · rename_i x0 x1
    exact okO_some hS
  · rename_i x0 x1 x2
    refine ok_ite (okO_none) ?_
    split
    · rename_i x13 x14 x15
      exact okO_some (State.bump_keeps hc (Closed.upd hc (okR_snd (ok_eq x15 (State.tracePut_keeps hP hS)))))
    · rename_i x13 x14 x15
      exact okO_none

theorem State.traceWrite_keeps {P} (hP : ClosedMem P) {s e} (hS : P s) : P (State.traceWrite s e) := by
  have hc := hP.toClosed
  unfold State.traceWrite
  split
  · rename_i x0 x1
    exact hS
  · rename_i x0 x1 x2
    split
    · rename_i x3 x4
      exact State.traceDrop_keeps hc hS
    · rename_i x3 x4 x5
      refine ok_ite (State.traceDrop_keeps hc (okO_eq x5 (State.spill_keeps hP hS))) ?_
      split
      · rename_i x16 x17 x18
        exact okR_snd (ok_eq x18 (State.tracePut_keeps hP (okO_eq x5 (State.spill_keeps hP hS))))
      · rename_i x16 x17 x18
        exact State.traceDrop_keeps hc (okR_snd (ok_eq x18 (State.tracePut_keeps hP (okO_eq x5 (State.spill_keeps hP hS)))))

theorem execTraceEvent_keeps {P} (hP : ClosedMem P) {t s} (hS : P s) : OkN P (execTraceEvent t s) := by
  have hc := hP.toClosed
  unfold execTraceEvent
  refine State.live_keeps hc hS (fun v0 h1 => ?_)
  split
  · rename_i x10 x11
    exact h1
  · rename_i x10 x11 x12 x13
    exact State.traceWrite_keeps hP (Closed.upd hc h1)

theorem execTraceBudgetWindow_keeps {P} (hP : Closed P) {t s} (hS : P s) : OkN P (execTraceBudgetWindow t s) := by
  unfold execTraceBudgetWindow
  refine State.live_keeps hP hS (fun v0 h1 => (ok_ite h1 ?_))
  dsimp only
  exact Closed.upd hP (ok_ite (State.bump_keeps hP h1) h1)

theorem execTrcMark_keeps {P} (hP : Closed P) {t agent v s} (hS : P s) : OkN P (execTrcMark t agent v s) := by
  unfold execTrcMark
  refine State.live_keeps hP hS (fun v0 h1 => ?_)
  dsimp only
  exact State.gate_keeps hP h1 (fun v10 h11 => (State.offer_keeps hP (State.storeReg_keeps hP h11)))

theorem State.sampleOne_keeps {P} (hP : Closed P) {s off src hub k} (hS : P s) : P (State.sampleOne s off src hub k) := by
  unfold State.sampleOne
  dsimp only
  exact State.offer_keeps hP hS

theorem execCounterSample_keeps {P} (hP : Closed P) {t s} (hS : P s) : OkN P (execCounterSample t s) := by
  unfold execCounterSample
  refine State.live_keeps hP hS (fun v0 h1 => (ok_ite h1 ?_))
  dsimp only
  exact State.each_keeps hP (State.each_keeps hP h1 (fun v10 v11 h12 => (State.each_keeps hP h12 (fun v13 v14 h15 =>
      (State.sampleOne_keeps hP h15))))) (fun v10 v11 h12 => (State.each_keeps hP h12 (fun v13 v14 h15 =>
      (State.sampleOne_keeps hP h15))))

theorem State.spResult_keeps {P} (hP : Closed P) {s agent v poison denied} (hS : P s) : P (State.spResult s agent v poison
    denied) := by
  unfold State.spResult
  exact State.answer_keeps hP (State.setReg_keeps hP (State.setReg_keeps hP hS))

theorem State.spRead_keeps {P} (hP : ClosedMem P) {s agent spBad} (hS : P s) : P (State.spRead s agent spBad) := by
  have hc := hP.toClosed
  unfold State.spRead
  dsimp only
  exact ok_ite (State.spResult_keeps hc hS) (ok_ite (State.spResult_keeps hc hS) (ok_ite (State.spResult_keeps hc (okR_snd
      (State.free_keeps hc hS))) (State.spResult_keeps hc (State.spParity_keeps hP hS))))

theorem execDbgSpDataRead_keeps {P} (hP : ClosedMem P) {t agent spBad s} (hS : P s) : OkN P (execDbgSpDataRead t agent spBad
    s) := by
  have hc := hP.toClosed
  unfold execDbgSpDataRead
  exact State.live_keeps hc hS (fun v0 h1 => (State.gate_keeps hc h1 (fun v2 h3 => (State.spRead_keeps hP h3))))

theorem State.haltHost_keeps {P} (hP : Closed P) {s c on} (hS : P s) : P (State.haltHost s c on) := by
  unfold State.haltHost
  dsimp only
  exact ok_ite (State.setStrict_keeps hP (State.setHost_keeps hP hS)) (State.setStrict_keeps hP (State.setHost_keeps hP hS))

theorem State.haltStore_keeps {P} (hP : Closed P) {s agent n v} (hS : P s) : P (State.haltStore s agent n v) := by
  unfold State.haltStore
  dsimp only
  exact State.each_keeps hP (State.storeReg_keeps hP hS) (fun v0 v1 h2 => (ok_ite h2 (State.haltHost_keeps hP h2)))

theorem execDbgHcHalt_keeps {P} (hP : Closed P) {t agent n v s} (hS : P s) : OkN P (execDbgHcHalt t agent n v s) := by
  unfold execDbgHcHalt
  refine State.live_keeps hP hS (fun v0 h1 => ?_)
  dsimp only
  exact ok_ite h1 (State.gate_keeps hP h1 (fun v10 h11 => (State.haltStore_keeps hP h11)))

/-! ### Clocks -/

theorem State.holdStack_keeps {P} (hP : ClosedMem P) {s stack} (hS : P s) : P (State.holdStack s stack) := by
  have hc := hP.toClosed
  unfold State.holdStack
  dsimp only
  exact State.each_keeps hc (State.clkBit_keeps hc (Closed.upd hc hS)) (fun v0 v1 h2 => (State.holdChan_keeps hP h2))

theorem State.losePlls_keeps {P} (hP : ClosedMem P) {s l} (hS : P s) : P (State.losePlls s l) := by
  have hc := hP.toClosed
  unfold State.losePlls
  dsimp only
  exact State.each_keeps hc (State.each_keeps hc (ok_ite (State.resetHostDie_keeps hP (State.wr_keeps hc hS)) hS) (fun v0 v1
      h2 => (State.dieLoss_keeps hP h2))) (fun v0 v1 h2 => (State.holdStack_keeps hP h2))

theorem execPllLockLoss_keeps {P} (hP : ClosedMem P) {t l s} (hS : P s) : OkN P (execPllLockLoss t l s) := by
  have hc := hP.toClosed
  unfold execPllLockLoss
  refine okN_next ?_
  dsimp only
  exact ok_ite (ok_ite (State.advance_keeps hc hS) (State.packageReset_keeps hP (State.advance_keeps hc hS))) (ok_ite
      (State.resetDue_keeps hP (State.advance_keeps hc hS)) (ok_ite (State.losePlls_keeps hP (State.advance_keeps hc hS))
      (State.advance_keeps hc hS)))

theorem execMclkRelock_keeps {P} (hP : ClosedMem P) {t stack locked s} (hS : P s) : OkN P (execMclkRelock t stack locked s)
    := by
  have hc := hP.toClosed
  unfold execMclkRelock
  refine State.live_keeps hc hS (fun v0 h1 => (ok_ite h1 (ok_ite ?_ (State.packageReset_keeps hP h1))))
  dsimp only
  exact State.each_keeps hc (State.clkBit_keeps hc (Closed.upd hc h1)) (fun v10 v11 h12 => (ok_ite (State.holdChan_keeps hP
      h12) h12))

theorem execD2dParityError_keeps {P} (hP : Closed P) {t port s} (hS : P s) : OkN P (execD2dParityError t port s) := by
  unfold execD2dParityError
  exact State.live_keeps hP hS (fun v0 h1 => (ok_ite h1 (Closed.upd hP h1)))

theorem State.poisonInto_keeps {P} (hP : ClosedMem P) {s agent pa a} (hS : P s) : P (State.poisonInto s agent pa a) := by
  have hc := hP.toClosed
  unfold State.poisonInto
  split
  · rename_i x0
    exact State.answer_keeps hc hS
  · rename_i x0
    split
    · rename_i x1 x2
      exact State.setPoison_keeps hP hS
    · rename_i x1 x2
      exact State.setPoison_keeps hP hS
    · rename_i x1 x2
      exact State.setPoison_keeps hP hS
    · rename_i x1 x2 x3 x4
      exact hS
  · rename_i x0 x1
    dsimp only
    exact State.setHost_keeps hc hS
  · rename_i x0 x1 x2
    dsimp only
    exact State.bump_keeps hc (State.setCore_keeps hc hS)
  · rename_i x0 x1 x2
    exact State.setPoison_keeps hP (Closed.upd hc hS)

theorem execD2dResentTransfer_keeps {P} (hP : ClosedMem P) {t port agent pa into failed s} (hS : P s) : OkN P
    (execD2dResentTransfer t port agent pa into failed s) := by
  have hc := hP.toClosed
  unfold execD2dResentTransfer
  refine State.live_keeps hc hS (fun v0 h1 => (ok_ite h1 ?_))
  dsimp only
  exact ok_ite (State.faultRecord_keeps hP (State.poisonInto_keeps hP (Closed.upd hc h1))) (Closed.upd hc h1)

theorem State.traceTb_keeps {P} (hP : Closed P) {s fault} (hS : P s) : P (State.traceTb s fault) := by
  unfold State.traceTb
  exact State.offer_keeps hP hS

theorem State.tbState_keeps {P} (hP : Closed P) {s st} (hS : P s) : P (State.tbState s st) := by
  unfold State.tbState
  exact ok_ite hS (State.traceTb_keeps hP (State.wr_keeps hP hS))

theorem State.acquire_keeps {P} (hP : Closed P) {s} (hS : P s) : P (State.acquire s) := by
  unfold State.acquire
  exact State.tbState_keeps hP (Closed.upd hP hS)

theorem State.ownRate_keeps {P} (hP : Closed P) {s} (hS : P s) : P (State.ownRate s) := by
  unfold State.ownRate
  exact Closed.upd hP hS

theorem State.tbConfigured_keeps {P} (hP : Closed P) {s old} (hS : P s) : P (State.tbConfigured s old) := by
  unfold State.tbConfigured
  dsimp only
  exact ok_ite (State.tbState_keeps hP (State.ownRate_keeps hP hS)) (ok_ite (ok_ite hS (State.tbState_keeps hP
      (State.wr_keeps hP (State.ownRate_keeps hP hS)))) (ok_ite (State.acquire_keeps hP hS) hS))

theorem State.tbStore_keeps {P} (hP : Closed P) {s agent v} (hS : P s) : P (State.tbStore s agent v) := by
  unfold State.tbStore
  dsimp only
  exact State.tbConfigured_keeps hP (State.storeReg_keeps hP hS)

theorem execSysTbCfgWrite_keeps {P} (hP : Closed P) {t agent v s} (hS : P s) : OkN P (execSysTbCfgWrite t agent v s) := by
  unfold execSysTbCfgWrite
  exact State.live_keeps hP hS (fun v0 h1 => (State.gate_keeps hP h1 (fun v2 h3 => (State.tbStore_keeps hP h3))))

theorem State.tbStep_keeps {P} (hP : Closed P) {s offset} (hS : P s) : P (State.tbStep s offset) := by
  unfold State.tbStep
  dsimp only
  exact State.bump_keeps hP (Closed.upd hP hS)

theorem State.tbSlew_keeps {P} (hP : Closed P) {s offset} (hS : P s) : P (State.tbSlew s offset) := by
  unfold State.tbSlew
  exact Closed.upd hP hS

theorem State.exchange_keeps {P} (hP : Closed P) {s offset rate} (hS : P s) : P (State.exchange s offset rate) := by
  unfold State.exchange
  dsimp only
  split
  · rename_i x0 x1
    exact ok_ite (State.tbState_keeps hP (ok_ite (State.tbSlew_keeps hP (Closed.upd hP (State.wr_keeps hP hS)))
        (State.tbStep_keeps hP (Closed.upd hP (State.wr_keeps hP hS))))) (ok_ite (State.tbSlew_keeps hP (Closed.upd hP
        (State.wr_keeps hP hS))) (State.tbStep_keeps hP (Closed.upd hP (State.wr_keeps hP hS))))
  · rename_i x0 x1
    exact ok_ite (State.traceTb_keeps hP (State.wr_keeps hP (State.tbSlew_keeps hP (Closed.upd hP (State.wr_keeps hP hS)))))
        (State.tbSlew_keeps hP (Closed.upd hP (State.wr_keeps hP hS)))
  · rename_i x0 x1
    exact ok_ite (State.tbState_keeps hP (State.tbSlew_keeps hP (Closed.upd hP (State.wr_keeps hP hS)))) (State.tbStep_keeps
        hP (Closed.upd hP (State.acquire_keeps hP (Closed.upd hP (State.wr_keeps hP hS)))))
  · rename_i x0 x1 x2 x3
    exact Closed.upd hP (State.wr_keeps hP hS)

theorem State.measured_keeps {P} (hP : Closed P) {s t1 t2 t3 t4} (hS : P s) : P (State.measured s t1 t2 t3 t4) := by
  unfold State.measured
  dsimp only
  exact State.exchange_keeps hP (Closed.upd hP hS)

theorem State.askTime_keeps {P} (hP : Closed P) {s} (hS : P s) : P (State.askTime s) := by
  unfold State.askTime
  dsimp only
  exact State.pushMsg_keeps hP (Closed.upd hP hS)

theorem execTimingExchange_keeps {P} (hP : Closed P) {t s} (hS : P s) : OkN P (execTimingExchange t s) := by
  unfold execTimingExchange
  refine State.live_keeps hP hS (fun v0 h1 => (ok_ite h1 ?_))
  split
  · rename_i x10 x11 x12 x13 x14 x15 x16
    exact State.measured_keeps hP h1
  · rename_i x10 x11
    exact ok_ite (State.askTime_keeps hP h1) h1

theorem execHoldoverEntry_keeps {P} (hP : Closed P) {t s} (hS : P s) : OkN P (execHoldoverEntry t s) := by
  unfold execHoldoverEntry
  exact State.live_keeps hP hS (fun v0 h1 => (ok_ite (State.tbState_keeps hP h1) h1))

theorem execSitePowerWindow_keeps {P} (hP : ClosedMem P) {t site mean s} (hS : P s) : OkN P (execSitePowerWindow t site mean
    s) := by
  have hc := hP.toClosed
  unfold execSitePowerWindow
  refine State.live_keeps hc hS (fun v0 h1 => (ok_ite h1 ?_))
  dsimp only
  exact ok_ite (State.openEvent_keeps hc (State.wr_keeps hc (Closed.upd hc (State.wr_keeps hc h1)))) (ok_ite
      (State.closeEvents_keeps hP (State.endAct_keeps hc (State.wr_keeps hc h1))) (State.wr_keeps hc h1))

theorem State.dropSite_keeps {P} (hP : Closed P) {s site} (hS : P s) : P (State.dropSite s site) := by
  unfold State.dropSite
  dsimp only
  exact Closed.upd hP (State.recallReqs_keeps hP hS)

theorem State.downSite_keeps {P} (hP : ClosedMem P) {s site cause} (hS : P s) : P (State.downSite s site cause) := by
  have hc := hP.toClosed
  unfold State.downSite
  exact ok_ite (State.faultRecord_keeps hP (State.wr_keeps hc (State.dropSite_keeps hc hS))) hS

theorem execSiteSupplyCut_keeps {P} (hP : ClosedMem P) {t site s} (hS : P s) : OkN P (execSiteSupplyCut t site s) := by
  have hc := hP.toClosed
  unfold execSiteSupplyCut
  exact State.live_keeps hc hS (fun v0 h1 => (ok_ite h1 (State.wr_keeps hc (State.downSite_keeps hP (State.wr_keeps hc
      h1)))))

theorem execSiteDown_keeps {P} (hP : ClosedMem P) {t site cause s} (hS : P s) : OkN P (execSiteDown t site cause s) := by
  have hc := hP.toClosed
  unfold execSiteDown
  exact State.live_keeps hc hS (fun v0 h1 => (ok_ite h1 (State.downSite_keeps hP h1)))

/-! ### Ethernet -/

theorem State.resendPackets_keeps {P} (hP : Closed P) {s e cls} (hS : P s) : P (State.resendPackets s e cls) := by
  unfold State.resendPackets
  dsimp only
  exact State.emit_keeps hP (State.setStream_keeps hP hS)

theorem State.drainFrom_keeps {P} (hP : Closed P) {s e cls a} (hS : P s) : P (State.drainFrom s e cls a) := by
  induction a generalizing s e cls with
  | zero  =>
    unfold State.drainFrom
    exact hS
  | succ x0 x1 =>
    unfold State.drainFrom
    dsimp only
    split
    · rename_i x2 x3
      exact hS
    · rename_i x2 x3 x4 x5
      exact ok_ite (x1 (ok_ite (State.sendPacket_keeps hP (State.setStream_keeps hP hS)) (State.leaveMsgs_keeps hP
          (State.sendPacket_keeps hP (State.setStream_keeps hP hS))))) hS

theorem State.drainStream_keeps {P} (hP : Closed P) {s e cls} (hS : P s) : P (State.drainStream s e cls) := by
  unfold State.drainStream
  exact State.drainFrom_keeps hP hS

theorem State.ackPackets_keeps {P} (hP : Closed P) {s e cls ack} (hS : P s) : P (State.ackPackets s e cls ack) := by
  unfold State.ackPackets
  dsimp only
  exact ok_ite (State.drainStream_keeps hP (State.wr_keeps hP (State.setStream_keeps hP hS))) hS

theorem State.takePacket_keeps {P} (hP : Closed P) {s port e k} (hS : P s) : P (State.takePacket s port e k) := by
  unfold State.takePacket
  dsimp only
  exact ok_ite (State.sendPacket_keeps hP (State.each_keeps hP (State.wr_keeps hP (State.setStream_keeps hP hS)) (fun v0 v1
      h2 => (State.deliver_keeps hP h2)))) (ok_ite (State.sendPacket_keeps hP (State.setStream_keeps hP hS))
      (State.sendPacket_keeps hP hS))

theorem execRtoResend_keeps {P} (hP : Closed P) {t peer cls s} (hS : P s) : OkN P (execRtoResend t peer cls s) := by
  unfold execRtoResend
  refine State.live_keeps hP hS (fun v0 h1 => ?_)
  dsimp only
  exact ok_ite (State.resendPackets_keeps hP (State.drainStream_keeps hP h1)) (State.drainStream_keeps hP h1)

theorem State.clearStreams_keeps {P} (hP : Closed P) {s e restart} (hS : P s) : P (State.clearStreams s e restart) := by
  unfold State.clearStreams
  exact State.each_keeps hP hS (fun v0 v1 h2 => (State.setStream_keeps hP h2))

theorem execEpeerDown_keeps {P} (hP : ClosedMem P) {t peer s} (hS : P s) : OkN P (execEpeerDown t peer s) := by
  have hc := hP.toClosed
  unfold execEpeerDown
  refine State.live_keeps hc hS (fun v0 h1 => ?_)
  dsimp only
  exact ok_ite (State.loseReqs_keeps hP (State.clearStreams_keeps hc (State.wr_keeps hc h1))) h1

theorem State.epeerStore_keeps {P} (hP : Closed P) {s agent e v} (hS : P s) : P (State.epeerStore s agent e v) := by
  unfold State.epeerStore
  dsimp only
  exact ok_ite (State.clearStreams_keeps hP (State.wr_keeps hP (State.storeReg_keeps hP hS))) (State.storeReg_keeps hP hS)

theorem execEpeerValid_keeps {P} (hP : Closed P) {t agent peer v s} (hS : P s) : OkN P (execEpeerValid t agent peer v s) :=
    by
  unfold execEpeerValid
  exact State.live_keeps hP hS (fun v0 h1 => (ok_ite (State.gate_keeps hP h1 (fun v2 h3 => (State.epeerStore_keeps hP h3)))
      h1))

theorem State.readMgmt_keeps {P} (hP : ClosedMem P) {s p a} (hS : P s) : OkR P (State.readMgmt s p a) := by
  have hc := hP.toClosed
  unfold State.readMgmt
  refine ok_ite ?_ (okR_mk hS)
  split
  · rename_i x10 x11 x12 x13 x14
    exact okR_mk (okR_snd (okR_snd (ok_eq x14 (State.engWords_keeps hP hS))))
  · rename_i x10 x11 x12 x13 x14 x15
    exact okR_mk (okR_snd (okR_snd (ok_eq x15 (State.engWords_keeps hP hS))))

theorem State.mgmtCheck_keeps {P} (hP : Closed P) {s p} (hS : P s) : P (State.mgmtCheck s p) := by
  unfold State.mgmtCheck
  exact Closed.upd hP hS

theorem State.findRx_keeps {P} (hP : ClosedMem P) {s p a z3} (hS : P s) : OkR P (State.findRx s p a z3) := by
  have hc := hP.toClosed
  induction a generalizing s p z3 with
  | zero  =>
    unfold State.findRx
    exact okR_mk hS
  | succ x0 x1 =>
    unfold State.findRx
    split
    · rename_i x2 x3 x4 x5 x6
      exact ok_ite (okR_mk (okR_snd (ok_eq x6 (State.readMgmt_keeps hP hS)))) (x1 (okR_snd (ok_eq x6 (State.readMgmt_keeps
          hP hS))))
    · rename_i x2 x3 x4
      exact okR_mk (okR_snd (ok_eq x4 (State.readMgmt_keeps hP hS)))

theorem State.mgmtFrame_keeps {P} (hP : ClosedMem P) {s p b} (hS : P s) : P (State.mgmtFrame s p b) := by
  have hc := hP.toClosed
  unfold State.mgmtFrame
  dsimp only
  split
  · rename_i x0 x1 x2
    exact State.bump_keeps hc (okR_snd (ok_eq x2 (ok_ite (State.findRx_keeps hP hS) (okR_mk hS))))
  · rename_i x0 x1 x2 x3 x4 x5
    exact ok_ite (ok_ite (State.notify_keeps hc (Closed.upd hc (State.engWrite_keeps hP (State.engWrite_keeps hP (okR_snd
        (ok_eq x5 (ok_ite (State.findRx_keeps hP hS) (okR_mk hS)))))))) (Closed.upd hc (State.engWrite_keeps hP
        (State.engWrite_keeps hP (okR_snd (ok_eq x5 (ok_ite (State.findRx_keeps hP hS) (okR_mk hS)))))))) (State.bump_keeps
        hc (okR_snd (ok_eq x5 (ok_ite (State.findRx_keeps hP hS) (okR_mk hS)))))

theorem State.mtxOne_keeps {P} (hP : ClosedMem P) {s p n} (hS : P s) : P (State.mtxOne s p n) := by
  have hc := hP.toClosed
  unfold State.mtxOne
  split
  · rename_i x0 x1 x2
    exact okR_snd (ok_eq x2 (State.readMgmt_keeps hP hS))
  · rename_i x0 x1 x2 x3 x4
    dsimp only
    exact ok_ite (ok_ite (okR_snd (okR_snd (State.engRead_keeps hP (okR_snd (ok_eq x4 (State.readMgmt_keeps hP hS))))))
        (Closed.upd hc (okR_snd (okR_snd (State.engRead_keeps hP (okR_snd (ok_eq x4 (State.readMgmt_keeps hP hS))))))))
        (okR_snd (ok_eq x4 (State.readMgmt_keeps hP hS)))

theorem State.mtxSend_keeps {P} (hP : ClosedMem P) {s p} (hS : P s) : P (State.mtxSend s p) := by
  have hc := hP.toClosed
  unfold State.mtxSend
  dsimp only
  exact ok_ite (Closed.upd hc (State.each_keeps hc hS (fun v0 v1 h2 => (State.mtxOne_keeps hP h2)))) hS

theorem execMtxTail_keeps {P} (hP : ClosedMem P) {t agent port v found s} (hS : P s) : OkN P (execMtxTail t agent port v
    found s) := by
  have hc := hP.toClosed
  unfold execMtxTail
  refine State.live_keeps hc hS (fun v0 h1 => (ok_ite ?_ h1))
  dsimp only
  exact State.gate_keeps hc h1 (fun v10 h11 => (State.reads_keeps hP h11 (fun v12 h13 => (State.mtxSend_keeps hP
      (State.storeReg_keeps hc h13)))))

theorem State.ethCfgStore_keeps {P} (hP : ClosedMem P) {s agent p v} (hS : P s) : P (State.ethCfgStore s agent p v) := by
  have hc := hP.toClosed
  unfold State.ethCfgStore
  dsimp only
  exact State.mtxSend_keeps hP (ok_ite (State.mgmtCheck_keeps hc (State.storeReg_keeps hc hS)) (State.storeReg_keeps hc hS))

theorem execEthLinkUp_keeps {P} (hP : ClosedMem P) {t port up s} (hS : P s) : OkN P (execEthLinkUp t port up s) := by
  have hc := hP.toClosed
  unfold execEthLinkUp
  exact State.live_keeps hc hS (fun v0 h1 => (ok_ite (State.mtxSend_keeps hP (State.wr_keeps hc h1)) h1))

theorem State.pause_keeps {P} (hP : ClosedMem P) {s p b} (hS : P s) : P (State.pause s p b) := by
  have hc := hP.toClosed
  unfold State.pause
  dsimp only
  exact State.mtxSend_keeps hP (State.each_keeps hc (State.each_keeps hc hS (fun v0 v1 h2 => (Closed.upd hc h2))) (fun v0 v1
      h2 => (ok_ite (State.drainStream_keeps hc h2) h2)))

theorem State.takeFabric_keeps {P} (hP : Closed P) {s port d} (hS : P s) : P (State.takeFabric s port d) := by
  unfold State.takeFabric
  refine ok_ite (State.bump_keeps hP hS) ?_
  split
  · rename_i x10 x11
    exact State.bump_keeps hP hS
  · rename_i x10 x11 x12
    dsimp only
    exact ok_ite hS (ok_ite (ok_ite (State.resendPackets_keeps hP (State.ackPackets_keeps hP hS)) (State.ackPackets_keeps hP
        hS)) (State.takePacket_keeps hP (ok_ite (State.resendPackets_keeps hP (State.ackPackets_keeps hP hS))
        (State.ackPackets_keeps hP hS))))

theorem State.frameIn_keeps {P} (hP : ClosedMem P) {s p b} (hS : P s) : P (State.frameIn s p b) := by
  have hc := hP.toClosed
  unfold State.frameIn
  dsimp only
  refine ok_ite hS (ok_ite (State.pause_keeps hP hS) ?_)
  split
  · rename_i x10 x11 x12
    exact State.takeFabric_keeps hc hS
  · rename_i x10 x11
    exact State.mgmtFrame_keeps hP hS

theorem State.receiveFrame_keeps {P} (hP : ClosedMem P) {s port bytes found} (hS : P s) : P (State.receiveFrame s port bytes
    found) := by
  have hc := hP.toClosed
  unfold State.receiveFrame
  exact ok_ite (State.reads_keeps hP hS (fun v0 h1 => (State.frameIn_keeps hP h1))) hS

theorem execFabricPacket_keeps {P} (hP : ClosedMem P) {t port bytes found s} (hS : P s) : OkN P (execFabricPacket t port
    bytes found s) := by
  have hc := hP.toClosed
  unfold execFabricPacket
  exact State.live_keeps hc hS (fun v0 h1 => (State.receiveFrame_keeps hP h1))

theorem execManagementFrame_keeps {P} (hP : ClosedMem P) {t port bytes found s} (hS : P s) : OkN P (execManagementFrame t
    port bytes found s) := by
  have hc := hP.toClosed
  unfold execManagementFrame
  exact State.live_keeps hc hS (fun v0 h1 => (State.receiveFrame_keeps hP h1))

/-! ### HostRegs -/

theorem State.strictStore_keeps {P} (hP : Closed P) {s c v} (hS : P s) : P (State.strictStore s c v) := by
  unfold State.strictStore
  dsimp only
  exact State.setStrict_keeps hP (ok_ite (State.setHost_keeps hP hS) hS)

theorem State.l2lockStore_keeps {P} (hP : Closed P) {s c v} (hS : P s) : P (State.l2lockStore s c v) := by
  unfold State.l2lockStore
  dsimp only
  exact ok_ite (State.setReg_keeps hP hS) (Closed.upd hP (State.setHost_keeps hP (State.setReg_keeps hP hS)))

theorem State.takeLost_keeps {P} (hP : Closed P) {s c} (hS : P s) : P (State.takeLost s c) := by
  unfold State.takeLost
  split
  · rename_i x0 x1
    exact hS
  · rename_i x0 x1 x2 x3 x4 x5
    dsimp only
    exact State.bump_keeps hP (State.hostExc_keeps hP (State.wr_keeps hP (State.setHost_keeps hP hS)))

theorem State.devsynRead_keeps {P} (hP : Closed P) {s c} (hS : P s) : P (State.devsynRead s c) := by
  unfold State.devsynRead
  dsimp only
  exact State.setHost_keeps hP (State.setReg_keeps hP (State.answer_keeps hP hS))

theorem State.systemTurn_keeps {P} (hP : Closed P) {s c returned f} (hS : P s) (hFf : ∀ v0, P v0 → P (f v0)) : P
    (State.systemTurn s c returned f) := by
  unfold State.systemTurn
  exact ok_ite (hFf _ (ok_ite (State.takeLost_keeps hP hS) hS)) hS

theorem State.systemWrite_keeps {P} (hP : Closed P) {s c num v} (hS : P s) : P (State.systemWrite s c num v) := by
  unfold State.systemWrite
  split
  · rename_i x0
    exact State.l2lockStore_keeps hP hS
  · rename_i x0
    dsimp only
    exact State.setReg_keeps hP hS
  · rename_i x0
    exact State.strictStore_keeps hP hS
  · rename_i x0 x1 x2 x3
    exact hS

theorem execHcDevsynRead_keeps {P} (hP : Closed P) {t core returned s} (hS : P s) : OkN P (execHcDevsynRead t core returned
    s) := by
  unfold execHcDevsynRead
  exact State.live_keeps hP hS (fun v0 h1 => (State.systemTurn_keeps hP h1 (fun v2 h3 => (State.devsynRead_keeps hP h3))))

theorem execHcStrictWrite_keeps {P} (hP : Closed P) {t core returned v s} (hS : P s) : OkN P (execHcStrictWrite t core
    returned v s) := by
  unfold execHcStrictWrite
  exact State.live_keeps hP hS (fun v0 h1 => (ok_ite (State.systemTurn_keeps hP h1 (fun v2 h3 => (State.strictStore_keeps hP
      h3))) h1))

theorem execHcL2lockWrite_keeps {P} (hP : Closed P) {t core v s} (hS : P s) : OkN P (execHcL2lockWrite t core v s) := by
  unfold execHcL2lockWrite
  exact State.live_keeps hP hS (fun v0 h1 => (State.systemTurn_keeps hP h1 (fun v2 h3 => (State.l2lockStore_keeps hP h3))))

/-! ### RegAccess -/

theorem runHooks_keeps {P : State → Prop} {off : Nat} {s : State} {l : List Hook} (hS : P s)
    (hl : ∀ h ∈ l, ∀ k t, P t → P (h.act k t)) : OkO P (runHooks off s l) := by
  induction l with
  | nil => exact okO_none
  | cons h r ih =>
    unfold runHooks
    split
    · exact okO_some (hl h (List.mem_cons_self ..) _ _ hS)
    · exact ih (fun x hx => hl x (List.mem_cons_of_mem _ hx))

theorem State.chanCtrl_keeps {P} (hP : ClosedMem P) {s agent c v} (hS : P s) : P (State.chanCtrl s agent c v) := by
  have hc := hP.toClosed
  unfold State.chanCtrl
  dsimp only
  exact ok_ite (State.retireWrite_keeps hP (ok_ite (State.retrainWrite_keeps hP (State.storeReg_keeps hc hS))
      (State.storeReg_keeps hc hS))) (ok_ite (State.retrainWrite_keeps hP (State.storeReg_keeps hc hS))
      (State.storeReg_keeps hc hS))

theorem State.linkCtrl_keeps {P} (hP : Closed P) {s agent l v} (hS : P s) : P (State.linkCtrl s agent l v) := by
  unfold State.linkCtrl
  dsimp only
  exact ok_ite (State.trainLink_keeps hP (ok_ite (State.retrainLink_keeps hP (State.storeReg_keeps hP hS))
      (State.storeReg_keeps hP hS))) (ok_ite (State.retrainLink_keeps hP (State.storeReg_keeps hP hS)) (State.storeReg_keeps
      hP hS))

theorem State.dieCtrl_keeps {P} (hP : ClosedMem P) {s agent d v} (hS : P s) : P (State.dieCtrl s agent d v) := by
  have hc := hP.toClosed
  unfold State.dieCtrl
  dsimp only
  exact ok_ite (State.readmitStore_keeps hP (ok_ite (State.cofferdam_keeps hP (State.storeReg_keeps hc hS))
      (State.storeReg_keeps hc hS))) (ok_ite (State.cofferdam_keeps hP (State.storeReg_keeps hc hS)) (State.storeReg_keeps
      hc hS))

theorem State.hostDieCtrl_keeps {P} (hP : ClosedMem P) {s agent v} (hS : P s) : P (State.hostDieCtrl s agent v) := by
  have hc := hP.toClosed
  unfold State.hostDieCtrl
  dsimp only
  exact ok_ite (State.resetHostDie_keeps hP (State.storeReg_keeps hc hS)) (State.storeReg_keeps hc hS)

theorem State.releaseCore_keeps {P} (hP : Closed P) {s c} (hS : P s) : P (State.releaseCore s c) := by
  unfold State.releaseCore
  exact ok_ite (State.setStrict_keeps hP (State.setHost_keeps hP (State.wr_keeps hP hS))) hS

theorem State.releaseStore_keeps {P} (hP : Closed P) {s agent v} (hS : P s) : P (State.releaseStore s agent v) := by
  unfold State.releaseStore
  dsimp only
  exact ok_ite (State.releaseCore_keeps hP (State.storeReg_keeps hP hS)) (State.storeReg_keeps hP hS)

theorem State.tcWrite_keeps {P} (hP : Closed P) {s agent off v} (hS : P s) : P (State.tcWrite s agent off v) := by
  unfold State.tcWrite
  dsimp only
  exact ok_ite (State.storeReg_keeps hP hS) hS

theorem coreHooks_keeps {P} (hP : ClosedMem P) {agent off v} : ∀ h ∈ coreHooks agent off v, ∀ k t, P t → P (h.act k t) := by
  have hc := hP.toClosed
  simp only [coreHooks, List.forall_mem_cons]
  exact ⟨fun _ _ ht => State.tbStore_keeps hc ht,
    fun _ _ ht => State.txnCommit_keeps hc (State.storeReg_keeps hc ht),
    fun _ _ ht => State.txnRollback_keeps hc (State.storeReg_keeps hc ht),
    fun _ _ ht => State.txnAbort_keeps hc (State.storeReg_keeps hc ht),
    fun _ _ ht => State.ringStore_keeps hc ht,
    fun _ _ ht => State.tailTo_keeps hP (State.storeReg_keeps hc ht),
    fun _ _ ht => State.cqHeadTo_keeps hP (State.storeReg_keeps hc ht),
    fun _ _ ht => State.queueCfg_keeps hc ht,
    fun _ _ ht => State.queueCtrl_keeps hP (State.storeReg_keeps hc ht),
    fun _ _ ht => State.syPerform_keeps hc ht, fun _ _ ht => State.syPerform_keeps hc ht,
    fun _ _ ht => State.trigStore_keeps hc ht, by simp⟩

theorem mailHooks_keeps {P} (hP : ClosedMem P) {agent off v} : ∀ h ∈ mailHooks agent off v, ∀ k t, P t → P (h.act k t) := by
  have hc := hP.toClosed
  simp only [mailHooks, List.forall_mem_cons]
  exact ⟨fun _ _ ht => State.mbReleaseWrite_keeps hc (State.storeReg_keeps hc ht),
    fun _ _ ht => State.mbReqPush_keeps hc ht, fun _ _ ht => State.mbRspPush_keeps hc ht,
    fun _ _ ht => State.mbSendWrite_keeps hc (State.storeReg_keeps hc ht),
    fun _ _ ht => State.mbAckWrite_keeps hc ht, fun _ _ ht => State.rootStore_keeps hc ht,
    fun _ _ ht => State.invalAst_keeps hc (State.storeReg_keeps hc ht),
    fun _ _ ht => State.ringStore_keeps hc ht,
    fun _ _ ht => State.faultResolve_keeps hP (State.storeReg_keeps hc ht), by simp⟩

theorem memHooks_keeps {P} (hP : ClosedMem P) {agent off v} : ∀ h ∈ memHooks agent off v, ∀ k t, P t → P (h.act k t) := by
  have hc := hP.toClosed
  simp only [memHooks, List.forall_mem_cons]
  exact ⟨fun _ _ ht => State.chanCtrl_keeps hP ht, fun _ _ ht => State.ringStore_keeps hc ht,
    fun _ _ ht => State.rillStore_keeps hc ht, fun _ _ ht => State.objStore_keeps hc ht,
    fun _ _ ht => State.epochStore_keeps hc ht, fun _ _ ht => State.linkStore_keeps hP ht,
    fun _ _ ht => State.linkCtrl_keeps hc ht, fun _ _ ht => State.winStore_keeps hc ht,
    fun _ _ ht => State.ethCfgStore_keeps hP ht,
    fun _ _ ht => State.mtxSend_keeps hP (State.storeReg_keeps hc ht),
    fun _ _ ht => State.epeerStore_keeps hc ht,
    fun _ _ ht => State.probeLine_keeps hc (State.storeReg_keeps hc ht), by simp⟩

theorem debugHooks_keeps {P} (hP : ClosedMem P) {agent off v} : ∀ h ∈ debugHooks agent off v, ∀ k t, P t → P (h.act k t) :=
    by
  have hc := hP.toClosed
  simp only [debugHooks, List.forall_mem_cons]
  exact ⟨fun _ _ ht => State.offer_keeps hc (State.storeReg_keeps hc ht),
    fun _ _ ht => State.ringStore_keeps hc ht,
    fun _ _ ht => State.ctxrstWrite_keeps hc (State.storeReg_keeps hc ht),
    fun _ _ ht => State.ringStore_keeps hc ht, fun _ _ ht => State.ringStore_keeps hc ht,
    fun _ _ ht => State.hcFenceStore_keeps hP ht, fun _ _ ht => State.hcFenceStore_keeps hP ht,
    fun _ _ ht => State.tcFenceStore_keeps hP ht, fun _ _ ht => State.hostDieCtrl_keeps hP ht,
    fun _ _ ht => State.dieCtrl_keeps hP ht, fun _ _ ht => State.haltStore_keeps hc ht,
    fun _ _ ht => State.haltStore_keeps hc ht, fun _ _ ht => State.releaseStore_keeps hc ht, by simp⟩

theorem readHooks_keeps {P} (hP : ClosedMem P) {agent} : ∀ h ∈ readHooks agent, ∀ k t, P t → P (h.act k t) := by
  have hc := hP.toClosed
  simp only [readHooks, List.forall_mem_cons]
  exact ⟨fun _ _ ht => State.txnBegin_keeps hc ht, fun _ _ ht => State.eventRead_keeps hc ht,
    fun _ _ ht => State.mbLockRead_keeps hc ht, fun _ _ ht => State.mbReqPop_keeps hc ht,
    fun _ _ ht => State.mbRspPop_keeps hc ht, fun _ _ ht => State.spRead_keeps hP ht, by simp⟩

theorem State.regLive_keeps {P} (hP : ClosedMem P) {s agent off v} (hS : P s) : P (State.regLive s agent off v) := by
  have hc := hP.toClosed
  unfold State.regLive
  refine ok_ite (State.tcWrite_keeps hc hS) (okO_getD (runHooks_keeps hS ?_) (State.storeReg_keeps hc hS))
  exact ok_ite (Q := fun l : List Hook => ∀ h ∈ l, ∀ k t, P t → P (h.act k t)) (coreHooks_keeps hP)
    (ok_ite (Q := fun l : List Hook => ∀ h ∈ l, ∀ k t, P t → P (h.act k t)) (mailHooks_keeps hP)
      (ok_ite (Q := fun l : List Hook => ∀ h ∈ l, ∀ k t, P t → P (h.act k t)) (memHooks_keeps hP) (debugHooks_keeps hP)))

theorem State.regWrite_keeps {P} (hP : ClosedMem P) {s agent off v} (hS : P s) : P (State.regWrite s agent off v) := by
  have hc := hP.toClosed
  unfold State.regWrite
  exact State.txnWrite_keeps hc hS (fun v0 h1 => (State.regLive_keeps hP h1))

theorem State.regRead_keeps {P} (hP : ClosedMem P) {s agent off} (hS : P s) : P (State.regRead s agent off) := by
  unfold State.regRead
  exact okO_getD (runHooks_keeps hS (readHooks_keeps hP)) (State.answer_keeps hP.toClosed hS)

theorem State.systemBy_keeps {P} (hP : Closed P) {s agent c num v} (hS : P s) : P (State.systemBy s agent c num v) := by
  unfold State.systemBy
  exact ok_ite (State.systemTurn_keeps hP hS (fun v0 h1 => (State.systemWrite_keeps hP h1))) hS

theorem State.registerWrite_keeps {P} (hP : ClosedMem P) {s agent reg v} (hS : P s) : P (State.registerWrite s agent reg v)
    := by
  have hc := hP.toClosed
  unfold State.registerWrite
  split
  · rename_i x0 x1 x2
    exact State.systemBy_keeps hc hS
  · rename_i x0 x1
    refine ok_ite hS ?_
    split
    · rename_i x12 x13
      exact State.regWrite_keeps hP (State.answer_keeps hc hS)
    · rename_i x12 x13
      exact State.refuse_keeps hc hS

theorem execBootRelease_keeps {P} (hP : Closed P) {t agent v s} (hS : P s) : OkN P (execBootRelease t agent v s) := by
  unfold execBootRelease
  exact State.live_keeps hP hS (fun v0 h1 => (State.gate_keeps hP h1 (fun v2 h3 => (State.releaseStore_keeps hP h3))))

theorem State.entryActs_keeps {P} (hP : ClosedMem P) {s e} (hS : P s) : P (State.entryActs s e) := by
  have hc := hP.toClosed
  unfold State.entryActs
  split
  · rename_i x0 x1 x2 x3 x4
    exact State.linkConfigured_keeps hP hS
  · rename_i x0 x1 x2 x3 x4 x5
    exact ok_ite (State.winCheck_keeps hc hS) hS
  · rename_i x0 x1 x2 x3 x4 x5 x6
    exact ok_ite (State.rillEnabled_keeps hc hS) hS
  · rename_i x0 x1 x2 x3 x4 x5
    exact hS

theorem State.applyTxn_keeps {P} (hP : ClosedMem P) {s} (hS : P s) : P (State.applyTxn s) := by
  have hc := hP.toClosed
  unfold State.applyTxn
  dsimp only
  exact State.each_keeps hc (State.each_keeps hc (State.each_keeps hc (State.each_keeps hc hS (fun v0 v1 h2 =>
      (State.storeReg_keeps hc h2))) (fun v0 v1 h2 => (State.entryActs_keeps hP h2))) (fun v0 v1 h2 =>
      (State.trigChanged_keeps hc h2))) (fun v0 v1 h2 => (State.useEpoch_keeps hc h2))

theorem State.txnBoundary_keeps {P} (hP : ClosedMem P) {s} (hS : P s) : P (State.txnBoundary s) := by
  have hc := hP.toClosed
  unfold State.txnBoundary
  refine ok_ite (State.txnEnd_keeps hc hS) ?_
  split
  · rename_i x10 x11 x12 x13
    exact State.txnEnd_keeps hc (State.setReg_keeps hc hS)
  · rename_i x10 x11
    exact State.txnEnd_keeps hc (State.applyTxn_keeps hP hS)

theorem execTxnApply_keeps {P} (hP : ClosedMem P) {t s} (hS : P s) : OkN P (execTxnApply t s) := by
  have hc := hP.toClosed
  unfold execTxnApply
  exact State.live_keeps hc hS (fun v0 h1 => (ok_ite (State.txnBoundary_keeps hP h1) h1))

/-! ### CustomerDie -/

theorem State.sitePeer_keeps {P} (hP : Closed P) {s agent cls pa size wr data} (hS : P s) : P (State.sitePeer s agent cls pa
    size wr data) := by
  unfold State.sitePeer
  dsimp only
  exact ok_ite (okL_fst (ok_ite (State.peerWrite_keeps hP hS) (State.peerRead_keeps hP hS))) (State.answer_keeps hP (okL_fst
      (ok_ite (State.peerWrite_keeps hP hS) (State.peerRead_keeps hP hS))))

theorem State.plainAccess_keeps {P} (hP : ClosedMem P) {s agent pa size wr data} (hS : P s) : P (State.plainAccess s agent
    pa size wr data) := by
  have hc := hP.toClosed
  unfold State.plainAccess
  dsimp only
  exact ok_ite (State.answer_keeps hc (State.engWrite_keeps hP hS)) (ok_ite (State.answer_keeps hc (okR_snd (okR_snd
      (State.engRead_keeps hP hS)))) (State.answerLine_keeps hc (okR_snd (okR_snd (State.engRead_keeps hP hS)))))

theorem State.performAccess_keeps {P} (hP : ClosedMem P) {s r} (hS : P s) : P (State.performAccess s r) := by
  have hc := hP.toClosed
  unfold State.performAccess
  split
  · rename_i x0 x1
    split
    · rename_i x2 x3
      exact ok_ite (State.regWrite_keeps hP (State.answer_keeps hc hS)) (State.regRead_keeps hP hS)
    · rename_i x2 x3
      exact State.sitePeer_keeps hc hS
    · rename_i x2 x3 x4
      exact State.plainAccess_keeps hP hS
  · rename_i x0 x1
    exact State.answer_keeps hc hS

theorem State.siteRequest_keeps {P} (hP : ClosedMem P) {s r} (hS : P s) : P (State.siteRequest s r) := by
  have hc := hP.toClosed
  unfold State.siteRequest
  exact ok_ite (State.performAccess_keeps hP hS) (State.answer_keeps hc hS)

theorem State.releaseSites_keeps {P} (hP : ClosedMem P) {s} (hS : P s) : P (State.releaseSites s) := by
  have hc := hP.toClosed
  unfold State.releaseSites
  exact ok_ite (State.each_keeps hc (Closed.upd hc hS) (fun v0 v1 h2 => (State.siteRequest_keeps hP h2))) hS

theorem execCustomerDieRequest_keeps {P} (hP : ClosedMem P) {t site a cls pa size isWrite data found s} (hS : P s) : OkN P
    (execCustomerDieRequest t site a cls pa size isWrite data found s) := by
  have hc := hP.toClosed
  unfold execCustomerDieRequest
  refine State.live_keeps hc hS (fun v0 h1 => ?_)
  dsimp only
  exact ok_ite h1 (ok_ite (State.reads_keeps hP h1 (fun v10 h11 => (State.siteRequest_keeps hP h11))) (Closed.upd hc h1))

theorem execSysProtLock_keeps {P} (hP : ClosedMem P) {t agent v s} (hS : P s) : OkN P (execSysProtLock t agent v s) := by
  have hc := hP.toClosed
  unfold execSysProtLock
  exact State.live_keeps hc hS (fun v0 h1 => (State.releaseSites_keeps hP (State.gate_keeps hc h1 (fun v2 h3 =>
      (State.storeReg_keeps hc h3)))))

theorem execRegisterWrite_keeps {P} (hP : ClosedMem P) {t agent reg v s} (hS : P s) : OkN P (execRegisterWrite t agent reg v
    s) := by
  have hc := hP.toClosed
  unfold execRegisterWrite
  exact State.live_keeps hc hS (fun v0 h1 => (State.releaseSites_keeps hP (State.registerWrite_keeps hP h1)))

/-! ### Boot -/

theorem State.reportSave_keeps {P} (hP : Closed P) {s} (hS : P s) : P (State.reportSave s) := by
  unfold State.reportSave
  dsimp only
  exact ok_ite (State.setReg_keeps hP hS) hS

theorem State.slotResult_keeps {P} (hP : Closed P) {s slot code} (hS : P s) : P (State.slotResult s slot code) := by
  unfold State.slotResult
  exact State.wr_keeps hP hS

theorem State.slotOrder_keeps {P} (hP : ClosedMem P) {s env} (hS : P s) : OkR P (State.slotOrder s env) := by
  have hc := hP.toClosed
  unfold State.slotOrder
  split
  · rename_i x0 x1 x2 x3
    exact okR_mk (ok_ite (State.setBytes_keeps hP hS) hS)
  · rename_i x0 x1
    dsimp only
    exact okR_mk (ok_ite (ok_ite hS (State.slotResult_keeps hc hS)) (State.slotResult_keeps hc (ok_ite hS
        (State.slotResult_keeps hc hS))))

theorem State.chooseSlot_keeps {P} (hP : Closed P) {s env a} (hS : P s) : OkR P (State.chooseSlot s env a) := by
  induction a generalizing s env with
  | nil  =>
    unfold State.chooseSlot
    exact okR_mk hS
  | cons x0 x1 x2 =>
    unfold State.chooseSlot
    dsimp only
    exact ok_ite (okR_mk (State.slotResult_keeps hP hS)) (x2 (State.slotResult_keeps hP hS))

theorem State.stage_keeps {P} (hP : ClosedMem P) {s f} (hS : P s) : P (State.stage s f) := by
  have hc := hP.toClosed
  unfold State.stage
  exact State.setBytes_keeps hP hS

theorem State.clearStaging_keeps {P : State → Prop} (hP : ClosedMem P) {s : State} (hS : P s) : P (State.clearStaging s) :=
  hP.dropMem s _ _ _ rfl rfl rfl rfl hS

theorem State.lockPlls_keeps {P} (hP : Closed P) {s} (hS : P s) : P (State.lockPlls s) := by
  unfold State.lockPlls
  exact State.wr_keeps hP (State.wr_keeps hP (State.wr_keeps hP (State.wr_keeps hP hS)))

theorem State.setLock_keeps {P} (hP : Closed P) {s} (hS : P s) : P (State.setLock s) := by
  unfold State.setLock
  exact State.setReg_keeps hP (State.wr_keeps hP hS)

theorem State.noImage_keeps {P} (hP : ClosedMem P) {s} (hS : P s) : P (State.noImage s) := by
  have hc := hP.toClosed
  unfold State.noImage
  dsimp only
  exact State.setLock_keeps hc (State.wr_keeps hc (State.clearStaging_keeps hP (Closed.upd hc hS)))

theorem State.hbmFail_keeps {P} (hP : Closed P) {s} (hS : P s) : P (State.hbmFail s) := by
  unfold State.hbmFail
  dsimp only
  exact Closed.upd hP (State.wr_keeps hP hS)

theorem State.writeDike_keeps {P} (hP : Closed P) {s} (hS : P s) : P (State.writeDike s) := by
  unfold State.writeDike
  dsimp only
  split
  · rename_i x0 x1
    exact hS
  · rename_i x0 x1 x2 x3
    exact Closed.upd hP hS

theorem State.applyConfig_keeps {P} (hP : ClosedMem P) {s} (hS : P s) : P (State.applyConfig s) := by
  have hc := hP.toClosed
  unfold State.applyConfig
  dsimp only
  exact State.each_keeps hc hS (fun v0 v1 h2 => (State.regLive_keeps hP h2))

theorem State.cxlPort_keeps {P} (hP : Closed P) {s p b} (hS : P s) : P (State.cxlPort s p b) := by
  unfold State.cxlPort
  dsimp only
  exact ok_ite (State.wr_keeps hP hS) (ok_ite (State.wr_keeps hP hS) (State.wr_keeps hP (State.wr_keeps hP (State.wr_keeps
      hP (State.wr_keeps hP (State.wr_keeps hP (Closed.upd hP hS)))))))

theorem State.siteUp_keeps {P} (hP : Closed P) {s n b} (hS : P s) : P (State.siteUp s n b) := by
  unfold State.siteUp
  refine ok_ite (State.wr_keeps hP hS) (ok_ite (State.wr_keeps hP hS) ?_)
  dsimp only
  exact ok_ite (Closed.upd hP (State.wr_keeps hP (State.wr_keeps hP (State.wr_keeps hP (State.each_keeps hP hS (fun v10 v11
      h12 => (State.setReg_keeps hP h12))))))) (State.wr_keeps hP (State.wr_keeps hP (State.wr_keeps hP (State.each_keeps hP
      hS (fun v10 v11 h12 => (State.setReg_keeps hP h12))))))

theorem State.loadSpfw_keeps {P} (hP : Closed P) {s} (hS : P s) : P (State.loadSpfw s) := by
  unfold State.loadSpfw
  dsimp only
  exact Closed.upd hP hS

theorem State.loadHost_keeps {P} (hP : ClosedMem P) {s} (hS : P s) : P (State.loadHost s) := by
  have hc := hP.toClosed
  unfold State.loadHost
  dsimp only
  exact State.each_keeps hc hS (fun v0 v1 h2 => (State.setBytes_keeps hP h2))

theorem State.finishBoot_keeps {P} (hP : ClosedMem P) {s} (hS : P s) : P (State.finishBoot s) := by
  have hc := hP.toClosed
  unfold State.finishBoot
  dsimp only
  refine State.releaseSites_keeps hP ?_
  split
  · rename_i x10 x11 x12
    exact State.releaseCore_keeps hc (State.setHost_keeps hc (Closed.upd hc (State.setLock_keeps hc (State.wr_keeps hc
        (State.clearStaging_keeps hP (State.loadHost_keeps hP (State.loadSpfw_keeps hc (State.wr_keeps hc hS))))))))
  · rename_i x10 x11
    exact Closed.upd hc (State.setLock_keeps hc (State.wr_keeps hc (State.clearStaging_keeps hP (State.loadHost_keeps hP
        (State.loadSpfw_keeps hc (State.wr_keeps hc hS))))))

theorem State.bootedSlot_keeps {P} (hP : Closed P) {s slot f} (hS : P s) : P (State.bootedSlot s slot f) := by
  unfold State.bootedSlot
  dsimp only
  exact State.each_keeps hP (State.wr_keeps hP (State.wr_keeps hP (State.wr_keeps hP (State.wr_keeps hP hS)))) (fun v0 v1 h2
      => (State.setReg_keeps hP h2))

theorem State.runImage_keeps {P} (hP : ClosedMem P) {s env slot} (hS : P s) : P (State.runImage s env slot) := by
  have hc := hP.toClosed
  unfold State.runImage
  dsimp only
  refine ok_ite (State.finishBoot_keeps hP (State.each_keeps hc (State.each_keeps hc (State.applyConfig_keeps hP
      (State.writeDike_keeps hc (State.stage_keeps hP (State.bootedSlot_keeps hc hS)))) (fun v0 v1 h2 => ?_)) (fun v0 v1 h2
      => ?_))) (Closed.upd hc (State.each_keeps hc (State.each_keeps hc (State.applyConfig_keeps hP (State.writeDike_keeps
      hc (State.stage_keeps hP (State.bootedSlot_keeps hc hS)))) (fun v0 v1 h2 => ?_)) (fun v0 v1 h2 => ?_)))
  · split
    · rename_i x10 x11 x12
      exact State.cxlPort_keeps hc h2
    · rename_i x10 x11
      exact h2
  · split
    · rename_i x10 x11 x12
      exact State.siteUp_keeps hc h2
    · rename_i x10 x11
      exact State.wr_keeps hc h2
  · split
    · rename_i x10 x11 x12
      exact State.cxlPort_keeps hc h2
    · rename_i x10 x11
      exact h2
  · split
    · rename_i x10 x11 x12
      exact State.siteUp_keeps hc h2
    · rename_i x10 x11
      exact State.wr_keeps hc h2

theorem State.boot_keeps {P} (hP : ClosedMem P) {s env} (hS : P s) : P (State.boot s env) := by
  have hc := hP.toClosed
  unfold State.boot
  dsimp only
  refine ok_ite (State.hbmFail_keeps hc (okR_snd (State.slotOrder_keeps hP (State.reportSave_keeps hc (State.lockPlls_keeps
      hc hS))))) ?_
  split
  · rename_i x10 x11 x12 x13
    exact State.runImage_keeps hP (okR_snd (ok_eq x13 (State.chooseSlot_keeps hc (okR_snd (State.slotOrder_keeps hP
        (State.reportSave_keeps hc (State.lockPlls_keeps hc hS)))))))
  · rename_i x10 x11 x12
    exact State.noImage_keeps hP (okR_snd (ok_eq x12 (State.chooseSlot_keeps hc (okR_snd (State.slotOrder_keeps hP
        (State.reportSave_keeps hc (State.lockPlls_keeps hc hS)))))))

theorem execBoot_keeps {P} (hP : ClosedMem P) {t env s} (hS : P s) : OkN P (execBoot t env s) := by
  have hc := hP.toClosed
  unfold execBoot
  exact State.live_keeps hc hS (fun v0 h1 => (ok_ite (State.boot_keeps hP h1) h1))

theorem execHbmTrainingTimeout_keeps {P} (hP : Closed P) {t stack s} (hS : P s) : OkN P (execHbmTrainingTimeout t stack s)
    := by
  unfold execHbmTrainingTimeout
  exact State.live_keeps hP hS (fun v0 h1 => (ok_ite (State.hbmFail_keeps hP h1) h1))

theorem execBringupTimeout_keeps {P} (hP : ClosedMem P) {t s} (hS : P s) : OkN P (execBringupTimeout t s) := by
  have hc := hP.toClosed
  unfold execBringupTimeout
  refine State.live_keeps hc hS (fun v0 h1 => ?_)
  split
  · rename_i x10 x11 x12 x13
    dsimp only
    exact ok_ite (State.finishBoot_keeps hP (State.each_keeps hc (State.each_keeps hc h1 (fun v14 v15 h16 => (State.wr_keeps
        hc h16))) (fun v14 v15 h16 => (ok_ite (State.wr_keeps hc h16) h16)))) h1
  · rename_i x10 x11
    exact h1

/-! ### Firmware -/

theorem State.takeReq_keeps {P} (hP : Closed P) {s m n} (hS : P s) : OkR P (State.takeReq s m n) := by
  unfold State.takeReq
  dsimp only
  exact okR_mk (ok_ite (State.wr_keeps hP (State.setMbox_keeps hP hS)) (State.setMbox_keeps hP hS))

theorem State.fwAnswer_keeps {P} (hP : Closed P) {s m code ws} (hS : P s) : P (State.fwAnswer s m code ws) := by
  unfold State.fwAnswer
  dsimp only
  exact State.mbAckWrite_keeps hP (State.each_keeps hP hS (fun v0 v1 h2 => (State.mbRspPush_keeps hP h2)))

theorem State.fwHub0_keeps {P} (hP : Closed P) {s m code n f} (hS : P s) (hFf : ∀ v0 v1 v2, P v2 → OkR (OkR P) (f v0 v1 v2))
    : P (State.fwHub0 s m code n f) := by
  unfold State.fwHub0
  dsimp only
  exact ok_ite (ok_ite (State.fwAnswer_keeps hP hS) (State.fwAnswer_keeps hP (okR_snd (okR_snd (hFf _ _ _ (okR_snd
      (State.takeReq_keeps hP hS))))))) hS

theorem execAttest_keeps {P} (hP : ClosedMem P) {t m s} (hS : P s) : OkN P (execAttest t m s) := by
  have hc := hP.toClosed
  unfold execAttest
  refine State.live_keeps hc hS (fun v0 h1 => (State.fwHub0_keeps hc h1 (fun v2 v3 v4 h5 => ?_)))
  dsimp only
  exact ok_ite (okR_mk (okR_mk h5)) (ok_ite (okR_mk (okR_mk h5)) (okR_mk (okR_mk (State.engWrite_keeps hP h5))))

theorem execGetCerts_keeps {P} (hP : ClosedMem P) {t m s} (hS : P s) : OkN P (execGetCerts t m s) := by
  have hc := hP.toClosed
  unfold execGetCerts
  refine State.live_keeps hc hS (fun v0 h1 => (State.fwHub0_keeps hc h1 (fun v2 v3 v4 h5 => ?_)))
  dsimp only
  exact ok_ite (okR_mk (okR_mk h5)) (ok_ite (okR_mk (okR_mk h5)) (okR_mk (okR_mk (State.engWrite_keeps hP h5))))

theorem State.fwImage_keeps {P} (hP : Closed P) {s m code n f} (hS : P s) (hFf : ∀ v0 v1 v2, P v2 → OkR (OkR P) (f v0 v1
    v2)) : P (State.fwImage s m code n f) := by
  unfold State.fwImage
  exact ok_ite (State.fwHub0_keeps hP hS (fun v0 v1 v2 h3 => (ok_ite (hFf _ _ _ h3) (okR_mk (okR_mk h3))))) hS

theorem State.flashPut_keeps {P} (hP : Closed P) {s off b} (hS : P s) : P (State.flashPut s off b) := by
  unfold State.flashPut
  exact Closed.upd hP hS

theorem State.programSlot_keeps {P} (hP : Closed P) {s slot image} (hS : P s) : P (State.programSlot s slot image) := by
  unfold State.programSlot
  exact State.flashPut_keeps hP hS

theorem State.spoilSlot_keeps {P} (hP : Closed P) {s slot len} (hS : P s) : P (State.spoilSlot s slot len) := by
  unfold State.spoilSlot
  dsimp only
  exact Closed.upd hP (State.flashPut_keeps hP hS)

theorem execImageWrite_keeps {P} (hP : ClosedMem P) {t m readBackOk found s} (hS : P s) : OkN P (execImageWrite t m
    readBackOk found s) := by
  have hc := hP.toClosed
  unfold execImageWrite
  refine State.live_keeps hc hS (fun v0 h1 => (State.reads_keeps hP h1 (fun v2 h3 => (State.fwImage_keeps hc h3 (fun v4 v5
      v6 h7 => ?_)))))
  dsimp only
  refine ok_ite (okR_mk (okR_mk h7)) (ok_ite (okR_mk (okR_mk h7)) ?_)
  split
  · rename_i x20 x21
    exact ok_ite (okR_mk (okR_mk (okR_snd (okR_snd (State.engRead_keeps hP h7))))) (ok_ite (okR_mk (okR_mk
        (State.programSlot_keeps hc (okR_snd (okR_snd (State.engRead_keeps hP h7)))))) (okR_mk (okR_mk
        (State.spoilSlot_keeps hc (okR_snd (okR_snd (State.engRead_keeps hP h7)))))))
  · rename_i x20 x21
    exact okR_mk (okR_mk (okR_snd (okR_snd (State.engRead_keeps hP h7))))

theorem execSetNext_keeps {P} (hP : ClosedMem P) {t m s} (hS : P s) : OkN P (execSetNext t m s) := by
  have hc := hP.toClosed
  unfold execSetNext
  refine State.live_keeps hc hS (fun v0 h1 => (State.fwImage_keeps hc h1 (fun v2 v3 v4 h5 => ?_)))
  dsimp only
  exact okR_mk (okR_mk (State.engWrite_keeps hP h5))

theorem execRollbackCommit_keeps {P} (hP : Closed P) {t m s} (hS : P s) : OkN P (execRollbackCommit t m s) := by
  unfold execRollbackCommit
  exact State.live_keeps hP hS (fun v0 h1 => (State.fwImage_keeps hP h1 (fun v2 v3 v4 h5 => (okR_mk (okR_mk (Closed.upd hP
      h5))))))

theorem execThrottleLog_keeps {P} (hP : ClosedMem P) {t m s} (hS : P s) : OkN P (execThrottleLog t m s) := by
  have hc := hP.toClosed
  unfold execThrottleLog
  refine State.live_keeps hc hS (fun v0 h1 => (State.fwHub0_keeps hc h1 (fun v2 v3 v4 h5 => ?_)))
  dsimp only
  exact ok_ite (okR_mk (okR_mk h5)) (ok_ite (okR_mk (okR_mk h5)) (okR_mk (okR_mk (State.engWrite_keeps hP h5))))

/-! ### HostCore -/

theorem State.accessFault_keeps {P} (hP : Closed P) {s c cause pa} (hS : P s) : P (State.accessFault s c cause pa) := by
  unfold State.accessFault
  exact State.refuse_keeps hP hS

theorem State.poisonFault_keeps {P} (hP : Closed P) {s c line} (hS : P s) : P (State.poisonFault s c line) := by
  unfold State.poisonFault
  exact State.answer_keeps hP (State.hostExc_keeps hP hS)

theorem State.prefetchNext_keeps {P} (hP : ClosedMem P) {s c line} (hS : P s) : P (State.prefetchNext s c line) := by
  have hc := hP.toClosed
  unfold State.prefetchNext
  dsimp only
  refine ok_ite ?_ hS
  split
  · rename_i x10 x11
    exact hS
  · rename_i x10 x11 x12 x13 x14
    exact State.setHost_keeps hc (okR_snd (okR_snd (okO_eq x14 (State.readShared_keeps hP hS))))

theorem State.prefetchFetch_keeps {P} (hP : ClosedMem P) {s c line} (hS : P s) : P (State.prefetchFetch s c line) := by
  have hc := hP.toClosed
  unfold State.prefetchFetch
  dsimp only
  exact ok_ite (ok_ite (State.setHost_keeps hc (State.prefetchNext_keeps hP hS)) (State.prefetchNext_keeps hP hS)) hS

theorem State.cachedLine_keeps {P} (hP : ClosedMem P) {s c line fetch} (hS : P s) : OkO (OkR (OkR P)) (State.cachedLine s c
    line fetch) := by
  have hc := hP.toClosed
  unfold State.cachedLine
  dsimp only
  split
  · rename_i x0 x1 x2
    exact okO_some (okR_mk (okR_mk (ok_ite (State.prefetchFetch_keeps hP (State.touchL1_keeps hc (State.placeLine_keeps hc
        (State.settle_keeps hc hS)))) (State.touchL1_keeps hc (State.placeLine_keeps hc (State.settle_keeps hc hS))))))
  · rename_i x0 x1
    split
    · rename_i x2 x3
      exact okO_none
    · rename_i x2 x3 x4 x5 x6
      exact okO_some (okR_mk (okR_mk (ok_ite (State.prefetchFetch_keeps hP (State.prefetchNext_keeps hP (State.touchL1_keeps
          hc (okR_snd (okR_snd (okO_eq x6 (State.readShared_keeps hP (State.settle_keeps hc hS))))))))
          (State.prefetchNext_keeps hP (State.touchL1_keeps hc (okR_snd (okR_snd (okO_eq x6 (State.readShared_keeps hP
          (State.settle_keeps hc hS))))))))))

theorem State.hostLine_keeps {P} (hP : ClosedMem P) {s c line fetch} (hS : P s) : OkO (OkR (OkR P)) (State.hostLine s c line
    fetch) := by
  have hc := hP.toClosed
  unfold State.hostLine
  exact ok_ite (State.cachedLine_keeps hP hS) (okO_some (State.engLine_keeps hP hS))

theorem State.hostBytes_keeps {P : State → Prop} (hP : ClosedMem P) {s : State} {c : Nat} {pa : Nat} {size : Nat}
    {fetch : Bool} (hS : P s) : OkO (OkR (OkR P)) (State.hostBytes s c pa size fetch) := by
  refine ok_foldl (Q := OkO (OkR (OkR P))) ?_ _ _ (okO_some hS)
  intro a line h
  split
  · exact okO_none
  · have h1 : P _ := okO_eqRR rfl h
    split
    · exact okO_none
    · rename_i e
      exact okO_some (okR_mk (okR_mk (okO_eqRR e (State.hostLine_keeps hP h1))))

theorem State.loaded_keeps {P} (hP : Closed P) {s c kind b} (hS : P s) : P (State.loaded s c kind b) := by
  unfold State.loaded
  dsimp only
  exact State.answerLine_keeps hP (ok_ite hS (State.setHost_keeps hP hS))

theorem State.peerLoad_keeps {P} (hP : Closed P) {s c pa size tag} (hS : P s) : P (State.peerLoad s c pa size tag) := by
  unfold State.peerLoad
  refine State.each_keeps hP hS (fun v0 v1 h2 => ?_)
  dsimp only
  split
  · rename_i x10 x11 x12
    exact okL_fst (ok_eq x12 (State.peerRead_keeps hP (State.setHost_keeps hP h2)))
  · rename_i x10 x11 x12 x13 x14
    exact State.peerLoadDone_keeps hP (okL_fst (ok_eq x14 (State.peerRead_keeps hP (State.setHost_keeps hP h2))))

theorem State.doLoad_keeps {P} (hP : ClosedMem P) {s c pa size tag kind} (hS : P s) : P (State.doLoad s c pa size tag kind)
    := by
  have hc := hP.toClosed
  unfold State.doLoad
  split
  · rename_i x0 x1
    exact State.peerLoad_keeps hc hS
  · rename_i x0 x1
    dsimp only
    exact State.setHost_keeps hc (State.regRead_keeps hP hS)
  · rename_i x0 x1 x2
    split
    · rename_i x3 x4
      exact hS
    · rename_i x3 x4 x5 x6 x7
      exact State.poisonFault_keeps hc (okR_snd (okR_snd (okO_eq x7 (State.hostBytes_keeps hP hS))))
    · rename_i x3 x4 x5 x6
      exact State.loaded_keeps hc (okR_snd (okR_snd (okO_eq x6 (State.hostBytes_keeps hP hS))))

theorem State.load_keeps {P} (hP : ClosedMem P) {s c pa size tag kind} (hS : P s) : P (State.load s c pa size tag kind) :=
    by
  have hc := hP.toClosed
  unfold State.load
  refine ok_ite hS ?_
  split
  · rename_i x10 x11
    refine ok_ite hS (ok_ite ?_ (State.doLoad_keeps hP hS))
    split
    · rename_i x22 x23 x24
      exact State.loaded_keeps hc hS
    · rename_i x22 x23
      exact hS
  · rename_i x10 x11
    exact State.accessFault_keeps hc hS

theorem State.ownParity_keeps {P} (hP : ClosedMem P) {s c lines found} (hS : P s) : P (State.ownParity s c lines found) :=
    by
  have hc := hP.toClosed
  unfold State.ownParity
  exact State.each_keeps hc hS (fun v0 v1 h2 => (State.cacheParity_keeps hP h2))

theorem execHostCoreLoad_keeps {P} (hP : ClosedMem P) {t core pa size tag kind found s} (hS : P s) : OkN P (execHostCoreLoad
    t core pa size tag kind found s) := by
  have hc := hP.toClosed
  unfold execHostCoreLoad
  refine State.live_keeps hc hS (fun v0 h1 => (ok_ite (State.reads_keeps hP h1 (fun v2 h3 => ?_)) h1))
  dsimp only
  exact State.load_keeps hP (State.tlbUse_keeps hc (ok_ite (State.ownParity_keeps hP h3) h3))

theorem State.pushStore_keeps {P} (hP : Closed P) {s c tag p} (hS : P s) : P (State.pushStore s c tag p) := by
  unfold State.pushStore
  dsimp only
  exact State.setHost_keeps hP hS

theorem State.store_keeps {P} (hP : Closed P) {s c pa size tag kind data} (hS : P s) : P (State.store s c pa size tag kind
    data) := by
  unfold State.store
  dsimp only
  refine ok_ite hS ?_
  split
  · rename_i x10 x11
    exact ok_ite hS (State.issuePeers_keeps hP (State.each_keeps hP hS (fun v12 v13 h14 => (State.pushStore_keeps hP h14))))
  · rename_i x10 x11
    exact State.accessFault_keeps hP hS

theorem execHostCoreStore_keeps {P} (hP : Closed P) {t core pa size tag kind data s} (hS : P s) : OkN P (execHostCoreStore t
    core pa size tag kind data s) := by
  unfold execHostCoreStore
  exact State.live_keeps hP hS (fun v0 h1 => (ok_ite (State.store_keeps hP (State.tlbUse_keeps hP h1)) h1))

theorem State.storeDone_keeps {P} (hP : Closed P) {s c e} (hS : P s) : P (State.storeDone s c e) := by
  unfold State.storeDone
  dsimp only
  exact State.tryBarriers_keeps hP (State.setHost_keeps hP hS)

theorem State.performCached_keeps {P} (hP : Closed P) {s c e} (hS : P s) : OkO P (State.performCached s c e) := by
  unfold State.performCached
  dsimp only
  exact ok_ite (okO_some (State.storeDone_keeps hP (State.touchL1_keeps hP (State.storeCached_keeps hP hS)))) (okO_none)

theorem State.ackCached_keeps {P} (hP : ClosedMem P) {s c e} (hS : P s) : P (State.ackCached s c e) := by
  have hc := hP.toClosed
  unfold State.ackCached
  dsimp only
  split
  · rename_i x0 x1 x2
    exact okO_eq x2 (State.performCached_keeps hc (State.settle_keeps hc hS))
  · rename_i x0 x1
    refine ok_ite (State.settle_keeps hc hS) ?_
    split
    · rename_i x12 x13
      exact State.settle_keeps hc hS
    · rename_i x12 x13 x14
      exact okO_getD (State.performCached_keeps hc (ok_ite (State.prefetchNext_keeps hP (okO_eq x14 (State.readOwn_keeps hP
          (State.settle_keeps hc hS)))) (okO_eq x14 (State.readOwn_keeps hP (State.settle_keeps hc hS))))) (ok_ite
          (State.prefetchNext_keeps hP (okO_eq x14 (State.readOwn_keeps hP (State.settle_keeps hc hS)))) (okO_eq x14
          (State.readOwn_keeps hP (State.settle_keeps hc hS))))

theorem State.ackTarget_keeps {P} (hP : ClosedMem P) {s c e} (hS : P s) : P (State.ackTarget s c e) := by
  have hc := hP.toClosed
  unfold State.ackTarget
  dsimp only
  refine State.storeDone_keeps hc ?_
  split
  · rename_i x10 x11
    exact State.releaseSites_keeps hP (State.regWrite_keeps hP hS)
  · rename_i x10 x11 x12
    exact State.engWrite_keeps hP hS
  · rename_i x10 x11
    exact State.engWrite_keeps hP hS
  · rename_i x10 x11 x12 x13
    exact hS

theorem State.ackPeer_keeps {P} (hP : ClosedMem P) {s c e ack} (hS : P s) : P (State.ackPeer s c e ack) := by
  have hc := hP.toClosed
  unfold State.ackPeer
  split
  · rename_i x0 x1
    exact hS
  · rename_i x0 x1 x2
    exact State.reqEnd_keeps hP hS

theorem execStoreAck_keeps {P} (hP : ClosedMem P) {t core i ack found s} (hS : P s) : OkN P (execStoreAck t core i ack found
    s) := by
  have hc := hP.toClosed
  unfold execStoreAck
  refine State.live_keeps hc hS (fun v0 h1 => ?_)
  split
  · rename_i x10 x11
    exact h1
  · rename_i x10 x11 x12
    exact ok_ite (ok_ite (State.ackPeer_keeps hP h1) h1) (ok_ite h1 (ok_ite (State.reads_keeps hP h1 (fun v13 h14 =>
        (State.ackCached_keeps hP (State.ownParity_keeps hP h14)))) (State.ackTarget_keeps hP h1)))

theorem State.homeAtomic_keeps {P} (hP : ClosedMem P) {s c pa size op a b} (hS : P s) : P (State.homeAtomic s c pa size op a
    b) := by
  have hc := hP.toClosed
  unfold State.homeAtomic
  dsimp only
  exact ok_ite (State.poisonFault_keeps hc (okR_snd (okR_snd (State.fetchLine_keeps hP (State.coTake_keeps hP hS)))))
      (State.loaded_keeps hc (State.storeLine_keeps hP (okR_snd (okR_snd (State.fetchLine_keeps hP (State.coTake_keeps hP
      hS))))))

theorem State.adderAtomic_keeps {P} (hP : ClosedMem P) {s c pa size op a b} (hS : P s) : P (State.adderAtomic s c pa size op
    a b) := by
  unfold State.adderAtomic
  have h : OkR P (s.mop (0x100 + c) op ⟨.scalar, pa, true, hostOperand size op a b, 0, 0, 0, .none, none⟩) :=
      State.mop_keeps hP hS
  generalize s.mop (0x100 + c) op ⟨.scalar, pa, true, hostOperand size op a b, 0, 0, 0, .none, none⟩ = x at h ⊢
  obtain ⟨r, t⟩ := x
  replace h : P t := h
  cases r with
  | none => exact h
  | some r =>
    cases r with
    | ok old => exact State.loaded_keeps hP.toClosed h
    | poison => exact State.poisonFault_keeps hP.toClosed h
    | refused _ => exact h

theorem execHostAtomic_keeps {P} (hP : ClosedMem P) {t core pa size tag op a b found s} (hS : P s) : OkN P (execHostAtomic t
    core pa size tag op a b found s) := by
  have hc := hP.toClosed
  unfold execHostAtomic
  refine State.live_keeps hc hS (fun v0 h1 => (ok_ite h1 ?_))
  split
  · rename_i x10 x11
    exact ok_ite h1 (ok_ite (State.reads_keeps hP h1 (fun v12 h13 => (State.adderAtomic_keeps hP (State.tlbUse_keeps hc
        h13)))) (ok_ite h1 (State.reads_keeps hP h1 (fun v12 h13 => (State.homeAtomic_keeps hP (State.tlbUse_keeps hc
        h13))))))
  · rename_i x10 x11
    exact State.accessFault_keeps hc h1

theorem execLoadReserved_keeps {P} (hP : ClosedMem P) {t core pa size tag found s} (hS : P s) : OkN P (execLoadReserved t
    core pa size tag found s) := by
  have hc := hP.toClosed
  unfold execLoadReserved
  refine State.live_keeps hc hS (fun v0 h1 => (ok_ite h1 ?_))
  split
  · rename_i x10 x11
    dsimp only
    refine ok_ite h1 (State.reads_keeps hP h1 (fun v12 h13 => ?_))
    split
    · rename_i x22 x23
      exact h13
    · rename_i x22 x23 x24 x25 x26
      exact State.poisonFault_keeps hc (okR_snd (okR_snd (okO_eq x26 (State.hostBytes_keeps hP (State.tlbUse_keeps hc
          (State.ownParity_keeps hP h13))))))
    · rename_i x22 x23 x24 x25
      exact State.loaded_keeps hc (State.setHost_keeps hc (okR_snd (okR_snd (okO_eq x25 (State.hostBytes_keeps hP
          (State.tlbUse_keeps hc (State.ownParity_keeps hP h13)))))))
  · rename_i x10 x11
    exact State.accessFault_keeps hc h1

theorem State.conditional_keeps {P} (hP : Closed P) {s c pa size data} (hS : P s) : P (State.conditional s c pa size data)
    := by
  unfold State.conditional
  dsimp only
  exact ok_ite (State.setHost_keeps hP hS) (ok_ite (State.scStore_keeps hP (State.setHost_keeps hP hS)) (State.setHost_keeps
      hP hS))

theorem execStoreConditional_keeps {P} (hP : Closed P) {t core pa size tag data broken s} (hS : P s) : OkN P
    (execStoreConditional t core pa size tag data broken s) := by
  unfold execStoreConditional
  refine State.live_keeps hP hS (fun v0 h1 => (ok_ite h1 ?_))
  dsimp only
  split
  · rename_i x10 x11
    exact ok_ite (ok_ite (State.setHost_keeps hP h1) h1) (State.conditional_keeps hP (State.tlbUse_keeps hP (ok_ite
        (State.setHost_keeps hP h1) h1)))
  · rename_i x10 x11
    exact State.accessFault_keeps hP (ok_ite (State.setHost_keeps hP h1) h1)

theorem execAcquire_keeps {P} (hP : Closed P) {t core s} (hS : P s) : OkN P (execAcquire t core s) := by
  unfold execAcquire
  exact State.live_keeps hP hS (fun v0 h1 => (State.barrier_keeps hP h1))

theorem execRelease_keeps {P} (hP : Closed P) {t core s} (hS : P s) : OkN P (execRelease t core s) := by
  unfold execRelease
  exact State.live_keeps hP hS (fun v0 h1 => (State.barrier_keeps hP h1))

theorem execFull_keeps {P} (hP : Closed P) {t core s} (hS : P s) : OkN P (execFull t core s) := by
  unfold execFull
  exact State.live_keeps hP hS (fun v0 h1 => (State.barrier_keeps hP h1))

theorem execDevice_keeps {P} (hP : Closed P) {t core s} (hS : P s) : OkN P (execDevice t core s) := by
  unfold execDevice
  exact State.live_keeps hP hS (fun v0 h1 => (State.barrier_keeps hP h1))

theorem execRc_keeps {P} (hP : Closed P) {t core s} (hS : P s) : OkN P (execRc t core s) := by
  unfold execRc
  exact State.live_keeps hP hS (fun v0 h1 => (State.barrier_keeps hP h1))

theorem execTlbInvalidation_keeps {P} (hP : Closed P) {t core tag s} (hS : P s) : OkN P (execTlbInvalidation t core tag s)
    := by
  unfold execTlbInvalidation
  refine State.live_keeps hP hS (fun v0 h1 => (ok_ite ?_ h1))
  dsimp only
  exact State.setHost_keeps hP (State.tlbDrop_keeps hP h1)

/-! ### Messages -/

theorem State.doneBound_keeps {P} (hP : Closed P) {s port x} (hS : P s) : P (State.doneBound s port x) := by
  unfold State.doneBound
  exact ok_ite (State.latBound_keeps hP hS) hS

theorem State.handle_keeps {P} (hP : Closed P) {s port takes f} (hS : P s) (hFf : ∀ v0 v1, P v1 → P (f v0 v1)) : P
    (State.handle s port takes f) := by
  unfold State.handle
  refine ok_ite hS ?_
  split
  · rename_i x10 x11
    exact hS
  · rename_i x10 x11 x12 x13
    exact ok_ite (hFf _ _ (Closed.upd hP hS)) hS

theorem State.refuseMsg_keeps {P} (hP : Closed P) {s port x code} (hS : P s) : P (State.refuseMsg s port x code) := by
  unfold State.refuseMsg
  exact State.respond_keeps hP hS

theorem State.arrive_keeps {P} (hP : Closed P) {s port x f} (hS : P s) (hFf : ∀ v0, P v0 → P (f v0)) : P (State.arrive s
    port x f) := by
  unfold State.arrive
  exact ok_ite (State.refuseMsg_keeps hP hS) (ok_ite (State.refuseMsg_keeps hP (State.bump_keeps hP hS))
      (State.doneBound_keeps hP (hFf _ hS)))

theorem State.request_keeps {P} (hP : ClosedMem P) {s port kind found f} (hS : P s) (hFf : ∀ v0 v1, P v0 → P (f v0 v1)) : P
    (State.request s port kind found f) := by
  have hc := hP.toClosed
  unfold State.request
  exact State.reads_keeps hP hS (fun v0 h1 => (State.handle_keeps hc h1 (fun v2 v3 h4 => (State.arrive_keeps hc h4 (fun v5
      h6 => (hFf _ _ h6))))))

theorem State.failWrites_keeps {P} (hP : Closed P) {s lines} (hS : P s) : P (State.failWrites s lines) := by
  unfold State.failWrites
  exact State.each_keeps hP hS (fun v0 v1 h2 => (State.bump_keeps hP h2))

theorem State.msgWrite_keeps {P} (hP : ClosedMem P) {s port x} (hS : P s) : P (State.msgWrite s port x) := by
  have hc := hP.toClosed
  unfold State.msgWrite
  dsimp only
  refine ok_ite (State.refuseMsg_keeps hc hS) ?_
  split
  · rename_i x10 x11
    exact ok_ite (State.refuseMsg_keeps hc (State.failWrites_keeps hc hS)) (State.respond_keeps hc (State.engWrite_keeps hP
        hS))
  · rename_i x10 x11
    exact State.refuseMsg_keeps hc hS

theorem State.msgRegister_keeps {P} (hP : ClosedMem P) {s port x mask data} (hS : P s) : P (State.msgRegister s port x mask
    data) := by
  have hc := hP.toClosed
  unfold State.msgRegister
  split
  · rename_i x0 x1
    exact State.refuseMsg_keeps hc hS
  · rename_i x0 x1 x2
    dsimp only
    split
    · rename_i x3 x4
      exact State.respond_keeps hc (State.releaseSites_keeps hP (State.regWrite_keeps hP hS))
    · rename_i x3 x4
      exact State.refuseMsg_keeps hc hS
    · rename_i x3 x4 x5
      exact State.refuseMsg_keeps hc hS

theorem State.msgMasked_keeps {P} (hP : ClosedMem P) {s port x} (hS : P s) : P (State.msgMasked s port x) := by
  have hc := hP.toClosed
  unfold State.msgMasked
  dsimp only
  refine ok_ite (State.refuseMsg_keeps hc hS) (ok_ite (State.msgRegister_keeps hP hS) ?_)
  split
  · rename_i x10 x11
    exact ok_ite (State.refuseMsg_keeps hc (State.failWrites_keeps hc hS)) (ok_ite (State.refuseMsg_keeps hc hS)
        (State.respond_keeps hc (State.engStore_keeps hP hS)))
  · rename_i x10 x11
    exact State.refuseMsg_keeps hc hS

theorem State.linesRead_keeps {P} (hP : ClosedMem P) {s line a} (hS : P s) : OkR P (State.linesRead s line a) := by
  have hc := hP.toClosed
  induction a generalizing s line with
  | zero  =>
    unfold State.linesRead
    exact okR_mk hS
  | succ x0 x1 =>
    unfold State.linesRead
    split
    · rename_i x2 x3 x4 x5 x6
      dsimp only
      exact okR_mk (okR_snd (x1 (ok_ite (Closed.upd hc (okR_snd (okR_snd (ok_eq x6 (State.engLine_keeps hP hS))))) (okR_snd
          (okR_snd (ok_eq x6 (State.engLine_keeps hP hS)))))))

theorem State.msgRead_keeps {P} (hP : ClosedMem P) {s port x} (hS : P s) : P (State.msgRead s port x) := by
  have hc := hP.toClosed
  unfold State.msgRead
  dsimp only
  refine ok_ite (State.refuseMsg_keeps hc hS) ?_
  split
  · rename_i x10 x11
    exact State.respond_keeps hc (okR_snd (State.linesRead_keeps hP hS))
  · rename_i x10 x11
    exact State.refuseMsg_keeps hc hS

theorem State.msgMop_keeps {P} (hP : ClosedMem P) {s port x} (hS : P s) : P (State.msgMop s port x) := by
  have hc := hP.toClosed
  unfold State.msgMop
  dsimp only
  refine ok_ite (State.refuseMsg_keeps hc hS) (ok_ite (State.refuseMsg_keeps hc hS) ?_)
  split
  · rename_i x10 x11 x12
    exact State.refuseMsg_keeps hc (okR_snd (ok_eq x12 (State.mop_keeps hP hS)))
  · rename_i x10 x11 x12 x13 x14
    exact State.refuseMsg_keeps hc (okR_snd (ok_eq x14 (State.mop_keeps hP hS)))
  · rename_i x10 x11 x12
    exact State.refuseMsg_keeps hc (okR_snd (ok_eq x12 (State.mop_keeps hP hS)))
  · rename_i x10 x11 x12 x13
    exact ok_ite (State.respond_keeps hc (okR_snd (ok_eq x13 (State.mop_keeps hP hS)))) (State.respond_keeps hc (okR_snd
        (ok_eq x13 (State.mop_keeps hP hS))))
  · rename_i x10 x11 x12
    exact okR_snd (ok_eq x12 (State.mop_keeps hP hS))

theorem State.msgColl_keeps {P} (hP : ClosedMem P) {s port x} (hS : P s) : P (State.msgColl s port x) := by
  have hc := hP.toClosed
  unfold State.msgColl
  split
  · rename_i x0 x1 x2
    exact State.respond_keeps hc (okR_snd (ok_eq x2 (State.ceArrive_keeps hP hS)))
  · rename_i x0 x1 x2
    exact State.refuseMsg_keeps hc (okR_snd (ok_eq x2 (State.ceArrive_keeps hP hS)))
  · rename_i x0 x1 x2
    exact State.refuseMsg_keeps hc (okR_snd (ok_eq x2 (State.ceArrive_keeps hP hS)))
  · rename_i x0 x1 x2
    exact State.refuseMsg_keeps hc (okR_snd (ok_eq x2 (State.ceArrive_keeps hP hS)))

theorem execWrite_keeps {P} (hP : ClosedMem P) {t port found s} (hS : P s) : OkN P (execWrite t port found s) := by
  have hc := hP.toClosed
  unfold execWrite
  exact State.live_keeps hc hS (fun v0 h1 => (State.request_keeps hP h1 (fun v2 v3 h4 => (State.msgWrite_keeps hP h4))))

theorem execWriteMasked_keeps {P} (hP : ClosedMem P) {t port found s} (hS : P s) : OkN P (execWriteMasked t port found s) :=
    by
  have hc := hP.toClosed
  unfold execWriteMasked
  exact State.live_keeps hc hS (fun v0 h1 => (State.request_keeps hP h1 (fun v2 v3 h4 => (State.msgMasked_keeps hP h4))))

theorem execRead_keeps {P} (hP : ClosedMem P) {t port found s} (hS : P s) : OkN P (execRead t port found s) := by
  have hc := hP.toClosed
  unfold execRead
  exact State.live_keeps hc hS (fun v0 h1 => (State.request_keeps hP h1 (fun v2 v3 h4 => (State.msgRead_keeps hP h4))))

theorem execMop_keeps {P} (hP : ClosedMem P) {t port found s} (hS : P s) : OkN P (execMop t port found s) := by
  have hc := hP.toClosed
  unfold execMop
  exact State.live_keeps hc hS (fun v0 h1 => (State.request_keeps hP h1 (fun v2 v3 h4 => (State.msgMop_keeps hP h4))))

theorem execColl_keeps {P} (hP : ClosedMem P) {t port found s} (hS : P s) : OkN P (execColl t port found s) := by
  have hc := hP.toClosed
  unfold execColl
  exact State.live_keeps hc hS (fun v0 h1 => (State.reads_keeps hP h1 (fun v2 h3 => (State.handle_keeps hc h3 (fun v4 v5 h6
      => (State.arrive_keeps hc h6 (fun v7 h8 => (State.msgColl_keeps hP h8))))))))

theorem execDoneMessage_keeps {P} (hP : ClosedMem P) {t port found s} (hS : P s) : OkN P (execDoneMessage t port found s) :=
    by
  have hc := hP.toClosed
  unfold execDoneMessage
  exact State.live_keeps hc hS (fun v0 h1 => (State.reads_keeps hP h1 (fun v2 h3 => (State.handle_keeps hc h3 (fun v4 v5 h6
      => (State.arrive_keeps hc h6 (fun v7 h8 => (State.msgColl_keeps hP h8))))))))

theorem State.answerTime_keeps {P} (hP : Closed P) {s port x} (hS : P s) : P (State.answerTime s port x) := by
  unfold State.answerTime
  exact State.pushMsg_keeps hP hS

theorem State.takeTime_keeps {P} (hP : Closed P) {s port x} (hS : P s) : P (State.takeTime s port x) := by
  unfold State.takeTime
  dsimp only
  split
  · rename_i x0 x1 x2 x3
    exact ok_ite (Closed.upd hP hS) (ok_ite (State.answerTime_keeps hP hS) hS)
  · rename_i x0 x1
    exact ok_ite (State.answerTime_keeps hP hS) hS

theorem execTime_keeps {P} (hP : Closed P) {t port s} (hS : P s) : OkN P (execTime t port s) := by
  unfold execTime
  exact State.live_keeps hP hS (fun v0 h1 => (State.handle_keeps hP h1 (fun v2 v3 h4 => (ok_ite (State.refuseMsg_keeps hP
      h4) (State.takeTime_keeps hP h4)))))

theorem State.response_keeps {P} (hP : ClosedMem P) {s m e} (hS : P s) : P (State.response s m e) := by
  have hc := hP.toClosed
  unfold State.response
  refine ok_ite hS ?_
  split
  · rename_i x10 x11
    exact State.bump_keeps hc hS
  · rename_i x10 x11 x12
    exact ok_ite (State.bump_keeps hc hS) (State.reqEnd_keeps hP hS)

theorem State.handleResponse_keeps {P} (hP : Closed P) {s port kind f} (hS : P s) (hFf : ∀ v0 v1, P v1 → P (f v0 v1)) : P
    (State.handleResponse s port kind f) := by
  unfold State.handleResponse
  exact State.handle_keeps hP hS (fun v0 v1 h2 => (hFf _ _ h2))

theorem execAck_keeps {P} (hP : ClosedMem P) {t port s} (hS : P s) : OkN P (execAck t port s) := by
  have hc := hP.toClosed
  unfold execAck
  exact State.live_keeps hc hS (fun v0 h1 => (State.handleResponse_keeps hc h1 (fun v2 v3 h4 => (State.response_keeps hP
      h4))))

theorem execData_keeps {P} (hP : ClosedMem P) {t port s} (hS : P s) : OkN P (execData t port s) := by
  have hc := hP.toClosed
  unfold execData
  exact State.live_keeps hc hS (fun v0 h1 => (State.handleResponse_keeps hc h1 (fun v2 v3 h4 => (State.response_keeps hP
      h4))))

theorem execMopRsp_keeps {P} (hP : ClosedMem P) {t port s} (hS : P s) : OkN P (execMopRsp t port s) := by
  have hc := hP.toClosed
  unfold execMopRsp
  exact State.live_keeps hc hS (fun v0 h1 => (State.handleResponse_keeps hc h1 (fun v2 v3 h4 => (State.response_keeps hP
      h4))))

theorem execRefuse_keeps {P} (hP : ClosedMem P) {t port s} (hS : P s) : OkN P (execRefuse t port s) := by
  have hc := hP.toClosed
  unfold execRefuse
  exact State.live_keeps hc hS (fun v0 h1 => (State.handleResponse_keeps hc h1 (fun v2 v3 h4 => (State.response_keeps hP
      (ok_ite (State.bump_keeps hc h4) h4)))))

/-! ### SignalsTest -/

theorem execI3cWrite_keeps {P} (hP : Closed P) {t index s} (hS : P s) : OkN P (execI3cWrite t index s) := by
  unfold execI3cWrite
  refine okN_next ?_
  dsimp only
  exact ok_ite (Closed.upd hP (State.advance_keeps hP hS)) (State.advance_keeps hP hS)

theorem execI3cRead_keeps {P} (hP : Closed P) {t s} (hS : P s) : OkN P (execI3cRead t s) := by
  unfold execI3cRead
  refine okN_next ?_
  dsimp only
  exact ok_ite (Closed.upd hP (State.answer_keeps hP (State.advance_keeps hP hS))) (State.advance_keeps hP hS)

theorem execI3cDynamicAddress_keeps {P} (hP : Closed P) {t addr s} (hS : P s) : OkN P (execI3cDynamicAddress t addr s) := by
  unfold execI3cDynamicAddress
  refine okN_next ?_
  dsimp only
  exact ok_ite (Closed.upd hP (State.advance_keeps hP hS)) (State.advance_keeps hP hS)

theorem State.jtagRecord_keeps {P} (hP : ClosedMem P) {s isWrite target} (hS : P s) : P (State.jtagRecord s isWrite target)
    := by
  have hc := hP.toClosed
  unfold State.jtagRecord
  refine ok_ite ?_ hS
  split
  · rename_i x10 x11
    exact State.faultRecord_keeps hP hS
  · rename_i x10 x11
    exact State.faultRecord_keeps hP hS

theorem State.jtagHost_keeps {P} (hP : Closed P) {s c} (hS : P s) : P (State.jtagHost s c) := by
  unfold State.jtagHost
  refine ok_ite (State.answer_keeps hP hS) ?_
  dsimp only
  exact State.answer_keeps hP (okR_snd (State.free_keeps hP (State.setStrict_keeps hP (State.setHost_keeps hP hS))))

theorem State.jtagAccess_keeps {P} (hP : ClosedMem P) {s isWrite target v} (hS : P s) : P (State.jtagAccess s isWrite target
    v) := by
  have hc := hP.toClosed
  unfold State.jtagAccess
  split
  · rename_i x0 x1
    dsimp only
    exact State.performAccess_keeps hP (okR_snd (State.free_keeps hc hS))
  · rename_i x0 x1
    exact State.jtagHost_keeps hc hS

theorem execJtagDebugAccess_keeps {P} (hP : ClosedMem P) {t isWrite target v found s} (hS : P s) : OkN P
    (execJtagDebugAccess t isWrite target v found s) := by
  have hc := hP.toClosed
  unfold execJtagDebugAccess
  exact State.live_keeps hc hS (fun v0 h1 => (ok_ite (State.answer_keeps hc h1) (State.reads_keeps hP h1 (fun v2 h3 =>
      (State.releaseSites_keeps hP (State.jtagAccess_keeps hP (State.jtagRecord_keeps hP h3)))))))

theorem execTestMode_keeps {P} (hP : ClosedMem P) {t high s} (hS : P s) : OkN P (execTestMode t high s) := by
  have hc := hP.toClosed
  unfold execTestMode
  refine okN_next ?_
  dsimp only
  exact ok_ite (State.packageReset_keeps hP (Closed.upd hc (State.advance_keeps hc hS))) (Closed.upd hc (State.advance_keeps
      hc hS))

/-! ### WaitGraph -/

theorem execWaitGraph_keeps {P} (hP : ClosedMem P) {t m t2 s} (hS : P s) : OkN P (execWaitGraph t m t2 s) := by
  have hc := hP.toClosed
  unfold execWaitGraph
  dsimp only
  exact State.live_keeps hc hS (fun v0 h1 => (ok_ite (ok_ite (State.fwAnswer_keeps hc (okR_snd (State.takeReq_keeps hc h1)))
      (State.fwAnswer_keeps hc (State.engWrite_keeps hP (Closed.upd hc (State.advance_keeps hc (okR_snd (State.takeReq_keeps
      hc h1))))))) h1))

theorem execStateCollect_keeps {P} (hP : ClosedMem P) {t m s} (hS : P s) : OkN P (execStateCollect t m s) := by
  have hc := hP.toClosed
  unfold execStateCollect
  dsimp only
  exact State.live_keeps hc hS (fun v0 h1 => (ok_ite (ok_ite (State.fwAnswer_keeps hc (okR_snd (State.takeReq_keeps hc h1)))
      (ok_ite (State.fwAnswer_keeps hc (okR_snd (State.takeReq_keeps hc h1))) (State.fwAnswer_keeps hc (State.engWrite_keeps
      hP (okR_snd (State.takeReq_keeps hc h1)))))) h1))

end Sys2Proof.Machine
end

