-- ==== Sys2Proof/Laws/Keeps.lean ====
section
/-! SUPPORT. What survives every command and every step. -/

namespace Sys2Proof.Machine

/-- A predicate that no write of memory and no package reset breaks survives every command. -/
theorem exec_keeps {P} (hP : ClosedMem P) {i s} (hS : P s) : OkN P (exec i s) :=
  have hc := hP.toClosed
  match i with
  | .packageReset _ _ => execPackageReset_keeps hP hS
  | .boot _ _ => execBoot_keeps hP hS
  | .hbmTrainingTimeout _ _ => execHbmTrainingTimeout_keeps hc hS
  | .bringupTimeout _ => execBringupTimeout_keeps hP hS
  | .sysProtLock _ _ _ => execSysProtLock_keeps hP hS
  | .bootRelease _ _ _ => execBootRelease_keeps hc hS
  | .registerWrite _ _ _ _ => execRegisterWrite_keeps hP hS
  | .pllLockLoss _ _ => execPllLockLoss_keeps hP hS
  | .mclkRelock _ _ _ => execMclkRelock_keeps hP hS
  | .d2dParityError _ _ => execD2dParityError_keeps hc hS
  | .d2dResentTransfer _ _ _ _ _ _ => execD2dResentTransfer_keeps hP hS
  | .sysTbCfgWrite _ _ _ => execSysTbCfgWrite_keeps hc hS
  | .timingExchange _ => execTimingExchange_keeps hc hS
  | .holdoverEntry _ => execHoldoverEntry_keeps hc hS
  | .sitePowerWindow _ _ _ => execSitePowerWindow_keeps hP hS
  | .siteSupplyCut _ _ => execSiteSupplyCut_keeps hP hS
  | .siteDown _ _ _ => execSiteDown_keeps hP hS
  | .txnBegin _ _ => execTxnBegin_keeps hc hS
  | .txnCommit _ _ _ => execTxnCommit_keeps hc hS
  | .txnRollback _ _ _ => execTxnRollback_keeps hc hS
  | .txnAbort _ _ _ => execTxnAbort_keeps hc hS
  | .txnApply _ => execTxnApply_keeps hP hS
  | .leaseExpiry _ => execLeaseExpiry_keeps hc hS
  | .ringEnable _ _ _ _ => execRingEnable_keeps hc hS
  | .hostCoreLoad _ _ _ _ _ _ _ => execHostCoreLoad_keeps hP hS
  | .hostCoreStore _ _ _ _ _ _ _ => execHostCoreStore_keeps hc hS
  | .storeAck _ _ _ _ _ => execStoreAck_keeps hP hS
  | .hostAtomic _ _ _ _ _ _ _ _ _ => execHostAtomic_keeps hP hS
  | .loadReserved _ _ _ _ _ _ => execLoadReserved_keeps hP hS
  | .storeConditional _ _ _ _ _ _ _ => execStoreConditional_keeps hc hS
  | .acquire _ _ => execAcquire_keeps hc hS
  | .release _ _ => execRelease_keeps hc hS
  | .full _ _ => execFull_keeps hc hS
  | .device _ _ => execDevice_keeps hc hS
  | .rc _ _ => execRc_keeps hc hS
  | .tlbInvalidation _ _ _ => execTlbInvalidation_keeps hc hS
  | .hcDevsynRead _ _ _ => execHcDevsynRead_keeps hc hS
  | .hcStrictWrite _ _ _ _ => execHcStrictWrite_keeps hc hS
  | .hcL2lockWrite _ _ _ => execHcL2lockWrite_keeps hc hS
  | .l2Eviction _ _ _ _ => execL2Eviction_keeps hP hS
  | .notice _ _ _ => execNotice_keeps hP hS
  | .writeBack _ _ _ => execWriteBack_keeps hP hS
  | .readShared _ _ _ _ => execReadShared_keeps hP hS
  | .readForOwnership _ _ _ _ => execReadForOwnership_keeps hP hS
  | .conditionalReadForOwnership _ _ _ _ => execConditionalReadForOwnership_keeps hP hS
  | .coherentRead _ _ _ _ => execCoherentRead_keeps hP hS
  | .nonCachingWrite _ _ _ _ _ _ => execNonCachingWrite_keeps hP hS
  | .invalidation _ _ => execInvalidation_keeps hc hS
  | .dirProbe _ _ _ => execDirProbe_keeps hc hS
  | .launch _ _ _ _ => execLaunch_keeps hP hS
  | .launchDispatch _ _ _ => execLaunchDispatch_keeps hc hS
  | .programLoadDone _ _ _ => execProgramLoadDone_keeps hP hS
  | .launchComplete _ _ _ => execLaunchComplete_keeps hc hS
  | .sibling _ _ => execSibling_keeps hc hS
  | .watchdog _ _ => execWatchdog_keeps hc hS
  | .nop _ _ _ => execNop_keeps hc hS
  | .end_ _ _ _ => execEnd_keeps hc hS
  | .mpass _ _ _ => execMpass_keeps hc hS
  | .mdrain _ _ _ => execMdrain_keeps hc hS
  | .fillDone _ _ _ _ _ => execFillDone_keeps hP hS
  | .streamEnd _ _ _ _ _ _ _ => execStreamEnd_keeps hP hS
  | .recirculationEnd _ _ _ => execRecirculationEnd_keeps hc hS
  | .drainDone _ _ _ _ => execDrainDone_keeps hP hS
  | .vop _ _ _ _ => execVop_keeps hP hS
  | .vld _ _ _ _ => execVld_keeps hP hS
  | .vst _ _ _ => execVst_keeps hc hS
  | .smove _ _ _ _ => execSmove_keeps hP hS
  | .tcopy _ _ _ _ => execTcopy_keeps hP hS
  | .tcopyComplete _ _ _ _ _ _ => execTcopyComplete_keeps hP hS
  | .copyFault _ _ _ _ _ _ => execCopyFault_keeps hc hS
  | .ccwait _ _ _ => execCcwait_keeps hc hS
  | .ccset _ _ _ => execCcset_keeps hc hS
  | .ssig _ _ _ => execSsig_keeps hc hS
  | .swait _ _ _ => execSwait_keeps hc hS
  | .fence _ _ _ => execFence_keeps hc hS
  | .tag _ _ _ => execTag_keeps hc hS
  | .hint _ _ _ => execHint_keeps hc hS
  | .aop _ _ _ => execAop_keeps hc hS
  | .aopi _ _ _ => execAopi_keeps hc hS
  | .ali _ _ _ => execAli_keeps hc hS
  | .ard _ _ _ => execArd_keeps hc hS
  | .br _ _ _ => execBr_keeps hc hS
  | .brc _ _ _ => execBrc_keeps hc hS
  | .loop _ _ _ => execLoop_keeps hc hS
  | .queueEnable _ _ _ _ => execQueueEnable_keeps hc hS
  | .queueDisable _ _ _ _ => execQueueDisable_keeps hc hS
  | .tailWrite _ _ _ _ => execTailWrite_keeps hP hS
  | .resume _ _ _ => execResume_keeps hP hS
  | .abandon _ _ _ => execAbandon_keeps hP hS
  | .slotRead _ _ _ _ => execSlotRead_keeps hP hS
  | .slotReread _ _ _ _ => execSlotReread_keeps hP hS
  | .sluiceChoice _ => execSluiceChoice_keeps hP hS
  | .walk _ _ _ => execWalk_keeps hP hS
  | .walkAhead _ _ _ _ => execWalkAhead_keeps hP hS
  | .copy _ _ _ _ => execCopy_keeps hP hS
  | .inlineWrite _ _ _ _ => execInlineWrite_keeps hP hS
  | .signal _ _ _ => execSignal_keeps hc hS
  | .wait _ _ _ => execWait_keeps hc hS
  | .collective _ _ _ _ => execCollective_keeps hP hS
  | .migrate _ _ _ => execMigrate_keeps hc hS
  | .hintCommand _ _ _ => execHintCommand_keeps hc hS
  | .fenceCommand _ _ _ => execFenceCommand_keeps hc hS
  | .commandComplete _ _ _ => execCommandComplete_keeps hP hS
  | .trCtxWrite _ _ _ _ => execTrCtxWrite_keeps hc hS
  | .trInvalAst _ _ _ => execTrInvalAst_keeps hc hS
  | .invalidationComplete _ _ => execInvalidationComplete_keeps hc hS
  | .continuationRecord _ _ => execContinuationRecord_keeps hP hS
  | .trFaultResolve _ _ _ => execTrFaultResolve_keeps hP hS
  | .syAdd _ _ _ _ => execSyAdd_keeps hc hS
  | .sySet _ _ _ _ => execSySet_keeps hc hS
  | .advance _ => execAdvance_keeps hP hS
  | .syTrigCfg _ _ _ _ => execSyTrigCfg_keeps hc hS
  | .syEventRead _ _ _ => execSyEventRead_keeps hc hS
  | .waitTimeout _ _ => execWaitTimeout_keeps hP hS
  | .mbLock _ _ _ => execMbLock_keeps hc hS
  | .mbRelease _ _ _ _ => execMbRelease_keeps hc hS
  | .mbReqWrite _ _ _ _ => execMbReqWrite_keeps hc hS
  | .mbReqRead _ _ _ => execMbReqRead_keeps hc hS
  | .mbRspWrite _ _ _ _ => execMbRspWrite_keeps hc hS
  | .mbRspRead _ _ _ => execMbRspRead_keeps hc hS
  | .mbSend _ _ _ _ => execMbSend_keeps hc hS
  | .mbAck _ _ _ _ => execMbAck_keeps hc hS
  | .mailboxTimeout _ _ => execMailboxTimeout_keeps hc hS
  | .attest _ _ => execAttest_keeps hP hS
  | .getCerts _ _ => execGetCerts_keeps hP hS
  | .imageWrite _ _ _ _ => execImageWrite_keeps hP hS
  | .setNext _ _ => execSetNext_keeps hP hS
  | .rollbackCommit _ _ => execRollbackCommit_keeps hc hS
  | .throttleLog _ _ => execThrottleLog_keeps hP hS
  | .waitGraph _ _ _ => execWaitGraph_keeps hP hS
  | .stateCollect _ _ => execStateCollect_keeps hP hS
  | .iadd32 _ _ _ => execIadd32_keeps hP hS
  | .iadd64 _ _ _ => execIadd64_keeps hP hS
  | .smin32 _ _ _ => execSmin32_keeps hP hS
  | .smin64 _ _ _ => execSmin64_keeps hP hS
  | .smax32 _ _ _ => execSmax32_keeps hP hS
  | .smax64 _ _ _ => execSmax64_keeps hP hS
  | .umin32 _ _ _ => execUmin32_keeps hP hS
  | .umin64 _ _ _ => execUmin64_keeps hP hS
  | .umax32 _ _ _ => execUmax32_keeps hP hS
  | .umax64 _ _ _ => execUmax64_keeps hP hS
  | .fadd32 _ _ _ => execFadd32_keeps hP hS
  | .faddbf16 _ _ _ => execFaddbf16_keeps hP hS
  | .fadd16 _ _ _ => execFadd16_keeps hP hS
  | .eaFp32 _ _ _ => execEaFp32_keeps hP hS
  | .eaBf16 _ _ _ => execEaBf16_keeps hP hS
  | .eaFp16 _ _ _ => execEaFp16_keeps hP hS
  | .settleFp32 _ _ _ => execSettleFp32_keeps hP hS
  | .settleBf16 _ _ _ => execSettleBf16_keeps hP hS
  | .cas32 _ _ _ => execCas32_keeps hP hS
  | .cas64 _ _ _ => execCas64_keeps hP hS
  | .swap32 _ _ _ => execSwap32_keeps hP hS
  | .swap64 _ _ _ => execSwap64_keeps hP hS
  | .lineStoreWriteback _ _ => execLineStoreWriteback_keeps hc hS
  | .scrub _ _ _ => execScrub_keeps hP hS
  | .retrain _ _ _ _ => execRetrain_keeps hP hS
  | .retrainDone _ _ => execRetrainDone_keeps hP hS
  | .retrainFail _ _ => execRetrainFail_keeps hP hS
  | .retrainRetry _ _ => execRetrainRetry_keeps hP hS
  | .retire _ _ _ _ => execRetire_keeps hP hS
  | .granuleMove _ _ _ => execGranuleMove_keeps hP hS
  | .cxlLinkRecovery _ _ => execCxlLinkRecovery_keeps hc hS
  | .cxlPortDown _ _ => execCxlPortDown_keeps hP hS
  | .tierObjCfg _ _ _ _ => execTierObjCfg_keeps hc hS
  | .migrationCheck _ _ _ => execMigrationCheck_keeps hP hS
  | .migrationDrain _ _ => execMigrationDrain_keeps hc hS
  | .migrationCopy _ _ _ _ => execMigrationCopy_keeps hP hS
  | .rillEnable _ _ _ _ => execRillEnable_keeps hc hS
  | .rillEvaluation _ _ _ => execRillEvaluation_keeps hP hS
  | .ceEpochCfg _ _ _ _ => execCeEpochCfg_keeps hc hS
  | .epochCheckDone _ _ _ => execEpochCheckDone_keeps hP hS
  | .bucketComplete _ _ _ _ => execBucketComplete_keeps hP hS
  | .bucketTimeout _ _ _ => execBucketTimeout_keeps hc hS
  | .collResend _ _ => execCollResend_keeps hc hS
  | .doneMessage _ _ _ => execDoneMessage_keeps hP hS
  | .flitSend _ _ => execFlitSend_keeps hc hS
  | .flitReceive _ _ _ _ _ => execFlitReceive_keeps hc hS
  | .replayTimeout _ _ => execReplayTimeout_keeps hc hS
  | .tokenEarn _ _ => execTokenEarn_keeps hc hS
  | .write _ _ _ => execWrite_keeps hP hS
  | .writeMasked _ _ _ => execWriteMasked_keeps hP hS
  | .read _ _ _ => execRead_keeps hP hS
  | .mop _ _ _ => execMop_keeps hP hS
  | .coll _ _ _ => execColl_keeps hP hS
  | .time _ _ => execTime_keeps hc hS
  | .ack _ _ => execAck_keeps hP hS
  | .data _ _ => execData_keeps hP hS
  | .mopRsp _ _ => execMopRsp_keeps hP hS
  | .refuse _ _ => execRefuse_keeps hP hS
  | .linkEnable _ _ _ _ => execLinkEnable_keeps hP hS
  | .trainingDone _ _ _ _ _ => execTrainingDone_keeps hP hS
  | .trainingTimeout _ _ => execTrainingTimeout_keeps hP hS
  | .linkRetrain _ _ _ _ => execLinkRetrain_keeps hc hS
  | .retrainTimeout _ _ => execRetrainTimeout_keeps hP hS
  | .autoTrain _ _ => execAutoTrain_keeps hc hS
  | .train _ _ _ => execTrain_keeps hc hS
  | .peerTimeout _ _ => execPeerTimeout_keeps hP hS
  | .windowValid _ _ _ _ => execWindowValid_keeps hc hS
  | .linkRejoin _ _ _ => execLinkRejoin_keeps hc hS
  | .fabricPacket _ _ _ _ => execFabricPacket_keeps hP hS
  | .rtoResend _ _ _ => execRtoResend_keeps hc hS
  | .epeerDown _ _ => execEpeerDown_keeps hP hS
  | .epeerValid _ _ _ _ => execEpeerValid_keeps hc hS
  | .managementFrame _ _ _ _ => execManagementFrame_keeps hP hS
  | .mtxTail _ _ _ _ _ => execMtxTail_keeps hP hS
  | .powerSample _ _ => execPowerSample_keeps hP hS
  | .dutyRamp _ _ => execDutyRamp_keeps hc hS
  | .hclkStep _ _ _ => execHclkStep_keeps hc hS
  | .reservationGrant _ _ => execReservationGrant_keeps hP hS
  | .reservationEnd _ _ => execReservationEnd_keeps hP hS
  | .starve _ _ => execStarve_keeps hc hS
  | .throttleCont _ => execThrottleCont_keeps hP hS
  | .thermalSample _ _ => execThermalSample_keeps hP hS
  | .saveStart _ _ => execSaveStart_keeps hc hS
  | .saveDrainEnd _ => execSaveDrainEnd_keeps hP hS
  | .saveComplete _ => execSaveComplete_keeps hP hS
  | .holdVinLoss _ => execHoldVinLoss_keeps hP hS
  | .dbgCtxrst _ _ _ => execDbgCtxrst_keeps hc hS
  | .contextReset _ => execContextReset_keeps hP hS
  | .tcFence _ _ _ _ => execTcFence_keeps hP hS
  | .hcFence _ _ _ _ => execHcFence_keeps hP hS
  | .hostDieReset _ _ _ => execHostDieReset_keeps hP hS
  | .cofferdam _ _ _ _ => execCofferdam_keeps hP hS
  | .dieResetting _ _ => execDieResetting_keeps hP hS
  | .dieResetDone _ _ _ => execDieResetDone_keeps hP hS
  | .readmit _ _ _ => execReadmit_keeps hP hS
  | .hubControlError _ n => execHubControlError_keeps (hub := n) hP hS
  | .traceEvent _ => execTraceEvent_keeps hP hS
  | .traceBudgetWindow _ => execTraceBudgetWindow_keeps hc hS
  | .trcMark _ _ _ => execTrcMark_keeps hc hS
  | .counterSample _ => execCounterSample_keeps hc hS
  | .dbgSpDataRead _ _ _ => execDbgSpDataRead_keeps hP hS
  | .dbgHcHalt _ _ _ _ => execDbgHcHalt_keeps hc hS
  | .jtagDebugAccess _ _ _ _ _ => execJtagDebugAccess_keeps hP hS
  | .i3cWrite _ _ => execI3cWrite_keeps hc hS
  | .i3cRead _ => execI3cRead_keeps hc hS
  | .testMode _ _ => execTestMode_keeps hP hS
  | .customerDieRequest _ _ _ _ _ _ _ _ _ => execCustomerDieRequest_keeps hP hS
  | .cxlLinkRecovered _ _ => execCxlLinkRecovered_keeps hP hS
  | .ethLinkUp _ _ _ => execEthLinkUp_keeps hP hS
  | .holdOkChange _ _ => execHoldOkChange_keeps hc hS
  | .i3cDynamicAddress _ _ => execI3cDynamicAddress_keeps hc hS
  | .cxlError _ _ _ => execCxlError_keeps hP hS

/-- And every step, where it also survives a change of the waiting commands. -/
theorem step_keeps {P : State → Prop} (hP : ClosedMem P) (hq : ∀ (s : State) (l : List Instr), P s → P { s with pending := l })
    {s : State} (hS : P s) : OkN P (step s) := by
  unfold step
  split
  · exact okN_next hS
  · exact exec_keeps hP (hq _ _ hS)

end Sys2Proof.Machine
end

