-- ==== Sys2Proof/Laws/Memory.lean ====
section
/-! SUPPORT. Laws of memory: a byte read after a write of a byte, of bytes or of masked bytes of a line; a line read as
its bytes; the poison mark of a line after a write of one; and that a write keeps the canonical form. -/

namespace Sys2Proof.Machine

theorem State.byte_setByte (s : State) (pa q : Nat) (b : Byte) :
    (s.setByte pa b).byte q = if q = pa then b else s.byte q := by
  simp only [State.byte, State.setByte, Tab.get_put]

@[simp] theorem State.byte_setPoison (s : State) (line : Nat) (b : Bool) (q : Nat) :
    (s.setPoison line b).byte q = s.byte q := rfl

@[simp] theorem State.poisoned_setByte (s : State) (pa : Nat) (b : Byte) (l : Nat) :
    (s.setByte pa b).poisoned l = s.poisoned l := rfl

theorem State.poisoned_setPoison (s : State) (line l : Nat) (b : Bool) :
    (s.setPoison line b).poisoned l = if l = line then b else s.poisoned l := by
  simp only [State.poisoned, State.setPoison, Tab.get_put]

/-- Bytes written are read at their places, and every other byte is as it was. -/
theorem State.byte_setBytes (s : State) (pa : Nat) (l : List Byte) (q : Nat) :
    (s.setBytes pa l).byte q = if pa ≤ q ∧ q < pa + l.length then l.getD (q - pa) 0 else s.byte q := by
  induction l generalizing s pa with
  | nil =>
    have h : ¬ (pa ≤ q ∧ q < pa + ([] : List Byte).length) := by simp
    rw [if_neg h, State.setBytes]
  | cons b r ih =>
    simp only [State.setBytes, ih, State.byte_setByte, List.length_cons]
    by_cases h : q = pa
    · subst h; simp
    · by_cases h1 : pa + 1 ≤ q ∧ q < pa + 1 + r.length
      · have h2 : pa ≤ q ∧ q < pa + (r.length + 1) := by omega
        have h3 : q - pa = (q - (pa + 1)) + 1 := by omega
        rw [if_pos h1, if_pos h2, h3, List.getD_cons_succ]
      · have h2 : ¬ (pa ≤ q ∧ q < pa + (r.length + 1)) := by omega
        rw [if_neg h1, if_neg h2, if_neg h]

/-- Some of the bytes of a line written under a mask. -/
theorem State.byte_setSome (line : Nat) (mask : Word) (d : Line) (q : Nat) (l : List Nat) (hl : ∀ k ∈ l, k < 64)
    (s : State) :
    (l.foldl (fun s k => if mask.toNat.testBit k then s.setByte (64 * line + k) (Line.byte d k) else s) s).byte q =
      if q / 64 = line ∧ q % 64 ∈ l ∧ mask.toNat.testBit (q % 64) then Line.byte d (q % 64) else s.byte q := by
  induction l generalizing s with
  | nil => simp
  | cons k r ih =>
    have hk : k < 64 := hl k (by simp)
    rw [List.foldl_cons, ih (fun x hx => hl x (by simp [hx]))]
    by_cases hq : q / 64 = line ∧ q % 64 = k
    · have hqk : q = 64 * line + k := by omega
      by_cases hm : mask.toNat.testBit k = true
      · have hin : k ∈ k :: r := List.mem_cons_self
        rw [if_pos hm, State.byte_setByte, if_pos hqk, hq.2]
        simp only [hq.1, hm, hin, and_self, if_true]
        split
        · rfl
        · rfl
      · simp [hm, hq.1, hq.2]
    · have hne : q ≠ 64 * line + k := by omega
      have hs : (if mask.toNat.testBit k = true then s.setByte (64 * line + k) (Line.byte d k) else s).byte q =
          s.byte q := by
        split
        · rw [State.byte_setByte, if_neg hne]
        · rfl
      rw [hs]
      by_cases hline : q / 64 = line
      · have : q % 64 ≠ k := fun h => hq ⟨hline, h⟩
        simp [hline, this]
      · simp [hline]

/-- A line written under a mask: its enabled bytes are the data's, and every other byte is as it was. -/
theorem State.byte_setLine (s : State) (line : Nat) (mask : Word) (d : Line) (q : Nat) :
    (s.setLine line mask d).byte q =
      if q / 64 = line ∧ mask.getLsbD (q % 64) then Line.byte d (q % 64) else s.byte q := by
  rw [State.setLine, State.byte_setSome line mask d q (List.range 64) (fun k hk => List.mem_range.mp hk) s]
  have h : q % 64 ∈ List.range 64 := List.mem_range.mpr (Nat.mod_lt _ (by decide))
  simp [h, BitVec.getLsbD]

theorem State.poisoned_setSome (line : Nat) (mask : Word) (d : Line) (x : Nat) (l : List Nat) (s : State) :
    (l.foldl (fun s k => if mask.toNat.testBit k then s.setByte (64 * line + k) (Line.byte d k) else s) s).poisoned x =
      s.poisoned x := by
  induction l generalizing s with
  | nil => rfl
  | cons k r ih =>
    rw [List.foldl_cons, ih]
    split
    · rfl
    · rfl

@[simp] theorem State.poisoned_setLine (s : State) (line : Nat) (mask : Word) (d : Line) (x : Nat) :
    (s.setLine line mask d).poisoned x = s.poisoned x :=
  State.poisoned_setSome line mask d x (List.range 64) s

/-- What a line written at its channel reads as, byte by byte. -/
theorem State.byte_putLine (s : State) (line : Nat) (mask : Word) (d : Line) (p : Bool) (q : Nat) :
    (s.putLine line mask d p).byte q =
      if q / 64 = line ∧ mask.getLsbD (q % 64) then Line.byte d (q % 64) else s.byte q := by
  rw [State.putLine, State.byte_setPoison, State.byte_setLine]

/-- A line written becomes clean only by a write of all its bytes, and poison when it is written as poison (R274). -/
theorem State.poisoned_putLine (s : State) (line : Nat) (mask : Word) (d : Line) (p : Bool) (x : Nat) :
    (s.putLine line mask d p).poisoned x =
      if x = line then p || (s.poisoned line && mask != fullMask) else s.poisoned x := by
  rw [State.putLine, State.poisoned_setPoison, State.poisoned_setLine]

@[simp] theorem State.byte_setReg (s : State) (off : Nat) (v : Word) (q : Nat) : (s.setReg off v).byte q = s.byte q := rfl

@[simp] theorem State.poisoned_setReg (s : State) (off : Nat) (v : Word) (l : Nat) :
    (s.setReg off v).poisoned l = s.poisoned l := rfl

@[simp] theorem State.byte_answer (s : State) (g : Nat) (v : Word) (c : Nat) (p : Bool) (q : Nat) :
    (s.answer g v c p).byte q = s.byte q := rfl

@[simp] theorem State.byte_advance (s : State) (t q : Nat) : (s.advance t).byte q = s.byte q := rfl

/-- Little-endian bytes make a number below two to eight times their number. -/
theorem leNat_lt : ∀ l : List Byte, leNat l < 2 ^ (8 * l.length)
  | [] => by simp [leNat]
  | b :: r => by
    have h := leNat_lt r
    have hb : b.toNat < 2 ^ 8 := b.isLt
    have hp : 2 ^ (8 * (r.length + 1)) = 2 ^ 8 * 2 ^ (8 * r.length) := by rw [← pow_add]; congr 1; omega
    simp only [leNat, List.length_cons, hp]
    have : 256 * (leNat r + 1) ≤ 2 ^ 8 * 2 ^ (8 * r.length) := by
      have := Nat.mul_le_mul_left 256 h
      simpa using this
    omega

/-- Byte k of the number that little-endian bytes make is the k-th of them. -/
theorem leNat_byte : ∀ (l : List Byte) (k : Nat), k < l.length → BitVec.ofNat 8 (leNat l >>> (8 * k)) = l.getD k 0
  | [], _, h => absurd h (by simp)
  | b :: r, 0, _ => by
    apply BitVec.eq_of_toNat_eq
    have hb : b.toNat < 256 := b.isLt
    simp only [leNat, Nat.mul_zero, Nat.shiftRight_zero, BitVec.toNat_ofNat, List.getD_cons_zero]
    omega
  | b :: r, k + 1, h => by
    have ih := leNat_byte r k (by simpa using h)
    have hs : leNat (b :: r) >>> (8 * (k + 1)) = leNat r >>> (8 * k) := by
      have h8 : 8 * (k + 1) = 8 + 8 * k := by omega
      have hb : b.toNat < 256 := b.isLt
      rw [h8, Nat.shiftRight_add]
      congr 1
      simp only [leNat, Nat.shiftRight_eq_div_pow]
      omega
    rw [hs, ih, List.getD_cons_succ]

theorem State.length_bytes (s : State) (pa n : Nat) : (s.bytes pa n).length = n := by simp [State.bytes]

theorem State.getD_bytes (s : State) (pa n k : Nat) (h : k < n) : (s.bytes pa n).getD k 0 = s.byte (pa + k) := by
  simp [State.bytes, h]

/-- A byte of the line that memory holds. -/
theorem State.byte_memLine (s : State) (line k : Nat) (h : k < 64) :
    Line.byte (s.memLine line) k = s.byte (64 * line + k) := by
  have hl := leNat_lt (s.bytes (64 * line) 64)
  rw [State.length_bytes] at hl
  have hlt : s.readLE (64 * line) 64 < 2 ^ 512 := hl
  rw [Line.byte, State.memLine, BitVec.toNat_ofNat, Nat.mod_eq_of_lt hlt, State.readLE,
    leNat_byte _ k (by simpa [State.length_bytes] using h), State.getD_bytes _ _ _ _ h]

end Sys2Proof.Machine
end

