-- ==== Sys2Proof/Laws/Reads.lean ====
section
/-! SUPPORT. A command that reads (log entry 127): when no read meets a channel or a port that holds requests, what it leaves;
and what its beginning to read does not change. -/

namespace Sys2Proof.Machine

/-- A command none of whose reads is held has its effect, and what its reads found follows. -/
theorem State.reads_done {s : State} {found : Found} {source agent : Nat} {f : State → State}
    (h : (f (s.reading found source agent)).access.blocked = none) :
    s.reads found source agent f = (f (s.reading found source agent)).readsDone := by
  simp only [State.reads, h]

/-- A command one of whose reads is held changes nothing but the note that its channel or port holds a request. -/
theorem State.reads_held {s : State} {found : Found} {source agent k : Nat} {f : State → State}
    (h : (f (s.reading found source agent)).access.blocked = some k) :
    s.reads found source agent f = s.noteWait k := by
  simp only [State.reads, h]

@[simp] theorem State.reading_rd (s : State) (found : Found) (source who : Nat) (f : Fld) (i : Nat) :
    (s.reading found source who).rd f i = s.rd f i := rfl

@[simp] theorem State.reading_reg (s : State) (found : Found) (source who : Nat) (off : Nat) :
    (s.reading found source who).reg off = s.reg off := rfl

@[simp] theorem State.reading_flag (s : State) (found : Found) (source who : Nat) (f : Fld) (i : Nat) :
    (s.reading found source who).flag f i = s.flag f i := rfl

@[simp] theorem State.reading_region (s : State) (found : Found) (source who : Nat) (pa : Nat) :
    (s.reading found source who).region pa = s.region pa := rfl

@[simp] theorem State.reading_admits (s : State) (found : Found) (source who : Nat) (agent : Nat) (wr : Bool) (pa n : Nat) :
    (s.reading found source who).admits agent wr pa n = s.admits agent wr pa n := rfl

@[simp] theorem State.reading_holdKey (s : State) (found : Found) (source who : Nat) (line : Nat) :
    (s.reading found source who).holdKey line = s.holdKey line := rfl

@[simp] theorem State.reading_host (s : State) (found : Found) (source who : Nat) (c : Nat) :
    (s.reading found source who).host c = s.host c := rfl

@[simp] theorem State.reading_core (s : State) (found : Found) (source who : Nat) (c : Nat) :
    (s.reading found source who).core c = s.core c := rfl

@[simp] theorem State.reading_queue (s : State) (found : Found) (source who : Nat) (q : Nat) :
    (s.reading found source who).queue q = s.queue q := rfl

@[simp] theorem State.reading_link (s : State) (found : Found) (source who : Nat) (l : Nat) :
    (s.reading found source who).link l = s.link l := rfl

@[simp] theorem State.reading_mbox (s : State) (found : Found) (source who : Nat) (m : Nat) :
    (s.reading found source who).mbox m = s.mbox m := rfl

@[simp] theorem State.reading_chan (s : State) (found : Found) (source who : Nat) (c : Nat) :
    (s.reading found source who).chan c = s.chan c := rfl

@[simp] theorem State.reading_deviceId (s : State) (found : Found) (source who : Nat) :
    (s.reading found source who).deviceId = s.deviceId := rfl

@[simp] theorem State.reading_homeTakes (s : State) (found : Found) (source who : Nat) (line : Nat) :
    (s.reading found source who).homeTakes line = s.homeTakes line := rfl

@[simp] theorem State.reading_guardAdmits (s : State) (found : Found) (source who : Nat) (n : Nat) :
    (s.reading found source who).guardAdmits n = s.guardAdmits n := rfl

@[simp] theorem State.reading_targetLegal (s : State) (found : Found) (source who : Nat) (r : MopReq) (n : Nat) :
    (s.reading found source who).targetLegal r n = s.targetLegal r n := rfl

@[simp] theorem State.reading_now (s : State) (found : Found) (source who : Nat) :
    (s.reading found source who).now = s.now := rfl

@[simp] theorem State.reading_save (s : State) (found : Found) (source who : Nat) :
    (s.reading found source who).save = s.save := rfl

@[simp] theorem State.reading_regs (s : State) (found : Found) (source who : Nat) :
    (s.reading found source who).regs = s.regs := rfl

@[simp] theorem State.reading_mem (s : State) (found : Found) (source who : Nat) :
    (s.reading found source who).mem = s.mem := rfl

@[simp] theorem State.reading_poison (s : State) (found : Found) (source who : Nat) :
    (s.reading found source who).poison = s.poison := rfl

@[simp] theorem State.reading_hosts (s : State) (found : Found) (source who : Nat) :
    (s.reading found source who).hosts = s.hosts := rfl

@[simp] theorem State.reading_cores (s : State) (found : Found) (source who : Nat) :
    (s.reading found source who).cores = s.cores := rfl

@[simp] theorem State.reading_queues (s : State) (found : Found) (source who : Nat) :
    (s.reading found source who).queues = s.queues := rfl

@[simp] theorem State.reading_links (s : State) (found : Found) (source who : Nat) :
    (s.reading found source who).links = s.links := rfl

@[simp] theorem State.reading_pending (s : State) (found : Found) (source who : Nat) :
    (s.reading found source who).pending = s.pending := rfl

@[simp] theorem State.reading_rx (s : State) (found : Found) (source who : Nat) :
    (s.reading found source who).rx = s.rx := rfl

@[simp] theorem State.reading_dir (s : State) (found : Found) (source who : Nat) :
    (s.reading found source who).dir = s.dir := rfl

@[simp] theorem State.reading_peerReqs (s : State) (found : Found) (source who : Nat) :
    (s.reading found source who).peerReqs = s.peerReqs := rfl

@[simp] theorem State.reading_inflight (s : State) (found : Found) (source who : Nat) :
    (s.reading found source who).inflight = s.inflight := rfl

@[simp] theorem State.reading_migs (s : State) (found : Found) (source who : Nat) :
    (s.reading found source who).migs = s.migs := rfl

@[simp] theorem State.reading_buckets (s : State) (found : Found) (source who : Nat) :
    (s.reading found source who).buckets = s.buckets := rfl

end Sys2Proof.Machine
end

