-- ==== Sys2Proof/Laws/Registers.lean ====
section
/-! SUPPORT. Laws of register fields: what a field reads as after it or another one is written. -/

namespace Sys2Proof.Machine

theorem Fld.testBit_get (f : Fld) (v : Word) (i : Nat) :
    (f.get v).testBit i = (decide (i < f.w) && v.getLsbD (f.lo + i)) := by
  simp [Fld.get, Nat.testBit_mod_two_pow, Nat.testBit_shiftRight, BitVec.getLsbD]

theorem Fld.getLsbD_mask (f : Fld) (i : Nat) :
    (f.mask).getLsbD i = (decide (i < 64) && decide (f.lo ≤ i) && decide (i - f.lo < f.w)) := by
  simp [Fld.mask, BitVec.getLsbD_ofNat, Nat.testBit_shiftLeft, Nat.testBit_two_pow_sub_one, Bool.and_assoc]

theorem Fld.getLsbD_put (f : Fld) (v : Word) (x i : Nat) (hi : i < 64) :
    (f.put v x).getLsbD i =
      if f.lo ≤ i ∧ i < f.lo + f.w then x.testBit (i - f.lo) else v.getLsbD i := by
  simp only [Fld.put, BitVec.getLsbD_or, BitVec.getLsbD_and, BitVec.getLsbD_not, Fld.getLsbD_mask,
    BitVec.getLsbD_ofNat, Nat.testBit_shiftLeft, Nat.testBit_mod_two_pow, hi, decide_true, Bool.true_and]
  by_cases h1 : f.lo ≤ i
  · by_cases h2 : i < f.lo + f.w
    · have h3 : i - f.lo < f.w := by omega
      simp [h1, h2, h3]
    · have h3 : ¬ i - f.lo < f.w := by omega
      simp [h1, h2, h3]
  · simp [h1]

/-- A field reads as what was put into it, cut to its width. -/
theorem Fld.get_put_same (f : Fld) (v : Word) (x : Nat) (h : f.lo + f.w ≤ 64) : f.get (f.put v x) = x % 2 ^ f.w := by
  apply Nat.eq_of_testBit_eq
  intro i
  rw [Fld.testBit_get, Nat.testBit_mod_two_pow]
  by_cases hi : i < f.w
  · rw [Fld.getLsbD_put f v x (f.lo + i) (by omega)]
    simp [hi]
  · simp [hi]

/-- A field of other bits keeps its value. -/
theorem Fld.get_put_other (f g : Fld) (v : Word) (x : Nat) (hg : g.lo + g.w ≤ 64)
    (h : f.lo + f.w ≤ g.lo ∨ g.lo + g.w ≤ f.lo) : g.get (f.put v x) = g.get v := by
  apply Nat.eq_of_testBit_eq
  intro i
  rw [Fld.testBit_get, Fld.testBit_get]
  by_cases hi : i < g.w
  · rw [Fld.getLsbD_put f v x (g.lo + i) (by omega)]
    have : ¬ (f.lo ≤ g.lo + i ∧ g.lo + i < f.lo + f.w) := by omega
    simp [this]
  · simp [hi]

/-- A field of a word cut out of a larger one is below two to its width. -/
theorem Fld.get_lt (f : Fld) (v : Word) : f.get v < 2 ^ f.w := Nat.mod_lt _ (by positivity)

@[simp] theorem State.reg_setReg_same (s : State) (off : Nat) (v : Word) : (s.setReg off v).reg off = v := by
  simp [State.reg, State.setReg]

theorem State.reg_setReg_other (s : State) {off o : Nat} (v : Word) (h : o ≠ off) : (s.setReg off v).reg o = s.reg o := by
  simp [State.reg, State.setReg, Tab.get_put_other _ _ _ h]

theorem State.reg_setReg (s : State) (off o : Nat) (v : Word) :
    (s.setReg off v).reg o = if o = off then v else s.reg o := by
  by_cases h : o = off
  · subst h; simp
  · simp [h, State.reg_setReg_other s v h]

/-- A field just written reads as what was written, cut to its width. -/
theorem State.rd_wr_same (s : State) (f : Fld) (i x : Nat) (h : f.lo + f.w ≤ 64) :
    (s.wr f i x).rd f i = x % 2 ^ f.w := by
  simp [State.rd, State.wr, Fld.get_put_same f _ x h]

/-- A field of another register keeps its value. -/
theorem State.rd_wr_reg (s : State) (f g : Fld) (i j x : Nat) (h : g.off j ≠ f.off i) :
    (s.wr f i x).rd g j = s.rd g j := by
  simp [State.rd, State.wr, State.reg_setReg_other s _ h]

/-- A field of other bits of the same register keeps its value. -/
theorem State.rd_wr_bits (s : State) (f g : Fld) (i j x : Nat) (hg : g.lo + g.w ≤ 64)
    (h : f.lo + f.w ≤ g.lo ∨ g.lo + g.w ≤ f.lo) : (s.wr f i x).rd g j = s.rd g j := by
  by_cases ho : g.off j = f.off i
  · simp only [State.rd, State.wr, State.reg_setReg, ho, if_true]
    exact Fld.get_put_other f g _ x hg h
  · exact State.rd_wr_reg s f g i j x ho

/-- A register other than the one written keeps its word. -/
theorem State.reg_wr_other (s : State) (f : Fld) (i x o : Nat) (h : o ≠ f.off i) : (s.wr f i x).reg o = s.reg o :=
  State.reg_setReg_other s _ h

end Sys2Proof.Machine
end

