-- ==== Sys2Proof/Laws/State.lean ====
section
/-! SUPPORT. What each update of the state leaves as it was, field by field, and what a unit reads as after it or another
one is replaced; every lemma of the first kind is true by definition. -/

namespace Sys2Proof.Machine

/-! ### advance -/

@[simp] theorem State.advance_pending (s : State) (t : Nat) : (s.advance t).pending = s.pending := rfl
@[simp] theorem State.advance_tbRate (s : State) (t : Nat) : (s.advance t).tbRate = s.tbRate := rfl
@[simp] theorem State.advance_tbSteps (s : State) (t : Nat) : (s.advance t).tbSteps = s.tbSteps := rfl
@[simp] theorem State.advance_tbFrom (s : State) (t : Nat) : (s.advance t).tbFrom = s.tbFrom := rfl
@[simp] theorem State.advance_tbXchg (s : State) (t : Nat) : (s.advance t).tbXchg = s.tbXchg := rfl
@[simp] theorem State.advance_tbRef (s : State) (t : Nat) : (s.advance t).tbRef = s.tbRef := rfl
@[simp] theorem State.advance_tbGood (s : State) (t : Nat) : (s.advance t).tbGood = s.tbGood := rfl
@[simp] theorem State.advance_tbLast (s : State) (t : Nat) : (s.advance t).tbLast = s.tbLast := rfl
@[simp] theorem State.advance_tbStepped (s : State) (t : Nat) : (s.advance t).tbStepped = s.tbStepped := rfl
@[simp] theorem State.advance_regs (s : State) (t : Nat) : (s.advance t).regs = s.regs := rfl
@[simp] theorem State.advance_reply (s : State) (t : Nat) : (s.advance t).reply = s.reply := rfl
@[simp] theorem State.advance_fuses (s : State) (t : Nat) : (s.advance t).fuses = s.fuses := rfl
@[simp] theorem State.advance_dike (s : State) (t : Nat) : (s.advance t).dike = s.dike := rfl
@[simp] theorem State.advance_txn (s : State) (t : Nat) : (s.advance t).txn = s.txn := rfl
@[simp] theorem State.advance_mem (s : State) (t : Nat) : (s.advance t).mem = s.mem := rfl
@[simp] theorem State.advance_poison (s : State) (t : Nat) : (s.advance t).poison = s.poison := rfl
@[simp] theorem State.advance_flash (s : State) (t : Nat) : (s.advance t).flash = s.flash := rfl
@[simp] theorem State.advance_hosts (s : State) (t : Nat) : (s.advance t).hosts = s.hosts := rfl
@[simp] theorem State.advance_dir (s : State) (t : Nat) : (s.advance t).dir = s.dir := rfl
@[simp] theorem State.advance_grants (s : State) (t : Nat) : (s.advance t).grants = s.grants := rfl
@[simp] theorem State.advance_invq (s : State) (t : Nat) : (s.advance t).invq = s.invq := rfl
@[simp] theorem State.advance_cores (s : State) (t : Nat) : (s.advance t).cores = s.cores := rfl
@[simp] theorem State.advance_queues (s : State) (t : Nat) : (s.advance t).queues = s.queues := rfl
@[simp] theorem State.advance_inflight (s : State) (t : Nat) : (s.advance t).inflight = s.inflight := rfl
@[simp] theorem State.advance_wcLeaf (s : State) (t : Nat) : (s.advance t).wcLeaf = s.wcLeaf := rfl
@[simp] theorem State.advance_wcPtr (s : State) (t : Nat) : (s.advance t).wcPtr = s.wcPtr := rfl
@[simp] theorem State.advance_faults (s : State) (t : Nat) : (s.advance t).faults = s.faults := rfl
@[simp] theorem State.advance_faultSeq (s : State) (t : Nat) : (s.advance t).faultSeq = s.faultSeq := rfl
@[simp] theorem State.advance_unslotted (s : State) (t : Nat) : (s.advance t).unslotted = s.unslotted := rfl
@[simp] theorem State.advance_invals (s : State) (t : Nat) : (s.advance t).invals = s.invals := rfl
@[simp] theorem State.advance_nextInval (s : State) (t : Nat) : (s.advance t).nextInval = s.nextInval := rfl
@[simp] theorem State.advance_waiters (s : State) (t : Nat) : (s.advance t).waiters = s.waiters := rfl
@[simp] theorem State.advance_advances (s : State) (t : Nat) : (s.advance t).advances = s.advances := rfl
@[simp] theorem State.advance_events (s : State) (t : Nat) : (s.advance t).events = s.events := rfl
@[simp] theorem State.advance_eventLost (s : State) (t : Nat) : (s.advance t).eventLost = s.eventLost := rfl
@[simp] theorem State.advance_eventIrq (s : State) (t : Nat) : (s.advance t).eventIrq = s.eventIrq := rfl
@[simp] theorem State.advance_mboxes (s : State) (t : Nat) : (s.advance t).mboxes = s.mboxes := rfl
@[simp] theorem State.advance_chans (s : State) (t : Nat) : (s.advance t).chans = s.chans := rfl
@[simp] theorem State.advance_repairs (s : State) (t : Nat) : (s.advance t).repairs = s.repairs := rfl
@[simp] theorem State.advance_lineStore (s : State) (t : Nat) : (s.advance t).lineStore = s.lineStore := rfl
@[simp] theorem State.advance_cxlMap (s : State) (t : Nat) : (s.advance t).cxlMap = s.cxlMap := rfl
@[simp] theorem State.advance_cxlRecover (s : State) (t : Nat) : (s.advance t).cxlRecover = s.cxlRecover := rfl
@[simp] theorem State.advance_heldReqs (s : State) (t : Nat) : (s.advance t).heldReqs = s.heldReqs := rfl
@[simp] theorem State.advance_cellJobs (s : State) (t : Nat) : (s.advance t).cellJobs = s.cellJobs := rfl
@[simp] theorem State.advance_migs (s : State) (t : Nat) : (s.advance t).migs = s.migs := rfl
@[simp] theorem State.advance_rillBad (s : State) (t : Nat) : (s.advance t).rillBad = s.rillBad := rfl
@[simp] theorem State.advance_rillIssued (s : State) (t : Nat) : (s.advance t).rillIssued = s.rillIssued := rfl
@[simp] theorem State.advance_members (s : State) (t : Nat) : (s.advance t).members = s.members := rfl
@[simp] theorem State.advance_buckets (s : State) (t : Nat) : (s.advance t).buckets = s.buckets := rfl
@[simp] theorem State.advance_endedBuckets (s : State) (t : Nat) : (s.advance t).endedBuckets = s.endedBuckets := rfl
@[simp] theorem State.advance_resends (s : State) (t : Nat) : (s.advance t).resends = s.resends := rfl
@[simp] theorem State.advance_links (s : State) (t : Nat) : (s.advance t).links = s.links := rfl
@[simp] theorem State.advance_lanes (s : State) (t : Nat) : (s.advance t).lanes = s.lanes := rfl
@[simp] theorem State.advance_rx (s : State) (t : Nat) : (s.advance t).rx = s.rx := rfl
@[simp] theorem State.advance_peerReqs (s : State) (t : Nat) : (s.advance t).peerReqs = s.peerReqs := rfl
@[simp] theorem State.advance_nextTag (s : State) (t : Nat) : (s.advance t).nextTag = s.nextTag := rfl
@[simp] theorem State.advance_rejoin (s : State) (t : Nat) : (s.advance t).rejoin = s.rejoin := rfl
@[simp] theorem State.advance_estreams (s : State) (t : Nat) : (s.advance t).estreams = s.estreams := rfl
@[simp] theorem State.advance_ethTx (s : State) (t : Nat) : (s.advance t).ethTx = s.ethTx := rfl
@[simp] theorem State.advance_mtxSent (s : State) (t : Nat) : (s.advance t).mtxSent = s.mtxSent := rfl
@[simp] theorem State.advance_mgmtBad (s : State) (t : Nat) : (s.advance t).mgmtBad = s.mgmtBad := rfl
@[simp] theorem State.advance_mrxNext (s : State) (t : Nat) : (s.advance t).mrxNext = s.mrxNext := rfl
@[simp] theorem State.advance_mtxNext (s : State) (t : Nat) : (s.advance t).mtxNext = s.mtxNext := rfl
@[simp] theorem State.advance_pfcUntil (s : State) (t : Nat) : (s.advance t).pfcUntil = s.pfcUntil := rfl
@[simp] theorem State.advance_samples (s : State) (t : Nat) : (s.advance t).samples = s.samples := rfl
@[simp] theorem State.advance_reservs (s : State) (t : Nat) : (s.advance t).reservs = s.reservs := rfl
@[simp] theorem State.advance_nextReserv (s : State) (t : Nat) : (s.advance t).nextReserv = s.nextReserv := rfl
@[simp] theorem State.advance_pends (s : State) (t : Nat) : (s.advance t).pends = s.pends := rfl
@[simp] theorem State.advance_thrEvents (s : State) (t : Nat) : (s.advance t).thrEvents = s.thrEvents := rfl
@[simp] theorem State.advance_thrLog (s : State) (t : Nat) : (s.advance t).thrLog = s.thrLog := rfl
@[simp] theorem State.advance_thrOver (s : State) (t : Nat) : (s.advance t).thrOver = s.thrOver := rfl
@[simp] theorem State.advance_sluPtr (s : State) (t : Nat) : (s.advance t).sluPtr = s.sluPtr := rfl
@[simp] theorem State.advance_hclkAt (s : State) (t : Nat) : (s.advance t).hclkAt = s.hclkAt := rfl
@[simp] theorem State.advance_caps (s : State) (t : Nat) : (s.advance t).caps = s.caps := rfl
@[simp] theorem State.advance_ramps (s : State) (t : Nat) : (s.advance t).ramps = s.ramps := rfl
@[simp] theorem State.advance_vinOkAt (s : State) (t : Nat) : (s.advance t).vinOkAt = s.vinOkAt := rfl
@[simp] theorem State.advance_thermtrip (s : State) (t : Nat) : (s.advance t).thermtrip = s.thermtrip := rfl
@[simp] theorem State.advance_save (s : State) (t : Nat) : (s.advance t).save = s.save := rfl
@[simp] theorem State.advance_ctxReqs (s : State) (t : Nat) : (s.advance t).ctxReqs = s.ctxReqs := rfl
@[simp] theorem State.advance_rstSeq (s : State) (t : Nat) : (s.advance t).rstSeq = s.rstSeq := rfl
@[simp] theorem State.advance_dieWaits (s : State) (t : Nat) : (s.advance t).dieWaits = s.dieWaits := rfl
@[simp] theorem State.advance_offers (s : State) (t : Nat) : (s.advance t).offers = s.offers := rfl
@[simp] theorem State.advance_drops (s : State) (t : Nat) : (s.advance t).drops = s.drops := rfl
@[simp] theorem State.advance_budget (s : State) (t : Nat) : (s.advance t).budget = s.budget := rfl
@[simp] theorem State.advance_overWin (s : State) (t : Nat) : (s.advance t).overWin = s.overWin := rfl
@[simp] theorem State.advance_ringAgent (s : State) (t : Nat) : (s.advance t).ringAgent = s.ringAgent := rfl
@[simp] theorem State.advance_ringBad (s : State) (t : Nat) : (s.advance t).ringBad = s.ringBad := rfl
@[simp] theorem State.advance_siteHeld (s : State) (t : Nat) : (s.advance t).siteHeld = s.siteHeld := rfl
@[simp] theorem State.advance_siteThrottle (s : State) (t : Nat) : (s.advance t).siteThrottle = s.siteThrottle := rfl
@[simp] theorem State.advance_d2dPoison (s : State) (t : Nat) : (s.advance t).d2dPoison = s.d2dPoison := rfl
@[simp] theorem State.advance_d2dWait (s : State) (t : Nat) : (s.advance t).d2dWait = s.d2dWait := rfl
@[simp] theorem State.advance_mclkHeld (s : State) (t : Nat) : (s.advance t).mclkHeld = s.mclkHeld := rfl
@[simp] theorem State.advance_booted (s : State) (t : Nat) : (s.advance t).booted = s.booted := rfl
@[simp] theorem State.advance_bringup (s : State) (t : Nat) : (s.advance t).bringup = s.bringup := rfl
@[simp] theorem State.advance_sram (s : State) (t : Nat) : (s.advance t).sram = s.sram := rfl
@[simp] theorem State.advance_romHalted (s : State) (t : Nat) : (s.advance t).romHalted = s.romHalted := rfl
@[simp] theorem State.advance_testMode (s : State) (t : Nat) : (s.advance t).testMode = s.testMode := rfl
@[simp] theorem State.advance_inReset (s : State) (t : Nat) : (s.advance t).inReset = s.inReset := rfl
@[simp] theorem State.advance_holdVin (s : State) (t : Nat) : (s.advance t).holdVin = s.holdVin := rfl
@[simp] theorem State.advance_i3cIndex (s : State) (t : Nat) : (s.advance t).i3cIndex = s.i3cIndex := rfl
@[simp] theorem State.advance_i3cAddr (s : State) (t : Nat) : (s.advance t).i3cAddr = s.i3cAddr := rfl
@[simp] theorem State.advance_access (s : State) (t : Nat) : (s.advance t).access = s.access := rfl
@[simp] theorem State.advance_freeIdx (s : State) (t : Nat) : (s.advance t).freeIdx = s.freeIdx := rfl

/-! ### answer -/

@[simp] theorem State.answer_pending (s : State) (g : Nat) (v : Word) (c : Nat) (p : Bool) : (s.answer g v c p).pending = s.pending := rfl
@[simp] theorem State.answer_now (s : State) (g : Nat) (v : Word) (c : Nat) (p : Bool) : (s.answer g v c p).now = s.now := rfl
@[simp] theorem State.answer_tbAdj (s : State) (g : Nat) (v : Word) (c : Nat) (p : Bool) : (s.answer g v c p).tbAdj = s.tbAdj := rfl
@[simp] theorem State.answer_slew (s : State) (g : Nat) (v : Word) (c : Nat) (p : Bool) : (s.answer g v c p).slew = s.slew := rfl
@[simp] theorem State.answer_slewAt (s : State) (g : Nat) (v : Word) (c : Nat) (p : Bool) : (s.answer g v c p).slewAt = s.slewAt := rfl
@[simp] theorem State.answer_tbRate (s : State) (g : Nat) (v : Word) (c : Nat) (p : Bool) : (s.answer g v c p).tbRate = s.tbRate := rfl
@[simp] theorem State.answer_rateAt (s : State) (g : Nat) (v : Word) (c : Nat) (p : Bool) : (s.answer g v c p).rateAt = s.rateAt := rfl
@[simp] theorem State.answer_tbSteps (s : State) (g : Nat) (v : Word) (c : Nat) (p : Bool) : (s.answer g v c p).tbSteps = s.tbSteps := rfl
@[simp] theorem State.answer_tbFrom (s : State) (g : Nat) (v : Word) (c : Nat) (p : Bool) : (s.answer g v c p).tbFrom = s.tbFrom := rfl
@[simp] theorem State.answer_tbXchg (s : State) (g : Nat) (v : Word) (c : Nat) (p : Bool) : (s.answer g v c p).tbXchg = s.tbXchg := rfl
@[simp] theorem State.answer_tbRef (s : State) (g : Nat) (v : Word) (c : Nat) (p : Bool) : (s.answer g v c p).tbRef = s.tbRef := rfl
@[simp] theorem State.answer_tbGood (s : State) (g : Nat) (v : Word) (c : Nat) (p : Bool) : (s.answer g v c p).tbGood = s.tbGood := rfl
@[simp] theorem State.answer_tbLast (s : State) (g : Nat) (v : Word) (c : Nat) (p : Bool) : (s.answer g v c p).tbLast = s.tbLast := rfl
@[simp] theorem State.answer_tbStepped (s : State) (g : Nat) (v : Word) (c : Nat) (p : Bool) : (s.answer g v c p).tbStepped = s.tbStepped := rfl
@[simp] theorem State.answer_regs (s : State) (g : Nat) (v : Word) (c : Nat) (p : Bool) : (s.answer g v c p).regs = s.regs := rfl
@[simp] theorem State.answer_fuses (s : State) (g : Nat) (v : Word) (c : Nat) (p : Bool) : (s.answer g v c p).fuses = s.fuses := rfl
@[simp] theorem State.answer_dike (s : State) (g : Nat) (v : Word) (c : Nat) (p : Bool) : (s.answer g v c p).dike = s.dike := rfl
@[simp] theorem State.answer_txn (s : State) (g : Nat) (v : Word) (c : Nat) (p : Bool) : (s.answer g v c p).txn = s.txn := rfl
@[simp] theorem State.answer_mem (s : State) (g : Nat) (v : Word) (c : Nat) (p : Bool) : (s.answer g v c p).mem = s.mem := rfl
@[simp] theorem State.answer_poison (s : State) (g : Nat) (v : Word) (c : Nat) (p : Bool) : (s.answer g v c p).poison = s.poison := rfl
@[simp] theorem State.answer_flash (s : State) (g : Nat) (v : Word) (c : Nat) (p : Bool) : (s.answer g v c p).flash = s.flash := rfl
@[simp] theorem State.answer_hosts (s : State) (g : Nat) (v : Word) (c : Nat) (p : Bool) : (s.answer g v c p).hosts = s.hosts := rfl
@[simp] theorem State.answer_dir (s : State) (g : Nat) (v : Word) (c : Nat) (p : Bool) : (s.answer g v c p).dir = s.dir := rfl
@[simp] theorem State.answer_grants (s : State) (g : Nat) (v : Word) (c : Nat) (p : Bool) : (s.answer g v c p).grants = s.grants := rfl
@[simp] theorem State.answer_invq (s : State) (g : Nat) (v : Word) (c : Nat) (p : Bool) : (s.answer g v c p).invq = s.invq := rfl
@[simp] theorem State.answer_cores (s : State) (g : Nat) (v : Word) (c : Nat) (p : Bool) : (s.answer g v c p).cores = s.cores := rfl
@[simp] theorem State.answer_queues (s : State) (g : Nat) (v : Word) (c : Nat) (p : Bool) : (s.answer g v c p).queues = s.queues := rfl
@[simp] theorem State.answer_inflight (s : State) (g : Nat) (v : Word) (c : Nat) (p : Bool) : (s.answer g v c p).inflight = s.inflight := rfl
@[simp] theorem State.answer_wcLeaf (s : State) (g : Nat) (v : Word) (c : Nat) (p : Bool) : (s.answer g v c p).wcLeaf = s.wcLeaf := rfl
@[simp] theorem State.answer_wcPtr (s : State) (g : Nat) (v : Word) (c : Nat) (p : Bool) : (s.answer g v c p).wcPtr = s.wcPtr := rfl
@[simp] theorem State.answer_faults (s : State) (g : Nat) (v : Word) (c : Nat) (p : Bool) : (s.answer g v c p).faults = s.faults := rfl
@[simp] theorem State.answer_faultSeq (s : State) (g : Nat) (v : Word) (c : Nat) (p : Bool) : (s.answer g v c p).faultSeq = s.faultSeq := rfl
@[simp] theorem State.answer_unslotted (s : State) (g : Nat) (v : Word) (c : Nat) (p : Bool) : (s.answer g v c p).unslotted = s.unslotted := rfl
@[simp] theorem State.answer_invals (s : State) (g : Nat) (v : Word) (c : Nat) (p : Bool) : (s.answer g v c p).invals = s.invals := rfl
@[simp] theorem State.answer_nextInval (s : State) (g : Nat) (v : Word) (c : Nat) (p : Bool) : (s.answer g v c p).nextInval = s.nextInval := rfl
@[simp] theorem State.answer_waiters (s : State) (g : Nat) (v : Word) (c : Nat) (p : Bool) : (s.answer g v c p).waiters = s.waiters := rfl
@[simp] theorem State.answer_advances (s : State) (g : Nat) (v : Word) (c : Nat) (p : Bool) : (s.answer g v c p).advances = s.advances := rfl
@[simp] theorem State.answer_events (s : State) (g : Nat) (v : Word) (c : Nat) (p : Bool) : (s.answer g v c p).events = s.events := rfl
@[simp] theorem State.answer_eventLost (s : State) (g : Nat) (v : Word) (c : Nat) (p : Bool) : (s.answer g v c p).eventLost = s.eventLost := rfl
@[simp] theorem State.answer_eventIrq (s : State) (g : Nat) (v : Word) (c : Nat) (p : Bool) : (s.answer g v c p).eventIrq = s.eventIrq := rfl
@[simp] theorem State.answer_mboxes (s : State) (g : Nat) (v : Word) (c : Nat) (p : Bool) : (s.answer g v c p).mboxes = s.mboxes := rfl
@[simp] theorem State.answer_chans (s : State) (g : Nat) (v : Word) (c : Nat) (p : Bool) : (s.answer g v c p).chans = s.chans := rfl
@[simp] theorem State.answer_repairs (s : State) (g : Nat) (v : Word) (c : Nat) (p : Bool) : (s.answer g v c p).repairs = s.repairs := rfl
@[simp] theorem State.answer_lineStore (s : State) (g : Nat) (v : Word) (c : Nat) (p : Bool) : (s.answer g v c p).lineStore = s.lineStore := rfl
@[simp] theorem State.answer_cxlMap (s : State) (g : Nat) (v : Word) (c : Nat) (p : Bool) : (s.answer g v c p).cxlMap = s.cxlMap := rfl
@[simp] theorem State.answer_cxlRecover (s : State) (g : Nat) (v : Word) (c : Nat) (p : Bool) : (s.answer g v c p).cxlRecover = s.cxlRecover := rfl
@[simp] theorem State.answer_heldReqs (s : State) (g : Nat) (v : Word) (c : Nat) (p : Bool) : (s.answer g v c p).heldReqs = s.heldReqs := rfl
@[simp] theorem State.answer_cellJobs (s : State) (g : Nat) (v : Word) (c : Nat) (p : Bool) : (s.answer g v c p).cellJobs = s.cellJobs := rfl
@[simp] theorem State.answer_migs (s : State) (g : Nat) (v : Word) (c : Nat) (p : Bool) : (s.answer g v c p).migs = s.migs := rfl
@[simp] theorem State.answer_rillBad (s : State) (g : Nat) (v : Word) (c : Nat) (p : Bool) : (s.answer g v c p).rillBad = s.rillBad := rfl
@[simp] theorem State.answer_rillIssued (s : State) (g : Nat) (v : Word) (c : Nat) (p : Bool) : (s.answer g v c p).rillIssued = s.rillIssued := rfl
@[simp] theorem State.answer_members (s : State) (g : Nat) (v : Word) (c : Nat) (p : Bool) : (s.answer g v c p).members = s.members := rfl
@[simp] theorem State.answer_buckets (s : State) (g : Nat) (v : Word) (c : Nat) (p : Bool) : (s.answer g v c p).buckets = s.buckets := rfl
@[simp] theorem State.answer_endedBuckets (s : State) (g : Nat) (v : Word) (c : Nat) (p : Bool) : (s.answer g v c p).endedBuckets = s.endedBuckets := rfl
@[simp] theorem State.answer_resends (s : State) (g : Nat) (v : Word) (c : Nat) (p : Bool) : (s.answer g v c p).resends = s.resends := rfl
@[simp] theorem State.answer_links (s : State) (g : Nat) (v : Word) (c : Nat) (p : Bool) : (s.answer g v c p).links = s.links := rfl
@[simp] theorem State.answer_lanes (s : State) (g : Nat) (v : Word) (c : Nat) (p : Bool) : (s.answer g v c p).lanes = s.lanes := rfl
@[simp] theorem State.answer_rx (s : State) (g : Nat) (v : Word) (c : Nat) (p : Bool) : (s.answer g v c p).rx = s.rx := rfl
@[simp] theorem State.answer_peerReqs (s : State) (g : Nat) (v : Word) (c : Nat) (p : Bool) : (s.answer g v c p).peerReqs = s.peerReqs := rfl
@[simp] theorem State.answer_nextTag (s : State) (g : Nat) (v : Word) (c : Nat) (p : Bool) : (s.answer g v c p).nextTag = s.nextTag := rfl
@[simp] theorem State.answer_rejoin (s : State) (g : Nat) (v : Word) (c : Nat) (p : Bool) : (s.answer g v c p).rejoin = s.rejoin := rfl
@[simp] theorem State.answer_estreams (s : State) (g : Nat) (v : Word) (c : Nat) (p : Bool) : (s.answer g v c p).estreams = s.estreams := rfl
@[simp] theorem State.answer_ethTx (s : State) (g : Nat) (v : Word) (c : Nat) (p : Bool) : (s.answer g v c p).ethTx = s.ethTx := rfl
@[simp] theorem State.answer_mtxSent (s : State) (g : Nat) (v : Word) (c : Nat) (p : Bool) : (s.answer g v c p).mtxSent = s.mtxSent := rfl
@[simp] theorem State.answer_mgmtBad (s : State) (g : Nat) (v : Word) (c : Nat) (p : Bool) : (s.answer g v c p).mgmtBad = s.mgmtBad := rfl
@[simp] theorem State.answer_mrxNext (s : State) (g : Nat) (v : Word) (c : Nat) (p : Bool) : (s.answer g v c p).mrxNext = s.mrxNext := rfl
@[simp] theorem State.answer_mtxNext (s : State) (g : Nat) (v : Word) (c : Nat) (p : Bool) : (s.answer g v c p).mtxNext = s.mtxNext := rfl
@[simp] theorem State.answer_pfcUntil (s : State) (g : Nat) (v : Word) (c : Nat) (p : Bool) : (s.answer g v c p).pfcUntil = s.pfcUntil := rfl
@[simp] theorem State.answer_samples (s : State) (g : Nat) (v : Word) (c : Nat) (p : Bool) : (s.answer g v c p).samples = s.samples := rfl
@[simp] theorem State.answer_reservs (s : State) (g : Nat) (v : Word) (c : Nat) (p : Bool) : (s.answer g v c p).reservs = s.reservs := rfl
@[simp] theorem State.answer_nextReserv (s : State) (g : Nat) (v : Word) (c : Nat) (p : Bool) : (s.answer g v c p).nextReserv = s.nextReserv := rfl
@[simp] theorem State.answer_pends (s : State) (g : Nat) (v : Word) (c : Nat) (p : Bool) : (s.answer g v c p).pends = s.pends := rfl
@[simp] theorem State.answer_thrEvents (s : State) (g : Nat) (v : Word) (c : Nat) (p : Bool) : (s.answer g v c p).thrEvents = s.thrEvents := rfl
@[simp] theorem State.answer_thrLog (s : State) (g : Nat) (v : Word) (c : Nat) (p : Bool) : (s.answer g v c p).thrLog = s.thrLog := rfl
@[simp] theorem State.answer_thrOver (s : State) (g : Nat) (v : Word) (c : Nat) (p : Bool) : (s.answer g v c p).thrOver = s.thrOver := rfl
@[simp] theorem State.answer_sluPtr (s : State) (g : Nat) (v : Word) (c : Nat) (p : Bool) : (s.answer g v c p).sluPtr = s.sluPtr := rfl
@[simp] theorem State.answer_hclkAt (s : State) (g : Nat) (v : Word) (c : Nat) (p : Bool) : (s.answer g v c p).hclkAt = s.hclkAt := rfl
@[simp] theorem State.answer_caps (s : State) (g : Nat) (v : Word) (c : Nat) (p : Bool) : (s.answer g v c p).caps = s.caps := rfl
@[simp] theorem State.answer_ramps (s : State) (g : Nat) (v : Word) (c : Nat) (p : Bool) : (s.answer g v c p).ramps = s.ramps := rfl
@[simp] theorem State.answer_vinOkAt (s : State) (g : Nat) (v : Word) (c : Nat) (p : Bool) : (s.answer g v c p).vinOkAt = s.vinOkAt := rfl
@[simp] theorem State.answer_thermtrip (s : State) (g : Nat) (v : Word) (c : Nat) (p : Bool) : (s.answer g v c p).thermtrip = s.thermtrip := rfl
@[simp] theorem State.answer_save (s : State) (g : Nat) (v : Word) (c : Nat) (p : Bool) : (s.answer g v c p).save = s.save := rfl
@[simp] theorem State.answer_ctxReqs (s : State) (g : Nat) (v : Word) (c : Nat) (p : Bool) : (s.answer g v c p).ctxReqs = s.ctxReqs := rfl
@[simp] theorem State.answer_rstSeq (s : State) (g : Nat) (v : Word) (c : Nat) (p : Bool) : (s.answer g v c p).rstSeq = s.rstSeq := rfl
@[simp] theorem State.answer_dieWaits (s : State) (g : Nat) (v : Word) (c : Nat) (p : Bool) : (s.answer g v c p).dieWaits = s.dieWaits := rfl
@[simp] theorem State.answer_offers (s : State) (g : Nat) (v : Word) (c : Nat) (p : Bool) : (s.answer g v c p).offers = s.offers := rfl
@[simp] theorem State.answer_drops (s : State) (g : Nat) (v : Word) (c : Nat) (p : Bool) : (s.answer g v c p).drops = s.drops := rfl
@[simp] theorem State.answer_budget (s : State) (g : Nat) (v : Word) (c : Nat) (p : Bool) : (s.answer g v c p).budget = s.budget := rfl
@[simp] theorem State.answer_overWin (s : State) (g : Nat) (v : Word) (c : Nat) (p : Bool) : (s.answer g v c p).overWin = s.overWin := rfl
@[simp] theorem State.answer_ringAgent (s : State) (g : Nat) (v : Word) (c : Nat) (p : Bool) : (s.answer g v c p).ringAgent = s.ringAgent := rfl
@[simp] theorem State.answer_ringBad (s : State) (g : Nat) (v : Word) (c : Nat) (p : Bool) : (s.answer g v c p).ringBad = s.ringBad := rfl
@[simp] theorem State.answer_siteHeld (s : State) (g : Nat) (v : Word) (c : Nat) (p : Bool) : (s.answer g v c p).siteHeld = s.siteHeld := rfl
@[simp] theorem State.answer_siteThrottle (s : State) (g : Nat) (v : Word) (c : Nat) (p : Bool) : (s.answer g v c p).siteThrottle = s.siteThrottle := rfl
@[simp] theorem State.answer_d2dPoison (s : State) (g : Nat) (v : Word) (c : Nat) (p : Bool) : (s.answer g v c p).d2dPoison = s.d2dPoison := rfl
@[simp] theorem State.answer_d2dWait (s : State) (g : Nat) (v : Word) (c : Nat) (p : Bool) : (s.answer g v c p).d2dWait = s.d2dWait := rfl
@[simp] theorem State.answer_mclkHeld (s : State) (g : Nat) (v : Word) (c : Nat) (p : Bool) : (s.answer g v c p).mclkHeld = s.mclkHeld := rfl
@[simp] theorem State.answer_booted (s : State) (g : Nat) (v : Word) (c : Nat) (p : Bool) : (s.answer g v c p).booted = s.booted := rfl
@[simp] theorem State.answer_bringup (s : State) (g : Nat) (v : Word) (c : Nat) (p : Bool) : (s.answer g v c p).bringup = s.bringup := rfl
@[simp] theorem State.answer_sram (s : State) (g : Nat) (v : Word) (c : Nat) (p : Bool) : (s.answer g v c p).sram = s.sram := rfl
@[simp] theorem State.answer_romHalted (s : State) (g : Nat) (v : Word) (c : Nat) (p : Bool) : (s.answer g v c p).romHalted = s.romHalted := rfl
@[simp] theorem State.answer_testMode (s : State) (g : Nat) (v : Word) (c : Nat) (p : Bool) : (s.answer g v c p).testMode = s.testMode := rfl
@[simp] theorem State.answer_inReset (s : State) (g : Nat) (v : Word) (c : Nat) (p : Bool) : (s.answer g v c p).inReset = s.inReset := rfl
@[simp] theorem State.answer_holdVin (s : State) (g : Nat) (v : Word) (c : Nat) (p : Bool) : (s.answer g v c p).holdVin = s.holdVin := rfl
@[simp] theorem State.answer_i3cIndex (s : State) (g : Nat) (v : Word) (c : Nat) (p : Bool) : (s.answer g v c p).i3cIndex = s.i3cIndex := rfl
@[simp] theorem State.answer_i3cAddr (s : State) (g : Nat) (v : Word) (c : Nat) (p : Bool) : (s.answer g v c p).i3cAddr = s.i3cAddr := rfl
@[simp] theorem State.answer_access (s : State) (g : Nat) (v : Word) (c : Nat) (p : Bool) : (s.answer g v c p).access = s.access := rfl
@[simp] theorem State.answer_freeIdx (s : State) (g : Nat) (v : Word) (c : Nat) (p : Bool) : (s.answer g v c p).freeIdx = s.freeIdx := rfl

/-! ### answerLine -/

@[simp] theorem State.answerLine_pending (s : State) (g : Nat) (v : Line) (p : Bool) : (s.answerLine g v p).pending = s.pending := rfl
@[simp] theorem State.answerLine_now (s : State) (g : Nat) (v : Line) (p : Bool) : (s.answerLine g v p).now = s.now := rfl
@[simp] theorem State.answerLine_tbAdj (s : State) (g : Nat) (v : Line) (p : Bool) : (s.answerLine g v p).tbAdj = s.tbAdj := rfl
@[simp] theorem State.answerLine_slew (s : State) (g : Nat) (v : Line) (p : Bool) : (s.answerLine g v p).slew = s.slew := rfl
@[simp] theorem State.answerLine_slewAt (s : State) (g : Nat) (v : Line) (p : Bool) : (s.answerLine g v p).slewAt = s.slewAt := rfl
@[simp] theorem State.answerLine_tbRate (s : State) (g : Nat) (v : Line) (p : Bool) : (s.answerLine g v p).tbRate = s.tbRate := rfl
@[simp] theorem State.answerLine_rateAt (s : State) (g : Nat) (v : Line) (p : Bool) : (s.answerLine g v p).rateAt = s.rateAt := rfl
@[simp] theorem State.answerLine_tbSteps (s : State) (g : Nat) (v : Line) (p : Bool) : (s.answerLine g v p).tbSteps = s.tbSteps := rfl
@[simp] theorem State.answerLine_tbFrom (s : State) (g : Nat) (v : Line) (p : Bool) : (s.answerLine g v p).tbFrom = s.tbFrom := rfl
@[simp] theorem State.answerLine_tbXchg (s : State) (g : Nat) (v : Line) (p : Bool) : (s.answerLine g v p).tbXchg = s.tbXchg := rfl
@[simp] theorem State.answerLine_tbRef (s : State) (g : Nat) (v : Line) (p : Bool) : (s.answerLine g v p).tbRef = s.tbRef := rfl
@[simp] theorem State.answerLine_tbGood (s : State) (g : Nat) (v : Line) (p : Bool) : (s.answerLine g v p).tbGood = s.tbGood := rfl
@[simp] theorem State.answerLine_tbLast (s : State) (g : Nat) (v : Line) (p : Bool) : (s.answerLine g v p).tbLast = s.tbLast := rfl
@[simp] theorem State.answerLine_tbStepped (s : State) (g : Nat) (v : Line) (p : Bool) : (s.answerLine g v p).tbStepped = s.tbStepped := rfl
@[simp] theorem State.answerLine_regs (s : State) (g : Nat) (v : Line) (p : Bool) : (s.answerLine g v p).regs = s.regs := rfl
@[simp] theorem State.answerLine_fuses (s : State) (g : Nat) (v : Line) (p : Bool) : (s.answerLine g v p).fuses = s.fuses := rfl
@[simp] theorem State.answerLine_dike (s : State) (g : Nat) (v : Line) (p : Bool) : (s.answerLine g v p).dike = s.dike := rfl
@[simp] theorem State.answerLine_txn (s : State) (g : Nat) (v : Line) (p : Bool) : (s.answerLine g v p).txn = s.txn := rfl
@[simp] theorem State.answerLine_mem (s : State) (g : Nat) (v : Line) (p : Bool) : (s.answerLine g v p).mem = s.mem := rfl
@[simp] theorem State.answerLine_poison (s : State) (g : Nat) (v : Line) (p : Bool) : (s.answerLine g v p).poison = s.poison := rfl
@[simp] theorem State.answerLine_flash (s : State) (g : Nat) (v : Line) (p : Bool) : (s.answerLine g v p).flash = s.flash := rfl
@[simp] theorem State.answerLine_hosts (s : State) (g : Nat) (v : Line) (p : Bool) : (s.answerLine g v p).hosts = s.hosts := rfl
@[simp] theorem State.answerLine_dir (s : State) (g : Nat) (v : Line) (p : Bool) : (s.answerLine g v p).dir = s.dir := rfl
@[simp] theorem State.answerLine_grants (s : State) (g : Nat) (v : Line) (p : Bool) : (s.answerLine g v p).grants = s.grants := rfl
@[simp] theorem State.answerLine_invq (s : State) (g : Nat) (v : Line) (p : Bool) : (s.answerLine g v p).invq = s.invq := rfl
@[simp] theorem State.answerLine_cores (s : State) (g : Nat) (v : Line) (p : Bool) : (s.answerLine g v p).cores = s.cores := rfl
@[simp] theorem State.answerLine_queues (s : State) (g : Nat) (v : Line) (p : Bool) : (s.answerLine g v p).queues = s.queues := rfl
@[simp] theorem State.answerLine_inflight (s : State) (g : Nat) (v : Line) (p : Bool) : (s.answerLine g v p).inflight = s.inflight := rfl
@[simp] theorem State.answerLine_wcLeaf (s : State) (g : Nat) (v : Line) (p : Bool) : (s.answerLine g v p).wcLeaf = s.wcLeaf := rfl
@[simp] theorem State.answerLine_wcPtr (s : State) (g : Nat) (v : Line) (p : Bool) : (s.answerLine g v p).wcPtr = s.wcPtr := rfl
@[simp] theorem State.answerLine_faults (s : State) (g : Nat) (v : Line) (p : Bool) : (s.answerLine g v p).faults = s.faults := rfl
@[simp] theorem State.answerLine_faultSeq (s : State) (g : Nat) (v : Line) (p : Bool) : (s.answerLine g v p).faultSeq = s.faultSeq := rfl
@[simp] theorem State.answerLine_unslotted (s : State) (g : Nat) (v : Line) (p : Bool) : (s.answerLine g v p).unslotted = s.unslotted := rfl
@[simp] theorem State.answerLine_invals (s : State) (g : Nat) (v : Line) (p : Bool) : (s.answerLine g v p).invals = s.invals := rfl
@[simp] theorem State.answerLine_nextInval (s : State) (g : Nat) (v : Line) (p : Bool) : (s.answerLine g v p).nextInval = s.nextInval := rfl
@[simp] theorem State.answerLine_waiters (s : State) (g : Nat) (v : Line) (p : Bool) : (s.answerLine g v p).waiters = s.waiters := rfl
@[simp] theorem State.answerLine_advances (s : State) (g : Nat) (v : Line) (p : Bool) : (s.answerLine g v p).advances = s.advances := rfl
@[simp] theorem State.answerLine_events (s : State) (g : Nat) (v : Line) (p : Bool) : (s.answerLine g v p).events = s.events := rfl
@[simp] theorem State.answerLine_eventLost (s : State) (g : Nat) (v : Line) (p : Bool) : (s.answerLine g v p).eventLost = s.eventLost := rfl
@[simp] theorem State.answerLine_eventIrq (s : State) (g : Nat) (v : Line) (p : Bool) : (s.answerLine g v p).eventIrq = s.eventIrq := rfl
@[simp] theorem State.answerLine_mboxes (s : State) (g : Nat) (v : Line) (p : Bool) : (s.answerLine g v p).mboxes = s.mboxes := rfl
@[simp] theorem State.answerLine_chans (s : State) (g : Nat) (v : Line) (p : Bool) : (s.answerLine g v p).chans = s.chans := rfl
@[simp] theorem State.answerLine_repairs (s : State) (g : Nat) (v : Line) (p : Bool) : (s.answerLine g v p).repairs = s.repairs := rfl
@[simp] theorem State.answerLine_lineStore (s : State) (g : Nat) (v : Line) (p : Bool) : (s.answerLine g v p).lineStore = s.lineStore := rfl
@[simp] theorem State.answerLine_cxlMap (s : State) (g : Nat) (v : Line) (p : Bool) : (s.answerLine g v p).cxlMap = s.cxlMap := rfl
@[simp] theorem State.answerLine_cxlRecover (s : State) (g : Nat) (v : Line) (p : Bool) : (s.answerLine g v p).cxlRecover = s.cxlRecover := rfl
@[simp] theorem State.answerLine_heldReqs (s : State) (g : Nat) (v : Line) (p : Bool) : (s.answerLine g v p).heldReqs = s.heldReqs := rfl
@[simp] theorem State.answerLine_cellJobs (s : State) (g : Nat) (v : Line) (p : Bool) : (s.answerLine g v p).cellJobs = s.cellJobs := rfl
@[simp] theorem State.answerLine_migs (s : State) (g : Nat) (v : Line) (p : Bool) : (s.answerLine g v p).migs = s.migs := rfl
@[simp] theorem State.answerLine_rillBad (s : State) (g : Nat) (v : Line) (p : Bool) : (s.answerLine g v p).rillBad = s.rillBad := rfl
@[simp] theorem State.answerLine_rillIssued (s : State) (g : Nat) (v : Line) (p : Bool) : (s.answerLine g v p).rillIssued = s.rillIssued := rfl
@[simp] theorem State.answerLine_members (s : State) (g : Nat) (v : Line) (p : Bool) : (s.answerLine g v p).members = s.members := rfl
@[simp] theorem State.answerLine_buckets (s : State) (g : Nat) (v : Line) (p : Bool) : (s.answerLine g v p).buckets = s.buckets := rfl
@[simp] theorem State.answerLine_endedBuckets (s : State) (g : Nat) (v : Line) (p : Bool) : (s.answerLine g v p).endedBuckets = s.endedBuckets := rfl
@[simp] theorem State.answerLine_resends (s : State) (g : Nat) (v : Line) (p : Bool) : (s.answerLine g v p).resends = s.resends := rfl
@[simp] theorem State.answerLine_links (s : State) (g : Nat) (v : Line) (p : Bool) : (s.answerLine g v p).links = s.links := rfl
@[simp] theorem State.answerLine_lanes (s : State) (g : Nat) (v : Line) (p : Bool) : (s.answerLine g v p).lanes = s.lanes := rfl
@[simp] theorem State.answerLine_rx (s : State) (g : Nat) (v : Line) (p : Bool) : (s.answerLine g v p).rx = s.rx := rfl
@[simp] theorem State.answerLine_peerReqs (s : State) (g : Nat) (v : Line) (p : Bool) : (s.answerLine g v p).peerReqs = s.peerReqs := rfl
@[simp] theorem State.answerLine_nextTag (s : State) (g : Nat) (v : Line) (p : Bool) : (s.answerLine g v p).nextTag = s.nextTag := rfl
@[simp] theorem State.answerLine_rejoin (s : State) (g : Nat) (v : Line) (p : Bool) : (s.answerLine g v p).rejoin = s.rejoin := rfl
@[simp] theorem State.answerLine_estreams (s : State) (g : Nat) (v : Line) (p : Bool) : (s.answerLine g v p).estreams = s.estreams := rfl
@[simp] theorem State.answerLine_ethTx (s : State) (g : Nat) (v : Line) (p : Bool) : (s.answerLine g v p).ethTx = s.ethTx := rfl
@[simp] theorem State.answerLine_mtxSent (s : State) (g : Nat) (v : Line) (p : Bool) : (s.answerLine g v p).mtxSent = s.mtxSent := rfl
@[simp] theorem State.answerLine_mgmtBad (s : State) (g : Nat) (v : Line) (p : Bool) : (s.answerLine g v p).mgmtBad = s.mgmtBad := rfl
@[simp] theorem State.answerLine_mrxNext (s : State) (g : Nat) (v : Line) (p : Bool) : (s.answerLine g v p).mrxNext = s.mrxNext := rfl
@[simp] theorem State.answerLine_mtxNext (s : State) (g : Nat) (v : Line) (p : Bool) : (s.answerLine g v p).mtxNext = s.mtxNext := rfl
@[simp] theorem State.answerLine_pfcUntil (s : State) (g : Nat) (v : Line) (p : Bool) : (s.answerLine g v p).pfcUntil = s.pfcUntil := rfl
@[simp] theorem State.answerLine_samples (s : State) (g : Nat) (v : Line) (p : Bool) : (s.answerLine g v p).samples = s.samples := rfl
@[simp] theorem State.answerLine_reservs (s : State) (g : Nat) (v : Line) (p : Bool) : (s.answerLine g v p).reservs = s.reservs := rfl
@[simp] theorem State.answerLine_nextReserv (s : State) (g : Nat) (v : Line) (p : Bool) : (s.answerLine g v p).nextReserv = s.nextReserv := rfl
@[simp] theorem State.answerLine_pends (s : State) (g : Nat) (v : Line) (p : Bool) : (s.answerLine g v p).pends = s.pends := rfl
@[simp] theorem State.answerLine_thrEvents (s : State) (g : Nat) (v : Line) (p : Bool) : (s.answerLine g v p).thrEvents = s.thrEvents := rfl
@[simp] theorem State.answerLine_thrLog (s : State) (g : Nat) (v : Line) (p : Bool) : (s.answerLine g v p).thrLog = s.thrLog := rfl
@[simp] theorem State.answerLine_thrOver (s : State) (g : Nat) (v : Line) (p : Bool) : (s.answerLine g v p).thrOver = s.thrOver := rfl
@[simp] theorem State.answerLine_sluPtr (s : State) (g : Nat) (v : Line) (p : Bool) : (s.answerLine g v p).sluPtr = s.sluPtr := rfl
@[simp] theorem State.answerLine_hclkAt (s : State) (g : Nat) (v : Line) (p : Bool) : (s.answerLine g v p).hclkAt = s.hclkAt := rfl
@[simp] theorem State.answerLine_caps (s : State) (g : Nat) (v : Line) (p : Bool) : (s.answerLine g v p).caps = s.caps := rfl
@[simp] theorem State.answerLine_ramps (s : State) (g : Nat) (v : Line) (p : Bool) : (s.answerLine g v p).ramps = s.ramps := rfl
@[simp] theorem State.answerLine_vinOkAt (s : State) (g : Nat) (v : Line) (p : Bool) : (s.answerLine g v p).vinOkAt = s.vinOkAt := rfl
@[simp] theorem State.answerLine_thermtrip (s : State) (g : Nat) (v : Line) (p : Bool) : (s.answerLine g v p).thermtrip = s.thermtrip := rfl
@[simp] theorem State.answerLine_save (s : State) (g : Nat) (v : Line) (p : Bool) : (s.answerLine g v p).save = s.save := rfl
@[simp] theorem State.answerLine_ctxReqs (s : State) (g : Nat) (v : Line) (p : Bool) : (s.answerLine g v p).ctxReqs = s.ctxReqs := rfl
@[simp] theorem State.answerLine_rstSeq (s : State) (g : Nat) (v : Line) (p : Bool) : (s.answerLine g v p).rstSeq = s.rstSeq := rfl
@[simp] theorem State.answerLine_dieWaits (s : State) (g : Nat) (v : Line) (p : Bool) : (s.answerLine g v p).dieWaits = s.dieWaits := rfl
@[simp] theorem State.answerLine_offers (s : State) (g : Nat) (v : Line) (p : Bool) : (s.answerLine g v p).offers = s.offers := rfl
@[simp] theorem State.answerLine_drops (s : State) (g : Nat) (v : Line) (p : Bool) : (s.answerLine g v p).drops = s.drops := rfl
@[simp] theorem State.answerLine_budget (s : State) (g : Nat) (v : Line) (p : Bool) : (s.answerLine g v p).budget = s.budget := rfl
@[simp] theorem State.answerLine_overWin (s : State) (g : Nat) (v : Line) (p : Bool) : (s.answerLine g v p).overWin = s.overWin := rfl
@[simp] theorem State.answerLine_ringAgent (s : State) (g : Nat) (v : Line) (p : Bool) : (s.answerLine g v p).ringAgent = s.ringAgent := rfl
@[simp] theorem State.answerLine_ringBad (s : State) (g : Nat) (v : Line) (p : Bool) : (s.answerLine g v p).ringBad = s.ringBad := rfl
@[simp] theorem State.answerLine_siteHeld (s : State) (g : Nat) (v : Line) (p : Bool) : (s.answerLine g v p).siteHeld = s.siteHeld := rfl
@[simp] theorem State.answerLine_siteThrottle (s : State) (g : Nat) (v : Line) (p : Bool) : (s.answerLine g v p).siteThrottle = s.siteThrottle := rfl
@[simp] theorem State.answerLine_d2dPoison (s : State) (g : Nat) (v : Line) (p : Bool) : (s.answerLine g v p).d2dPoison = s.d2dPoison := rfl
@[simp] theorem State.answerLine_d2dWait (s : State) (g : Nat) (v : Line) (p : Bool) : (s.answerLine g v p).d2dWait = s.d2dWait := rfl
@[simp] theorem State.answerLine_mclkHeld (s : State) (g : Nat) (v : Line) (p : Bool) : (s.answerLine g v p).mclkHeld = s.mclkHeld := rfl
@[simp] theorem State.answerLine_booted (s : State) (g : Nat) (v : Line) (p : Bool) : (s.answerLine g v p).booted = s.booted := rfl
@[simp] theorem State.answerLine_bringup (s : State) (g : Nat) (v : Line) (p : Bool) : (s.answerLine g v p).bringup = s.bringup := rfl
@[simp] theorem State.answerLine_sram (s : State) (g : Nat) (v : Line) (p : Bool) : (s.answerLine g v p).sram = s.sram := rfl
@[simp] theorem State.answerLine_romHalted (s : State) (g : Nat) (v : Line) (p : Bool) : (s.answerLine g v p).romHalted = s.romHalted := rfl
@[simp] theorem State.answerLine_testMode (s : State) (g : Nat) (v : Line) (p : Bool) : (s.answerLine g v p).testMode = s.testMode := rfl
@[simp] theorem State.answerLine_inReset (s : State) (g : Nat) (v : Line) (p : Bool) : (s.answerLine g v p).inReset = s.inReset := rfl
@[simp] theorem State.answerLine_holdVin (s : State) (g : Nat) (v : Line) (p : Bool) : (s.answerLine g v p).holdVin = s.holdVin := rfl
@[simp] theorem State.answerLine_i3cIndex (s : State) (g : Nat) (v : Line) (p : Bool) : (s.answerLine g v p).i3cIndex = s.i3cIndex := rfl
@[simp] theorem State.answerLine_i3cAddr (s : State) (g : Nat) (v : Line) (p : Bool) : (s.answerLine g v p).i3cAddr = s.i3cAddr := rfl
@[simp] theorem State.answerLine_access (s : State) (g : Nat) (v : Line) (p : Bool) : (s.answerLine g v p).access = s.access := rfl
@[simp] theorem State.answerLine_freeIdx (s : State) (g : Nat) (v : Line) (p : Bool) : (s.answerLine g v p).freeIdx = s.freeIdx := rfl

/-! ### setReg -/

@[simp] theorem State.setReg_pending (s : State) (off : Nat) (v : Word) : (s.setReg off v).pending = s.pending := rfl
@[simp] theorem State.setReg_now (s : State) (off : Nat) (v : Word) : (s.setReg off v).now = s.now := rfl
@[simp] theorem State.setReg_tbAdj (s : State) (off : Nat) (v : Word) : (s.setReg off v).tbAdj = s.tbAdj := rfl
@[simp] theorem State.setReg_slew (s : State) (off : Nat) (v : Word) : (s.setReg off v).slew = s.slew := rfl
@[simp] theorem State.setReg_slewAt (s : State) (off : Nat) (v : Word) : (s.setReg off v).slewAt = s.slewAt := rfl
@[simp] theorem State.setReg_tbRate (s : State) (off : Nat) (v : Word) : (s.setReg off v).tbRate = s.tbRate := rfl
@[simp] theorem State.setReg_rateAt (s : State) (off : Nat) (v : Word) : (s.setReg off v).rateAt = s.rateAt := rfl
@[simp] theorem State.setReg_tbSteps (s : State) (off : Nat) (v : Word) : (s.setReg off v).tbSteps = s.tbSteps := rfl
@[simp] theorem State.setReg_tbFrom (s : State) (off : Nat) (v : Word) : (s.setReg off v).tbFrom = s.tbFrom := rfl
@[simp] theorem State.setReg_tbXchg (s : State) (off : Nat) (v : Word) : (s.setReg off v).tbXchg = s.tbXchg := rfl
@[simp] theorem State.setReg_tbRef (s : State) (off : Nat) (v : Word) : (s.setReg off v).tbRef = s.tbRef := rfl
@[simp] theorem State.setReg_tbGood (s : State) (off : Nat) (v : Word) : (s.setReg off v).tbGood = s.tbGood := rfl
@[simp] theorem State.setReg_tbLast (s : State) (off : Nat) (v : Word) : (s.setReg off v).tbLast = s.tbLast := rfl
@[simp] theorem State.setReg_tbStepped (s : State) (off : Nat) (v : Word) : (s.setReg off v).tbStepped = s.tbStepped := rfl
@[simp] theorem State.setReg_reply (s : State) (off : Nat) (v : Word) : (s.setReg off v).reply = s.reply := rfl
@[simp] theorem State.setReg_fuses (s : State) (off : Nat) (v : Word) : (s.setReg off v).fuses = s.fuses := rfl
@[simp] theorem State.setReg_dike (s : State) (off : Nat) (v : Word) : (s.setReg off v).dike = s.dike := rfl
@[simp] theorem State.setReg_txn (s : State) (off : Nat) (v : Word) : (s.setReg off v).txn = s.txn := rfl
@[simp] theorem State.setReg_mem (s : State) (off : Nat) (v : Word) : (s.setReg off v).mem = s.mem := rfl
@[simp] theorem State.setReg_poison (s : State) (off : Nat) (v : Word) : (s.setReg off v).poison = s.poison := rfl
@[simp] theorem State.setReg_flash (s : State) (off : Nat) (v : Word) : (s.setReg off v).flash = s.flash := rfl
@[simp] theorem State.setReg_hosts (s : State) (off : Nat) (v : Word) : (s.setReg off v).hosts = s.hosts := rfl
@[simp] theorem State.setReg_dir (s : State) (off : Nat) (v : Word) : (s.setReg off v).dir = s.dir := rfl
@[simp] theorem State.setReg_grants (s : State) (off : Nat) (v : Word) : (s.setReg off v).grants = s.grants := rfl
@[simp] theorem State.setReg_invq (s : State) (off : Nat) (v : Word) : (s.setReg off v).invq = s.invq := rfl
@[simp] theorem State.setReg_cores (s : State) (off : Nat) (v : Word) : (s.setReg off v).cores = s.cores := rfl
@[simp] theorem State.setReg_queues (s : State) (off : Nat) (v : Word) : (s.setReg off v).queues = s.queues := rfl
@[simp] theorem State.setReg_inflight (s : State) (off : Nat) (v : Word) : (s.setReg off v).inflight = s.inflight := rfl
@[simp] theorem State.setReg_wcLeaf (s : State) (off : Nat) (v : Word) : (s.setReg off v).wcLeaf = s.wcLeaf := rfl
@[simp] theorem State.setReg_wcPtr (s : State) (off : Nat) (v : Word) : (s.setReg off v).wcPtr = s.wcPtr := rfl
@[simp] theorem State.setReg_faults (s : State) (off : Nat) (v : Word) : (s.setReg off v).faults = s.faults := rfl
@[simp] theorem State.setReg_faultSeq (s : State) (off : Nat) (v : Word) : (s.setReg off v).faultSeq = s.faultSeq := rfl
@[simp] theorem State.setReg_unslotted (s : State) (off : Nat) (v : Word) : (s.setReg off v).unslotted = s.unslotted := rfl
@[simp] theorem State.setReg_invals (s : State) (off : Nat) (v : Word) : (s.setReg off v).invals = s.invals := rfl
@[simp] theorem State.setReg_nextInval (s : State) (off : Nat) (v : Word) : (s.setReg off v).nextInval = s.nextInval := rfl
@[simp] theorem State.setReg_waiters (s : State) (off : Nat) (v : Word) : (s.setReg off v).waiters = s.waiters := rfl
@[simp] theorem State.setReg_advances (s : State) (off : Nat) (v : Word) : (s.setReg off v).advances = s.advances := rfl
@[simp] theorem State.setReg_events (s : State) (off : Nat) (v : Word) : (s.setReg off v).events = s.events := rfl
@[simp] theorem State.setReg_eventLost (s : State) (off : Nat) (v : Word) : (s.setReg off v).eventLost = s.eventLost := rfl
@[simp] theorem State.setReg_eventIrq (s : State) (off : Nat) (v : Word) : (s.setReg off v).eventIrq = s.eventIrq := rfl
@[simp] theorem State.setReg_mboxes (s : State) (off : Nat) (v : Word) : (s.setReg off v).mboxes = s.mboxes := rfl
@[simp] theorem State.setReg_chans (s : State) (off : Nat) (v : Word) : (s.setReg off v).chans = s.chans := rfl
@[simp] theorem State.setReg_repairs (s : State) (off : Nat) (v : Word) : (s.setReg off v).repairs = s.repairs := rfl
@[simp] theorem State.setReg_lineStore (s : State) (off : Nat) (v : Word) : (s.setReg off v).lineStore = s.lineStore := rfl
@[simp] theorem State.setReg_cxlMap (s : State) (off : Nat) (v : Word) : (s.setReg off v).cxlMap = s.cxlMap := rfl
@[simp] theorem State.setReg_cxlRecover (s : State) (off : Nat) (v : Word) : (s.setReg off v).cxlRecover = s.cxlRecover := rfl
@[simp] theorem State.setReg_heldReqs (s : State) (off : Nat) (v : Word) : (s.setReg off v).heldReqs = s.heldReqs := rfl
@[simp] theorem State.setReg_cellJobs (s : State) (off : Nat) (v : Word) : (s.setReg off v).cellJobs = s.cellJobs := rfl
@[simp] theorem State.setReg_migs (s : State) (off : Nat) (v : Word) : (s.setReg off v).migs = s.migs := rfl
@[simp] theorem State.setReg_rillBad (s : State) (off : Nat) (v : Word) : (s.setReg off v).rillBad = s.rillBad := rfl
@[simp] theorem State.setReg_rillIssued (s : State) (off : Nat) (v : Word) : (s.setReg off v).rillIssued = s.rillIssued := rfl
@[simp] theorem State.setReg_members (s : State) (off : Nat) (v : Word) : (s.setReg off v).members = s.members := rfl
@[simp] theorem State.setReg_buckets (s : State) (off : Nat) (v : Word) : (s.setReg off v).buckets = s.buckets := rfl
@[simp] theorem State.setReg_endedBuckets (s : State) (off : Nat) (v : Word) : (s.setReg off v).endedBuckets = s.endedBuckets := rfl
@[simp] theorem State.setReg_resends (s : State) (off : Nat) (v : Word) : (s.setReg off v).resends = s.resends := rfl
@[simp] theorem State.setReg_links (s : State) (off : Nat) (v : Word) : (s.setReg off v).links = s.links := rfl
@[simp] theorem State.setReg_lanes (s : State) (off : Nat) (v : Word) : (s.setReg off v).lanes = s.lanes := rfl
@[simp] theorem State.setReg_rx (s : State) (off : Nat) (v : Word) : (s.setReg off v).rx = s.rx := rfl
@[simp] theorem State.setReg_peerReqs (s : State) (off : Nat) (v : Word) : (s.setReg off v).peerReqs = s.peerReqs := rfl
@[simp] theorem State.setReg_nextTag (s : State) (off : Nat) (v : Word) : (s.setReg off v).nextTag = s.nextTag := rfl
@[simp] theorem State.setReg_rejoin (s : State) (off : Nat) (v : Word) : (s.setReg off v).rejoin = s.rejoin := rfl
@[simp] theorem State.setReg_estreams (s : State) (off : Nat) (v : Word) : (s.setReg off v).estreams = s.estreams := rfl
@[simp] theorem State.setReg_ethTx (s : State) (off : Nat) (v : Word) : (s.setReg off v).ethTx = s.ethTx := rfl
@[simp] theorem State.setReg_mtxSent (s : State) (off : Nat) (v : Word) : (s.setReg off v).mtxSent = s.mtxSent := rfl
@[simp] theorem State.setReg_mgmtBad (s : State) (off : Nat) (v : Word) : (s.setReg off v).mgmtBad = s.mgmtBad := rfl
@[simp] theorem State.setReg_mrxNext (s : State) (off : Nat) (v : Word) : (s.setReg off v).mrxNext = s.mrxNext := rfl
@[simp] theorem State.setReg_mtxNext (s : State) (off : Nat) (v : Word) : (s.setReg off v).mtxNext = s.mtxNext := rfl
@[simp] theorem State.setReg_pfcUntil (s : State) (off : Nat) (v : Word) : (s.setReg off v).pfcUntil = s.pfcUntil := rfl
@[simp] theorem State.setReg_samples (s : State) (off : Nat) (v : Word) : (s.setReg off v).samples = s.samples := rfl
@[simp] theorem State.setReg_reservs (s : State) (off : Nat) (v : Word) : (s.setReg off v).reservs = s.reservs := rfl
@[simp] theorem State.setReg_nextReserv (s : State) (off : Nat) (v : Word) : (s.setReg off v).nextReserv = s.nextReserv := rfl
@[simp] theorem State.setReg_pends (s : State) (off : Nat) (v : Word) : (s.setReg off v).pends = s.pends := rfl
@[simp] theorem State.setReg_thrEvents (s : State) (off : Nat) (v : Word) : (s.setReg off v).thrEvents = s.thrEvents := rfl
@[simp] theorem State.setReg_thrLog (s : State) (off : Nat) (v : Word) : (s.setReg off v).thrLog = s.thrLog := rfl
@[simp] theorem State.setReg_thrOver (s : State) (off : Nat) (v : Word) : (s.setReg off v).thrOver = s.thrOver := rfl
@[simp] theorem State.setReg_sluPtr (s : State) (off : Nat) (v : Word) : (s.setReg off v).sluPtr = s.sluPtr := rfl
@[simp] theorem State.setReg_hclkAt (s : State) (off : Nat) (v : Word) : (s.setReg off v).hclkAt = s.hclkAt := rfl
@[simp] theorem State.setReg_caps (s : State) (off : Nat) (v : Word) : (s.setReg off v).caps = s.caps := rfl
@[simp] theorem State.setReg_ramps (s : State) (off : Nat) (v : Word) : (s.setReg off v).ramps = s.ramps := rfl
@[simp] theorem State.setReg_vinOkAt (s : State) (off : Nat) (v : Word) : (s.setReg off v).vinOkAt = s.vinOkAt := rfl
@[simp] theorem State.setReg_thermtrip (s : State) (off : Nat) (v : Word) : (s.setReg off v).thermtrip = s.thermtrip := rfl
@[simp] theorem State.setReg_save (s : State) (off : Nat) (v : Word) : (s.setReg off v).save = s.save := rfl
@[simp] theorem State.setReg_ctxReqs (s : State) (off : Nat) (v : Word) : (s.setReg off v).ctxReqs = s.ctxReqs := rfl
@[simp] theorem State.setReg_rstSeq (s : State) (off : Nat) (v : Word) : (s.setReg off v).rstSeq = s.rstSeq := rfl
@[simp] theorem State.setReg_dieWaits (s : State) (off : Nat) (v : Word) : (s.setReg off v).dieWaits = s.dieWaits := rfl
@[simp] theorem State.setReg_offers (s : State) (off : Nat) (v : Word) : (s.setReg off v).offers = s.offers := rfl
@[simp] theorem State.setReg_drops (s : State) (off : Nat) (v : Word) : (s.setReg off v).drops = s.drops := rfl
@[simp] theorem State.setReg_budget (s : State) (off : Nat) (v : Word) : (s.setReg off v).budget = s.budget := rfl
@[simp] theorem State.setReg_overWin (s : State) (off : Nat) (v : Word) : (s.setReg off v).overWin = s.overWin := rfl
@[simp] theorem State.setReg_ringAgent (s : State) (off : Nat) (v : Word) : (s.setReg off v).ringAgent = s.ringAgent := rfl
@[simp] theorem State.setReg_ringBad (s : State) (off : Nat) (v : Word) : (s.setReg off v).ringBad = s.ringBad := rfl
@[simp] theorem State.setReg_siteHeld (s : State) (off : Nat) (v : Word) : (s.setReg off v).siteHeld = s.siteHeld := rfl
@[simp] theorem State.setReg_siteThrottle (s : State) (off : Nat) (v : Word) : (s.setReg off v).siteThrottle = s.siteThrottle := rfl
@[simp] theorem State.setReg_d2dPoison (s : State) (off : Nat) (v : Word) : (s.setReg off v).d2dPoison = s.d2dPoison := rfl
@[simp] theorem State.setReg_d2dWait (s : State) (off : Nat) (v : Word) : (s.setReg off v).d2dWait = s.d2dWait := rfl
@[simp] theorem State.setReg_mclkHeld (s : State) (off : Nat) (v : Word) : (s.setReg off v).mclkHeld = s.mclkHeld := rfl
@[simp] theorem State.setReg_booted (s : State) (off : Nat) (v : Word) : (s.setReg off v).booted = s.booted := rfl
@[simp] theorem State.setReg_bringup (s : State) (off : Nat) (v : Word) : (s.setReg off v).bringup = s.bringup := rfl
@[simp] theorem State.setReg_sram (s : State) (off : Nat) (v : Word) : (s.setReg off v).sram = s.sram := rfl
@[simp] theorem State.setReg_romHalted (s : State) (off : Nat) (v : Word) : (s.setReg off v).romHalted = s.romHalted := rfl
@[simp] theorem State.setReg_testMode (s : State) (off : Nat) (v : Word) : (s.setReg off v).testMode = s.testMode := rfl
@[simp] theorem State.setReg_inReset (s : State) (off : Nat) (v : Word) : (s.setReg off v).inReset = s.inReset := rfl
@[simp] theorem State.setReg_holdVin (s : State) (off : Nat) (v : Word) : (s.setReg off v).holdVin = s.holdVin := rfl
@[simp] theorem State.setReg_i3cIndex (s : State) (off : Nat) (v : Word) : (s.setReg off v).i3cIndex = s.i3cIndex := rfl
@[simp] theorem State.setReg_i3cAddr (s : State) (off : Nat) (v : Word) : (s.setReg off v).i3cAddr = s.i3cAddr := rfl
@[simp] theorem State.setReg_access (s : State) (off : Nat) (v : Word) : (s.setReg off v).access = s.access := rfl
@[simp] theorem State.setReg_freeIdx (s : State) (off : Nat) (v : Word) : (s.setReg off v).freeIdx = s.freeIdx := rfl

/-! ### setByte -/

@[simp] theorem State.setByte_pending (s : State) (pa : Nat) (b : Byte) : (s.setByte pa b).pending = s.pending := rfl
@[simp] theorem State.setByte_now (s : State) (pa : Nat) (b : Byte) : (s.setByte pa b).now = s.now := rfl
@[simp] theorem State.setByte_tbAdj (s : State) (pa : Nat) (b : Byte) : (s.setByte pa b).tbAdj = s.tbAdj := rfl
@[simp] theorem State.setByte_slew (s : State) (pa : Nat) (b : Byte) : (s.setByte pa b).slew = s.slew := rfl
@[simp] theorem State.setByte_slewAt (s : State) (pa : Nat) (b : Byte) : (s.setByte pa b).slewAt = s.slewAt := rfl
@[simp] theorem State.setByte_tbRate (s : State) (pa : Nat) (b : Byte) : (s.setByte pa b).tbRate = s.tbRate := rfl
@[simp] theorem State.setByte_rateAt (s : State) (pa : Nat) (b : Byte) : (s.setByte pa b).rateAt = s.rateAt := rfl
@[simp] theorem State.setByte_tbSteps (s : State) (pa : Nat) (b : Byte) : (s.setByte pa b).tbSteps = s.tbSteps := rfl
@[simp] theorem State.setByte_tbFrom (s : State) (pa : Nat) (b : Byte) : (s.setByte pa b).tbFrom = s.tbFrom := rfl
@[simp] theorem State.setByte_tbXchg (s : State) (pa : Nat) (b : Byte) : (s.setByte pa b).tbXchg = s.tbXchg := rfl
@[simp] theorem State.setByte_tbRef (s : State) (pa : Nat) (b : Byte) : (s.setByte pa b).tbRef = s.tbRef := rfl
@[simp] theorem State.setByte_tbGood (s : State) (pa : Nat) (b : Byte) : (s.setByte pa b).tbGood = s.tbGood := rfl
@[simp] theorem State.setByte_tbLast (s : State) (pa : Nat) (b : Byte) : (s.setByte pa b).tbLast = s.tbLast := rfl
@[simp] theorem State.setByte_tbStepped (s : State) (pa : Nat) (b : Byte) : (s.setByte pa b).tbStepped = s.tbStepped := rfl
@[simp] theorem State.setByte_regs (s : State) (pa : Nat) (b : Byte) : (s.setByte pa b).regs = s.regs := rfl
@[simp] theorem State.setByte_reply (s : State) (pa : Nat) (b : Byte) : (s.setByte pa b).reply = s.reply := rfl
@[simp] theorem State.setByte_fuses (s : State) (pa : Nat) (b : Byte) : (s.setByte pa b).fuses = s.fuses := rfl
@[simp] theorem State.setByte_dike (s : State) (pa : Nat) (b : Byte) : (s.setByte pa b).dike = s.dike := rfl
@[simp] theorem State.setByte_txn (s : State) (pa : Nat) (b : Byte) : (s.setByte pa b).txn = s.txn := rfl
@[simp] theorem State.setByte_poison (s : State) (pa : Nat) (b : Byte) : (s.setByte pa b).poison = s.poison := rfl
@[simp] theorem State.setByte_flash (s : State) (pa : Nat) (b : Byte) : (s.setByte pa b).flash = s.flash := rfl
@[simp] theorem State.setByte_hosts (s : State) (pa : Nat) (b : Byte) : (s.setByte pa b).hosts = s.hosts := rfl
@[simp] theorem State.setByte_dir (s : State) (pa : Nat) (b : Byte) : (s.setByte pa b).dir = s.dir := rfl
@[simp] theorem State.setByte_grants (s : State) (pa : Nat) (b : Byte) : (s.setByte pa b).grants = s.grants := rfl
@[simp] theorem State.setByte_invq (s : State) (pa : Nat) (b : Byte) : (s.setByte pa b).invq = s.invq := rfl
@[simp] theorem State.setByte_cores (s : State) (pa : Nat) (b : Byte) : (s.setByte pa b).cores = s.cores := rfl
@[simp] theorem State.setByte_queues (s : State) (pa : Nat) (b : Byte) : (s.setByte pa b).queues = s.queues := rfl
@[simp] theorem State.setByte_inflight (s : State) (pa : Nat) (b : Byte) : (s.setByte pa b).inflight = s.inflight := rfl
@[simp] theorem State.setByte_wcLeaf (s : State) (pa : Nat) (b : Byte) : (s.setByte pa b).wcLeaf = s.wcLeaf := rfl
@[simp] theorem State.setByte_wcPtr (s : State) (pa : Nat) (b : Byte) : (s.setByte pa b).wcPtr = s.wcPtr := rfl
@[simp] theorem State.setByte_faults (s : State) (pa : Nat) (b : Byte) : (s.setByte pa b).faults = s.faults := rfl
@[simp] theorem State.setByte_faultSeq (s : State) (pa : Nat) (b : Byte) : (s.setByte pa b).faultSeq = s.faultSeq := rfl
@[simp] theorem State.setByte_unslotted (s : State) (pa : Nat) (b : Byte) : (s.setByte pa b).unslotted = s.unslotted := rfl
@[simp] theorem State.setByte_invals (s : State) (pa : Nat) (b : Byte) : (s.setByte pa b).invals = s.invals := rfl
@[simp] theorem State.setByte_nextInval (s : State) (pa : Nat) (b : Byte) : (s.setByte pa b).nextInval = s.nextInval := rfl
@[simp] theorem State.setByte_waiters (s : State) (pa : Nat) (b : Byte) : (s.setByte pa b).waiters = s.waiters := rfl
@[simp] theorem State.setByte_advances (s : State) (pa : Nat) (b : Byte) : (s.setByte pa b).advances = s.advances := rfl
@[simp] theorem State.setByte_events (s : State) (pa : Nat) (b : Byte) : (s.setByte pa b).events = s.events := rfl
@[simp] theorem State.setByte_eventLost (s : State) (pa : Nat) (b : Byte) : (s.setByte pa b).eventLost = s.eventLost := rfl
@[simp] theorem State.setByte_eventIrq (s : State) (pa : Nat) (b : Byte) : (s.setByte pa b).eventIrq = s.eventIrq := rfl
@[simp] theorem State.setByte_mboxes (s : State) (pa : Nat) (b : Byte) : (s.setByte pa b).mboxes = s.mboxes := rfl
@[simp] theorem State.setByte_chans (s : State) (pa : Nat) (b : Byte) : (s.setByte pa b).chans = s.chans := rfl
@[simp] theorem State.setByte_repairs (s : State) (pa : Nat) (b : Byte) : (s.setByte pa b).repairs = s.repairs := rfl
@[simp] theorem State.setByte_lineStore (s : State) (pa : Nat) (b : Byte) : (s.setByte pa b).lineStore = s.lineStore := rfl
@[simp] theorem State.setByte_cxlMap (s : State) (pa : Nat) (b : Byte) : (s.setByte pa b).cxlMap = s.cxlMap := rfl
@[simp] theorem State.setByte_cxlRecover (s : State) (pa : Nat) (b : Byte) : (s.setByte pa b).cxlRecover = s.cxlRecover := rfl
@[simp] theorem State.setByte_heldReqs (s : State) (pa : Nat) (b : Byte) : (s.setByte pa b).heldReqs = s.heldReqs := rfl
@[simp] theorem State.setByte_cellJobs (s : State) (pa : Nat) (b : Byte) : (s.setByte pa b).cellJobs = s.cellJobs := rfl
@[simp] theorem State.setByte_migs (s : State) (pa : Nat) (b : Byte) : (s.setByte pa b).migs = s.migs := rfl
@[simp] theorem State.setByte_rillBad (s : State) (pa : Nat) (b : Byte) : (s.setByte pa b).rillBad = s.rillBad := rfl
@[simp] theorem State.setByte_rillIssued (s : State) (pa : Nat) (b : Byte) : (s.setByte pa b).rillIssued = s.rillIssued := rfl
@[simp] theorem State.setByte_members (s : State) (pa : Nat) (b : Byte) : (s.setByte pa b).members = s.members := rfl
@[simp] theorem State.setByte_buckets (s : State) (pa : Nat) (b : Byte) : (s.setByte pa b).buckets = s.buckets := rfl
@[simp] theorem State.setByte_endedBuckets (s : State) (pa : Nat) (b : Byte) : (s.setByte pa b).endedBuckets = s.endedBuckets := rfl
@[simp] theorem State.setByte_resends (s : State) (pa : Nat) (b : Byte) : (s.setByte pa b).resends = s.resends := rfl
@[simp] theorem State.setByte_links (s : State) (pa : Nat) (b : Byte) : (s.setByte pa b).links = s.links := rfl
@[simp] theorem State.setByte_lanes (s : State) (pa : Nat) (b : Byte) : (s.setByte pa b).lanes = s.lanes := rfl
@[simp] theorem State.setByte_rx (s : State) (pa : Nat) (b : Byte) : (s.setByte pa b).rx = s.rx := rfl
@[simp] theorem State.setByte_peerReqs (s : State) (pa : Nat) (b : Byte) : (s.setByte pa b).peerReqs = s.peerReqs := rfl
@[simp] theorem State.setByte_nextTag (s : State) (pa : Nat) (b : Byte) : (s.setByte pa b).nextTag = s.nextTag := rfl
@[simp] theorem State.setByte_rejoin (s : State) (pa : Nat) (b : Byte) : (s.setByte pa b).rejoin = s.rejoin := rfl
@[simp] theorem State.setByte_estreams (s : State) (pa : Nat) (b : Byte) : (s.setByte pa b).estreams = s.estreams := rfl
@[simp] theorem State.setByte_ethTx (s : State) (pa : Nat) (b : Byte) : (s.setByte pa b).ethTx = s.ethTx := rfl
@[simp] theorem State.setByte_mtxSent (s : State) (pa : Nat) (b : Byte) : (s.setByte pa b).mtxSent = s.mtxSent := rfl
@[simp] theorem State.setByte_mgmtBad (s : State) (pa : Nat) (b : Byte) : (s.setByte pa b).mgmtBad = s.mgmtBad := rfl
@[simp] theorem State.setByte_mrxNext (s : State) (pa : Nat) (b : Byte) : (s.setByte pa b).mrxNext = s.mrxNext := rfl
@[simp] theorem State.setByte_mtxNext (s : State) (pa : Nat) (b : Byte) : (s.setByte pa b).mtxNext = s.mtxNext := rfl
@[simp] theorem State.setByte_pfcUntil (s : State) (pa : Nat) (b : Byte) : (s.setByte pa b).pfcUntil = s.pfcUntil := rfl
@[simp] theorem State.setByte_samples (s : State) (pa : Nat) (b : Byte) : (s.setByte pa b).samples = s.samples := rfl
@[simp] theorem State.setByte_reservs (s : State) (pa : Nat) (b : Byte) : (s.setByte pa b).reservs = s.reservs := rfl
@[simp] theorem State.setByte_nextReserv (s : State) (pa : Nat) (b : Byte) : (s.setByte pa b).nextReserv = s.nextReserv := rfl
@[simp] theorem State.setByte_pends (s : State) (pa : Nat) (b : Byte) : (s.setByte pa b).pends = s.pends := rfl
@[simp] theorem State.setByte_thrEvents (s : State) (pa : Nat) (b : Byte) : (s.setByte pa b).thrEvents = s.thrEvents := rfl
@[simp] theorem State.setByte_thrLog (s : State) (pa : Nat) (b : Byte) : (s.setByte pa b).thrLog = s.thrLog := rfl
@[simp] theorem State.setByte_thrOver (s : State) (pa : Nat) (b : Byte) : (s.setByte pa b).thrOver = s.thrOver := rfl
@[simp] theorem State.setByte_sluPtr (s : State) (pa : Nat) (b : Byte) : (s.setByte pa b).sluPtr = s.sluPtr := rfl
@[simp] theorem State.setByte_hclkAt (s : State) (pa : Nat) (b : Byte) : (s.setByte pa b).hclkAt = s.hclkAt := rfl
@[simp] theorem State.setByte_caps (s : State) (pa : Nat) (b : Byte) : (s.setByte pa b).caps = s.caps := rfl
@[simp] theorem State.setByte_ramps (s : State) (pa : Nat) (b : Byte) : (s.setByte pa b).ramps = s.ramps := rfl
@[simp] theorem State.setByte_vinOkAt (s : State) (pa : Nat) (b : Byte) : (s.setByte pa b).vinOkAt = s.vinOkAt := rfl
@[simp] theorem State.setByte_thermtrip (s : State) (pa : Nat) (b : Byte) : (s.setByte pa b).thermtrip = s.thermtrip := rfl
@[simp] theorem State.setByte_save (s : State) (pa : Nat) (b : Byte) : (s.setByte pa b).save = s.save := rfl
@[simp] theorem State.setByte_ctxReqs (s : State) (pa : Nat) (b : Byte) : (s.setByte pa b).ctxReqs = s.ctxReqs := rfl
@[simp] theorem State.setByte_rstSeq (s : State) (pa : Nat) (b : Byte) : (s.setByte pa b).rstSeq = s.rstSeq := rfl
@[simp] theorem State.setByte_dieWaits (s : State) (pa : Nat) (b : Byte) : (s.setByte pa b).dieWaits = s.dieWaits := rfl
@[simp] theorem State.setByte_offers (s : State) (pa : Nat) (b : Byte) : (s.setByte pa b).offers = s.offers := rfl
@[simp] theorem State.setByte_drops (s : State) (pa : Nat) (b : Byte) : (s.setByte pa b).drops = s.drops := rfl
@[simp] theorem State.setByte_budget (s : State) (pa : Nat) (b : Byte) : (s.setByte pa b).budget = s.budget := rfl
@[simp] theorem State.setByte_overWin (s : State) (pa : Nat) (b : Byte) : (s.setByte pa b).overWin = s.overWin := rfl
@[simp] theorem State.setByte_ringAgent (s : State) (pa : Nat) (b : Byte) : (s.setByte pa b).ringAgent = s.ringAgent := rfl
@[simp] theorem State.setByte_ringBad (s : State) (pa : Nat) (b : Byte) : (s.setByte pa b).ringBad = s.ringBad := rfl
@[simp] theorem State.setByte_siteHeld (s : State) (pa : Nat) (b : Byte) : (s.setByte pa b).siteHeld = s.siteHeld := rfl
@[simp] theorem State.setByte_siteThrottle (s : State) (pa : Nat) (b : Byte) : (s.setByte pa b).siteThrottle = s.siteThrottle := rfl
@[simp] theorem State.setByte_d2dPoison (s : State) (pa : Nat) (b : Byte) : (s.setByte pa b).d2dPoison = s.d2dPoison := rfl
@[simp] theorem State.setByte_d2dWait (s : State) (pa : Nat) (b : Byte) : (s.setByte pa b).d2dWait = s.d2dWait := rfl
@[simp] theorem State.setByte_mclkHeld (s : State) (pa : Nat) (b : Byte) : (s.setByte pa b).mclkHeld = s.mclkHeld := rfl
@[simp] theorem State.setByte_booted (s : State) (pa : Nat) (b : Byte) : (s.setByte pa b).booted = s.booted := rfl
@[simp] theorem State.setByte_bringup (s : State) (pa : Nat) (b : Byte) : (s.setByte pa b).bringup = s.bringup := rfl
@[simp] theorem State.setByte_sram (s : State) (pa : Nat) (b : Byte) : (s.setByte pa b).sram = s.sram := rfl
@[simp] theorem State.setByte_romHalted (s : State) (pa : Nat) (b : Byte) : (s.setByte pa b).romHalted = s.romHalted := rfl
@[simp] theorem State.setByte_testMode (s : State) (pa : Nat) (b : Byte) : (s.setByte pa b).testMode = s.testMode := rfl
@[simp] theorem State.setByte_inReset (s : State) (pa : Nat) (b : Byte) : (s.setByte pa b).inReset = s.inReset := rfl
@[simp] theorem State.setByte_holdVin (s : State) (pa : Nat) (b : Byte) : (s.setByte pa b).holdVin = s.holdVin := rfl
@[simp] theorem State.setByte_i3cIndex (s : State) (pa : Nat) (b : Byte) : (s.setByte pa b).i3cIndex = s.i3cIndex := rfl
@[simp] theorem State.setByte_i3cAddr (s : State) (pa : Nat) (b : Byte) : (s.setByte pa b).i3cAddr = s.i3cAddr := rfl
@[simp] theorem State.setByte_access (s : State) (pa : Nat) (b : Byte) : (s.setByte pa b).access = s.access := rfl
@[simp] theorem State.setByte_freeIdx (s : State) (pa : Nat) (b : Byte) : (s.setByte pa b).freeIdx = s.freeIdx := rfl

/-! ### setPoison -/

@[simp] theorem State.setPoison_pending (s : State) (line : Nat) (b : Bool) : (s.setPoison line b).pending = s.pending := rfl
@[simp] theorem State.setPoison_now (s : State) (line : Nat) (b : Bool) : (s.setPoison line b).now = s.now := rfl
@[simp] theorem State.setPoison_tbAdj (s : State) (line : Nat) (b : Bool) : (s.setPoison line b).tbAdj = s.tbAdj := rfl
@[simp] theorem State.setPoison_slew (s : State) (line : Nat) (b : Bool) : (s.setPoison line b).slew = s.slew := rfl
@[simp] theorem State.setPoison_slewAt (s : State) (line : Nat) (b : Bool) : (s.setPoison line b).slewAt = s.slewAt := rfl
@[simp] theorem State.setPoison_tbRate (s : State) (line : Nat) (b : Bool) : (s.setPoison line b).tbRate = s.tbRate := rfl
@[simp] theorem State.setPoison_rateAt (s : State) (line : Nat) (b : Bool) : (s.setPoison line b).rateAt = s.rateAt := rfl
@[simp] theorem State.setPoison_tbSteps (s : State) (line : Nat) (b : Bool) : (s.setPoison line b).tbSteps = s.tbSteps := rfl
@[simp] theorem State.setPoison_tbFrom (s : State) (line : Nat) (b : Bool) : (s.setPoison line b).tbFrom = s.tbFrom := rfl
@[simp] theorem State.setPoison_tbXchg (s : State) (line : Nat) (b : Bool) : (s.setPoison line b).tbXchg = s.tbXchg := rfl
@[simp] theorem State.setPoison_tbRef (s : State) (line : Nat) (b : Bool) : (s.setPoison line b).tbRef = s.tbRef := rfl
@[simp] theorem State.setPoison_tbGood (s : State) (line : Nat) (b : Bool) : (s.setPoison line b).tbGood = s.tbGood := rfl
@[simp] theorem State.setPoison_tbLast (s : State) (line : Nat) (b : Bool) : (s.setPoison line b).tbLast = s.tbLast := rfl
@[simp] theorem State.setPoison_tbStepped (s : State) (line : Nat) (b : Bool) : (s.setPoison line b).tbStepped = s.tbStepped := rfl
@[simp] theorem State.setPoison_regs (s : State) (line : Nat) (b : Bool) : (s.setPoison line b).regs = s.regs := rfl
@[simp] theorem State.setPoison_reply (s : State) (line : Nat) (b : Bool) : (s.setPoison line b).reply = s.reply := rfl
@[simp] theorem State.setPoison_fuses (s : State) (line : Nat) (b : Bool) : (s.setPoison line b).fuses = s.fuses := rfl
@[simp] theorem State.setPoison_dike (s : State) (line : Nat) (b : Bool) : (s.setPoison line b).dike = s.dike := rfl
@[simp] theorem State.setPoison_txn (s : State) (line : Nat) (b : Bool) : (s.setPoison line b).txn = s.txn := rfl
@[simp] theorem State.setPoison_mem (s : State) (line : Nat) (b : Bool) : (s.setPoison line b).mem = s.mem := rfl
@[simp] theorem State.setPoison_flash (s : State) (line : Nat) (b : Bool) : (s.setPoison line b).flash = s.flash := rfl
@[simp] theorem State.setPoison_hosts (s : State) (line : Nat) (b : Bool) : (s.setPoison line b).hosts = s.hosts := rfl
@[simp] theorem State.setPoison_dir (s : State) (line : Nat) (b : Bool) : (s.setPoison line b).dir = s.dir := rfl
@[simp] theorem State.setPoison_grants (s : State) (line : Nat) (b : Bool) : (s.setPoison line b).grants = s.grants := rfl
@[simp] theorem State.setPoison_invq (s : State) (line : Nat) (b : Bool) : (s.setPoison line b).invq = s.invq := rfl
@[simp] theorem State.setPoison_cores (s : State) (line : Nat) (b : Bool) : (s.setPoison line b).cores = s.cores := rfl
@[simp] theorem State.setPoison_queues (s : State) (line : Nat) (b : Bool) : (s.setPoison line b).queues = s.queues := rfl
@[simp] theorem State.setPoison_inflight (s : State) (line : Nat) (b : Bool) : (s.setPoison line b).inflight = s.inflight := rfl
@[simp] theorem State.setPoison_wcLeaf (s : State) (line : Nat) (b : Bool) : (s.setPoison line b).wcLeaf = s.wcLeaf := rfl
@[simp] theorem State.setPoison_wcPtr (s : State) (line : Nat) (b : Bool) : (s.setPoison line b).wcPtr = s.wcPtr := rfl
@[simp] theorem State.setPoison_faults (s : State) (line : Nat) (b : Bool) : (s.setPoison line b).faults = s.faults := rfl
@[simp] theorem State.setPoison_faultSeq (s : State) (line : Nat) (b : Bool) : (s.setPoison line b).faultSeq = s.faultSeq := rfl
@[simp] theorem State.setPoison_unslotted (s : State) (line : Nat) (b : Bool) : (s.setPoison line b).unslotted = s.unslotted := rfl
@[simp] theorem State.setPoison_invals (s : State) (line : Nat) (b : Bool) : (s.setPoison line b).invals = s.invals := rfl
@[simp] theorem State.setPoison_nextInval (s : State) (line : Nat) (b : Bool) : (s.setPoison line b).nextInval = s.nextInval := rfl
@[simp] theorem State.setPoison_waiters (s : State) (line : Nat) (b : Bool) : (s.setPoison line b).waiters = s.waiters := rfl
@[simp] theorem State.setPoison_advances (s : State) (line : Nat) (b : Bool) : (s.setPoison line b).advances = s.advances := rfl
@[simp] theorem State.setPoison_events (s : State) (line : Nat) (b : Bool) : (s.setPoison line b).events = s.events := rfl
@[simp] theorem State.setPoison_eventLost (s : State) (line : Nat) (b : Bool) : (s.setPoison line b).eventLost = s.eventLost := rfl
@[simp] theorem State.setPoison_eventIrq (s : State) (line : Nat) (b : Bool) : (s.setPoison line b).eventIrq = s.eventIrq := rfl
@[simp] theorem State.setPoison_mboxes (s : State) (line : Nat) (b : Bool) : (s.setPoison line b).mboxes = s.mboxes := rfl
@[simp] theorem State.setPoison_chans (s : State) (line : Nat) (b : Bool) : (s.setPoison line b).chans = s.chans := rfl
@[simp] theorem State.setPoison_repairs (s : State) (line : Nat) (b : Bool) : (s.setPoison line b).repairs = s.repairs := rfl
@[simp] theorem State.setPoison_lineStore (s : State) (line : Nat) (b : Bool) : (s.setPoison line b).lineStore = s.lineStore := rfl
@[simp] theorem State.setPoison_cxlMap (s : State) (line : Nat) (b : Bool) : (s.setPoison line b).cxlMap = s.cxlMap := rfl
@[simp] theorem State.setPoison_cxlRecover (s : State) (line : Nat) (b : Bool) : (s.setPoison line b).cxlRecover = s.cxlRecover := rfl
@[simp] theorem State.setPoison_heldReqs (s : State) (line : Nat) (b : Bool) : (s.setPoison line b).heldReqs = s.heldReqs := rfl
@[simp] theorem State.setPoison_cellJobs (s : State) (line : Nat) (b : Bool) : (s.setPoison line b).cellJobs = s.cellJobs := rfl
@[simp] theorem State.setPoison_migs (s : State) (line : Nat) (b : Bool) : (s.setPoison line b).migs = s.migs := rfl
@[simp] theorem State.setPoison_rillBad (s : State) (line : Nat) (b : Bool) : (s.setPoison line b).rillBad = s.rillBad := rfl
@[simp] theorem State.setPoison_rillIssued (s : State) (line : Nat) (b : Bool) : (s.setPoison line b).rillIssued = s.rillIssued := rfl
@[simp] theorem State.setPoison_members (s : State) (line : Nat) (b : Bool) : (s.setPoison line b).members = s.members := rfl
@[simp] theorem State.setPoison_buckets (s : State) (line : Nat) (b : Bool) : (s.setPoison line b).buckets = s.buckets := rfl
@[simp] theorem State.setPoison_endedBuckets (s : State) (line : Nat) (b : Bool) : (s.setPoison line b).endedBuckets = s.endedBuckets := rfl
@[simp] theorem State.setPoison_resends (s : State) (line : Nat) (b : Bool) : (s.setPoison line b).resends = s.resends := rfl
@[simp] theorem State.setPoison_links (s : State) (line : Nat) (b : Bool) : (s.setPoison line b).links = s.links := rfl
@[simp] theorem State.setPoison_lanes (s : State) (line : Nat) (b : Bool) : (s.setPoison line b).lanes = s.lanes := rfl
@[simp] theorem State.setPoison_rx (s : State) (line : Nat) (b : Bool) : (s.setPoison line b).rx = s.rx := rfl
@[simp] theorem State.setPoison_peerReqs (s : State) (line : Nat) (b : Bool) : (s.setPoison line b).peerReqs = s.peerReqs := rfl
@[simp] theorem State.setPoison_nextTag (s : State) (line : Nat) (b : Bool) : (s.setPoison line b).nextTag = s.nextTag := rfl
@[simp] theorem State.setPoison_rejoin (s : State) (line : Nat) (b : Bool) : (s.setPoison line b).rejoin = s.rejoin := rfl
@[simp] theorem State.setPoison_estreams (s : State) (line : Nat) (b : Bool) : (s.setPoison line b).estreams = s.estreams := rfl
@[simp] theorem State.setPoison_ethTx (s : State) (line : Nat) (b : Bool) : (s.setPoison line b).ethTx = s.ethTx := rfl
@[simp] theorem State.setPoison_mtxSent (s : State) (line : Nat) (b : Bool) : (s.setPoison line b).mtxSent = s.mtxSent := rfl
@[simp] theorem State.setPoison_mgmtBad (s : State) (line : Nat) (b : Bool) : (s.setPoison line b).mgmtBad = s.mgmtBad := rfl
@[simp] theorem State.setPoison_mrxNext (s : State) (line : Nat) (b : Bool) : (s.setPoison line b).mrxNext = s.mrxNext := rfl
@[simp] theorem State.setPoison_mtxNext (s : State) (line : Nat) (b : Bool) : (s.setPoison line b).mtxNext = s.mtxNext := rfl
@[simp] theorem State.setPoison_pfcUntil (s : State) (line : Nat) (b : Bool) : (s.setPoison line b).pfcUntil = s.pfcUntil := rfl
@[simp] theorem State.setPoison_samples (s : State) (line : Nat) (b : Bool) : (s.setPoison line b).samples = s.samples := rfl
@[simp] theorem State.setPoison_reservs (s : State) (line : Nat) (b : Bool) : (s.setPoison line b).reservs = s.reservs := rfl
@[simp] theorem State.setPoison_nextReserv (s : State) (line : Nat) (b : Bool) : (s.setPoison line b).nextReserv = s.nextReserv := rfl
@[simp] theorem State.setPoison_pends (s : State) (line : Nat) (b : Bool) : (s.setPoison line b).pends = s.pends := rfl
@[simp] theorem State.setPoison_thrEvents (s : State) (line : Nat) (b : Bool) : (s.setPoison line b).thrEvents = s.thrEvents := rfl
@[simp] theorem State.setPoison_thrLog (s : State) (line : Nat) (b : Bool) : (s.setPoison line b).thrLog = s.thrLog := rfl
@[simp] theorem State.setPoison_thrOver (s : State) (line : Nat) (b : Bool) : (s.setPoison line b).thrOver = s.thrOver := rfl
@[simp] theorem State.setPoison_sluPtr (s : State) (line : Nat) (b : Bool) : (s.setPoison line b).sluPtr = s.sluPtr := rfl
@[simp] theorem State.setPoison_hclkAt (s : State) (line : Nat) (b : Bool) : (s.setPoison line b).hclkAt = s.hclkAt := rfl
@[simp] theorem State.setPoison_caps (s : State) (line : Nat) (b : Bool) : (s.setPoison line b).caps = s.caps := rfl
@[simp] theorem State.setPoison_ramps (s : State) (line : Nat) (b : Bool) : (s.setPoison line b).ramps = s.ramps := rfl
@[simp] theorem State.setPoison_vinOkAt (s : State) (line : Nat) (b : Bool) : (s.setPoison line b).vinOkAt = s.vinOkAt := rfl
@[simp] theorem State.setPoison_thermtrip (s : State) (line : Nat) (b : Bool) : (s.setPoison line b).thermtrip = s.thermtrip := rfl
@[simp] theorem State.setPoison_save (s : State) (line : Nat) (b : Bool) : (s.setPoison line b).save = s.save := rfl
@[simp] theorem State.setPoison_ctxReqs (s : State) (line : Nat) (b : Bool) : (s.setPoison line b).ctxReqs = s.ctxReqs := rfl
@[simp] theorem State.setPoison_rstSeq (s : State) (line : Nat) (b : Bool) : (s.setPoison line b).rstSeq = s.rstSeq := rfl
@[simp] theorem State.setPoison_dieWaits (s : State) (line : Nat) (b : Bool) : (s.setPoison line b).dieWaits = s.dieWaits := rfl
@[simp] theorem State.setPoison_offers (s : State) (line : Nat) (b : Bool) : (s.setPoison line b).offers = s.offers := rfl
@[simp] theorem State.setPoison_drops (s : State) (line : Nat) (b : Bool) : (s.setPoison line b).drops = s.drops := rfl
@[simp] theorem State.setPoison_budget (s : State) (line : Nat) (b : Bool) : (s.setPoison line b).budget = s.budget := rfl
@[simp] theorem State.setPoison_overWin (s : State) (line : Nat) (b : Bool) : (s.setPoison line b).overWin = s.overWin := rfl
@[simp] theorem State.setPoison_ringAgent (s : State) (line : Nat) (b : Bool) : (s.setPoison line b).ringAgent = s.ringAgent := rfl
@[simp] theorem State.setPoison_ringBad (s : State) (line : Nat) (b : Bool) : (s.setPoison line b).ringBad = s.ringBad := rfl
@[simp] theorem State.setPoison_siteHeld (s : State) (line : Nat) (b : Bool) : (s.setPoison line b).siteHeld = s.siteHeld := rfl
@[simp] theorem State.setPoison_siteThrottle (s : State) (line : Nat) (b : Bool) : (s.setPoison line b).siteThrottle = s.siteThrottle := rfl
@[simp] theorem State.setPoison_d2dPoison (s : State) (line : Nat) (b : Bool) : (s.setPoison line b).d2dPoison = s.d2dPoison := rfl
@[simp] theorem State.setPoison_d2dWait (s : State) (line : Nat) (b : Bool) : (s.setPoison line b).d2dWait = s.d2dWait := rfl
@[simp] theorem State.setPoison_mclkHeld (s : State) (line : Nat) (b : Bool) : (s.setPoison line b).mclkHeld = s.mclkHeld := rfl
@[simp] theorem State.setPoison_booted (s : State) (line : Nat) (b : Bool) : (s.setPoison line b).booted = s.booted := rfl
@[simp] theorem State.setPoison_bringup (s : State) (line : Nat) (b : Bool) : (s.setPoison line b).bringup = s.bringup := rfl
@[simp] theorem State.setPoison_sram (s : State) (line : Nat) (b : Bool) : (s.setPoison line b).sram = s.sram := rfl
@[simp] theorem State.setPoison_romHalted (s : State) (line : Nat) (b : Bool) : (s.setPoison line b).romHalted = s.romHalted := rfl
@[simp] theorem State.setPoison_testMode (s : State) (line : Nat) (b : Bool) : (s.setPoison line b).testMode = s.testMode := rfl
@[simp] theorem State.setPoison_inReset (s : State) (line : Nat) (b : Bool) : (s.setPoison line b).inReset = s.inReset := rfl
@[simp] theorem State.setPoison_holdVin (s : State) (line : Nat) (b : Bool) : (s.setPoison line b).holdVin = s.holdVin := rfl
@[simp] theorem State.setPoison_i3cIndex (s : State) (line : Nat) (b : Bool) : (s.setPoison line b).i3cIndex = s.i3cIndex := rfl
@[simp] theorem State.setPoison_i3cAddr (s : State) (line : Nat) (b : Bool) : (s.setPoison line b).i3cAddr = s.i3cAddr := rfl
@[simp] theorem State.setPoison_access (s : State) (line : Nat) (b : Bool) : (s.setPoison line b).access = s.access := rfl
@[simp] theorem State.setPoison_freeIdx (s : State) (line : Nat) (b : Bool) : (s.setPoison line b).freeIdx = s.freeIdx := rfl

/-! ### setHost -/

@[simp] theorem State.setHost_pending (s : State) (c : Nat) (h : HostCore) : (s.setHost c h).pending = s.pending := rfl
@[simp] theorem State.setHost_now (s : State) (c : Nat) (h : HostCore) : (s.setHost c h).now = s.now := rfl
@[simp] theorem State.setHost_tbAdj (s : State) (c : Nat) (h : HostCore) : (s.setHost c h).tbAdj = s.tbAdj := rfl
@[simp] theorem State.setHost_slew (s : State) (c : Nat) (h : HostCore) : (s.setHost c h).slew = s.slew := rfl
@[simp] theorem State.setHost_slewAt (s : State) (c : Nat) (h : HostCore) : (s.setHost c h).slewAt = s.slewAt := rfl
@[simp] theorem State.setHost_tbRate (s : State) (c : Nat) (h : HostCore) : (s.setHost c h).tbRate = s.tbRate := rfl
@[simp] theorem State.setHost_rateAt (s : State) (c : Nat) (h : HostCore) : (s.setHost c h).rateAt = s.rateAt := rfl
@[simp] theorem State.setHost_tbSteps (s : State) (c : Nat) (h : HostCore) : (s.setHost c h).tbSteps = s.tbSteps := rfl
@[simp] theorem State.setHost_tbFrom (s : State) (c : Nat) (h : HostCore) : (s.setHost c h).tbFrom = s.tbFrom := rfl
@[simp] theorem State.setHost_tbXchg (s : State) (c : Nat) (h : HostCore) : (s.setHost c h).tbXchg = s.tbXchg := rfl
@[simp] theorem State.setHost_tbRef (s : State) (c : Nat) (h : HostCore) : (s.setHost c h).tbRef = s.tbRef := rfl
@[simp] theorem State.setHost_tbGood (s : State) (c : Nat) (h : HostCore) : (s.setHost c h).tbGood = s.tbGood := rfl
@[simp] theorem State.setHost_tbLast (s : State) (c : Nat) (h : HostCore) : (s.setHost c h).tbLast = s.tbLast := rfl
@[simp] theorem State.setHost_tbStepped (s : State) (c : Nat) (h : HostCore) : (s.setHost c h).tbStepped = s.tbStepped := rfl
@[simp] theorem State.setHost_regs (s : State) (c : Nat) (h : HostCore) : (s.setHost c h).regs = s.regs := rfl
@[simp] theorem State.setHost_reply (s : State) (c : Nat) (h : HostCore) : (s.setHost c h).reply = s.reply := rfl
@[simp] theorem State.setHost_fuses (s : State) (c : Nat) (h : HostCore) : (s.setHost c h).fuses = s.fuses := rfl
@[simp] theorem State.setHost_dike (s : State) (c : Nat) (h : HostCore) : (s.setHost c h).dike = s.dike := rfl
@[simp] theorem State.setHost_txn (s : State) (c : Nat) (h : HostCore) : (s.setHost c h).txn = s.txn := rfl
@[simp] theorem State.setHost_mem (s : State) (c : Nat) (h : HostCore) : (s.setHost c h).mem = s.mem := rfl
@[simp] theorem State.setHost_poison (s : State) (c : Nat) (h : HostCore) : (s.setHost c h).poison = s.poison := rfl
@[simp] theorem State.setHost_flash (s : State) (c : Nat) (h : HostCore) : (s.setHost c h).flash = s.flash := rfl
@[simp] theorem State.setHost_dir (s : State) (c : Nat) (h : HostCore) : (s.setHost c h).dir = s.dir := rfl
@[simp] theorem State.setHost_grants (s : State) (c : Nat) (h : HostCore) : (s.setHost c h).grants = s.grants := rfl
@[simp] theorem State.setHost_invq (s : State) (c : Nat) (h : HostCore) : (s.setHost c h).invq = s.invq := rfl
@[simp] theorem State.setHost_cores (s : State) (c : Nat) (h : HostCore) : (s.setHost c h).cores = s.cores := rfl
@[simp] theorem State.setHost_queues (s : State) (c : Nat) (h : HostCore) : (s.setHost c h).queues = s.queues := rfl
@[simp] theorem State.setHost_inflight (s : State) (c : Nat) (h : HostCore) : (s.setHost c h).inflight = s.inflight := rfl
@[simp] theorem State.setHost_wcLeaf (s : State) (c : Nat) (h : HostCore) : (s.setHost c h).wcLeaf = s.wcLeaf := rfl
@[simp] theorem State.setHost_wcPtr (s : State) (c : Nat) (h : HostCore) : (s.setHost c h).wcPtr = s.wcPtr := rfl
@[simp] theorem State.setHost_faults (s : State) (c : Nat) (h : HostCore) : (s.setHost c h).faults = s.faults := rfl
@[simp] theorem State.setHost_faultSeq (s : State) (c : Nat) (h : HostCore) : (s.setHost c h).faultSeq = s.faultSeq := rfl
@[simp] theorem State.setHost_unslotted (s : State) (c : Nat) (h : HostCore) : (s.setHost c h).unslotted = s.unslotted := rfl
@[simp] theorem State.setHost_invals (s : State) (c : Nat) (h : HostCore) : (s.setHost c h).invals = s.invals := rfl
@[simp] theorem State.setHost_nextInval (s : State) (c : Nat) (h : HostCore) : (s.setHost c h).nextInval = s.nextInval := rfl
@[simp] theorem State.setHost_waiters (s : State) (c : Nat) (h : HostCore) : (s.setHost c h).waiters = s.waiters := rfl
@[simp] theorem State.setHost_advances (s : State) (c : Nat) (h : HostCore) : (s.setHost c h).advances = s.advances := rfl
@[simp] theorem State.setHost_events (s : State) (c : Nat) (h : HostCore) : (s.setHost c h).events = s.events := rfl
@[simp] theorem State.setHost_eventLost (s : State) (c : Nat) (h : HostCore) : (s.setHost c h).eventLost = s.eventLost := rfl
@[simp] theorem State.setHost_eventIrq (s : State) (c : Nat) (h : HostCore) : (s.setHost c h).eventIrq = s.eventIrq := rfl
@[simp] theorem State.setHost_mboxes (s : State) (c : Nat) (h : HostCore) : (s.setHost c h).mboxes = s.mboxes := rfl
@[simp] theorem State.setHost_chans (s : State) (c : Nat) (h : HostCore) : (s.setHost c h).chans = s.chans := rfl
@[simp] theorem State.setHost_repairs (s : State) (c : Nat) (h : HostCore) : (s.setHost c h).repairs = s.repairs := rfl
@[simp] theorem State.setHost_lineStore (s : State) (c : Nat) (h : HostCore) : (s.setHost c h).lineStore = s.lineStore := rfl
@[simp] theorem State.setHost_cxlMap (s : State) (c : Nat) (h : HostCore) : (s.setHost c h).cxlMap = s.cxlMap := rfl
@[simp] theorem State.setHost_cxlRecover (s : State) (c : Nat) (h : HostCore) : (s.setHost c h).cxlRecover = s.cxlRecover := rfl
@[simp] theorem State.setHost_heldReqs (s : State) (c : Nat) (h : HostCore) : (s.setHost c h).heldReqs = s.heldReqs := rfl
@[simp] theorem State.setHost_cellJobs (s : State) (c : Nat) (h : HostCore) : (s.setHost c h).cellJobs = s.cellJobs := rfl
@[simp] theorem State.setHost_migs (s : State) (c : Nat) (h : HostCore) : (s.setHost c h).migs = s.migs := rfl
@[simp] theorem State.setHost_rillBad (s : State) (c : Nat) (h : HostCore) : (s.setHost c h).rillBad = s.rillBad := rfl
@[simp] theorem State.setHost_rillIssued (s : State) (c : Nat) (h : HostCore) : (s.setHost c h).rillIssued = s.rillIssued := rfl
@[simp] theorem State.setHost_members (s : State) (c : Nat) (h : HostCore) : (s.setHost c h).members = s.members := rfl
@[simp] theorem State.setHost_buckets (s : State) (c : Nat) (h : HostCore) : (s.setHost c h).buckets = s.buckets := rfl
@[simp] theorem State.setHost_endedBuckets (s : State) (c : Nat) (h : HostCore) : (s.setHost c h).endedBuckets = s.endedBuckets := rfl
@[simp] theorem State.setHost_resends (s : State) (c : Nat) (h : HostCore) : (s.setHost c h).resends = s.resends := rfl
@[simp] theorem State.setHost_links (s : State) (c : Nat) (h : HostCore) : (s.setHost c h).links = s.links := rfl
@[simp] theorem State.setHost_lanes (s : State) (c : Nat) (h : HostCore) : (s.setHost c h).lanes = s.lanes := rfl
@[simp] theorem State.setHost_rx (s : State) (c : Nat) (h : HostCore) : (s.setHost c h).rx = s.rx := rfl
@[simp] theorem State.setHost_peerReqs (s : State) (c : Nat) (h : HostCore) : (s.setHost c h).peerReqs = s.peerReqs := rfl
@[simp] theorem State.setHost_nextTag (s : State) (c : Nat) (h : HostCore) : (s.setHost c h).nextTag = s.nextTag := rfl
@[simp] theorem State.setHost_rejoin (s : State) (c : Nat) (h : HostCore) : (s.setHost c h).rejoin = s.rejoin := rfl
@[simp] theorem State.setHost_estreams (s : State) (c : Nat) (h : HostCore) : (s.setHost c h).estreams = s.estreams := rfl
@[simp] theorem State.setHost_ethTx (s : State) (c : Nat) (h : HostCore) : (s.setHost c h).ethTx = s.ethTx := rfl
@[simp] theorem State.setHost_mtxSent (s : State) (c : Nat) (h : HostCore) : (s.setHost c h).mtxSent = s.mtxSent := rfl
@[simp] theorem State.setHost_mgmtBad (s : State) (c : Nat) (h : HostCore) : (s.setHost c h).mgmtBad = s.mgmtBad := rfl
@[simp] theorem State.setHost_mrxNext (s : State) (c : Nat) (h : HostCore) : (s.setHost c h).mrxNext = s.mrxNext := rfl
@[simp] theorem State.setHost_mtxNext (s : State) (c : Nat) (h : HostCore) : (s.setHost c h).mtxNext = s.mtxNext := rfl
@[simp] theorem State.setHost_pfcUntil (s : State) (c : Nat) (h : HostCore) : (s.setHost c h).pfcUntil = s.pfcUntil := rfl
@[simp] theorem State.setHost_samples (s : State) (c : Nat) (h : HostCore) : (s.setHost c h).samples = s.samples := rfl
@[simp] theorem State.setHost_reservs (s : State) (c : Nat) (h : HostCore) : (s.setHost c h).reservs = s.reservs := rfl
@[simp] theorem State.setHost_nextReserv (s : State) (c : Nat) (h : HostCore) : (s.setHost c h).nextReserv = s.nextReserv := rfl
@[simp] theorem State.setHost_pends (s : State) (c : Nat) (h : HostCore) : (s.setHost c h).pends = s.pends := rfl
@[simp] theorem State.setHost_thrEvents (s : State) (c : Nat) (h : HostCore) : (s.setHost c h).thrEvents = s.thrEvents := rfl
@[simp] theorem State.setHost_thrLog (s : State) (c : Nat) (h : HostCore) : (s.setHost c h).thrLog = s.thrLog := rfl
@[simp] theorem State.setHost_thrOver (s : State) (c : Nat) (h : HostCore) : (s.setHost c h).thrOver = s.thrOver := rfl
@[simp] theorem State.setHost_sluPtr (s : State) (c : Nat) (h : HostCore) : (s.setHost c h).sluPtr = s.sluPtr := rfl
@[simp] theorem State.setHost_hclkAt (s : State) (c : Nat) (h : HostCore) : (s.setHost c h).hclkAt = s.hclkAt := rfl
@[simp] theorem State.setHost_caps (s : State) (c : Nat) (h : HostCore) : (s.setHost c h).caps = s.caps := rfl
@[simp] theorem State.setHost_ramps (s : State) (c : Nat) (h : HostCore) : (s.setHost c h).ramps = s.ramps := rfl
@[simp] theorem State.setHost_vinOkAt (s : State) (c : Nat) (h : HostCore) : (s.setHost c h).vinOkAt = s.vinOkAt := rfl
@[simp] theorem State.setHost_thermtrip (s : State) (c : Nat) (h : HostCore) : (s.setHost c h).thermtrip = s.thermtrip := rfl
@[simp] theorem State.setHost_save (s : State) (c : Nat) (h : HostCore) : (s.setHost c h).save = s.save := rfl
@[simp] theorem State.setHost_ctxReqs (s : State) (c : Nat) (h : HostCore) : (s.setHost c h).ctxReqs = s.ctxReqs := rfl
@[simp] theorem State.setHost_rstSeq (s : State) (c : Nat) (h : HostCore) : (s.setHost c h).rstSeq = s.rstSeq := rfl
@[simp] theorem State.setHost_dieWaits (s : State) (c : Nat) (h : HostCore) : (s.setHost c h).dieWaits = s.dieWaits := rfl
@[simp] theorem State.setHost_offers (s : State) (c : Nat) (h : HostCore) : (s.setHost c h).offers = s.offers := rfl
@[simp] theorem State.setHost_drops (s : State) (c : Nat) (h : HostCore) : (s.setHost c h).drops = s.drops := rfl
@[simp] theorem State.setHost_budget (s : State) (c : Nat) (h : HostCore) : (s.setHost c h).budget = s.budget := rfl
@[simp] theorem State.setHost_overWin (s : State) (c : Nat) (h : HostCore) : (s.setHost c h).overWin = s.overWin := rfl
@[simp] theorem State.setHost_ringAgent (s : State) (c : Nat) (h : HostCore) : (s.setHost c h).ringAgent = s.ringAgent := rfl
@[simp] theorem State.setHost_ringBad (s : State) (c : Nat) (h : HostCore) : (s.setHost c h).ringBad = s.ringBad := rfl
@[simp] theorem State.setHost_siteHeld (s : State) (c : Nat) (h : HostCore) : (s.setHost c h).siteHeld = s.siteHeld := rfl
@[simp] theorem State.setHost_siteThrottle (s : State) (c : Nat) (h : HostCore) : (s.setHost c h).siteThrottle = s.siteThrottle := rfl
@[simp] theorem State.setHost_d2dPoison (s : State) (c : Nat) (h : HostCore) : (s.setHost c h).d2dPoison = s.d2dPoison := rfl
@[simp] theorem State.setHost_d2dWait (s : State) (c : Nat) (h : HostCore) : (s.setHost c h).d2dWait = s.d2dWait := rfl
@[simp] theorem State.setHost_mclkHeld (s : State) (c : Nat) (h : HostCore) : (s.setHost c h).mclkHeld = s.mclkHeld := rfl
@[simp] theorem State.setHost_booted (s : State) (c : Nat) (h : HostCore) : (s.setHost c h).booted = s.booted := rfl
@[simp] theorem State.setHost_bringup (s : State) (c : Nat) (h : HostCore) : (s.setHost c h).bringup = s.bringup := rfl
@[simp] theorem State.setHost_sram (s : State) (c : Nat) (h : HostCore) : (s.setHost c h).sram = s.sram := rfl
@[simp] theorem State.setHost_romHalted (s : State) (c : Nat) (h : HostCore) : (s.setHost c h).romHalted = s.romHalted := rfl
@[simp] theorem State.setHost_testMode (s : State) (c : Nat) (h : HostCore) : (s.setHost c h).testMode = s.testMode := rfl
@[simp] theorem State.setHost_inReset (s : State) (c : Nat) (h : HostCore) : (s.setHost c h).inReset = s.inReset := rfl
@[simp] theorem State.setHost_holdVin (s : State) (c : Nat) (h : HostCore) : (s.setHost c h).holdVin = s.holdVin := rfl
@[simp] theorem State.setHost_i3cIndex (s : State) (c : Nat) (h : HostCore) : (s.setHost c h).i3cIndex = s.i3cIndex := rfl
@[simp] theorem State.setHost_i3cAddr (s : State) (c : Nat) (h : HostCore) : (s.setHost c h).i3cAddr = s.i3cAddr := rfl
@[simp] theorem State.setHost_access (s : State) (c : Nat) (h : HostCore) : (s.setHost c h).access = s.access := rfl
@[simp] theorem State.setHost_freeIdx (s : State) (c : Nat) (h : HostCore) : (s.setHost c h).freeIdx = s.freeIdx := rfl

/-! ### setCore -/

@[simp] theorem State.setCore_pending (s : State) (c : Nat) (k : Core) : (s.setCore c k).pending = s.pending := rfl
@[simp] theorem State.setCore_now (s : State) (c : Nat) (k : Core) : (s.setCore c k).now = s.now := rfl
@[simp] theorem State.setCore_tbAdj (s : State) (c : Nat) (k : Core) : (s.setCore c k).tbAdj = s.tbAdj := rfl
@[simp] theorem State.setCore_slew (s : State) (c : Nat) (k : Core) : (s.setCore c k).slew = s.slew := rfl
@[simp] theorem State.setCore_slewAt (s : State) (c : Nat) (k : Core) : (s.setCore c k).slewAt = s.slewAt := rfl
@[simp] theorem State.setCore_tbRate (s : State) (c : Nat) (k : Core) : (s.setCore c k).tbRate = s.tbRate := rfl
@[simp] theorem State.setCore_rateAt (s : State) (c : Nat) (k : Core) : (s.setCore c k).rateAt = s.rateAt := rfl
@[simp] theorem State.setCore_tbSteps (s : State) (c : Nat) (k : Core) : (s.setCore c k).tbSteps = s.tbSteps := rfl
@[simp] theorem State.setCore_tbFrom (s : State) (c : Nat) (k : Core) : (s.setCore c k).tbFrom = s.tbFrom := rfl
@[simp] theorem State.setCore_tbXchg (s : State) (c : Nat) (k : Core) : (s.setCore c k).tbXchg = s.tbXchg := rfl
@[simp] theorem State.setCore_tbRef (s : State) (c : Nat) (k : Core) : (s.setCore c k).tbRef = s.tbRef := rfl
@[simp] theorem State.setCore_tbGood (s : State) (c : Nat) (k : Core) : (s.setCore c k).tbGood = s.tbGood := rfl
@[simp] theorem State.setCore_tbLast (s : State) (c : Nat) (k : Core) : (s.setCore c k).tbLast = s.tbLast := rfl
@[simp] theorem State.setCore_tbStepped (s : State) (c : Nat) (k : Core) : (s.setCore c k).tbStepped = s.tbStepped := rfl
@[simp] theorem State.setCore_regs (s : State) (c : Nat) (k : Core) : (s.setCore c k).regs = s.regs := rfl
@[simp] theorem State.setCore_reply (s : State) (c : Nat) (k : Core) : (s.setCore c k).reply = s.reply := rfl
@[simp] theorem State.setCore_fuses (s : State) (c : Nat) (k : Core) : (s.setCore c k).fuses = s.fuses := rfl
@[simp] theorem State.setCore_dike (s : State) (c : Nat) (k : Core) : (s.setCore c k).dike = s.dike := rfl
@[simp] theorem State.setCore_txn (s : State) (c : Nat) (k : Core) : (s.setCore c k).txn = s.txn := rfl
@[simp] theorem State.setCore_mem (s : State) (c : Nat) (k : Core) : (s.setCore c k).mem = s.mem := rfl
@[simp] theorem State.setCore_poison (s : State) (c : Nat) (k : Core) : (s.setCore c k).poison = s.poison := rfl
@[simp] theorem State.setCore_flash (s : State) (c : Nat) (k : Core) : (s.setCore c k).flash = s.flash := rfl
@[simp] theorem State.setCore_hosts (s : State) (c : Nat) (k : Core) : (s.setCore c k).hosts = s.hosts := rfl
@[simp] theorem State.setCore_dir (s : State) (c : Nat) (k : Core) : (s.setCore c k).dir = s.dir := rfl
@[simp] theorem State.setCore_grants (s : State) (c : Nat) (k : Core) : (s.setCore c k).grants = s.grants := rfl
@[simp] theorem State.setCore_invq (s : State) (c : Nat) (k : Core) : (s.setCore c k).invq = s.invq := rfl
@[simp] theorem State.setCore_queues (s : State) (c : Nat) (k : Core) : (s.setCore c k).queues = s.queues := rfl
@[simp] theorem State.setCore_inflight (s : State) (c : Nat) (k : Core) : (s.setCore c k).inflight = s.inflight := rfl
@[simp] theorem State.setCore_wcLeaf (s : State) (c : Nat) (k : Core) : (s.setCore c k).wcLeaf = s.wcLeaf := rfl
@[simp] theorem State.setCore_wcPtr (s : State) (c : Nat) (k : Core) : (s.setCore c k).wcPtr = s.wcPtr := rfl
@[simp] theorem State.setCore_faults (s : State) (c : Nat) (k : Core) : (s.setCore c k).faults = s.faults := rfl
@[simp] theorem State.setCore_faultSeq (s : State) (c : Nat) (k : Core) : (s.setCore c k).faultSeq = s.faultSeq := rfl
@[simp] theorem State.setCore_unslotted (s : State) (c : Nat) (k : Core) : (s.setCore c k).unslotted = s.unslotted := rfl
@[simp] theorem State.setCore_invals (s : State) (c : Nat) (k : Core) : (s.setCore c k).invals = s.invals := rfl
@[simp] theorem State.setCore_nextInval (s : State) (c : Nat) (k : Core) : (s.setCore c k).nextInval = s.nextInval := rfl
@[simp] theorem State.setCore_waiters (s : State) (c : Nat) (k : Core) : (s.setCore c k).waiters = s.waiters := rfl
@[simp] theorem State.setCore_advances (s : State) (c : Nat) (k : Core) : (s.setCore c k).advances = s.advances := rfl
@[simp] theorem State.setCore_events (s : State) (c : Nat) (k : Core) : (s.setCore c k).events = s.events := rfl
@[simp] theorem State.setCore_eventLost (s : State) (c : Nat) (k : Core) : (s.setCore c k).eventLost = s.eventLost := rfl
@[simp] theorem State.setCore_eventIrq (s : State) (c : Nat) (k : Core) : (s.setCore c k).eventIrq = s.eventIrq := rfl
@[simp] theorem State.setCore_mboxes (s : State) (c : Nat) (k : Core) : (s.setCore c k).mboxes = s.mboxes := rfl
@[simp] theorem State.setCore_chans (s : State) (c : Nat) (k : Core) : (s.setCore c k).chans = s.chans := rfl
@[simp] theorem State.setCore_repairs (s : State) (c : Nat) (k : Core) : (s.setCore c k).repairs = s.repairs := rfl
@[simp] theorem State.setCore_lineStore (s : State) (c : Nat) (k : Core) : (s.setCore c k).lineStore = s.lineStore := rfl
@[simp] theorem State.setCore_cxlMap (s : State) (c : Nat) (k : Core) : (s.setCore c k).cxlMap = s.cxlMap := rfl
@[simp] theorem State.setCore_cxlRecover (s : State) (c : Nat) (k : Core) : (s.setCore c k).cxlRecover = s.cxlRecover := rfl
@[simp] theorem State.setCore_heldReqs (s : State) (c : Nat) (k : Core) : (s.setCore c k).heldReqs = s.heldReqs := rfl
@[simp] theorem State.setCore_cellJobs (s : State) (c : Nat) (k : Core) : (s.setCore c k).cellJobs = s.cellJobs := rfl
@[simp] theorem State.setCore_migs (s : State) (c : Nat) (k : Core) : (s.setCore c k).migs = s.migs := rfl
@[simp] theorem State.setCore_rillBad (s : State) (c : Nat) (k : Core) : (s.setCore c k).rillBad = s.rillBad := rfl
@[simp] theorem State.setCore_rillIssued (s : State) (c : Nat) (k : Core) : (s.setCore c k).rillIssued = s.rillIssued := rfl
@[simp] theorem State.setCore_members (s : State) (c : Nat) (k : Core) : (s.setCore c k).members = s.members := rfl
@[simp] theorem State.setCore_buckets (s : State) (c : Nat) (k : Core) : (s.setCore c k).buckets = s.buckets := rfl
@[simp] theorem State.setCore_endedBuckets (s : State) (c : Nat) (k : Core) : (s.setCore c k).endedBuckets = s.endedBuckets := rfl
@[simp] theorem State.setCore_resends (s : State) (c : Nat) (k : Core) : (s.setCore c k).resends = s.resends := rfl
@[simp] theorem State.setCore_links (s : State) (c : Nat) (k : Core) : (s.setCore c k).links = s.links := rfl
@[simp] theorem State.setCore_lanes (s : State) (c : Nat) (k : Core) : (s.setCore c k).lanes = s.lanes := rfl
@[simp] theorem State.setCore_rx (s : State) (c : Nat) (k : Core) : (s.setCore c k).rx = s.rx := rfl
@[simp] theorem State.setCore_peerReqs (s : State) (c : Nat) (k : Core) : (s.setCore c k).peerReqs = s.peerReqs := rfl
@[simp] theorem State.setCore_nextTag (s : State) (c : Nat) (k : Core) : (s.setCore c k).nextTag = s.nextTag := rfl
@[simp] theorem State.setCore_rejoin (s : State) (c : Nat) (k : Core) : (s.setCore c k).rejoin = s.rejoin := rfl
@[simp] theorem State.setCore_estreams (s : State) (c : Nat) (k : Core) : (s.setCore c k).estreams = s.estreams := rfl
@[simp] theorem State.setCore_ethTx (s : State) (c : Nat) (k : Core) : (s.setCore c k).ethTx = s.ethTx := rfl
@[simp] theorem State.setCore_mtxSent (s : State) (c : Nat) (k : Core) : (s.setCore c k).mtxSent = s.mtxSent := rfl
@[simp] theorem State.setCore_mgmtBad (s : State) (c : Nat) (k : Core) : (s.setCore c k).mgmtBad = s.mgmtBad := rfl
@[simp] theorem State.setCore_mrxNext (s : State) (c : Nat) (k : Core) : (s.setCore c k).mrxNext = s.mrxNext := rfl
@[simp] theorem State.setCore_mtxNext (s : State) (c : Nat) (k : Core) : (s.setCore c k).mtxNext = s.mtxNext := rfl
@[simp] theorem State.setCore_pfcUntil (s : State) (c : Nat) (k : Core) : (s.setCore c k).pfcUntil = s.pfcUntil := rfl
@[simp] theorem State.setCore_samples (s : State) (c : Nat) (k : Core) : (s.setCore c k).samples = s.samples := rfl
@[simp] theorem State.setCore_reservs (s : State) (c : Nat) (k : Core) : (s.setCore c k).reservs = s.reservs := rfl
@[simp] theorem State.setCore_nextReserv (s : State) (c : Nat) (k : Core) : (s.setCore c k).nextReserv = s.nextReserv := rfl
@[simp] theorem State.setCore_pends (s : State) (c : Nat) (k : Core) : (s.setCore c k).pends = s.pends := rfl
@[simp] theorem State.setCore_thrEvents (s : State) (c : Nat) (k : Core) : (s.setCore c k).thrEvents = s.thrEvents := rfl
@[simp] theorem State.setCore_thrLog (s : State) (c : Nat) (k : Core) : (s.setCore c k).thrLog = s.thrLog := rfl
@[simp] theorem State.setCore_thrOver (s : State) (c : Nat) (k : Core) : (s.setCore c k).thrOver = s.thrOver := rfl
@[simp] theorem State.setCore_sluPtr (s : State) (c : Nat) (k : Core) : (s.setCore c k).sluPtr = s.sluPtr := rfl
@[simp] theorem State.setCore_hclkAt (s : State) (c : Nat) (k : Core) : (s.setCore c k).hclkAt = s.hclkAt := rfl
@[simp] theorem State.setCore_caps (s : State) (c : Nat) (k : Core) : (s.setCore c k).caps = s.caps := rfl
@[simp] theorem State.setCore_ramps (s : State) (c : Nat) (k : Core) : (s.setCore c k).ramps = s.ramps := rfl
@[simp] theorem State.setCore_vinOkAt (s : State) (c : Nat) (k : Core) : (s.setCore c k).vinOkAt = s.vinOkAt := rfl
@[simp] theorem State.setCore_thermtrip (s : State) (c : Nat) (k : Core) : (s.setCore c k).thermtrip = s.thermtrip := rfl
@[simp] theorem State.setCore_save (s : State) (c : Nat) (k : Core) : (s.setCore c k).save = s.save := rfl
@[simp] theorem State.setCore_ctxReqs (s : State) (c : Nat) (k : Core) : (s.setCore c k).ctxReqs = s.ctxReqs := rfl
@[simp] theorem State.setCore_rstSeq (s : State) (c : Nat) (k : Core) : (s.setCore c k).rstSeq = s.rstSeq := rfl
@[simp] theorem State.setCore_dieWaits (s : State) (c : Nat) (k : Core) : (s.setCore c k).dieWaits = s.dieWaits := rfl
@[simp] theorem State.setCore_offers (s : State) (c : Nat) (k : Core) : (s.setCore c k).offers = s.offers := rfl
@[simp] theorem State.setCore_drops (s : State) (c : Nat) (k : Core) : (s.setCore c k).drops = s.drops := rfl
@[simp] theorem State.setCore_budget (s : State) (c : Nat) (k : Core) : (s.setCore c k).budget = s.budget := rfl
@[simp] theorem State.setCore_overWin (s : State) (c : Nat) (k : Core) : (s.setCore c k).overWin = s.overWin := rfl
@[simp] theorem State.setCore_ringAgent (s : State) (c : Nat) (k : Core) : (s.setCore c k).ringAgent = s.ringAgent := rfl
@[simp] theorem State.setCore_ringBad (s : State) (c : Nat) (k : Core) : (s.setCore c k).ringBad = s.ringBad := rfl
@[simp] theorem State.setCore_siteHeld (s : State) (c : Nat) (k : Core) : (s.setCore c k).siteHeld = s.siteHeld := rfl
@[simp] theorem State.setCore_siteThrottle (s : State) (c : Nat) (k : Core) : (s.setCore c k).siteThrottle = s.siteThrottle := rfl
@[simp] theorem State.setCore_d2dPoison (s : State) (c : Nat) (k : Core) : (s.setCore c k).d2dPoison = s.d2dPoison := rfl
@[simp] theorem State.setCore_d2dWait (s : State) (c : Nat) (k : Core) : (s.setCore c k).d2dWait = s.d2dWait := rfl
@[simp] theorem State.setCore_mclkHeld (s : State) (c : Nat) (k : Core) : (s.setCore c k).mclkHeld = s.mclkHeld := rfl
@[simp] theorem State.setCore_booted (s : State) (c : Nat) (k : Core) : (s.setCore c k).booted = s.booted := rfl
@[simp] theorem State.setCore_bringup (s : State) (c : Nat) (k : Core) : (s.setCore c k).bringup = s.bringup := rfl
@[simp] theorem State.setCore_sram (s : State) (c : Nat) (k : Core) : (s.setCore c k).sram = s.sram := rfl
@[simp] theorem State.setCore_romHalted (s : State) (c : Nat) (k : Core) : (s.setCore c k).romHalted = s.romHalted := rfl
@[simp] theorem State.setCore_testMode (s : State) (c : Nat) (k : Core) : (s.setCore c k).testMode = s.testMode := rfl
@[simp] theorem State.setCore_inReset (s : State) (c : Nat) (k : Core) : (s.setCore c k).inReset = s.inReset := rfl
@[simp] theorem State.setCore_holdVin (s : State) (c : Nat) (k : Core) : (s.setCore c k).holdVin = s.holdVin := rfl
@[simp] theorem State.setCore_i3cIndex (s : State) (c : Nat) (k : Core) : (s.setCore c k).i3cIndex = s.i3cIndex := rfl
@[simp] theorem State.setCore_i3cAddr (s : State) (c : Nat) (k : Core) : (s.setCore c k).i3cAddr = s.i3cAddr := rfl
@[simp] theorem State.setCore_access (s : State) (c : Nat) (k : Core) : (s.setCore c k).access = s.access := rfl
@[simp] theorem State.setCore_freeIdx (s : State) (c : Nat) (k : Core) : (s.setCore c k).freeIdx = s.freeIdx := rfl

/-! ### setQueue -/

@[simp] theorem State.setQueue_pending (s : State) (q : Nat) (x : QState) : (s.setQueue q x).pending = s.pending := rfl
@[simp] theorem State.setQueue_now (s : State) (q : Nat) (x : QState) : (s.setQueue q x).now = s.now := rfl
@[simp] theorem State.setQueue_tbAdj (s : State) (q : Nat) (x : QState) : (s.setQueue q x).tbAdj = s.tbAdj := rfl
@[simp] theorem State.setQueue_slew (s : State) (q : Nat) (x : QState) : (s.setQueue q x).slew = s.slew := rfl
@[simp] theorem State.setQueue_slewAt (s : State) (q : Nat) (x : QState) : (s.setQueue q x).slewAt = s.slewAt := rfl
@[simp] theorem State.setQueue_tbRate (s : State) (q : Nat) (x : QState) : (s.setQueue q x).tbRate = s.tbRate := rfl
@[simp] theorem State.setQueue_rateAt (s : State) (q : Nat) (x : QState) : (s.setQueue q x).rateAt = s.rateAt := rfl
@[simp] theorem State.setQueue_tbSteps (s : State) (q : Nat) (x : QState) : (s.setQueue q x).tbSteps = s.tbSteps := rfl
@[simp] theorem State.setQueue_tbFrom (s : State) (q : Nat) (x : QState) : (s.setQueue q x).tbFrom = s.tbFrom := rfl
@[simp] theorem State.setQueue_tbXchg (s : State) (q : Nat) (x : QState) : (s.setQueue q x).tbXchg = s.tbXchg := rfl
@[simp] theorem State.setQueue_tbRef (s : State) (q : Nat) (x : QState) : (s.setQueue q x).tbRef = s.tbRef := rfl
@[simp] theorem State.setQueue_tbGood (s : State) (q : Nat) (x : QState) : (s.setQueue q x).tbGood = s.tbGood := rfl
@[simp] theorem State.setQueue_tbLast (s : State) (q : Nat) (x : QState) : (s.setQueue q x).tbLast = s.tbLast := rfl
@[simp] theorem State.setQueue_tbStepped (s : State) (q : Nat) (x : QState) : (s.setQueue q x).tbStepped = s.tbStepped := rfl
@[simp] theorem State.setQueue_regs (s : State) (q : Nat) (x : QState) : (s.setQueue q x).regs = s.regs := rfl
@[simp] theorem State.setQueue_reply (s : State) (q : Nat) (x : QState) : (s.setQueue q x).reply = s.reply := rfl
@[simp] theorem State.setQueue_fuses (s : State) (q : Nat) (x : QState) : (s.setQueue q x).fuses = s.fuses := rfl
@[simp] theorem State.setQueue_dike (s : State) (q : Nat) (x : QState) : (s.setQueue q x).dike = s.dike := rfl
@[simp] theorem State.setQueue_txn (s : State) (q : Nat) (x : QState) : (s.setQueue q x).txn = s.txn := rfl
@[simp] theorem State.setQueue_mem (s : State) (q : Nat) (x : QState) : (s.setQueue q x).mem = s.mem := rfl
@[simp] theorem State.setQueue_poison (s : State) (q : Nat) (x : QState) : (s.setQueue q x).poison = s.poison := rfl
@[simp] theorem State.setQueue_flash (s : State) (q : Nat) (x : QState) : (s.setQueue q x).flash = s.flash := rfl
@[simp] theorem State.setQueue_hosts (s : State) (q : Nat) (x : QState) : (s.setQueue q x).hosts = s.hosts := rfl
@[simp] theorem State.setQueue_dir (s : State) (q : Nat) (x : QState) : (s.setQueue q x).dir = s.dir := rfl
@[simp] theorem State.setQueue_grants (s : State) (q : Nat) (x : QState) : (s.setQueue q x).grants = s.grants := rfl
@[simp] theorem State.setQueue_invq (s : State) (q : Nat) (x : QState) : (s.setQueue q x).invq = s.invq := rfl
@[simp] theorem State.setQueue_cores (s : State) (q : Nat) (x : QState) : (s.setQueue q x).cores = s.cores := rfl
@[simp] theorem State.setQueue_inflight (s : State) (q : Nat) (x : QState) : (s.setQueue q x).inflight = s.inflight := rfl
@[simp] theorem State.setQueue_wcLeaf (s : State) (q : Nat) (x : QState) : (s.setQueue q x).wcLeaf = s.wcLeaf := rfl
@[simp] theorem State.setQueue_wcPtr (s : State) (q : Nat) (x : QState) : (s.setQueue q x).wcPtr = s.wcPtr := rfl
@[simp] theorem State.setQueue_faults (s : State) (q : Nat) (x : QState) : (s.setQueue q x).faults = s.faults := rfl
@[simp] theorem State.setQueue_faultSeq (s : State) (q : Nat) (x : QState) : (s.setQueue q x).faultSeq = s.faultSeq := rfl
@[simp] theorem State.setQueue_unslotted (s : State) (q : Nat) (x : QState) : (s.setQueue q x).unslotted = s.unslotted := rfl
@[simp] theorem State.setQueue_invals (s : State) (q : Nat) (x : QState) : (s.setQueue q x).invals = s.invals := rfl
@[simp] theorem State.setQueue_nextInval (s : State) (q : Nat) (x : QState) : (s.setQueue q x).nextInval = s.nextInval := rfl
@[simp] theorem State.setQueue_waiters (s : State) (q : Nat) (x : QState) : (s.setQueue q x).waiters = s.waiters := rfl
@[simp] theorem State.setQueue_advances (s : State) (q : Nat) (x : QState) : (s.setQueue q x).advances = s.advances := rfl
@[simp] theorem State.setQueue_events (s : State) (q : Nat) (x : QState) : (s.setQueue q x).events = s.events := rfl
@[simp] theorem State.setQueue_eventLost (s : State) (q : Nat) (x : QState) : (s.setQueue q x).eventLost = s.eventLost := rfl
@[simp] theorem State.setQueue_eventIrq (s : State) (q : Nat) (x : QState) : (s.setQueue q x).eventIrq = s.eventIrq := rfl
@[simp] theorem State.setQueue_mboxes (s : State) (q : Nat) (x : QState) : (s.setQueue q x).mboxes = s.mboxes := rfl
@[simp] theorem State.setQueue_chans (s : State) (q : Nat) (x : QState) : (s.setQueue q x).chans = s.chans := rfl
@[simp] theorem State.setQueue_repairs (s : State) (q : Nat) (x : QState) : (s.setQueue q x).repairs = s.repairs := rfl
@[simp] theorem State.setQueue_lineStore (s : State) (q : Nat) (x : QState) : (s.setQueue q x).lineStore = s.lineStore := rfl
@[simp] theorem State.setQueue_cxlMap (s : State) (q : Nat) (x : QState) : (s.setQueue q x).cxlMap = s.cxlMap := rfl
@[simp] theorem State.setQueue_cxlRecover (s : State) (q : Nat) (x : QState) : (s.setQueue q x).cxlRecover = s.cxlRecover := rfl
@[simp] theorem State.setQueue_heldReqs (s : State) (q : Nat) (x : QState) : (s.setQueue q x).heldReqs = s.heldReqs := rfl
@[simp] theorem State.setQueue_cellJobs (s : State) (q : Nat) (x : QState) : (s.setQueue q x).cellJobs = s.cellJobs := rfl
@[simp] theorem State.setQueue_migs (s : State) (q : Nat) (x : QState) : (s.setQueue q x).migs = s.migs := rfl
@[simp] theorem State.setQueue_rillBad (s : State) (q : Nat) (x : QState) : (s.setQueue q x).rillBad = s.rillBad := rfl
@[simp] theorem State.setQueue_rillIssued (s : State) (q : Nat) (x : QState) : (s.setQueue q x).rillIssued = s.rillIssued := rfl
@[simp] theorem State.setQueue_members (s : State) (q : Nat) (x : QState) : (s.setQueue q x).members = s.members := rfl
@[simp] theorem State.setQueue_buckets (s : State) (q : Nat) (x : QState) : (s.setQueue q x).buckets = s.buckets := rfl
@[simp] theorem State.setQueue_endedBuckets (s : State) (q : Nat) (x : QState) : (s.setQueue q x).endedBuckets = s.endedBuckets := rfl
@[simp] theorem State.setQueue_resends (s : State) (q : Nat) (x : QState) : (s.setQueue q x).resends = s.resends := rfl
@[simp] theorem State.setQueue_links (s : State) (q : Nat) (x : QState) : (s.setQueue q x).links = s.links := rfl
@[simp] theorem State.setQueue_lanes (s : State) (q : Nat) (x : QState) : (s.setQueue q x).lanes = s.lanes := rfl
@[simp] theorem State.setQueue_rx (s : State) (q : Nat) (x : QState) : (s.setQueue q x).rx = s.rx := rfl
@[simp] theorem State.setQueue_peerReqs (s : State) (q : Nat) (x : QState) : (s.setQueue q x).peerReqs = s.peerReqs := rfl
@[simp] theorem State.setQueue_nextTag (s : State) (q : Nat) (x : QState) : (s.setQueue q x).nextTag = s.nextTag := rfl
@[simp] theorem State.setQueue_rejoin (s : State) (q : Nat) (x : QState) : (s.setQueue q x).rejoin = s.rejoin := rfl
@[simp] theorem State.setQueue_estreams (s : State) (q : Nat) (x : QState) : (s.setQueue q x).estreams = s.estreams := rfl
@[simp] theorem State.setQueue_ethTx (s : State) (q : Nat) (x : QState) : (s.setQueue q x).ethTx = s.ethTx := rfl
@[simp] theorem State.setQueue_mtxSent (s : State) (q : Nat) (x : QState) : (s.setQueue q x).mtxSent = s.mtxSent := rfl
@[simp] theorem State.setQueue_mgmtBad (s : State) (q : Nat) (x : QState) : (s.setQueue q x).mgmtBad = s.mgmtBad := rfl
@[simp] theorem State.setQueue_mrxNext (s : State) (q : Nat) (x : QState) : (s.setQueue q x).mrxNext = s.mrxNext := rfl
@[simp] theorem State.setQueue_mtxNext (s : State) (q : Nat) (x : QState) : (s.setQueue q x).mtxNext = s.mtxNext := rfl
@[simp] theorem State.setQueue_pfcUntil (s : State) (q : Nat) (x : QState) : (s.setQueue q x).pfcUntil = s.pfcUntil := rfl
@[simp] theorem State.setQueue_samples (s : State) (q : Nat) (x : QState) : (s.setQueue q x).samples = s.samples := rfl
@[simp] theorem State.setQueue_reservs (s : State) (q : Nat) (x : QState) : (s.setQueue q x).reservs = s.reservs := rfl
@[simp] theorem State.setQueue_nextReserv (s : State) (q : Nat) (x : QState) : (s.setQueue q x).nextReserv = s.nextReserv := rfl
@[simp] theorem State.setQueue_pends (s : State) (q : Nat) (x : QState) : (s.setQueue q x).pends = s.pends := rfl
@[simp] theorem State.setQueue_thrEvents (s : State) (q : Nat) (x : QState) : (s.setQueue q x).thrEvents = s.thrEvents := rfl
@[simp] theorem State.setQueue_thrLog (s : State) (q : Nat) (x : QState) : (s.setQueue q x).thrLog = s.thrLog := rfl
@[simp] theorem State.setQueue_thrOver (s : State) (q : Nat) (x : QState) : (s.setQueue q x).thrOver = s.thrOver := rfl
@[simp] theorem State.setQueue_sluPtr (s : State) (q : Nat) (x : QState) : (s.setQueue q x).sluPtr = s.sluPtr := rfl
@[simp] theorem State.setQueue_hclkAt (s : State) (q : Nat) (x : QState) : (s.setQueue q x).hclkAt = s.hclkAt := rfl
@[simp] theorem State.setQueue_caps (s : State) (q : Nat) (x : QState) : (s.setQueue q x).caps = s.caps := rfl
@[simp] theorem State.setQueue_ramps (s : State) (q : Nat) (x : QState) : (s.setQueue q x).ramps = s.ramps := rfl
@[simp] theorem State.setQueue_vinOkAt (s : State) (q : Nat) (x : QState) : (s.setQueue q x).vinOkAt = s.vinOkAt := rfl
@[simp] theorem State.setQueue_thermtrip (s : State) (q : Nat) (x : QState) : (s.setQueue q x).thermtrip = s.thermtrip := rfl
@[simp] theorem State.setQueue_save (s : State) (q : Nat) (x : QState) : (s.setQueue q x).save = s.save := rfl
@[simp] theorem State.setQueue_ctxReqs (s : State) (q : Nat) (x : QState) : (s.setQueue q x).ctxReqs = s.ctxReqs := rfl
@[simp] theorem State.setQueue_rstSeq (s : State) (q : Nat) (x : QState) : (s.setQueue q x).rstSeq = s.rstSeq := rfl
@[simp] theorem State.setQueue_dieWaits (s : State) (q : Nat) (x : QState) : (s.setQueue q x).dieWaits = s.dieWaits := rfl
@[simp] theorem State.setQueue_offers (s : State) (q : Nat) (x : QState) : (s.setQueue q x).offers = s.offers := rfl
@[simp] theorem State.setQueue_drops (s : State) (q : Nat) (x : QState) : (s.setQueue q x).drops = s.drops := rfl
@[simp] theorem State.setQueue_budget (s : State) (q : Nat) (x : QState) : (s.setQueue q x).budget = s.budget := rfl
@[simp] theorem State.setQueue_overWin (s : State) (q : Nat) (x : QState) : (s.setQueue q x).overWin = s.overWin := rfl
@[simp] theorem State.setQueue_ringAgent (s : State) (q : Nat) (x : QState) : (s.setQueue q x).ringAgent = s.ringAgent := rfl
@[simp] theorem State.setQueue_ringBad (s : State) (q : Nat) (x : QState) : (s.setQueue q x).ringBad = s.ringBad := rfl
@[simp] theorem State.setQueue_siteHeld (s : State) (q : Nat) (x : QState) : (s.setQueue q x).siteHeld = s.siteHeld := rfl
@[simp] theorem State.setQueue_siteThrottle (s : State) (q : Nat) (x : QState) : (s.setQueue q x).siteThrottle = s.siteThrottle := rfl
@[simp] theorem State.setQueue_d2dPoison (s : State) (q : Nat) (x : QState) : (s.setQueue q x).d2dPoison = s.d2dPoison := rfl
@[simp] theorem State.setQueue_d2dWait (s : State) (q : Nat) (x : QState) : (s.setQueue q x).d2dWait = s.d2dWait := rfl
@[simp] theorem State.setQueue_mclkHeld (s : State) (q : Nat) (x : QState) : (s.setQueue q x).mclkHeld = s.mclkHeld := rfl
@[simp] theorem State.setQueue_booted (s : State) (q : Nat) (x : QState) : (s.setQueue q x).booted = s.booted := rfl
@[simp] theorem State.setQueue_bringup (s : State) (q : Nat) (x : QState) : (s.setQueue q x).bringup = s.bringup := rfl
@[simp] theorem State.setQueue_sram (s : State) (q : Nat) (x : QState) : (s.setQueue q x).sram = s.sram := rfl
@[simp] theorem State.setQueue_romHalted (s : State) (q : Nat) (x : QState) : (s.setQueue q x).romHalted = s.romHalted := rfl
@[simp] theorem State.setQueue_testMode (s : State) (q : Nat) (x : QState) : (s.setQueue q x).testMode = s.testMode := rfl
@[simp] theorem State.setQueue_inReset (s : State) (q : Nat) (x : QState) : (s.setQueue q x).inReset = s.inReset := rfl
@[simp] theorem State.setQueue_holdVin (s : State) (q : Nat) (x : QState) : (s.setQueue q x).holdVin = s.holdVin := rfl
@[simp] theorem State.setQueue_i3cIndex (s : State) (q : Nat) (x : QState) : (s.setQueue q x).i3cIndex = s.i3cIndex := rfl
@[simp] theorem State.setQueue_i3cAddr (s : State) (q : Nat) (x : QState) : (s.setQueue q x).i3cAddr = s.i3cAddr := rfl
@[simp] theorem State.setQueue_access (s : State) (q : Nat) (x : QState) : (s.setQueue q x).access = s.access := rfl
@[simp] theorem State.setQueue_freeIdx (s : State) (q : Nat) (x : QState) : (s.setQueue q x).freeIdx = s.freeIdx := rfl

/-! ### setChan -/

@[simp] theorem State.setChan_pending (s : State) (c : Nat) (x : Chan) : (s.setChan c x).pending = s.pending := rfl
@[simp] theorem State.setChan_now (s : State) (c : Nat) (x : Chan) : (s.setChan c x).now = s.now := rfl
@[simp] theorem State.setChan_tbAdj (s : State) (c : Nat) (x : Chan) : (s.setChan c x).tbAdj = s.tbAdj := rfl
@[simp] theorem State.setChan_slew (s : State) (c : Nat) (x : Chan) : (s.setChan c x).slew = s.slew := rfl
@[simp] theorem State.setChan_slewAt (s : State) (c : Nat) (x : Chan) : (s.setChan c x).slewAt = s.slewAt := rfl
@[simp] theorem State.setChan_tbRate (s : State) (c : Nat) (x : Chan) : (s.setChan c x).tbRate = s.tbRate := rfl
@[simp] theorem State.setChan_rateAt (s : State) (c : Nat) (x : Chan) : (s.setChan c x).rateAt = s.rateAt := rfl
@[simp] theorem State.setChan_tbSteps (s : State) (c : Nat) (x : Chan) : (s.setChan c x).tbSteps = s.tbSteps := rfl
@[simp] theorem State.setChan_tbFrom (s : State) (c : Nat) (x : Chan) : (s.setChan c x).tbFrom = s.tbFrom := rfl
@[simp] theorem State.setChan_tbXchg (s : State) (c : Nat) (x : Chan) : (s.setChan c x).tbXchg = s.tbXchg := rfl
@[simp] theorem State.setChan_tbRef (s : State) (c : Nat) (x : Chan) : (s.setChan c x).tbRef = s.tbRef := rfl
@[simp] theorem State.setChan_tbGood (s : State) (c : Nat) (x : Chan) : (s.setChan c x).tbGood = s.tbGood := rfl
@[simp] theorem State.setChan_tbLast (s : State) (c : Nat) (x : Chan) : (s.setChan c x).tbLast = s.tbLast := rfl
@[simp] theorem State.setChan_tbStepped (s : State) (c : Nat) (x : Chan) : (s.setChan c x).tbStepped = s.tbStepped := rfl
@[simp] theorem State.setChan_regs (s : State) (c : Nat) (x : Chan) : (s.setChan c x).regs = s.regs := rfl
@[simp] theorem State.setChan_reply (s : State) (c : Nat) (x : Chan) : (s.setChan c x).reply = s.reply := rfl
@[simp] theorem State.setChan_fuses (s : State) (c : Nat) (x : Chan) : (s.setChan c x).fuses = s.fuses := rfl
@[simp] theorem State.setChan_dike (s : State) (c : Nat) (x : Chan) : (s.setChan c x).dike = s.dike := rfl
@[simp] theorem State.setChan_txn (s : State) (c : Nat) (x : Chan) : (s.setChan c x).txn = s.txn := rfl
@[simp] theorem State.setChan_mem (s : State) (c : Nat) (x : Chan) : (s.setChan c x).mem = s.mem := rfl
@[simp] theorem State.setChan_poison (s : State) (c : Nat) (x : Chan) : (s.setChan c x).poison = s.poison := rfl
@[simp] theorem State.setChan_flash (s : State) (c : Nat) (x : Chan) : (s.setChan c x).flash = s.flash := rfl
@[simp] theorem State.setChan_hosts (s : State) (c : Nat) (x : Chan) : (s.setChan c x).hosts = s.hosts := rfl
@[simp] theorem State.setChan_dir (s : State) (c : Nat) (x : Chan) : (s.setChan c x).dir = s.dir := rfl
@[simp] theorem State.setChan_grants (s : State) (c : Nat) (x : Chan) : (s.setChan c x).grants = s.grants := rfl
@[simp] theorem State.setChan_invq (s : State) (c : Nat) (x : Chan) : (s.setChan c x).invq = s.invq := rfl
@[simp] theorem State.setChan_cores (s : State) (c : Nat) (x : Chan) : (s.setChan c x).cores = s.cores := rfl
@[simp] theorem State.setChan_queues (s : State) (c : Nat) (x : Chan) : (s.setChan c x).queues = s.queues := rfl
@[simp] theorem State.setChan_inflight (s : State) (c : Nat) (x : Chan) : (s.setChan c x).inflight = s.inflight := rfl
@[simp] theorem State.setChan_wcLeaf (s : State) (c : Nat) (x : Chan) : (s.setChan c x).wcLeaf = s.wcLeaf := rfl
@[simp] theorem State.setChan_wcPtr (s : State) (c : Nat) (x : Chan) : (s.setChan c x).wcPtr = s.wcPtr := rfl
@[simp] theorem State.setChan_faults (s : State) (c : Nat) (x : Chan) : (s.setChan c x).faults = s.faults := rfl
@[simp] theorem State.setChan_faultSeq (s : State) (c : Nat) (x : Chan) : (s.setChan c x).faultSeq = s.faultSeq := rfl
@[simp] theorem State.setChan_unslotted (s : State) (c : Nat) (x : Chan) : (s.setChan c x).unslotted = s.unslotted := rfl
@[simp] theorem State.setChan_invals (s : State) (c : Nat) (x : Chan) : (s.setChan c x).invals = s.invals := rfl
@[simp] theorem State.setChan_nextInval (s : State) (c : Nat) (x : Chan) : (s.setChan c x).nextInval = s.nextInval := rfl
@[simp] theorem State.setChan_waiters (s : State) (c : Nat) (x : Chan) : (s.setChan c x).waiters = s.waiters := rfl
@[simp] theorem State.setChan_advances (s : State) (c : Nat) (x : Chan) : (s.setChan c x).advances = s.advances := rfl
@[simp] theorem State.setChan_events (s : State) (c : Nat) (x : Chan) : (s.setChan c x).events = s.events := rfl
@[simp] theorem State.setChan_eventLost (s : State) (c : Nat) (x : Chan) : (s.setChan c x).eventLost = s.eventLost := rfl
@[simp] theorem State.setChan_eventIrq (s : State) (c : Nat) (x : Chan) : (s.setChan c x).eventIrq = s.eventIrq := rfl
@[simp] theorem State.setChan_mboxes (s : State) (c : Nat) (x : Chan) : (s.setChan c x).mboxes = s.mboxes := rfl
@[simp] theorem State.setChan_repairs (s : State) (c : Nat) (x : Chan) : (s.setChan c x).repairs = s.repairs := rfl
@[simp] theorem State.setChan_lineStore (s : State) (c : Nat) (x : Chan) : (s.setChan c x).lineStore = s.lineStore := rfl
@[simp] theorem State.setChan_cxlMap (s : State) (c : Nat) (x : Chan) : (s.setChan c x).cxlMap = s.cxlMap := rfl
@[simp] theorem State.setChan_cxlRecover (s : State) (c : Nat) (x : Chan) : (s.setChan c x).cxlRecover = s.cxlRecover := rfl
@[simp] theorem State.setChan_heldReqs (s : State) (c : Nat) (x : Chan) : (s.setChan c x).heldReqs = s.heldReqs := rfl
@[simp] theorem State.setChan_cellJobs (s : State) (c : Nat) (x : Chan) : (s.setChan c x).cellJobs = s.cellJobs := rfl
@[simp] theorem State.setChan_migs (s : State) (c : Nat) (x : Chan) : (s.setChan c x).migs = s.migs := rfl
@[simp] theorem State.setChan_rillBad (s : State) (c : Nat) (x : Chan) : (s.setChan c x).rillBad = s.rillBad := rfl
@[simp] theorem State.setChan_rillIssued (s : State) (c : Nat) (x : Chan) : (s.setChan c x).rillIssued = s.rillIssued := rfl
@[simp] theorem State.setChan_members (s : State) (c : Nat) (x : Chan) : (s.setChan c x).members = s.members := rfl
@[simp] theorem State.setChan_buckets (s : State) (c : Nat) (x : Chan) : (s.setChan c x).buckets = s.buckets := rfl
@[simp] theorem State.setChan_endedBuckets (s : State) (c : Nat) (x : Chan) : (s.setChan c x).endedBuckets = s.endedBuckets := rfl
@[simp] theorem State.setChan_resends (s : State) (c : Nat) (x : Chan) : (s.setChan c x).resends = s.resends := rfl
@[simp] theorem State.setChan_links (s : State) (c : Nat) (x : Chan) : (s.setChan c x).links = s.links := rfl
@[simp] theorem State.setChan_lanes (s : State) (c : Nat) (x : Chan) : (s.setChan c x).lanes = s.lanes := rfl
@[simp] theorem State.setChan_rx (s : State) (c : Nat) (x : Chan) : (s.setChan c x).rx = s.rx := rfl
@[simp] theorem State.setChan_peerReqs (s : State) (c : Nat) (x : Chan) : (s.setChan c x).peerReqs = s.peerReqs := rfl
@[simp] theorem State.setChan_nextTag (s : State) (c : Nat) (x : Chan) : (s.setChan c x).nextTag = s.nextTag := rfl
@[simp] theorem State.setChan_rejoin (s : State) (c : Nat) (x : Chan) : (s.setChan c x).rejoin = s.rejoin := rfl
@[simp] theorem State.setChan_estreams (s : State) (c : Nat) (x : Chan) : (s.setChan c x).estreams = s.estreams := rfl
@[simp] theorem State.setChan_ethTx (s : State) (c : Nat) (x : Chan) : (s.setChan c x).ethTx = s.ethTx := rfl
@[simp] theorem State.setChan_mtxSent (s : State) (c : Nat) (x : Chan) : (s.setChan c x).mtxSent = s.mtxSent := rfl
@[simp] theorem State.setChan_mgmtBad (s : State) (c : Nat) (x : Chan) : (s.setChan c x).mgmtBad = s.mgmtBad := rfl
@[simp] theorem State.setChan_mrxNext (s : State) (c : Nat) (x : Chan) : (s.setChan c x).mrxNext = s.mrxNext := rfl
@[simp] theorem State.setChan_mtxNext (s : State) (c : Nat) (x : Chan) : (s.setChan c x).mtxNext = s.mtxNext := rfl
@[simp] theorem State.setChan_pfcUntil (s : State) (c : Nat) (x : Chan) : (s.setChan c x).pfcUntil = s.pfcUntil := rfl
@[simp] theorem State.setChan_samples (s : State) (c : Nat) (x : Chan) : (s.setChan c x).samples = s.samples := rfl
@[simp] theorem State.setChan_reservs (s : State) (c : Nat) (x : Chan) : (s.setChan c x).reservs = s.reservs := rfl
@[simp] theorem State.setChan_nextReserv (s : State) (c : Nat) (x : Chan) : (s.setChan c x).nextReserv = s.nextReserv := rfl
@[simp] theorem State.setChan_pends (s : State) (c : Nat) (x : Chan) : (s.setChan c x).pends = s.pends := rfl
@[simp] theorem State.setChan_thrEvents (s : State) (c : Nat) (x : Chan) : (s.setChan c x).thrEvents = s.thrEvents := rfl
@[simp] theorem State.setChan_thrLog (s : State) (c : Nat) (x : Chan) : (s.setChan c x).thrLog = s.thrLog := rfl
@[simp] theorem State.setChan_thrOver (s : State) (c : Nat) (x : Chan) : (s.setChan c x).thrOver = s.thrOver := rfl
@[simp] theorem State.setChan_sluPtr (s : State) (c : Nat) (x : Chan) : (s.setChan c x).sluPtr = s.sluPtr := rfl
@[simp] theorem State.setChan_hclkAt (s : State) (c : Nat) (x : Chan) : (s.setChan c x).hclkAt = s.hclkAt := rfl
@[simp] theorem State.setChan_caps (s : State) (c : Nat) (x : Chan) : (s.setChan c x).caps = s.caps := rfl
@[simp] theorem State.setChan_ramps (s : State) (c : Nat) (x : Chan) : (s.setChan c x).ramps = s.ramps := rfl
@[simp] theorem State.setChan_vinOkAt (s : State) (c : Nat) (x : Chan) : (s.setChan c x).vinOkAt = s.vinOkAt := rfl
@[simp] theorem State.setChan_thermtrip (s : State) (c : Nat) (x : Chan) : (s.setChan c x).thermtrip = s.thermtrip := rfl
@[simp] theorem State.setChan_save (s : State) (c : Nat) (x : Chan) : (s.setChan c x).save = s.save := rfl
@[simp] theorem State.setChan_ctxReqs (s : State) (c : Nat) (x : Chan) : (s.setChan c x).ctxReqs = s.ctxReqs := rfl
@[simp] theorem State.setChan_rstSeq (s : State) (c : Nat) (x : Chan) : (s.setChan c x).rstSeq = s.rstSeq := rfl
@[simp] theorem State.setChan_dieWaits (s : State) (c : Nat) (x : Chan) : (s.setChan c x).dieWaits = s.dieWaits := rfl
@[simp] theorem State.setChan_offers (s : State) (c : Nat) (x : Chan) : (s.setChan c x).offers = s.offers := rfl
@[simp] theorem State.setChan_drops (s : State) (c : Nat) (x : Chan) : (s.setChan c x).drops = s.drops := rfl
@[simp] theorem State.setChan_budget (s : State) (c : Nat) (x : Chan) : (s.setChan c x).budget = s.budget := rfl
@[simp] theorem State.setChan_overWin (s : State) (c : Nat) (x : Chan) : (s.setChan c x).overWin = s.overWin := rfl
@[simp] theorem State.setChan_ringAgent (s : State) (c : Nat) (x : Chan) : (s.setChan c x).ringAgent = s.ringAgent := rfl
@[simp] theorem State.setChan_ringBad (s : State) (c : Nat) (x : Chan) : (s.setChan c x).ringBad = s.ringBad := rfl
@[simp] theorem State.setChan_siteHeld (s : State) (c : Nat) (x : Chan) : (s.setChan c x).siteHeld = s.siteHeld := rfl
@[simp] theorem State.setChan_siteThrottle (s : State) (c : Nat) (x : Chan) : (s.setChan c x).siteThrottle = s.siteThrottle := rfl
@[simp] theorem State.setChan_d2dPoison (s : State) (c : Nat) (x : Chan) : (s.setChan c x).d2dPoison = s.d2dPoison := rfl
@[simp] theorem State.setChan_d2dWait (s : State) (c : Nat) (x : Chan) : (s.setChan c x).d2dWait = s.d2dWait := rfl
@[simp] theorem State.setChan_mclkHeld (s : State) (c : Nat) (x : Chan) : (s.setChan c x).mclkHeld = s.mclkHeld := rfl
@[simp] theorem State.setChan_booted (s : State) (c : Nat) (x : Chan) : (s.setChan c x).booted = s.booted := rfl
@[simp] theorem State.setChan_bringup (s : State) (c : Nat) (x : Chan) : (s.setChan c x).bringup = s.bringup := rfl
@[simp] theorem State.setChan_sram (s : State) (c : Nat) (x : Chan) : (s.setChan c x).sram = s.sram := rfl
@[simp] theorem State.setChan_romHalted (s : State) (c : Nat) (x : Chan) : (s.setChan c x).romHalted = s.romHalted := rfl
@[simp] theorem State.setChan_testMode (s : State) (c : Nat) (x : Chan) : (s.setChan c x).testMode = s.testMode := rfl
@[simp] theorem State.setChan_inReset (s : State) (c : Nat) (x : Chan) : (s.setChan c x).inReset = s.inReset := rfl
@[simp] theorem State.setChan_holdVin (s : State) (c : Nat) (x : Chan) : (s.setChan c x).holdVin = s.holdVin := rfl
@[simp] theorem State.setChan_i3cIndex (s : State) (c : Nat) (x : Chan) : (s.setChan c x).i3cIndex = s.i3cIndex := rfl
@[simp] theorem State.setChan_i3cAddr (s : State) (c : Nat) (x : Chan) : (s.setChan c x).i3cAddr = s.i3cAddr := rfl
@[simp] theorem State.setChan_access (s : State) (c : Nat) (x : Chan) : (s.setChan c x).access = s.access := rfl
@[simp] theorem State.setChan_freeIdx (s : State) (c : Nat) (x : Chan) : (s.setChan c x).freeIdx = s.freeIdx := rfl

/-! ### setMbox -/

@[simp] theorem State.setMbox_pending (s : State) (m : Nat) (x : Mbox) : (s.setMbox m x).pending = s.pending := rfl
@[simp] theorem State.setMbox_now (s : State) (m : Nat) (x : Mbox) : (s.setMbox m x).now = s.now := rfl
@[simp] theorem State.setMbox_tbAdj (s : State) (m : Nat) (x : Mbox) : (s.setMbox m x).tbAdj = s.tbAdj := rfl
@[simp] theorem State.setMbox_slew (s : State) (m : Nat) (x : Mbox) : (s.setMbox m x).slew = s.slew := rfl
@[simp] theorem State.setMbox_slewAt (s : State) (m : Nat) (x : Mbox) : (s.setMbox m x).slewAt = s.slewAt := rfl
@[simp] theorem State.setMbox_tbRate (s : State) (m : Nat) (x : Mbox) : (s.setMbox m x).tbRate = s.tbRate := rfl
@[simp] theorem State.setMbox_rateAt (s : State) (m : Nat) (x : Mbox) : (s.setMbox m x).rateAt = s.rateAt := rfl
@[simp] theorem State.setMbox_tbSteps (s : State) (m : Nat) (x : Mbox) : (s.setMbox m x).tbSteps = s.tbSteps := rfl
@[simp] theorem State.setMbox_tbFrom (s : State) (m : Nat) (x : Mbox) : (s.setMbox m x).tbFrom = s.tbFrom := rfl
@[simp] theorem State.setMbox_tbXchg (s : State) (m : Nat) (x : Mbox) : (s.setMbox m x).tbXchg = s.tbXchg := rfl
@[simp] theorem State.setMbox_tbRef (s : State) (m : Nat) (x : Mbox) : (s.setMbox m x).tbRef = s.tbRef := rfl
@[simp] theorem State.setMbox_tbGood (s : State) (m : Nat) (x : Mbox) : (s.setMbox m x).tbGood = s.tbGood := rfl
@[simp] theorem State.setMbox_tbLast (s : State) (m : Nat) (x : Mbox) : (s.setMbox m x).tbLast = s.tbLast := rfl
@[simp] theorem State.setMbox_tbStepped (s : State) (m : Nat) (x : Mbox) : (s.setMbox m x).tbStepped = s.tbStepped := rfl
@[simp] theorem State.setMbox_regs (s : State) (m : Nat) (x : Mbox) : (s.setMbox m x).regs = s.regs := rfl
@[simp] theorem State.setMbox_reply (s : State) (m : Nat) (x : Mbox) : (s.setMbox m x).reply = s.reply := rfl
@[simp] theorem State.setMbox_fuses (s : State) (m : Nat) (x : Mbox) : (s.setMbox m x).fuses = s.fuses := rfl
@[simp] theorem State.setMbox_dike (s : State) (m : Nat) (x : Mbox) : (s.setMbox m x).dike = s.dike := rfl
@[simp] theorem State.setMbox_txn (s : State) (m : Nat) (x : Mbox) : (s.setMbox m x).txn = s.txn := rfl
@[simp] theorem State.setMbox_mem (s : State) (m : Nat) (x : Mbox) : (s.setMbox m x).mem = s.mem := rfl
@[simp] theorem State.setMbox_poison (s : State) (m : Nat) (x : Mbox) : (s.setMbox m x).poison = s.poison := rfl
@[simp] theorem State.setMbox_flash (s : State) (m : Nat) (x : Mbox) : (s.setMbox m x).flash = s.flash := rfl
@[simp] theorem State.setMbox_hosts (s : State) (m : Nat) (x : Mbox) : (s.setMbox m x).hosts = s.hosts := rfl
@[simp] theorem State.setMbox_dir (s : State) (m : Nat) (x : Mbox) : (s.setMbox m x).dir = s.dir := rfl
@[simp] theorem State.setMbox_grants (s : State) (m : Nat) (x : Mbox) : (s.setMbox m x).grants = s.grants := rfl
@[simp] theorem State.setMbox_invq (s : State) (m : Nat) (x : Mbox) : (s.setMbox m x).invq = s.invq := rfl
@[simp] theorem State.setMbox_cores (s : State) (m : Nat) (x : Mbox) : (s.setMbox m x).cores = s.cores := rfl
@[simp] theorem State.setMbox_queues (s : State) (m : Nat) (x : Mbox) : (s.setMbox m x).queues = s.queues := rfl
@[simp] theorem State.setMbox_inflight (s : State) (m : Nat) (x : Mbox) : (s.setMbox m x).inflight = s.inflight := rfl
@[simp] theorem State.setMbox_wcLeaf (s : State) (m : Nat) (x : Mbox) : (s.setMbox m x).wcLeaf = s.wcLeaf := rfl
@[simp] theorem State.setMbox_wcPtr (s : State) (m : Nat) (x : Mbox) : (s.setMbox m x).wcPtr = s.wcPtr := rfl
@[simp] theorem State.setMbox_faults (s : State) (m : Nat) (x : Mbox) : (s.setMbox m x).faults = s.faults := rfl
@[simp] theorem State.setMbox_faultSeq (s : State) (m : Nat) (x : Mbox) : (s.setMbox m x).faultSeq = s.faultSeq := rfl
@[simp] theorem State.setMbox_unslotted (s : State) (m : Nat) (x : Mbox) : (s.setMbox m x).unslotted = s.unslotted := rfl
@[simp] theorem State.setMbox_invals (s : State) (m : Nat) (x : Mbox) : (s.setMbox m x).invals = s.invals := rfl
@[simp] theorem State.setMbox_nextInval (s : State) (m : Nat) (x : Mbox) : (s.setMbox m x).nextInval = s.nextInval := rfl
@[simp] theorem State.setMbox_waiters (s : State) (m : Nat) (x : Mbox) : (s.setMbox m x).waiters = s.waiters := rfl
@[simp] theorem State.setMbox_advances (s : State) (m : Nat) (x : Mbox) : (s.setMbox m x).advances = s.advances := rfl
@[simp] theorem State.setMbox_events (s : State) (m : Nat) (x : Mbox) : (s.setMbox m x).events = s.events := rfl
@[simp] theorem State.setMbox_eventLost (s : State) (m : Nat) (x : Mbox) : (s.setMbox m x).eventLost = s.eventLost := rfl
@[simp] theorem State.setMbox_eventIrq (s : State) (m : Nat) (x : Mbox) : (s.setMbox m x).eventIrq = s.eventIrq := rfl
@[simp] theorem State.setMbox_chans (s : State) (m : Nat) (x : Mbox) : (s.setMbox m x).chans = s.chans := rfl
@[simp] theorem State.setMbox_repairs (s : State) (m : Nat) (x : Mbox) : (s.setMbox m x).repairs = s.repairs := rfl
@[simp] theorem State.setMbox_lineStore (s : State) (m : Nat) (x : Mbox) : (s.setMbox m x).lineStore = s.lineStore := rfl
@[simp] theorem State.setMbox_cxlMap (s : State) (m : Nat) (x : Mbox) : (s.setMbox m x).cxlMap = s.cxlMap := rfl
@[simp] theorem State.setMbox_cxlRecover (s : State) (m : Nat) (x : Mbox) : (s.setMbox m x).cxlRecover = s.cxlRecover := rfl
@[simp] theorem State.setMbox_heldReqs (s : State) (m : Nat) (x : Mbox) : (s.setMbox m x).heldReqs = s.heldReqs := rfl
@[simp] theorem State.setMbox_cellJobs (s : State) (m : Nat) (x : Mbox) : (s.setMbox m x).cellJobs = s.cellJobs := rfl
@[simp] theorem State.setMbox_migs (s : State) (m : Nat) (x : Mbox) : (s.setMbox m x).migs = s.migs := rfl
@[simp] theorem State.setMbox_rillBad (s : State) (m : Nat) (x : Mbox) : (s.setMbox m x).rillBad = s.rillBad := rfl
@[simp] theorem State.setMbox_rillIssued (s : State) (m : Nat) (x : Mbox) : (s.setMbox m x).rillIssued = s.rillIssued := rfl
@[simp] theorem State.setMbox_members (s : State) (m : Nat) (x : Mbox) : (s.setMbox m x).members = s.members := rfl
@[simp] theorem State.setMbox_buckets (s : State) (m : Nat) (x : Mbox) : (s.setMbox m x).buckets = s.buckets := rfl
@[simp] theorem State.setMbox_endedBuckets (s : State) (m : Nat) (x : Mbox) : (s.setMbox m x).endedBuckets = s.endedBuckets := rfl
@[simp] theorem State.setMbox_resends (s : State) (m : Nat) (x : Mbox) : (s.setMbox m x).resends = s.resends := rfl
@[simp] theorem State.setMbox_links (s : State) (m : Nat) (x : Mbox) : (s.setMbox m x).links = s.links := rfl
@[simp] theorem State.setMbox_lanes (s : State) (m : Nat) (x : Mbox) : (s.setMbox m x).lanes = s.lanes := rfl
@[simp] theorem State.setMbox_rx (s : State) (m : Nat) (x : Mbox) : (s.setMbox m x).rx = s.rx := rfl
@[simp] theorem State.setMbox_peerReqs (s : State) (m : Nat) (x : Mbox) : (s.setMbox m x).peerReqs = s.peerReqs := rfl
@[simp] theorem State.setMbox_nextTag (s : State) (m : Nat) (x : Mbox) : (s.setMbox m x).nextTag = s.nextTag := rfl
@[simp] theorem State.setMbox_rejoin (s : State) (m : Nat) (x : Mbox) : (s.setMbox m x).rejoin = s.rejoin := rfl
@[simp] theorem State.setMbox_estreams (s : State) (m : Nat) (x : Mbox) : (s.setMbox m x).estreams = s.estreams := rfl
@[simp] theorem State.setMbox_ethTx (s : State) (m : Nat) (x : Mbox) : (s.setMbox m x).ethTx = s.ethTx := rfl
@[simp] theorem State.setMbox_mtxSent (s : State) (m : Nat) (x : Mbox) : (s.setMbox m x).mtxSent = s.mtxSent := rfl
@[simp] theorem State.setMbox_mgmtBad (s : State) (m : Nat) (x : Mbox) : (s.setMbox m x).mgmtBad = s.mgmtBad := rfl
@[simp] theorem State.setMbox_mrxNext (s : State) (m : Nat) (x : Mbox) : (s.setMbox m x).mrxNext = s.mrxNext := rfl
@[simp] theorem State.setMbox_mtxNext (s : State) (m : Nat) (x : Mbox) : (s.setMbox m x).mtxNext = s.mtxNext := rfl
@[simp] theorem State.setMbox_pfcUntil (s : State) (m : Nat) (x : Mbox) : (s.setMbox m x).pfcUntil = s.pfcUntil := rfl
@[simp] theorem State.setMbox_samples (s : State) (m : Nat) (x : Mbox) : (s.setMbox m x).samples = s.samples := rfl
@[simp] theorem State.setMbox_reservs (s : State) (m : Nat) (x : Mbox) : (s.setMbox m x).reservs = s.reservs := rfl
@[simp] theorem State.setMbox_nextReserv (s : State) (m : Nat) (x : Mbox) : (s.setMbox m x).nextReserv = s.nextReserv := rfl
@[simp] theorem State.setMbox_pends (s : State) (m : Nat) (x : Mbox) : (s.setMbox m x).pends = s.pends := rfl
@[simp] theorem State.setMbox_thrEvents (s : State) (m : Nat) (x : Mbox) : (s.setMbox m x).thrEvents = s.thrEvents := rfl
@[simp] theorem State.setMbox_thrLog (s : State) (m : Nat) (x : Mbox) : (s.setMbox m x).thrLog = s.thrLog := rfl
@[simp] theorem State.setMbox_thrOver (s : State) (m : Nat) (x : Mbox) : (s.setMbox m x).thrOver = s.thrOver := rfl
@[simp] theorem State.setMbox_sluPtr (s : State) (m : Nat) (x : Mbox) : (s.setMbox m x).sluPtr = s.sluPtr := rfl
@[simp] theorem State.setMbox_hclkAt (s : State) (m : Nat) (x : Mbox) : (s.setMbox m x).hclkAt = s.hclkAt := rfl
@[simp] theorem State.setMbox_caps (s : State) (m : Nat) (x : Mbox) : (s.setMbox m x).caps = s.caps := rfl
@[simp] theorem State.setMbox_ramps (s : State) (m : Nat) (x : Mbox) : (s.setMbox m x).ramps = s.ramps := rfl
@[simp] theorem State.setMbox_vinOkAt (s : State) (m : Nat) (x : Mbox) : (s.setMbox m x).vinOkAt = s.vinOkAt := rfl
@[simp] theorem State.setMbox_thermtrip (s : State) (m : Nat) (x : Mbox) : (s.setMbox m x).thermtrip = s.thermtrip := rfl
@[simp] theorem State.setMbox_save (s : State) (m : Nat) (x : Mbox) : (s.setMbox m x).save = s.save := rfl
@[simp] theorem State.setMbox_ctxReqs (s : State) (m : Nat) (x : Mbox) : (s.setMbox m x).ctxReqs = s.ctxReqs := rfl
@[simp] theorem State.setMbox_rstSeq (s : State) (m : Nat) (x : Mbox) : (s.setMbox m x).rstSeq = s.rstSeq := rfl
@[simp] theorem State.setMbox_dieWaits (s : State) (m : Nat) (x : Mbox) : (s.setMbox m x).dieWaits = s.dieWaits := rfl
@[simp] theorem State.setMbox_offers (s : State) (m : Nat) (x : Mbox) : (s.setMbox m x).offers = s.offers := rfl
@[simp] theorem State.setMbox_drops (s : State) (m : Nat) (x : Mbox) : (s.setMbox m x).drops = s.drops := rfl
@[simp] theorem State.setMbox_budget (s : State) (m : Nat) (x : Mbox) : (s.setMbox m x).budget = s.budget := rfl
@[simp] theorem State.setMbox_overWin (s : State) (m : Nat) (x : Mbox) : (s.setMbox m x).overWin = s.overWin := rfl
@[simp] theorem State.setMbox_ringAgent (s : State) (m : Nat) (x : Mbox) : (s.setMbox m x).ringAgent = s.ringAgent := rfl
@[simp] theorem State.setMbox_ringBad (s : State) (m : Nat) (x : Mbox) : (s.setMbox m x).ringBad = s.ringBad := rfl
@[simp] theorem State.setMbox_siteHeld (s : State) (m : Nat) (x : Mbox) : (s.setMbox m x).siteHeld = s.siteHeld := rfl
@[simp] theorem State.setMbox_siteThrottle (s : State) (m : Nat) (x : Mbox) : (s.setMbox m x).siteThrottle = s.siteThrottle := rfl
@[simp] theorem State.setMbox_d2dPoison (s : State) (m : Nat) (x : Mbox) : (s.setMbox m x).d2dPoison = s.d2dPoison := rfl
@[simp] theorem State.setMbox_d2dWait (s : State) (m : Nat) (x : Mbox) : (s.setMbox m x).d2dWait = s.d2dWait := rfl
@[simp] theorem State.setMbox_mclkHeld (s : State) (m : Nat) (x : Mbox) : (s.setMbox m x).mclkHeld = s.mclkHeld := rfl
@[simp] theorem State.setMbox_booted (s : State) (m : Nat) (x : Mbox) : (s.setMbox m x).booted = s.booted := rfl
@[simp] theorem State.setMbox_bringup (s : State) (m : Nat) (x : Mbox) : (s.setMbox m x).bringup = s.bringup := rfl
@[simp] theorem State.setMbox_sram (s : State) (m : Nat) (x : Mbox) : (s.setMbox m x).sram = s.sram := rfl
@[simp] theorem State.setMbox_romHalted (s : State) (m : Nat) (x : Mbox) : (s.setMbox m x).romHalted = s.romHalted := rfl
@[simp] theorem State.setMbox_testMode (s : State) (m : Nat) (x : Mbox) : (s.setMbox m x).testMode = s.testMode := rfl
@[simp] theorem State.setMbox_inReset (s : State) (m : Nat) (x : Mbox) : (s.setMbox m x).inReset = s.inReset := rfl
@[simp] theorem State.setMbox_holdVin (s : State) (m : Nat) (x : Mbox) : (s.setMbox m x).holdVin = s.holdVin := rfl
@[simp] theorem State.setMbox_i3cIndex (s : State) (m : Nat) (x : Mbox) : (s.setMbox m x).i3cIndex = s.i3cIndex := rfl
@[simp] theorem State.setMbox_i3cAddr (s : State) (m : Nat) (x : Mbox) : (s.setMbox m x).i3cAddr = s.i3cAddr := rfl
@[simp] theorem State.setMbox_access (s : State) (m : Nat) (x : Mbox) : (s.setMbox m x).access = s.access := rfl
@[simp] theorem State.setMbox_freeIdx (s : State) (m : Nat) (x : Mbox) : (s.setMbox m x).freeIdx = s.freeIdx := rfl

/-! ### setLink -/

@[simp] theorem State.setLink_pending (s : State) (l : Nat) (x : Link) : (s.setLink l x).pending = s.pending := rfl
@[simp] theorem State.setLink_now (s : State) (l : Nat) (x : Link) : (s.setLink l x).now = s.now := rfl
@[simp] theorem State.setLink_tbAdj (s : State) (l : Nat) (x : Link) : (s.setLink l x).tbAdj = s.tbAdj := rfl
@[simp] theorem State.setLink_slew (s : State) (l : Nat) (x : Link) : (s.setLink l x).slew = s.slew := rfl
@[simp] theorem State.setLink_slewAt (s : State) (l : Nat) (x : Link) : (s.setLink l x).slewAt = s.slewAt := rfl
@[simp] theorem State.setLink_tbRate (s : State) (l : Nat) (x : Link) : (s.setLink l x).tbRate = s.tbRate := rfl
@[simp] theorem State.setLink_rateAt (s : State) (l : Nat) (x : Link) : (s.setLink l x).rateAt = s.rateAt := rfl
@[simp] theorem State.setLink_tbSteps (s : State) (l : Nat) (x : Link) : (s.setLink l x).tbSteps = s.tbSteps := rfl
@[simp] theorem State.setLink_tbFrom (s : State) (l : Nat) (x : Link) : (s.setLink l x).tbFrom = s.tbFrom := rfl
@[simp] theorem State.setLink_tbXchg (s : State) (l : Nat) (x : Link) : (s.setLink l x).tbXchg = s.tbXchg := rfl
@[simp] theorem State.setLink_tbRef (s : State) (l : Nat) (x : Link) : (s.setLink l x).tbRef = s.tbRef := rfl
@[simp] theorem State.setLink_tbGood (s : State) (l : Nat) (x : Link) : (s.setLink l x).tbGood = s.tbGood := rfl
@[simp] theorem State.setLink_tbLast (s : State) (l : Nat) (x : Link) : (s.setLink l x).tbLast = s.tbLast := rfl
@[simp] theorem State.setLink_tbStepped (s : State) (l : Nat) (x : Link) : (s.setLink l x).tbStepped = s.tbStepped := rfl
@[simp] theorem State.setLink_regs (s : State) (l : Nat) (x : Link) : (s.setLink l x).regs = s.regs := rfl
@[simp] theorem State.setLink_reply (s : State) (l : Nat) (x : Link) : (s.setLink l x).reply = s.reply := rfl
@[simp] theorem State.setLink_fuses (s : State) (l : Nat) (x : Link) : (s.setLink l x).fuses = s.fuses := rfl
@[simp] theorem State.setLink_dike (s : State) (l : Nat) (x : Link) : (s.setLink l x).dike = s.dike := rfl
@[simp] theorem State.setLink_txn (s : State) (l : Nat) (x : Link) : (s.setLink l x).txn = s.txn := rfl
@[simp] theorem State.setLink_mem (s : State) (l : Nat) (x : Link) : (s.setLink l x).mem = s.mem := rfl
@[simp] theorem State.setLink_poison (s : State) (l : Nat) (x : Link) : (s.setLink l x).poison = s.poison := rfl
@[simp] theorem State.setLink_flash (s : State) (l : Nat) (x : Link) : (s.setLink l x).flash = s.flash := rfl
@[simp] theorem State.setLink_hosts (s : State) (l : Nat) (x : Link) : (s.setLink l x).hosts = s.hosts := rfl
@[simp] theorem State.setLink_dir (s : State) (l : Nat) (x : Link) : (s.setLink l x).dir = s.dir := rfl
@[simp] theorem State.setLink_grants (s : State) (l : Nat) (x : Link) : (s.setLink l x).grants = s.grants := rfl
@[simp] theorem State.setLink_invq (s : State) (l : Nat) (x : Link) : (s.setLink l x).invq = s.invq := rfl
@[simp] theorem State.setLink_cores (s : State) (l : Nat) (x : Link) : (s.setLink l x).cores = s.cores := rfl
@[simp] theorem State.setLink_queues (s : State) (l : Nat) (x : Link) : (s.setLink l x).queues = s.queues := rfl
@[simp] theorem State.setLink_inflight (s : State) (l : Nat) (x : Link) : (s.setLink l x).inflight = s.inflight := rfl
@[simp] theorem State.setLink_wcLeaf (s : State) (l : Nat) (x : Link) : (s.setLink l x).wcLeaf = s.wcLeaf := rfl
@[simp] theorem State.setLink_wcPtr (s : State) (l : Nat) (x : Link) : (s.setLink l x).wcPtr = s.wcPtr := rfl
@[simp] theorem State.setLink_faults (s : State) (l : Nat) (x : Link) : (s.setLink l x).faults = s.faults := rfl
@[simp] theorem State.setLink_faultSeq (s : State) (l : Nat) (x : Link) : (s.setLink l x).faultSeq = s.faultSeq := rfl
@[simp] theorem State.setLink_unslotted (s : State) (l : Nat) (x : Link) : (s.setLink l x).unslotted = s.unslotted := rfl
@[simp] theorem State.setLink_invals (s : State) (l : Nat) (x : Link) : (s.setLink l x).invals = s.invals := rfl
@[simp] theorem State.setLink_nextInval (s : State) (l : Nat) (x : Link) : (s.setLink l x).nextInval = s.nextInval := rfl
@[simp] theorem State.setLink_waiters (s : State) (l : Nat) (x : Link) : (s.setLink l x).waiters = s.waiters := rfl
@[simp] theorem State.setLink_advances (s : State) (l : Nat) (x : Link) : (s.setLink l x).advances = s.advances := rfl
@[simp] theorem State.setLink_events (s : State) (l : Nat) (x : Link) : (s.setLink l x).events = s.events := rfl
@[simp] theorem State.setLink_eventLost (s : State) (l : Nat) (x : Link) : (s.setLink l x).eventLost = s.eventLost := rfl
@[simp] theorem State.setLink_eventIrq (s : State) (l : Nat) (x : Link) : (s.setLink l x).eventIrq = s.eventIrq := rfl
@[simp] theorem State.setLink_mboxes (s : State) (l : Nat) (x : Link) : (s.setLink l x).mboxes = s.mboxes := rfl
@[simp] theorem State.setLink_chans (s : State) (l : Nat) (x : Link) : (s.setLink l x).chans = s.chans := rfl
@[simp] theorem State.setLink_repairs (s : State) (l : Nat) (x : Link) : (s.setLink l x).repairs = s.repairs := rfl
@[simp] theorem State.setLink_lineStore (s : State) (l : Nat) (x : Link) : (s.setLink l x).lineStore = s.lineStore := rfl
@[simp] theorem State.setLink_cxlMap (s : State) (l : Nat) (x : Link) : (s.setLink l x).cxlMap = s.cxlMap := rfl
@[simp] theorem State.setLink_cxlRecover (s : State) (l : Nat) (x : Link) : (s.setLink l x).cxlRecover = s.cxlRecover := rfl
@[simp] theorem State.setLink_heldReqs (s : State) (l : Nat) (x : Link) : (s.setLink l x).heldReqs = s.heldReqs := rfl
@[simp] theorem State.setLink_cellJobs (s : State) (l : Nat) (x : Link) : (s.setLink l x).cellJobs = s.cellJobs := rfl
@[simp] theorem State.setLink_migs (s : State) (l : Nat) (x : Link) : (s.setLink l x).migs = s.migs := rfl
@[simp] theorem State.setLink_rillBad (s : State) (l : Nat) (x : Link) : (s.setLink l x).rillBad = s.rillBad := rfl
@[simp] theorem State.setLink_rillIssued (s : State) (l : Nat) (x : Link) : (s.setLink l x).rillIssued = s.rillIssued := rfl
@[simp] theorem State.setLink_members (s : State) (l : Nat) (x : Link) : (s.setLink l x).members = s.members := rfl
@[simp] theorem State.setLink_buckets (s : State) (l : Nat) (x : Link) : (s.setLink l x).buckets = s.buckets := rfl
@[simp] theorem State.setLink_endedBuckets (s : State) (l : Nat) (x : Link) : (s.setLink l x).endedBuckets = s.endedBuckets := rfl
@[simp] theorem State.setLink_resends (s : State) (l : Nat) (x : Link) : (s.setLink l x).resends = s.resends := rfl
@[simp] theorem State.setLink_lanes (s : State) (l : Nat) (x : Link) : (s.setLink l x).lanes = s.lanes := rfl
@[simp] theorem State.setLink_rx (s : State) (l : Nat) (x : Link) : (s.setLink l x).rx = s.rx := rfl
@[simp] theorem State.setLink_peerReqs (s : State) (l : Nat) (x : Link) : (s.setLink l x).peerReqs = s.peerReqs := rfl
@[simp] theorem State.setLink_nextTag (s : State) (l : Nat) (x : Link) : (s.setLink l x).nextTag = s.nextTag := rfl
@[simp] theorem State.setLink_rejoin (s : State) (l : Nat) (x : Link) : (s.setLink l x).rejoin = s.rejoin := rfl
@[simp] theorem State.setLink_estreams (s : State) (l : Nat) (x : Link) : (s.setLink l x).estreams = s.estreams := rfl
@[simp] theorem State.setLink_ethTx (s : State) (l : Nat) (x : Link) : (s.setLink l x).ethTx = s.ethTx := rfl
@[simp] theorem State.setLink_mtxSent (s : State) (l : Nat) (x : Link) : (s.setLink l x).mtxSent = s.mtxSent := rfl
@[simp] theorem State.setLink_mgmtBad (s : State) (l : Nat) (x : Link) : (s.setLink l x).mgmtBad = s.mgmtBad := rfl
@[simp] theorem State.setLink_mrxNext (s : State) (l : Nat) (x : Link) : (s.setLink l x).mrxNext = s.mrxNext := rfl
@[simp] theorem State.setLink_mtxNext (s : State) (l : Nat) (x : Link) : (s.setLink l x).mtxNext = s.mtxNext := rfl
@[simp] theorem State.setLink_pfcUntil (s : State) (l : Nat) (x : Link) : (s.setLink l x).pfcUntil = s.pfcUntil := rfl
@[simp] theorem State.setLink_samples (s : State) (l : Nat) (x : Link) : (s.setLink l x).samples = s.samples := rfl
@[simp] theorem State.setLink_reservs (s : State) (l : Nat) (x : Link) : (s.setLink l x).reservs = s.reservs := rfl
@[simp] theorem State.setLink_nextReserv (s : State) (l : Nat) (x : Link) : (s.setLink l x).nextReserv = s.nextReserv := rfl
@[simp] theorem State.setLink_pends (s : State) (l : Nat) (x : Link) : (s.setLink l x).pends = s.pends := rfl
@[simp] theorem State.setLink_thrEvents (s : State) (l : Nat) (x : Link) : (s.setLink l x).thrEvents = s.thrEvents := rfl
@[simp] theorem State.setLink_thrLog (s : State) (l : Nat) (x : Link) : (s.setLink l x).thrLog = s.thrLog := rfl
@[simp] theorem State.setLink_thrOver (s : State) (l : Nat) (x : Link) : (s.setLink l x).thrOver = s.thrOver := rfl
@[simp] theorem State.setLink_sluPtr (s : State) (l : Nat) (x : Link) : (s.setLink l x).sluPtr = s.sluPtr := rfl
@[simp] theorem State.setLink_hclkAt (s : State) (l : Nat) (x : Link) : (s.setLink l x).hclkAt = s.hclkAt := rfl
@[simp] theorem State.setLink_caps (s : State) (l : Nat) (x : Link) : (s.setLink l x).caps = s.caps := rfl
@[simp] theorem State.setLink_ramps (s : State) (l : Nat) (x : Link) : (s.setLink l x).ramps = s.ramps := rfl
@[simp] theorem State.setLink_vinOkAt (s : State) (l : Nat) (x : Link) : (s.setLink l x).vinOkAt = s.vinOkAt := rfl
@[simp] theorem State.setLink_thermtrip (s : State) (l : Nat) (x : Link) : (s.setLink l x).thermtrip = s.thermtrip := rfl
@[simp] theorem State.setLink_save (s : State) (l : Nat) (x : Link) : (s.setLink l x).save = s.save := rfl
@[simp] theorem State.setLink_ctxReqs (s : State) (l : Nat) (x : Link) : (s.setLink l x).ctxReqs = s.ctxReqs := rfl
@[simp] theorem State.setLink_rstSeq (s : State) (l : Nat) (x : Link) : (s.setLink l x).rstSeq = s.rstSeq := rfl
@[simp] theorem State.setLink_dieWaits (s : State) (l : Nat) (x : Link) : (s.setLink l x).dieWaits = s.dieWaits := rfl
@[simp] theorem State.setLink_offers (s : State) (l : Nat) (x : Link) : (s.setLink l x).offers = s.offers := rfl
@[simp] theorem State.setLink_drops (s : State) (l : Nat) (x : Link) : (s.setLink l x).drops = s.drops := rfl
@[simp] theorem State.setLink_budget (s : State) (l : Nat) (x : Link) : (s.setLink l x).budget = s.budget := rfl
@[simp] theorem State.setLink_overWin (s : State) (l : Nat) (x : Link) : (s.setLink l x).overWin = s.overWin := rfl
@[simp] theorem State.setLink_ringAgent (s : State) (l : Nat) (x : Link) : (s.setLink l x).ringAgent = s.ringAgent := rfl
@[simp] theorem State.setLink_ringBad (s : State) (l : Nat) (x : Link) : (s.setLink l x).ringBad = s.ringBad := rfl
@[simp] theorem State.setLink_siteHeld (s : State) (l : Nat) (x : Link) : (s.setLink l x).siteHeld = s.siteHeld := rfl
@[simp] theorem State.setLink_siteThrottle (s : State) (l : Nat) (x : Link) : (s.setLink l x).siteThrottle = s.siteThrottle := rfl
@[simp] theorem State.setLink_d2dPoison (s : State) (l : Nat) (x : Link) : (s.setLink l x).d2dPoison = s.d2dPoison := rfl
@[simp] theorem State.setLink_d2dWait (s : State) (l : Nat) (x : Link) : (s.setLink l x).d2dWait = s.d2dWait := rfl
@[simp] theorem State.setLink_mclkHeld (s : State) (l : Nat) (x : Link) : (s.setLink l x).mclkHeld = s.mclkHeld := rfl
@[simp] theorem State.setLink_booted (s : State) (l : Nat) (x : Link) : (s.setLink l x).booted = s.booted := rfl
@[simp] theorem State.setLink_bringup (s : State) (l : Nat) (x : Link) : (s.setLink l x).bringup = s.bringup := rfl
@[simp] theorem State.setLink_sram (s : State) (l : Nat) (x : Link) : (s.setLink l x).sram = s.sram := rfl
@[simp] theorem State.setLink_romHalted (s : State) (l : Nat) (x : Link) : (s.setLink l x).romHalted = s.romHalted := rfl
@[simp] theorem State.setLink_testMode (s : State) (l : Nat) (x : Link) : (s.setLink l x).testMode = s.testMode := rfl
@[simp] theorem State.setLink_inReset (s : State) (l : Nat) (x : Link) : (s.setLink l x).inReset = s.inReset := rfl
@[simp] theorem State.setLink_holdVin (s : State) (l : Nat) (x : Link) : (s.setLink l x).holdVin = s.holdVin := rfl
@[simp] theorem State.setLink_i3cIndex (s : State) (l : Nat) (x : Link) : (s.setLink l x).i3cIndex = s.i3cIndex := rfl
@[simp] theorem State.setLink_i3cAddr (s : State) (l : Nat) (x : Link) : (s.setLink l x).i3cAddr = s.i3cAddr := rfl
@[simp] theorem State.setLink_access (s : State) (l : Nat) (x : Link) : (s.setLink l x).access = s.access := rfl
@[simp] theorem State.setLink_freeIdx (s : State) (l : Nat) (x : Link) : (s.setLink l x).freeIdx = s.freeIdx := rfl

/-! ### Registers after an update of anything else -/

@[simp] theorem State.advance_reg (s : State) (t : Nat) (o : Nat) : (s.advance t).reg o = s.reg o := rfl
@[simp] theorem State.advance_rd (s : State) (t : Nat) (f : Fld) (i : Nat) : (s.advance t).rd f i = s.rd f i := rfl
@[simp] theorem State.advance_flag (s : State) (t : Nat) (f : Fld) (i : Nat) : (s.advance t).flag f i = s.flag f i := rfl
@[simp] theorem State.answer_reg (s : State) (g : Nat) (v : Word) (c : Nat) (p : Bool) (o : Nat) : (s.answer g v c p).reg o = s.reg o := rfl
@[simp] theorem State.answer_rd (s : State) (g : Nat) (v : Word) (c : Nat) (p : Bool) (f : Fld) (i : Nat) : (s.answer g v c p).rd f i = s.rd f i := rfl
@[simp] theorem State.answer_flag (s : State) (g : Nat) (v : Word) (c : Nat) (p : Bool) (f : Fld) (i : Nat) : (s.answer g v c p).flag f i = s.flag f i := rfl
@[simp] theorem State.answerLine_reg (s : State) (g : Nat) (v : Line) (p : Bool) (o : Nat) : (s.answerLine g v p).reg o = s.reg o := rfl
@[simp] theorem State.answerLine_rd (s : State) (g : Nat) (v : Line) (p : Bool) (f : Fld) (i : Nat) : (s.answerLine g v p).rd f i = s.rd f i := rfl
@[simp] theorem State.answerLine_flag (s : State) (g : Nat) (v : Line) (p : Bool) (f : Fld) (i : Nat) : (s.answerLine g v p).flag f i = s.flag f i := rfl
@[simp] theorem State.setByte_reg (s : State) (pa : Nat) (b : Byte) (o : Nat) : (s.setByte pa b).reg o = s.reg o := rfl
@[simp] theorem State.setByte_rd (s : State) (pa : Nat) (b : Byte) (f : Fld) (i : Nat) : (s.setByte pa b).rd f i = s.rd f i := rfl
@[simp] theorem State.setByte_flag (s : State) (pa : Nat) (b : Byte) (f : Fld) (i : Nat) : (s.setByte pa b).flag f i = s.flag f i := rfl
@[simp] theorem State.setPoison_reg (s : State) (line : Nat) (b : Bool) (o : Nat) : (s.setPoison line b).reg o = s.reg o := rfl
@[simp] theorem State.setPoison_rd (s : State) (line : Nat) (b : Bool) (f : Fld) (i : Nat) : (s.setPoison line b).rd f i = s.rd f i := rfl
@[simp] theorem State.setPoison_flag (s : State) (line : Nat) (b : Bool) (f : Fld) (i : Nat) : (s.setPoison line b).flag f i = s.flag f i := rfl
@[simp] theorem State.setHost_reg (s : State) (c : Nat) (h : HostCore) (o : Nat) : (s.setHost c h).reg o = s.reg o := rfl
@[simp] theorem State.setHost_rd (s : State) (c : Nat) (h : HostCore) (f : Fld) (i : Nat) : (s.setHost c h).rd f i = s.rd f i := rfl
@[simp] theorem State.setHost_flag (s : State) (c : Nat) (h : HostCore) (f : Fld) (i : Nat) : (s.setHost c h).flag f i = s.flag f i := rfl
@[simp] theorem State.setCore_reg (s : State) (c : Nat) (k : Core) (o : Nat) : (s.setCore c k).reg o = s.reg o := rfl
@[simp] theorem State.setCore_rd (s : State) (c : Nat) (k : Core) (f : Fld) (i : Nat) : (s.setCore c k).rd f i = s.rd f i := rfl
@[simp] theorem State.setCore_flag (s : State) (c : Nat) (k : Core) (f : Fld) (i : Nat) : (s.setCore c k).flag f i = s.flag f i := rfl
@[simp] theorem State.setQueue_reg (s : State) (q : Nat) (x : QState) (o : Nat) : (s.setQueue q x).reg o = s.reg o := rfl
@[simp] theorem State.setQueue_rd (s : State) (q : Nat) (x : QState) (f : Fld) (i : Nat) : (s.setQueue q x).rd f i = s.rd f i := rfl
@[simp] theorem State.setQueue_flag (s : State) (q : Nat) (x : QState) (f : Fld) (i : Nat) : (s.setQueue q x).flag f i = s.flag f i := rfl
@[simp] theorem State.setChan_reg (s : State) (c : Nat) (x : Chan) (o : Nat) : (s.setChan c x).reg o = s.reg o := rfl
@[simp] theorem State.setChan_rd (s : State) (c : Nat) (x : Chan) (f : Fld) (i : Nat) : (s.setChan c x).rd f i = s.rd f i := rfl
@[simp] theorem State.setChan_flag (s : State) (c : Nat) (x : Chan) (f : Fld) (i : Nat) : (s.setChan c x).flag f i = s.flag f i := rfl
@[simp] theorem State.setMbox_reg (s : State) (m : Nat) (x : Mbox) (o : Nat) : (s.setMbox m x).reg o = s.reg o := rfl
@[simp] theorem State.setMbox_rd (s : State) (m : Nat) (x : Mbox) (f : Fld) (i : Nat) : (s.setMbox m x).rd f i = s.rd f i := rfl
@[simp] theorem State.setMbox_flag (s : State) (m : Nat) (x : Mbox) (f : Fld) (i : Nat) : (s.setMbox m x).flag f i = s.flag f i := rfl
@[simp] theorem State.setLink_reg (s : State) (l : Nat) (x : Link) (o : Nat) : (s.setLink l x).reg o = s.reg o := rfl
@[simp] theorem State.setLink_rd (s : State) (l : Nat) (x : Link) (f : Fld) (i : Nat) : (s.setLink l x).rd f i = s.rd f i := rfl
@[simp] theorem State.setLink_flag (s : State) (l : Nat) (x : Link) (f : Fld) (i : Nat) : (s.setLink l x).flag f i = s.flag f i := rfl

end Sys2Proof.Machine
end

