-- ==== Sys2Proof/Laws/Steps.lean ====
section
/-! SUPPORT. What the shared operations around a command answer: the clock and the gates, a register access, an issued
tile instruction, and a line stored at its channel. -/

namespace Sys2Proof.Machine

/-- A command at a tick answers a next state, its effect at that tick if the device carries out commands. -/
theorem State.live_eq (s : State) (t : Nat) (f : State → State) :
    s.live t f = .next (if (s.advance t).awake = true then f (s.advance t) else s.advance t) := rfl

theorem State.live_awake (s : State) (t : Nat) (f : State → State) (h : (s.advance t).awake = true) :
    s.live t f = .next (f (s.advance t)) := by
  rw [State.live_eq, if_pos h]

theorem State.live_held (s : State) (t : Nat) (f : State → State) (h : s.awake = false) :
    s.live t f = .next (s.advance t) := by
  have h' : (s.advance t).awake = false := h
  rw [State.live_eq, h']
  rfl

/-- A register access does nothing, is refused as DENIED, or is performed. -/
theorem State.gate_cases (s : State) (agent off : Nat) (wr : Bool) (f : State → State) :
    (s.issues agent = false ∧ s.gate agent off wr f = s) ∨
    (s.issues agent = true ∧ s.admits agent wr (regBase + off) 8 = false ∧ s.gate agent off wr f = s.refuse agent 5 (regBase + off)) ∨
    (s.allows agent off wr = true ∧ s.gate agent off wr f = f (s.answer agent 0)) := by
  cases hi : s.issues agent with
  | false => left; simp [State.gate, hi]
  | true =>
    right
    cases ha : s.admits agent wr (regBase + off) 8 with
    | false => left; simp [State.gate, hi, ha]
    | true => right; simp [State.gate, State.allows, hi, ha]

theorem State.gate_allows (s : State) (agent off : Nat) (wr : Bool) (f : State → State)
    (h : s.allows agent off wr = true) : s.gate agent off wr f = f (s.answer agent 0) := by
  simp only [State.allows, Bool.and_eq_true] at h
  simp [State.gate, h]

/-- A core issues the instruction at its PC. -/
theorem State.issue_now (s : State) (c op : Nat) (body : BitVec 56) (f : State → Nat → Option State)
    (h : s.issuesNow c op body = true) :
    s.issue c op body f = (f (s.markIssue c) (s.rd TC_PC.PC c)).getD s := by
  simp only [State.issuesNow, Bool.and_eq_true, decide_eq_true_eq] at h
  simp [State.issue, h]

/-- An instruction with no offending field and no exception has its effect. -/
theorem State.checked_none (s : State) (c pc : Nat) (ok : Option State) : s.checked c pc none [] ok = ok := rfl

/-- Memory and the poison marks are a predicate that what leaves memory alone keeps. -/
theorem closed_memory (s : State) : Closed (fun x : State => x.mem = s.mem ∧ x.poison = s.poison) where
  other _ _ h1 h2 _ _ h := ⟨h1.trans h.1, h2.trans h.2⟩
  reg _ _ _ h := h
  dropReg _ _ _ h1 h2 _ _ h := ⟨h1.trans h.1, h2.trans h.2⟩

theorem State.byte_countWrite (s : State) (c q : Nat) : (s.countWrite c).byte q = s.byte q := by
  have h := State.countWrite_keeps (closed_memory s) (s := s) (c := c) ⟨rfl, rfl⟩
  simp only [State.byte, h.1]

theorem State.byte_countRead (s : State) (c q : Nat) : (s.countRead c).byte q = s.byte q := by
  have h := State.countRead_keeps (closed_memory s) (s := s) (c := c) ⟨rfl, rfl⟩
  simp only [State.byte, h.1]

/-- Marking a held line changes what a watched access knows and nothing else. -/
theorem State.noteHeld_eq (s : State) (line : Nat) : ∃ a, s.noteHeld line = { s with access := a } := by
  unfold State.noteHeld
  split
  · exact ⟨_, rfl⟩
  · exact ⟨s.access, rfl⟩

@[simp] theorem State.noteHeld_region (s : State) (line pa : Nat) : (s.noteHeld line).region pa = s.region pa := by
  obtain ⟨_, h⟩ := s.noteHeld_eq line
  rw [h]; rfl

@[simp] theorem State.noteHeld_inStore (s : State) (line l : Nat) : (s.noteHeld line).inStore l = s.inStore l := by
  obtain ⟨_, h⟩ := s.noteHeld_eq line
  rw [h]; rfl

@[simp] theorem State.noteHeld_hbmDead (s : State) (line pa : Nat) : (s.noteHeld line).hbmDead pa = s.hbmDead pa := by
  obtain ⟨_, h⟩ := s.noteHeld_eq line
  rw [h]; rfl

@[simp] theorem State.noteHeld_byte (s : State) (line q : Nat) : (s.noteHeld line).byte q = s.byte q := by
  obtain ⟨_, h⟩ := s.noteHeld_eq line
  rw [h]; rfl

/-- A line of HBM whose channel answers is written as memory has it; the rest of memory stays. -/
theorem State.byte_storeLine_hbm (s : State) (line : Nat) (mask : Word) (d : Line) (p : Bool) (q : Nat)
    (hr : s.region (64 * line) = .hbm) (ha : s.inStore line = true ∨ s.hbmDead (64 * line) = false) :
    (s.storeLine line mask d p).byte q =
      if q / 64 = line ∧ mask.getLsbD (q % 64) then Line.byte d (q % 64) else s.byte q := by
  rcases ha with h | h
  · simp [State.storeLine, hr, h, State.byte_putLine]
  · by_cases hs : s.inStore line = true
    · simp [State.storeLine, hr, hs, State.byte_putLine]
    · simp [State.storeLine, hr, hs, h, State.byte_countWrite, State.byte_putLine]

/-- Wherever a line is stored, the bytes of other lines stay. -/
theorem State.byte_storeLine_other (s : State) (line : Nat) (mask : Word) (d : Line) (p : Bool) (q : Nat)
    (h : q / 64 ≠ line) : (s.storeLine line mask d p).byte q = s.byte q := by
  have hb : ∀ (x : State) (f : Fld) (i n : Nat), (x.bump f i n).byte q = x.byte q := fun _ _ _ _ => rfl
  have hp : ((s.noteHeld line).putLine line mask d p).byte q = s.byte q := by
    rw [State.byte_putLine, if_neg (fun e => h e.1), State.noteHeld_byte]
  simp only [State.storeLine]
  split
  · split
    · rw [hb, State.noteHeld_byte]
    · rw [hb, hp]
  · split
    · exact hp
    · split
      · exact State.noteHeld_byte _ _ _
      · rw [State.byte_countWrite, hp]

end Sys2Proof.Machine
end

