-- ==== Sys2Proof/Tests/Slice0.lean ====
section
/-! SUPPORT. Tests: for every statement, states and operands that meet its hypotheses together, clause by clause, at the
ends of their ranges; the checks of WellFormed; and single steps whose results the manual's examples give. -/

set_option maxRecDepth 100000
set_option linter.unusedVariables false
set_option Elab.async false

namespace Sys2Proof.Tests

open Sys2Proof Sys2Proof.Machine

/-! ### States that witnesses use -/

/-- The state after reset with fields of registers set. -/
def wSet (l : List (Fld × Nat × Nat)) : State := l.foldl (fun s e => s.wr e.1 e.2.1 e.2.2) State.reset

/-- The protected fields locked, and host core 0 released. -/
def wHost (f : HostCore → HostCore) : State :=
  let s := wSet [(SYS_PROT_LOCK.LOCK, 0, 1)]
  s.setHost 0 (f { s.host 0 with released := true })

/-- Site n is ACTIVE and its descriptor names 16 agents and every class. -/
def wSite (n : Nat) : State :=
  ((wSet [(SYS_CDS_STATUS_n.STATE, n, 4)]).setReg (SYS_CDS_DESC.WORD.off (8 * n)) 0x10000000).setReg
      (SYS_CDS_DESC.WORD.off (8 * n + 1)) 0xF0000

/-- Queue 16383, enabled and ACTIVE, with commands that have been fetched. -/
def wQueue (l : List Fetched) (chosen : Bool) : State :=
  let s := wSet [(QE_Q_CFG.ENABLE, 16383, 1), (QE_Q_STATUS.STATE, 16383, 1)]
  s.setQueue 16383 { s.queue 16383 with fetched := l, chosen := chosen }

/-- Everyone is admitted everywhere, the protected fields are locked and host core 0 runs. -/
def wOpen : State :=
  { wHost id with
    dike := ⟨true, 1, 0, true, [], [], [], [], [⟨true, true, 0, 0, 2 ^ 40, 0, 0xFFFF⟩, ⟨true, true, 2, 0, 2 ^ 40, 0, 4095⟩]⟩ }

/-- The same with a change to host core 0. -/
def wOpenHost (f : HostCore → HostCore) : State := wOpen.setHost 0 (f (wOpen.host 0))

/-- A launch of queue 0 with one core and one extent, which holds the far page. -/
def wLaunch : LaunchRef := ⟨0, 0, 0, 0, 1, 0, 0, 1, 0, 0, false, 0, 1, false, [⟨0, 0, 4096, true⟩]⟩

/-- Core 0 runs a launch whose one instruction is given, with a change to the core. -/
def wTile (op : Nat) (body : BitVec 56) (f : Core → Core) : State :=
  let s := wSet [(TC_STATUS.STATE, 0, 2)]
  s.setCore 0 (f { s.core 0 with launch := some { wLaunch with progLen := 2 }, loaded := true, prog := [(0, tileWord op body)] })

/-- A LAUNCH on core 0: its program of one word at 0x2000, no parameters, its extent list of one entry at 0x1000. -/
def wLaunchCmd : Fetched := ⟨0, [0x1010001, 0x1000000002000, 0, 0x1000000001000, 0, 0, 0, 0, 1, 0, 0, 0], 0, 0⟩

/-- Queue 0 runs and its LAUNCH is chosen; a page of context 0 is in the walk cache. -/
def wLaunchState : State :=
  let s := wOpen
  let s := [(QE_Q_CFG.ENABLE, 1), (QE_Q_STATUS.STATE, 1), (TC_STATUS.STATE, 1), (TR_CTX.VALID, 1)].foldl (fun s e =>
      s.wr e.1 0 e.2) s
  let s := (s.setQueue 0 { s.queue 0 with fetched := [wLaunchCmd], chosen := true }).setBytes 0x1000 (natLE 8 0x2000
      ++ natLE 8 0x1000)
  { s with wcLeaf := [(0, [⟨0, 0, 0x200000, 0, true, true, 0⟩]), (1, [⟨0, 0, 0x200000, 0, true, true, 0⟩])] }

/-- The same, as the LAUNCH reads. -/
def wLaunchRead : State :=
  ((wLaunchState.advance 0).reading .none 0 0x4000).setQueue 0
      { (wLaunchState.advance 0).queue 0 with faulted := false }

/-- What its preparation answers. -/
def wLaunchPrep : List Extent × State :=
  match wLaunchRead.prepLaunch 0 wLaunchCmd.words with
  | (.ok exts, s) => (exts, s)
  | (_, s) => ([], s)

/-- What its admission answers. -/
def wLaunchAdmit : List (Nat × Nat) × Nat × State :=
  (wLaunchPrep.2.stepRamp (wLaunchPrep.2.launchReq 0 wLaunchCmd.words)).admitLaunch (wLaunchPrep.2.launchReq 0
      wLaunchCmd.words)

/-- A COLLECTIVE of epoch 0 and bucket 0 whose descriptor is at 0x1000. -/
def wCollCmd : Fetched := ⟨0, [0x60001, 0x1000, 0, 0, 0, 0, 0, 0], 0, 0⟩

/-- Queue 0 runs and its COLLECTIVE is chosen: 16 FP32 elements of one source, no update, in an epoch of this device
    alone. -/
def wCollState : State :=
  let s := wOpen
  let s := [(QE_Q_CFG.ENABLE, 1), (QE_Q_STATUS.STATE, 1), (CE_EPOCH_STATUS.STATE, 2), (TR_CTX.VALID, 1)].foldl (fun s
      e => s.wr e.1 0 e.2) s
  let s := (s.setQueue 0 { s.queue 0 with fetched := [wCollCmd], chosen := true }).setBytes 0x1000
    (natLE 8 (16 + 2 ^ 40) ++ natLE 8 0x4000 ++ natLE 8 0 ++ natLE 8 0x5000 ++ natLE 8 0x6000 ++ natLE 8 0x7000)
  { s with wcLeaf := [(0, [⟨0, 0, 0x200000, 0, true, true, 0⟩]), (1, [⟨0, 0, 0x200000, 0, true, true, 0⟩])],
           members := [(0, [⟨0, 0, 0⟩])] }

/-- The same, as the COLLECTIVE reads. -/
def wCollBegin : State :=
  ((wCollState.advance 0).reading .none 0 0x4000).setQueue 0 { (wCollState.advance 0).queue 0 with faulted := false }

/-- What the reading of its descriptor answers. -/
def wCollRead : List Extent × List Word × State :=
  match wCollBegin.readDesc 0 wCollCmd.words with
  | (.ok exts, d, s) => (exts, d, s)
  | (_, d, s) => ([], d, s)

/-- The slot it uses. -/
def wCollSlot : Nat :=
  match wCollBegin.collSlot wCollCmd.words with
  | some n => n
  | none => 99

/-- What the walk of its regions answers. -/
def wCollWalk : List Extent × State :=
  let s := wCollRead.2.2
  let d := wCollRead.2.1
  match s.walkRegions 0 (ceRegions d { s.shape (s.newBucket 0 wCollCmd wCollSlot d []) with e := Desc.elements d }) []
      with
  | (.ok exts, s) => (exts, s)
  | (_, s) => ([], s)

/-- Mailbox 0 is SENT by host core 0 with a command and request words; its pair runs, and host core 0 administers. -/
def wFw (code : Nat) (ws : List Word) : State :=
  let s := (wOpen.wr MB_STATUS.STATE 0 2).wr MB_STATUS.OWNER 0 0x100
  { s.setMbox 0 ⟨ws, [], code, 0, true⟩ with sram := [(1, [0])] }

/-- The value of a memory-side operation. -/
def wMopWord : MopRes → Word
  | .ok v => v
  | _ => 0

/-- Link 23 is ACTIVE with a message to send. -/
def wEgress : State :=
  let s := wSet [(LK_LINK_STATUS.STATE, 23, 2)]
  s.setLink 23 { s.link 23 with egress := [(0, [⟨1, 1, 0, 0, 0, 0, 0, [0, 0, 0, 0, 0, 0, 0, 0]⟩])] }

/-- A booted device in which a save may start. -/
def wSave : State := { wHost id with booted := true, holdVin := 12000 }

/-- A launch of queue 0 with no word of its own. -/
def wFlight : InFlight := ⟨0, 5, 1, [0x10000], none, 0, 0, 0, 0, 0, 0, false, [], [], true, 0, [], [], 0, 0, [], [],
    [], [], none, false, []⟩

/-- A tile copy of one line into the scratchpad. -/
def wCopy : CopyOp := ⟨0, false, 0, 0, 0, 0, 64, 1, 64, 0, [], 0, [], 0, 0⟩

/-- A message that came over a link in class 0. -/
def wRx (m : Msg) : RxMsg := ⟨0, 0, m, 0, 0, false, false⟩

/-- A flit of a header word and no message, with its checksum. -/
def wFlit (h : Word) : List Word :=
  let w := h :: List.replicate 30 0
  w ++ [crc64 (wordBytes w)]

/-- Port 3 is enabled and up, and peer entry 0 is valid there. -/
def wEth : State :=
  wSet [(LK_ETH_CFG.ENABLE, 3, 1), (LK_ETH_STATUS.UP, 3, 1), (LK_EPEER_CFG.VALID, 0, 1), (LK_EPEER_CFG.PORT, 0, 3)]

/-- A frame that the peer of that entry sends. -/
def wFrame : List Byte :=
  let ips := ipBytes 0 0 ++ ipBytes 0 0
  let udp := udpOf ips 0xC000 (wEth.rd LK_ETH_CFG.UDP_PORT 3) (packetBytes ⟨0, 0, 0, false, false, false, []⟩)
  natBE 12 0 ++ natBE 2 0x86DD ++ natBE 4 (6 * 2 ^ 28) ++ natBE 2 udp.length ++ [17, 64] ++ ips ++ udp

/-! ### Hypotheses that are met -/

theorem test_meets_step_runs_front_command :
    ∃ s : State, s.pending = [] :=
  ⟨State.reset, rfl⟩

theorem test_meets_step_keeps_canonical :
    ∃ s s' : State, s.canonical = true ∧ step s = .next s' :=
  ⟨State.reset, State.reset, by decide +kernel, rfl⟩

theorem test_meets_commands_keep_the_queue :
    (∃ (c : Instr) (s t : State), exec c s = .next t) ∧
    (∃ s t : State, step s = .next t) :=
  ⟨⟨.powerSample 0 ⟨[], [], 0, 0⟩, State.reset, _, rfl⟩,
   ⟨State.reset, State.reset, rfl⟩⟩

theorem test_meets_storeless_commands_keep_memory :
    ∃ (c : Instr) (s t : State), c.mayStore = false ∧ exec c s = .next t :=
  ⟨.nop 0 0 0, State.reset, _, rfl, rfl⟩

theorem test_meets_held_device_moves_only_its_clock :
    ∃ (c : Instr) (s : State), c.runsHeld = false ∧ s.awake = false :=
  ⟨.nop 0 0 0, { State.reset with inReset := true }, rfl, by decide +kernel⟩

theorem test_meets_denied_accesses_answer_denied :
    (∃ (s a : State) (t : Nat) (agent : Nat), s.runsAt t a ∧ a.issues agent = true ∧
        a.admits agent true (regBase + SY_ADD.V.off 8191) 8 = false) ∧
    (∃ (s a : State) (t : Nat) (agent : Nat), s.runsAt t a ∧ a.issues agent = true ∧
        a.admits agent false (regBase + MB_LOCK.RESULT.off 63) 8 = false) :=
  ⟨⟨wHost id, (wHost id).advance 0, 0, 0x100, ⟨rfl, by decide +kernel⟩, by decide +kernel⟩,
   ⟨wHost id, (wHost id).advance 0, 0, 0x100, ⟨rfl, by decide +kernel⟩, by decide +kernel⟩⟩

theorem test_meets_holes_are_never_admitted :
    ∃ (s : State) (agent pa len : Nat) (wr : Bool), s.admits agent wr pa len = true :=
  ⟨State.reset, 1, 0, 64, true, by decide +kernel⟩

theorem test_meets_admission_needs_rules :
    ∃ (s : State) (c pa len page : Nat) (wr : Bool), c < 96 ∧ s.admits (0x100 + c) wr pa len = true ∧ pa / 4096 ≤ page ∧
    page ≤ (pa + max len 1 - 1) / 4096 :=
  ⟨wOpen, 95, 4032, 128, 1, true, by decide +kernel⟩

theorem test_meets_granules_have_their_own_places :
    (∃ c : Nat, c < 384) ∧
    (∃ g h : Nat, channelOf g = channelOf h) :=
  ⟨⟨383, by decide⟩,
   ⟨5, 5, rfl⟩⟩

theorem test_meets_timebase_never_decreases :
    ∃ (s b c : State) (t u : Nat), b = s.advance t ∧ c = b.advance u :=
  ⟨{ State.reset with slew := -3 }, _, _, 640, 1280, rfl, rfl⟩

theorem test_meets_cell_holds_the_exact_sum :
    ∃ (l : List (Fmt × Nat)) (c : Line), (∀ x ∈ l, x.1 = .fp32 ∨ x.1 = .bf16 ∨ x.1 = .fp16) ∧ l.length ≤ 2 ^ 32 ∧
    c = l.foldl (fun c x => cellAdd c (x.1.decode (x.2 % 2 ^ x.1.width))) 0 :=
  ⟨[(.fp32, 0xFF7FFFFF), (.bf16, 1), (.fp16, 0x7C00)], _, by decide, by decide, rfl⟩

theorem test_meets_order_of_contributions_does_not_matter :
    ∃ l m : List (Fmt × Nat), (∀ x ∈ l, x.1 = .fp32 ∨ x.1 = .bf16 ∨ x.1 = .fp16) ∧ l.length ≤ 2 ^ 32 ∧ l.Perm m :=
  ⟨[(.fp32, 0x4B800000), (.bf16, 0x3F80)], [(.bf16, 0x3F80), (.fp32, 0x4B800000)], by decide, by decide,
      List.Perm.swap _ _ _⟩

theorem test_meets_settle_of_a_cell :
    ∃ (v : Int) (f : Fmt), -(2 ^ 319) ≤ v ∧ v < 2 ^ 319 ∧ (f = .fp32 ∨ f = .bf16) :=
  ⟨-(2 ^ 319), .bf16, by decide +kernel⟩

theorem test_meets_floating_additions_commute :
    (∃ f : Fmt, f = .fp32 ∨ f = .bf16 ∨ f = .fp16) ∧
    (∃ x : Nat, Fmt.fp16.decode x = .nan) :=
  ⟨⟨.fp16, by decide⟩,
   ⟨0x7C01, by decide +kernel⟩⟩

theorem test_meets_fp4_codes :
    ∃ fp4 : Nat → Bool × Int, ∀ k : Nat, fp4 k = match Fmt.e2m1.decode k with
      | .fin neg m e => (neg, unitsAt false m e (-1))
      | _ => (false, -1) :=
  ⟨_, fun _ => rfl⟩

theorem test_meets_rollbacks_and_foreign_writes :
    (∃ (s a : State) (t agent : Nat) (v : Word), s.runsAt t a ∧ a.allows agent 0x10010 true = true ∧
        a.rd TXN_STATUS.STATE = 1 ∧ a.rd TXN_STATUS.OWNER = agent ∧ TXN_ROLLBACK.GO.get v = 1) ∧
    (∃ (s a : State) (t agent : Nat), s.runsAt t a ∧ a.allows agent 0x10008 true = true ∧
        a.allows agent 0x10010 true = true ∧ (a.rd TXN_STATUS.STATE = 1 ∨ a.rd TXN_STATUS.STATE = 2) ∧
        a.rd TXN_STATUS.OWNER ≠ agent) ∧
    (∃ (s a : State) (t agent : Nat), s.runsAt t a ∧ a.allows agent 0x10008 true = true ∧
        a.allows agent 0x10010 true = true ∧ a.rd TXN_STATUS.STATE = 0) :=
  ⟨⟨wSet [(TXN_STATUS.STATE, 0, 1), (TXN_STATUS.OWNER, 0, 1)], (wSet [(TXN_STATUS.STATE, 0, 1), (TXN_STATUS.OWNER, 0,
       1)]).advance 0, 0, 1, 1, ⟨rfl, by decide +kernel⟩, by decide +kernel⟩,
   ⟨wSet [(TXN_STATUS.STATE, 0, 2), (TXN_STATUS.OWNER, 0, 2)], (wSet [(TXN_STATUS.STATE, 0, 2), (TXN_STATUS.OWNER, 0,
       2)]).advance 0, 0, 1, ⟨rfl, by decide +kernel⟩, by decide +kernel⟩,
   ⟨State.reset, State.reset.advance 0, 0, 1, ⟨rfl, by decide +kernel⟩, by decide +kernel⟩⟩

theorem test_meets_sealed_transactions_hold :
    (∃ (s a : State) (t agent off : Nat), s.runsAt t a ∧ a.rd TXN_STATUS.STATE = 2 ∧ a.rd TXN_STATUS.OWNER = agent ∧
        isTxn off = true ∧ a.issues agent = true ∧ a.accessCause agent true (regBase + off) 8 = 0 ∧
        a.allows agent 0x10008 true = true ∧ a.allows agent 0x10010 true = true) ∧
    (∃ (s a : State) (t agent : Nat), s.runsAt t a ∧ a.rd TXN_STATUS.STATE = 2 ∧ a.rd TXN_STATUS.OWNER ≠ agent ∧
        (isHost agent = true ∨ isService agent = true) ∧ a.allows agent 0x10000 false = true ∧ a.tb < a.txn.boundary) :=
  ⟨⟨wSet [(TXN_STATUS.STATE, 0, 2), (TXN_STATUS.OWNER, 0, 1)], (wSet [(TXN_STATUS.STATE, 0, 2), (TXN_STATUS.OWNER, 0,
       1)]).advance 0, 0, 1, SY_TRIG_CFG.ARM.off 8191, ⟨rfl, by decide +kernel⟩, by decide +kernel⟩,
   ⟨{ wSet [(TXN_STATUS.STATE, 0, 2), (TXN_STATUS.OWNER, 0, 2)] with txn := ⟨[], 0, 0, 1, false, 0⟩ }, State.advance
       { wSet [(TXN_STATUS.STATE, 0, 2), (TXN_STATUS.OWNER, 0, 2)] with txn := ⟨[], 0, 0, 1, false, 0⟩ } 0, 0, 1,
       ⟨rfl, by decide +kernel⟩, by decide +kernel⟩⟩

theorem test_meets_shadow_of_a_transaction :
    (∃ (s : State) (off : Nat), (s.shadowOf off).isSome = true) ∧
    (∃ (s : State) (off : Nat), s.shadowOf off = none ∧ 256 ≤ s.txn.shadow.length) ∧
    (∃ s : State, s.txn.shadow.length ≤ 256) ∧
    (∃ (s a : State) (t : Nat), s.runsAt t a ∧ a.rd TXN_STATUS.STATE = 2 ∧ a.flag TXN_STATUS.OVERFLOW = true ∧
        a.txn.boundary ≤ a.tb ∧ a.txn.signal = false) :=
  ⟨⟨{ State.reset with txn := ⟨[(8, 1)], 0, 0, 0, false, 0⟩ }, 8, by decide⟩,
   ⟨{ State.reset with txn := ⟨List.replicate 256 (8, 1), 0, 0, 0, false, 0⟩ }, 16, by decide +kernel⟩,
   ⟨{ State.reset with txn := ⟨List.replicate 256 (8, 1), 0, 0, 0, false, 0⟩ }, by decide +kernel⟩,
   ⟨wSet [(TXN_STATUS.STATE, 0, 2), (TXN_STATUS.OVERFLOW, 0, 1)], (wSet [(TXN_STATUS.STATE, 0, 2),
       (TXN_STATUS.OVERFLOW, 0, 1)]).advance 0, 0, ⟨rfl, by decide +kernel⟩, by decide +kernel⟩⟩

theorem test_meets_event_registers :
    (∃ (s : State) (c : Nat), (Tab.get (fun _ => []) s.events c).length ≤ 16 ∧
        (Tab.get (fun _ => []) s.events c).length < 16) ∧
    (∃ (s : State) (c : Nat), (Tab.get (fun _ => []) s.events c).length = 16) ∧
    (∃ (s a : State) (t agent c o : Nat) (r : List Nat), s.runsAt t a ∧ c < 96 ∧
        a.allows agent (SY_EVENT.OBJ.off c) false = true ∧ Tab.get (fun _ => []) a.events c = o :: r ∧ o < 8192) ∧
    (∃ (s a : State) (t agent c : Nat), s.runsAt t a ∧ c < 96 ∧ a.allows agent (SY_EVENT.OBJ.off c) false = true ∧
        Tab.get (fun _ => []) a.events c = []) :=
  ⟨⟨State.reset, 95, by decide +kernel⟩,
   ⟨{ State.reset with events := [(95, List.replicate 16 8191)] }, 95, by decide +kernel⟩,
   ⟨{ State.reset with events := [(95, [8191])] }, State.advance { State.reset with events := [(95, [8191])] } 0, 0,
       1, 95, 8191, [], ⟨rfl, by decide +kernel⟩, by decide +kernel⟩,
   ⟨State.reset, State.reset.advance 0, 0, 1, 95, ⟨rfl, by decide +kernel⟩, by decide +kernel⟩⟩

theorem test_meets_mailbox_windows :
    (∃ (s a : State) (t m agent due : Nat), s.runsAt t a ∧ m < 64 ∧
        due = (a.mbox m).sentAt + 2 ^ a.rd MB_CFG.TLOG2 m ∧ a.mbState m = 2 ∧ due ≤ a.now ∧
        a.responds m agent = true ∧ a.allows agent (MB_ACK.CODE.off m) true = true) ∧
    (∃ (s a : State) (t m due : Nat), s.runsAt t a ∧ m < 64 ∧ due = (a.mbox m).sentAt + 2 ^ a.rd MB_CFG.TLOG2 m ∧
        a.mbState m = 2 ∧ a.now < due) ∧
    (∃ (s a : State) (t m agent : Nat), s.runsAt t a ∧ m < 64 ∧ a.mbState m = 3 ∧ a.rd MB_ACK.CODE m = 6 ∧
        a.responds m agent = true ∧ a.allows agent (MB_ACK.CODE.off m) true = true) :=
  ⟨⟨wSet [(MB_STATUS.STATE, 63, 2), (MB_STATUS.OWNER, 63, 0x100), (SYS_PROT_LOCK.LOCK, 0, 1)], (wSet
       [(MB_STATUS.STATE, 63, 2), (MB_STATUS.OWNER, 63, 0x100), (SYS_PROT_LOCK.LOCK, 0, 1)]).advance (2 ^ 63), 2 ^ 63,
       63, 3, _, ⟨rfl, by decide +kernel⟩, by decide, rfl, by decide +kernel⟩,
   ⟨wSet [(MB_STATUS.STATE, 63, 2)], (wSet [(MB_STATUS.STATE, 63, 2)]).advance 0, 0, 63, _, ⟨rfl, by decide +kernel⟩,
       by decide, rfl, by decide +kernel⟩,
   ⟨wSet [(MB_STATUS.STATE, 0, 3), (MB_ACK.CODE, 0, 6), (MB_STATUS.OWNER, 0, 0x100)], (wSet [(MB_STATUS.STATE, 0, 3),
       (MB_ACK.CODE, 0, 6), (MB_STATUS.OWNER, 0, 0x100)]).advance 0, 0, 0, 1, ⟨rfl, by decide +kernel⟩,
       by decide +kernel⟩⟩

theorem test_meets_non_caching_writes_of_a_line :
    ∃ (s a : State) (t agent line : Nat), s.runsAt t a ∧ a.save.phase = 0 ∧ a.region (64 * line) = .hbm ∧
    a.admits agent true (64 * line) 64 = true ∧ a.holdKey line = none ∧ a.dirEntry line = none ∧ a.invq = [] ∧
    a.grants = [] ∧ (a.inStore line = true ∨ a.hbmDead (64 * line) = false) :=
  ⟨State.reset, State.reset.advance 0, 0, 1, 0x2F9FFFFFF, ⟨rfl, by decide +kernel⟩, by decide +kernel⟩

theorem test_meets_memory_side_adds_in_memory :
    ∃ (s a : State) (t agent : Nat) (r : MopReq), s.runsAt t a ∧ a.save.phase = 0 ∧ r.form = .scalar ∧
    a.region r.pa = .hbm ∧ r.pa % 8 = 0 ∧ a.admits agent true r.pa 8 = true ∧ a.dirEntry (r.pa / 64) = none ∧
    a.invq = [] ∧ a.grants = [] ∧ a.holdKey (r.pa / 64) = none ∧ a.poisoned (r.pa / 64) = false ∧
    a.hbmDead (64 * (r.pa / 64)) = false ∧ (∀ e ∈ r.found.ecc, e.1 ≠ r.pa / 64) :=
  ⟨State.reset, State.reset.advance 0, 0, 1, ⟨.scalar, 0x38, true, 1, 0, 0, 0, ⟨[], [(1, .ue)], []⟩, none⟩, ⟨rfl,
      by decide +kernel⟩, by decide +kernel⟩

theorem test_meets_objects_add_and_set :
    ∃ (s a : State) (t agent obj : Nat), s.runsAt t a ∧ obj < 8192 ∧ (∀ w ∈ a.waiters, w.obj ≠ obj) ∧
    a.flag SY_TRIG_CFG.ARM obj = false ∧ a.allows agent (SY_ADD.V.off obj) true = true ∧
    a.allows agent (SY_SET.V.off obj) true = true :=
  ⟨State.reset, State.reset.advance 0, 0, 1, 8191, ⟨rfl, by decide +kernel⟩, by decide +kernel⟩

theorem test_meets_locked_fields_keep_their_values :
    ∃ (s : State) (off : Nat) (r : Reg) (f : RField), s.locked = true ∧ regAt off = some r ∧ f ∈ r.fields ∧ f.acc = .rwl :=
  ⟨wHost id, 0x300, ((regAt 0x300).getD ⟨0, 0, 0, false, []⟩), (((regAt 0x300).getD ⟨0, 0, 0, false, []⟩).fields.getD
      0 ⟨0, 0, .ro, .free, 0⟩), by decide +kernel⟩

theorem test_meets_package_reset_keeps :
    ∃ (s a : State) (t : Nat) (src : ResetSource), a = s.advance t ∧ startsReset src = true ∧ a.save.phase = 0 :=
  ⟨State.reset, _, 1, .rstN 1000, rfl, by decide +kernel⟩

theorem test_meets_scalar_instructions_frame :
    (∃ (s a : State) (t core d : Nat) (body : BitVec 56) (k : Core), s.runsAt t a ∧ k = a.core core ∧
        d = fieldAt body 47 43 ∧ (k.nextPc (a.rd TC_PC.PC core) [4, 3, 2, 1]).2 < k.progLen ∧
        a.issuesNow core 0x40 body = true ∧
        lowestOffence body (maskBits 55 53 ||| maskBits 32 0) [(48, decide (12 < fieldAt body 52 48))] = none) ∧
    (∃ (s a : State) (t core d : Nat) (body : BitVec 56) (k : Core), s.runsAt t a ∧ k = a.core core ∧
        d = fieldAt body 47 43 ∧ (k.nextPc (a.rd TC_PC.PC core) [4, 3, 2, 1]).2 < k.progLen ∧
        a.issuesNow core 0x41 body = true ∧
        lowestOffence body (maskBits 55 53 ||| maskBits 37 32) [(48, decide (12 < fieldAt body 52 48))] = none) ∧
    (∃ (s a : State) (t core d : Nat) (body : BitVec 56) (k : Core), s.runsAt t a ∧ k = a.core core ∧
        d = fieldAt body 47 43 ∧ (k.nextPc (a.rd TC_PC.PC core) [4, 3, 2, 1]).2 < k.progLen ∧
        a.issuesNow core 0x42 body = true ∧
        lowestOffence body (maskBits 55 50 ||| maskBits 42 32) [(48, fieldAt body 49 48 == 3)] = none) ∧
    (∃ (s a : State) (t core d : Nat) (body : BitVec 56) (k : Core), s.runsAt t a ∧ k = a.core core ∧
        d = fieldAt body 47 43 ∧ (k.nextPc (a.rd TC_PC.PC core) [4, 3, 2, 1]).2 < k.progLen ∧
        a.issuesNow core 0x43 body = true ∧
        lowestOffence body (maskBits 55 48 ||| maskBits 42 8) [(0, decide (15 < fieldAt body 7 0))] = none) :=
  ⟨⟨wTile 0x40 0xCF80000000000 id, (wTile 0x40 0xCF80000000000 id).advance 0, 0, 0, _, 0xCF80000000000, _, ⟨rfl,
       by decide +kernel⟩, rfl, rfl, by decide +kernel⟩,
   ⟨wTile 0x41 0xF80000000001 id, (wTile 0x41 0xF80000000001 id).advance 0, 0, 0, _, 0xF80000000001, _, ⟨rfl,
       by decide +kernel⟩, rfl, rfl, by decide +kernel⟩,
   ⟨wTile 0x42 0xF8000000000F id, (wTile 0x42 0xF8000000000F id).advance 0, 0, 0, _, 0xF8000000000F, _, ⟨rfl,
       by decide +kernel⟩, rfl, rfl, by decide +kernel⟩,
   ⟨wTile 0x43 0xF8000000000F id, (wTile 0x43 0xF8000000000F id).advance 0, 0, 0, _, 0xF8000000000F, _, ⟨rfl,
       by decide +kernel⟩, rfl, rfl, by decide +kernel⟩⟩

theorem test_meets_package_reset_and_boot_complete :
    (∃ (s a : State) (t : Nat) (src : ResetSource), a = s.advance t ∧ (startsReset src = true) ∧ (src ≠ .hubLoss)) ∧
    (∃ (s a : State) (t : Nat) , a = s.advance t) ∧
    (∃ (s a : State) (t : Nat) (env : BootEnv), a = s.advance t ∧ (a.awake = true) ∧ (a.mayBoot = true)) ∧
    (∃ (s a : State) (t : Nat) (stack : Nat), a = s.advance t ∧ (a.awake = true) ∧ (a.mayBoot = true) ∧ (stack < 12) ∧
        (50000000 ≤ a.now)) ∧
    (∃ (s a : State) (t : Nat) (since : Nat) (left : List Nat), a = s.advance t ∧ (a.awake = true) ∧
        (a.bringup = some (since, left)) ∧ (since + 200000000 ≤ a.now)) ∧
    (∃ (s a : State) (t : Nat) (l : List Pll), a = s.advance t ∧ (l.any Pll.ofPackage = true) ∧ (a.inReset = false)) ∧
    (∃ (s a : State) (t : Nat) (l : List Pll), a = s.advance t ∧ (l.any Pll.ofPackage = false) ∧
        (l.contains .refclk = true)) ∧
    (∃ (s a : State) (t : Nat) (l : List Pll), a = s.advance t ∧ (l.any Pll.ofPackage = false) ∧
        (l.contains .refclk = false) ∧ (a.awake = true)) ∧
    (∃ (s a : State) (t : Nat) (stack : Nat), a = s.advance t ∧ (a.awake = true) ∧
        (Tab.get (fun _ => 0) a.mclkHeld stack ≠ 0)) ∧
    (∃ (s a : State) (t : Nat) (stack : Nat), a = s.advance t ∧ (a.awake = true) ∧
        (Tab.get (fun _ => 0) a.mclkHeld stack ≠ 0)) ∧
    (∃ (s a : State) (t : Nat) (hub : Nat), a = s.advance t ∧ (a.awake = true)) ∧
    (∃ (s a : State) (t : Nat) , a = s.advance t) ∧
    (∃ (s a : State) (t : Nat) , a = s.advance t) :=
  ⟨⟨(State.reset), ((State.reset).advance 0), 0, (.rstN 1000), rfl, by decide +kernel⟩,
   ⟨(State.reset), ((State.reset).advance 0), 0, rfl⟩,
   ⟨(State.reset), ((State.reset).advance 0), 0, (⟨true, true, false, false, 50000, [], []⟩), rfl, by decide +kernel⟩,
   ⟨(State.reset), ((State.reset).advance 50000000), 50000000, (11), rfl, by decide +kernel⟩,
   ⟨({ State.reset with bringup := some (0, [7]) }), (({ State.reset with bringup := some (0, [7]) }).advance
       200000000), 200000000, (0), ([7]), rfl, by decide +kernel⟩,
   ⟨(State.reset), ((State.reset).advance 0), 0, ([.mclk 3, .sclkHub 1]), rfl, by decide +kernel⟩,
   ⟨(State.reset), ((State.reset).advance 0), 0, ([.refclk, .mclk 0]), rfl, by decide +kernel⟩,
   ⟨(State.reset), ((State.reset).advance 0), 0, ([.mclk 11, .aclk 3]), rfl, by decide +kernel⟩,
   ⟨({ State.reset with mclkHeld := [(11, 1)] }), (({ State.reset with mclkHeld := [(11, 1)] }).advance 0), 0, (11),
       rfl, by decide +kernel⟩,
   ⟨({ State.reset with mclkHeld := [(0, 1)] }), (({ State.reset with mclkHeld := [(0, 1)] }).advance 0), 0, (0), rfl,
       by decide +kernel⟩,
   ⟨(State.reset), ((State.reset).advance 0), 0, (1), rfl, by decide +kernel⟩,
   ⟨(State.reset), ((State.reset).advance 0), 0, rfl⟩,
   ⟨(State.reset), ((State.reset).advance 0), 0, rfl⟩⟩

theorem test_meets_locks_and_transactions_complete :
    (∃ (s a : State) (t : Nat) (agent : Nat) (v : Word), s.runsAt t a ∧
        (a.allows agent (SYS_PROT_LOCK.LOCK.off 0) true = true)) ∧
    (∃ (s a : State) (t : Nat) (agent : Nat) (v : Word), s.runsAt t a ∧
        (a.allows agent (BOOT_RELEASE.CORE.off 0) true = true)) ∧
    (∃ (s a : State) (t : Nat) (agent off : Nat) (v : Word), s.runsAt t a ∧ (a.issues agent = true) ∧
        (a.accessCause agent true (regBase + off) 8 = 0)) ∧
    (∃ (s a : State) (t : Nat) (c num : Nat) (v : Word), s.runsAt t a ∧ (a.hostRuns c = true) ∧
        ((a.host c).barrier = 0) ∧ (num ≠ 0xC02 ∨ (a.host c).settled = true)) ∧
    (∃ (s a : State) (t : Nat) (agent : Nat), s.runsAt t a ∧ (a.allows agent 0x10000 false = true) ∧
        (ownsTxn agent = true) ∧ (a.rd TXN_STATUS.STATE = 0)) ∧
    (∃ (s a : State) (t : Nat) (agent : Nat) (v : Word) (b : State), s.runsAt t a ∧
        (b = (a.answer agent 0).storeReg agent 0x10008 v) ∧ (a.allows agent 0x10008 true = true) ∧
        (b.rd TXN_STATUS.STATE = 1) ∧ (b.rd TXN_STATUS.OWNER = agent)) ∧
    (∃ (s a : State) (t : Nat) (agent : Nat) (v : Word) (b : State), s.runsAt t a ∧
        (b = (a.answer agent 0).storeReg agent 0x10010 v) ∧ (a.allows agent 0x10010 true = true) ∧
        (b.rd TXN_STATUS.STATE = 1) ∧ (b.rd TXN_STATUS.OWNER = agent) ∧ (TXN_ROLLBACK.GO.get v = 1)) ∧
    (∃ (s a : State) (t : Nat) (agent : Nat) (v : Word) (b : State), s.runsAt t a ∧
        (b = (a.answer agent 0).storeReg agent 0x10038 v) ∧ (a.allows agent 0x10038 true = true) ∧
        (b.rd TXN_STATUS.STATE ≠ 0) ∧ (TXN_ABORT.GO.get v = 1)) ∧
    (∃ (s a : State) (t : Nat) , s.runsAt t a ∧ (a.rd TXN_STATUS.STATE = 2) ∧ (a.txn.boundary ≤ a.tb)) ∧
    (∃ (s a : State) (t : Nat) , s.runsAt t a ∧ (a.rd TXN_STATUS.STATE = 1) ∧
        (a.txn.begun + a.txn.lease * 1000 ≤ a.now)) :=
  ⟨⟨(State.reset), ((State.reset).advance 0), 0, (1), (1), ⟨rfl, by decide +kernel⟩, by decide +kernel⟩,
   ⟨(State.reset), ((State.reset).advance 0), 0, (1), (0), ⟨rfl, by decide +kernel⟩, by decide +kernel⟩,
   ⟨(State.reset), ((State.reset).advance 0), 0, (1), (SYS_TB_CFG.ENABLE.off 0), (3), ⟨rfl, by decide +kernel⟩,
       by decide +kernel⟩,
   ⟨(wHost id), ((wHost id).advance 0), 0, (0), (0xC02), (1), ⟨rfl, by decide +kernel⟩, by decide +kernel⟩,
   ⟨(State.reset), ((State.reset).advance 0), 0, (1), ⟨rfl, by decide +kernel⟩, by decide +kernel⟩,
   ⟨(wSet [(TXN_STATUS.STATE, 0, 1), (TXN_STATUS.OWNER, 0, 1)]), ((wSet [(TXN_STATUS.STATE, 0, 1), (TXN_STATUS.OWNER,
       0, 1)]).advance 0), 0, (1), (0), (_), ⟨rfl, by decide +kernel⟩, rfl, by decide +kernel⟩,
   ⟨(wSet [(TXN_STATUS.STATE, 0, 1), (TXN_STATUS.OWNER, 0, 1)]), ((wSet [(TXN_STATUS.STATE, 0, 1), (TXN_STATUS.OWNER,
       0, 1)]).advance 0), 0, (1), (1), (_), ⟨rfl, by decide +kernel⟩, rfl, by decide +kernel⟩,
   ⟨(wSet [(TXN_STATUS.STATE, 0, 2)]), ((wSet [(TXN_STATUS.STATE, 0, 2)]).advance 0), 0, (1), (1), (_), ⟨rfl,
       by decide +kernel⟩, rfl, by decide +kernel⟩,
   ⟨(wSet [(TXN_STATUS.STATE, 0, 2)]), ((wSet [(TXN_STATUS.STATE, 0, 2)]).advance 0), 0, ⟨rfl, by decide +kernel⟩,
       by decide +kernel⟩,
   ⟨(wSet [(TXN_STATUS.STATE, 0, 1)]), ((wSet [(TXN_STATUS.STATE, 0, 1)]).advance 0), 0, ⟨rfl, by decide +kernel⟩,
       by decide +kernel⟩⟩

theorem test_meets_ports_sites_and_timebase_complete :
    (∃ (s a : State) (t : Nat) (port : Nat), s.runsAt t a ∧ (port < 12)) ∧
    (∃ (s a : State) (t : Nat) (port agent pa : Nat) (into : D2dInto), s.runsAt t a ∧
        (Tab.get (fun _ => false) a.d2dWait port = true)) ∧
    (∃ (s a : State) (t : Nat) (port agent pa n : Nat) (into : D2dInto), s.runsAt t a ∧
        (n = Tab.get (fun _ => 0) a.d2dPoison port + 1) ∧ (Tab.get (fun _ => false) a.d2dWait port = true)) ∧
    (∃ (s a : State) (t : Nat) (site mean : Nat) (b : State), s.runsAt t a ∧
        (b = a.wr SYS_CDS_STATUS_n.POWER site (min mean 65535)) ∧ (site < 2) ∧ (4000 < mean)) ∧
    (∃ (s a : State) (t : Nat) (site mean : Nat), s.runsAt t a ∧ (site < 2) ∧ (mean ≤ 4000) ∧
        ((a.wr SYS_CDS_STATUS_n.POWER site (min mean 65535)).cap (sitePolder site) = 0)) ∧
    (∃ (s a : State) (t : Nat) (site mean : Nat), s.runsAt t a ∧ (site < 2) ∧ (mean ≤ 4000) ∧
        ((a.wr SYS_CDS_STATUS_n.POWER site (min mean 65535)).cap (sitePolder site) ≠ 0)) ∧
    (∃ (s a : State) (t : Nat) (site : Nat), s.runsAt t a ∧ (site < 2)) ∧
    (∃ (s a : State) (t : Nat) (site cause : Nat), s.runsAt t a ∧ (site < 2)) ∧
    (∃ (s a : State) (t : Nat) (site n cls pa size : Nat) (wr : Bool) (data : Line) (found : Found), s.runsAt t a ∧
        (site < 2) ∧ (n < 16) ∧ (1 ≤ size) ∧ (size ≤ 64) ∧ (a.siteIssues site n cls = true) ∧ (a.locked = false)) ∧
    (∃ (s a : State) (t : Nat) (site n cls pa size : Nat) (wr : Bool) (data : Line) (found : Found), s.runsAt t a ∧
        (site < 2) ∧ (n < 16) ∧ (1 ≤ size) ∧ (size ≤ 64) ∧ (a.siteIssues site n cls = true) ∧ (a.locked = true)) ∧
    (∃ (s a : State) (t : Nat) (agent : Nat) (v : Word), s.runsAt t a ∧
        (a.allows agent (SYS_TB_CFG.ENABLE.off 0) true = true)) ∧
    (∃ (s a : State) (t : Nat) (g t1 t2 t3 t4 : Nat), s.runsAt t a ∧ (a.exchanges = true) ∧
        (a.tbXchg = some ⟨g, t1, some (t2, t3, t4)⟩)) ∧
    (∃ (s a : State) (t : Nat) , s.runsAt t a ∧ (a.exchanges = true) ∧ (a.tbXchg = none) ∧
        (a.tb % 2 ^ a.rd SYS_TB_CFG.SYNC_LOG2 = 0) ∧ (a.tb ≠ a.tbFrom)) ∧
    (∃ (s a : State) (t : Nat) , s.runsAt t a ∧ (a.flag SYS_TB_CFG.ENABLE = true) ∧ (a.flag SYS_TB_CFG.ROOT = false) ∧
        (a.rd SYS_TB_STATUS.STATE = 2) ∧ (a.tbLast + 4 * 2 ^ a.rd SYS_TB_CFG.SYNC_LOG2 ≤ a.now)) :=
  ⟨⟨(State.reset), ((State.reset).advance 0), 0, (11), ⟨rfl, by decide +kernel⟩, by decide +kernel⟩,
   ⟨({ State.reset with d2dWait := [(0, true)] }), (({ State.reset with d2dWait := [(0, true)] }).advance 0), 0, (0),
       (1), (0), (.memory), ⟨rfl, by decide +kernel⟩, by decide +kernel⟩,
   ⟨({ State.reset with d2dWait := [(11, true)] }), (({ State.reset with d2dWait := [(11, true)] }).advance 0), 0,
       (11), (1), (64), (_), (.scratchpad 255 65535), ⟨rfl, by decide +kernel⟩, rfl, by decide +kernel⟩,
   ⟨(State.reset), ((State.reset).advance 0), 0, (1), (4001), (_), ⟨rfl, by decide +kernel⟩, rfl, by decide +kernel⟩,
   ⟨(State.reset), ((State.reset).advance 0), 0, (0), (4000), ⟨rfl, by decide +kernel⟩, by decide +kernel⟩,
   ⟨({ State.reset with caps := [(sitePolder 1, 1)] }), (({ State.reset with caps := [(sitePolder 1, 1)] }).advance
       0), 0, (1), (0), ⟨rfl, by decide +kernel⟩, by decide +kernel⟩,
   ⟨(State.reset), ((State.reset).advance 0), 0, (1), ⟨rfl, by decide +kernel⟩, by decide +kernel⟩,
   ⟨(State.reset), ((State.reset).advance 0), 0, (1), (3), ⟨rfl, by decide +kernel⟩, by decide +kernel⟩,
   ⟨(wSite 1), ((wSite 1).advance 0), 0, (1), (15), (3), (0), (64), (true), (0), (.none), ⟨rfl, by decide +kernel⟩,
       by decide +kernel⟩,
   ⟨((wSite 1).wr SYS_PROT_LOCK.LOCK 0 1), (((wSite 1).wr SYS_PROT_LOCK.LOCK 0 1).advance 0), 0, (1), (15), (3), (0),
       (64), (true), (0), (⟨[], [(0, .ue)], []⟩), ⟨rfl, by decide +kernel⟩, by decide +kernel⟩,
   ⟨(State.reset), ((State.reset).advance 0), 0, (1), (1), ⟨rfl, by decide +kernel⟩, by decide +kernel⟩,
   ⟨({ wSet [(SYS_TB_CFG.ENABLE, 0, 1), (SYS_TB_CFG.ROOT, 0, 0), (LK_LINK_STATUS.STATE, 0, 2)] with tbXchg := some ⟨7, 10, some (5, 6, 20)⟩ }),
       (({ wSet [(SYS_TB_CFG.ENABLE, 0, 1), (SYS_TB_CFG.ROOT, 0, 0), (LK_LINK_STATUS.STATE, 0, 2)] with tbXchg := some ⟨7, 10, some (5, 6, 20)⟩ }).advance
       0), 0, (7), (10), (5), (6), (20), ⟨rfl, by decide +kernel⟩, by decide +kernel⟩,
   ⟨(wSet [(SYS_TB_CFG.ENABLE, 0, 1), (SYS_TB_CFG.ROOT, 0, 0), (LK_LINK_STATUS.STATE, 0, 2)]), ((wSet
       [(SYS_TB_CFG.ENABLE, 0, 1), (SYS_TB_CFG.ROOT, 0, 0), (LK_LINK_STATUS.STATE, 0, 2)]).advance 1048576), 1048576,
       ⟨rfl, by decide +kernel⟩, by decide +kernel⟩,
   ⟨(wSet [(SYS_TB_CFG.ENABLE, 0, 1), (SYS_TB_CFG.ROOT, 0, 0), (SYS_TB_STATUS.STATE, 0, 2)]), ((wSet
       [(SYS_TB_CFG.ENABLE, 0, 1), (SYS_TB_CFG.ROOT, 0, 0), (SYS_TB_STATUS.STATE, 0, 2)]).advance 4194304), 4194304,
       ⟨rfl, by decide +kernel⟩, by decide +kernel⟩⟩

theorem test_meets_translation_completes :
    (∃ (s a : State) (t : Nat) (agent ring : Nat) (v : Word), s.runsAt t a ∧ (ring < 21) ∧
        ((ringOf ring).enable.get v = 1) ∧ (a.allows agent ((ringOf ring).enable.off (ringOf ring).idx) true = true) ∧
        (a.rd TXN_STATUS.STATE = 0)) ∧
    (∃ (s a : State) (t : Nat) (agent ctx : Nat) (v : Word), s.runsAt t a ∧ (ctx < 4096) ∧
        (a.allows agent (TR_CTX.VALID.off ctx) true = true)) ∧
    (∃ (s a : State) (t : Nat) (agent : Nat) (v : Word) (b : State), s.runsAt t a ∧
        (b = (a.answer agent 0).storeReg agent (TR_INVAL_AST.TAG.off 0) v) ∧
        (a.allows agent (TR_INVAL_AST.TAG.off 0) true = true) ∧ (b.invals.length < 64)) ∧
    (∃ (s a : State) (t : Nat) (k : Nat) (x : Inval), s.runsAt t a ∧ (a.invals.find? (fun y => y.k == k) = some x) ∧
        (x.marked.any a.stillHeld = false)) ∧
    (∃ (s a : State) (t : Nat) (slot : Nat) (f : OpenFault) (due : List (Nat × Nat)), s.runsAt t a ∧
        (due = (f.unlisted.filter fun e => decide (e.2 < a.now)).take 16) ∧
        (a.faults.find? (fun g => g.slot == slot) = some f) ∧ (due.isEmpty = false) ∧ (a.edge 1000 = true)) ∧
    (∃ (s a : State) (t : Nat) (agent : Nat) (v : Word) (b : State) (f : OpenFault), s.runsAt t a ∧
        (b = (a.answer agent 0).storeReg agent (TR_FAULT_RESOLVE.SLOT.off 0) v) ∧
        (a.allows agent (TR_FAULT_RESOLVE.SLOT.off 0) true = true) ∧
        (b.faults.find? (fun g => g.slot == TR_FAULT_RESOLVE.SLOT.get v && g.seq % 2 ^ 32 == TR_FAULT_RESOLVE.SEQ.get
        v) = some f)) ∧
    (∃ (s a : State) (t : Nat) (q : Nat) (found : Found), s.runsAt t a ∧ ((a.queue q).chosen = true) ∧
        (a.save.phase = 0)) ∧
    (∃ (s a : State) (t : Nat) (q va : Nat) (found : Found), s.runsAt t a ∧ (a.qRuns q = true) ∧
        ((((a.queue q).fetched.take 4).flatMap fun f => cmdRanges f.words).any (fun r => decide (r.1 ≤ va) && decide
        (va < r.1 + r.2)) = true)) :=
  ⟨⟨(State.reset), ((State.reset).advance 0), 0, (1), (20), ((ringOf 20).enable.mask), ⟨rfl, by decide +kernel⟩,
       by decide +kernel⟩,
   ⟨(State.reset), ((State.reset).advance 0), 0, (1), (4095), (1), ⟨rfl, by decide +kernel⟩, by decide +kernel⟩,
   ⟨(State.reset), ((State.reset).advance 0), 0, (1), (7), (_), ⟨rfl, by decide +kernel⟩, rfl, by decide +kernel⟩,
   ⟨({ State.reset with invals := [⟨3, 0, [], false, 0, 1⟩] }),
       (({ State.reset with invals := [⟨3, 0, [], false, 0, 1⟩] }).advance 0), 0, (3), (⟨3, 0, [], false, 0, 1⟩),
       ⟨rfl, by decide +kernel⟩, by decide +kernel⟩,
   ⟨({ State.reset with faults := [⟨255, 0, 0, 0, 0, [1], [(1, 0)], 0, 0⟩] }),
       (({ State.reset with faults := [⟨255, 0, 0, 0, 0, [1], [(1, 0)], 0, 0⟩] }).advance 1000), 1000, (255), (⟨255,
       0, 0, 0, 0, [1], [(1, 0)], 0, 0⟩), (_), ⟨rfl, by decide +kernel⟩, rfl, by decide +kernel⟩,
   ⟨({ State.reset with faults := [⟨0, 0, 0, 0, 0, [1], [], 0, 0⟩] }),
       (({ State.reset with faults := [⟨0, 0, 0, 0, 0, [1], [], 0, 0⟩] }).advance 0), 0, (1), (0), (_), (⟨0, 0, 0, 0,
       0, [1], [], 0, 0⟩), ⟨rfl, by decide +kernel⟩, rfl, by decide +kernel⟩,
   ⟨(wQueue [⟨0, [0x40000, 0], 0, 0⟩] true), ((wQueue [⟨0, [0x40000, 0], 0, 0⟩] true).advance 0), 0, (16383), (⟨[],
       [(1, .ce 3)], []⟩), ⟨rfl, by decide +kernel⟩, by decide +kernel⟩,
   ⟨(wQueue [⟨0, [0x30000, 0x1000, 8], 0, 0⟩] true), ((wQueue [⟨0, [0x30000, 0x1000, 8], 0, 0⟩] true).advance 0), 0,
       (16383), (0x1007), (.none), ⟨rfl, by decide +kernel⟩, by decide +kernel⟩⟩

theorem test_meets_host_accesses_complete :
    (∃ (s a : State) (t : Nat) (core pa size tag : Nat) (kind : AccessKind) (found : Found) (x : List Byte) (b r :
        State), s.runsAt t a ∧ (b = (a.reading found 0 (0x100 + core)).tlbUse core tag) ∧ (r = b.loaded core kind x) ∧
        (a.hostIssues core = true) ∧ (1 ≤ size) ∧ (size ≤ 64) ∧ (kind ≠ .cmo) ∧ (kind ≠ .fetch) ∧
        (b.loadStalls core = false) ∧ (b.hostCause core false pa size kind = 0) ∧
        ((b.host core).overlaps pa size = true) ∧ (b.forwarded core pa size = some x) ∧
        ((a.reading found 0 (0x100 + core)).readsCaches core pa size kind = false) ∧ (r.access.blocked = none)) ∧
    (∃ (s a : State) (t : Nat) (core pa size tag : Nat) (kind : AccessKind) (found : Found) (x : List Byte × Option
        Nat × State) (b r : State), s.runsAt t a ∧
        (b = ((a.reading found 0 (0x100 + core)).ownParity core (linesOf pa size) found).tlbUse core tag) ∧
        (r = x.2.2.loaded core kind x.1) ∧ (a.hostIssues core = true) ∧ (1 ≤ size) ∧ (size ≤ 64) ∧ (kind ≠ .cmo) ∧
        ((a.reading found 0 (0x100 + core)).readsCaches core pa size kind = true) ∧ (b.loadStalls core = false) ∧
        (b.hostCause core false pa size kind = 0) ∧ (kind = .fetch ∨ (b.host core).overlaps pa size = false) ∧
        (b.region pa ≠ .peer) ∧ (b.region pa ≠ .regs) ∧ (b.hostBytes core pa size (kind == .fetch) = some x) ∧
        (x.2.1 = none) ∧ (r.access.blocked = none)) ∧
    (∃ (s a : State) (t : Nat) (core pa size tag : Nat) (kind : AccessKind) (found : Found) (b r : State), s.runsAt t
        a ∧ (b = ((a.reading found 0 (0x100 + core)).ownParity core (linesOf pa size) found).tlbUse core tag) ∧
        (r = b.doLoad core pa size tag kind) ∧ (a.hostIssues core = true) ∧ (1 ≤ size) ∧ (size ≤ 64) ∧ (kind ≠ .cmo) ∧
        ((a.reading found 0 (0x100 + core)).readsCaches core pa size kind = true) ∧ (b.loadStalls core = false) ∧
        (b.hostCause core false pa size kind = 0) ∧ (kind = .fetch ∨ (b.host core).overlaps pa size = false) ∧
        (b.region pa = .peer ∨ b.region pa = .regs) ∧ (r.access.blocked = none)) ∧
    (∃ (s a : State) (t : Nat) (core pa size tag line : Nat) (kind : AccessKind) (found : Found) (x : List Byte ×
        Option Nat × State) (b r : State), s.runsAt t a ∧
        (b = ((a.reading found 0 (0x100 + core)).ownParity core (linesOf pa size) found).tlbUse core tag) ∧
        (r = x.2.2.poisonFault core line) ∧ (a.hostIssues core = true) ∧ (1 ≤ size) ∧ (size ≤ 64) ∧ (kind ≠ .cmo) ∧
        ((a.reading found 0 (0x100 + core)).readsCaches core pa size kind = true) ∧ (b.loadStalls core = false) ∧
        (b.hostCause core false pa size kind = 0) ∧ (kind = .fetch ∨ (b.host core).overlaps pa size = false) ∧
        (b.region pa ≠ .peer) ∧ (b.region pa ≠ .regs) ∧ (b.hostBytes core pa size (kind == .fetch) = some x) ∧
        (x.2.1 = some line) ∧ (r.access.blocked = none)) ∧
    (∃ (s a : State) (t : Nat) (core pa size tag : Nat) (kind : AccessKind) (found : Found) (b r : State), s.runsAt t
        a ∧ (b = (a.reading found 0 (0x100 + core)).tlbUse core tag) ∧
        (r = b.accessFault core (b.hostCause core false pa size kind) pa) ∧ (a.hostIssues core = true) ∧ (1 ≤ size) ∧
        (size ≤ 64) ∧ ((a.reading found 0 (0x100 + core)).readsCaches core pa size kind = false) ∧
        (b.loadStalls core = false) ∧ (b.hostCause core false pa size kind ≠ 0) ∧ (r.access.blocked = none)) ∧
    (∃ (s a : State) (t : Nat) (core pa size tag : Nat) (kind : AccessKind) (data : Line) (b : State), s.runsAt t a ∧
        (b = a.tlbUse core tag) ∧ (a.hostIssues core = true) ∧ (1 ≤ size) ∧ (size ≤ 64) ∧
        (b.storeStalls core (storePieces pa size data).length = false) ∧ (b.hostCause core true pa size kind ≠ 0)) ∧
    (∃ (s a : State) (t : Nat) (core pa size tag op : Nat) (x y : Word) (found : Found), s.runsAt t a ∧
        (a.hostIssues core = true) ∧ (a.atomicStalls core = false) ∧ (a.atomicCause core true pa size ≠ 0)) ∧
    (∃ (s a : State) (t : Nat) (core pa size tag : Nat) (found : Found), s.runsAt t a ∧ (a.hostIssues core = true) ∧
        (a.loadStalls core = false) ∧ (a.atomicCause core false pa size ≠ 0)) ∧
    (∃ (s a : State) (t : Nat) (core pa size tag : Nat) (kind : AccessKind) (data : Line) (b : State), s.runsAt t a ∧
        (b = a.tlbUse core tag) ∧ (a.hostIssues core = true) ∧ (1 ≤ size) ∧ (size ≤ 64) ∧ (kind ≠ .cmo) ∧
        (kind ≠ .fetch) ∧ (b.storeStalls core (storePieces pa size data).length = false) ∧
        (b.hostCause core true pa size kind = 0)) ∧
    (∃ (s a : State) (t : Nat) (core i : Nat) (e : SbEntry) (found : Found) (m : State) (b r : State), s.runsAt t a ∧
        (b = ((a.reading found 0 (0x100 + core)).ownParity core [e.pa / 64] found).settle (e.pa / 64)) ∧ (r = m) ∧
        (core < 96) ∧ ((a.host core).sb[i]? = some e) ∧ (e.sent = false) ∧ (a.mayStore core i e = true) ∧
        (a.region e.pa ≠ .peer) ∧ ((a.region e.pa).coherent = true) ∧ (b.performCached core e = some m) ∧
        (r.access.blocked = none)) ∧
    (∃ (s a : State) (t : Nat) (core i : Nat) (ack : AckKind) (e : SbEntry) (found : Found), s.runsAt t a ∧
        (core < 96) ∧ ((a.host core).sb[i]? = some e) ∧ (e.sent = true)) ∧
    (∃ (s a : State) (t : Nat) (core i : Nat) (e : SbEntry) (found : Found), s.runsAt t a ∧ (core < 96) ∧
        ((a.host core).sb[i]? = some e) ∧ (e.sent = false) ∧ (a.mayStore core i e = true) ∧ (a.region e.pa ≠ .peer) ∧
        ((a.region e.pa).coherent = false)) ∧
    (∃ (s a : State) (t : Nat) (core pa size tag op : Nat) (x y old : Word) (found : Found) (m : State) (b r : State),
        s.runsAt t a ∧ (b = (a.reading found 2 (0x100 + core)).tlbUse core tag) ∧
        (r = m.loaded core .plain (natLE size old.toNat)) ∧ (a.hostIssues core = true) ∧
        (a.atomicStalls core = false) ∧ (a.atomicCause core true pa size = 0) ∧
        (([1, 2, 4, 8] : List Nat).contains size = true) ∧ (pa % size = 0) ∧ (mopSize op = some size) ∧
        (b.mop (0x100 + core) op ⟨.scalar, pa, true, hostOperand size op x y, 0, 0, 0, .none, none⟩ = (some (.ok old),
        m)) ∧ (r.access.blocked = none)) ∧
    (∃ (s a : State) (t : Nat) (core pa size tag op : Nat) (x y : Word) (found : Found) (b r : State), s.runsAt t a ∧
        (b = (a.reading found 0 (0x100 + core)).tlbUse core tag) ∧ (r = b.homeAtomic core pa size op x y) ∧
        (a.hostIssues core = true) ∧ (a.atomicStalls core = false) ∧ (a.atomicCause core true pa size = 0) ∧
        (([1, 2, 4, 8] : List Nat).contains size = true) ∧ (pa % size = 0) ∧ (mopSize op = none) ∧
        (((b.coTake (pa / 64)).fetchLine (pa / 64)).2.1 = false) ∧ (r.access.blocked = none)) ∧
    (∃ (s a : State) (t : Nat) (core pa size tag : Nat) (found : Found) (x : List Byte × Option Nat × State) (b r :
        State), s.runsAt t a ∧ (b = ((a.reading found 0 (0x100 + core)).ownParity core [pa / 64] found).tlbUse core
        tag) ∧ (r = (x.2.2.setHost core { x.2.2.host core with resv := some (pa / 64) }).loaded core .plain x.1) ∧
        (a.hostIssues core = true) ∧ (a.loadStalls core = false) ∧ (a.atomicCause core false pa size = 0) ∧
        (1 ≤ size) ∧ (pa / 64 = (pa + size - 1) / 64) ∧ ((a.host core).overlaps pa size = false) ∧
        (b.hostBytes core pa size = some x) ∧ (x.2.1 = none) ∧ (r.access.blocked = none)) ∧
    (∃ (s a : State) (t : Nat) (core pa size tag : Nat) (data : Word) (broken : Bool) (b m : State), s.runsAt t a ∧
        (b = if broken then a.setHost core { a.host core with resv := none } else a) ∧ (m = b.tlbUse core tag) ∧
        (a.hostIssues core = true) ∧ (a.atomicStalls core = false) ∧ (b.atomicCause core true pa size = 0) ∧
        (1 ≤ size) ∧ (size ≤ 8) ∧ (pa / 64 = (pa + size - 1) / 64) ∧ ((m.host core).resv ≠ some (pa / 64))) ∧
    (∃ (s a : State) (t : Nat) (core pa size tag : Nat) (data : Word) (broken : Bool) (b m : State), s.runsAt t a ∧
        (b = if broken then a.setHost core { a.host core with resv := none } else a) ∧ (m = b.tlbUse core tag) ∧
        (a.hostIssues core = true) ∧ (a.atomicStalls core = false) ∧ (b.atomicCause core true pa size = 0) ∧
        (1 ≤ size) ∧ (size ≤ 8) ∧ (pa / 64 = (pa + size - 1) / 64) ∧ ((m.host core).resv = some (pa / 64)) ∧
        ((m.host core).cache.any (fun x => x.line == pa / 64 && x.excl) = true)) ∧
    (∃ (s a : State) (t : Nat) (core pa size tag : Nat) (data : Word) (broken : Bool) (b m : State), s.runsAt t a ∧
        (b = if broken then a.setHost core { a.host core with resv := none } else a) ∧ (m = b.tlbUse core tag) ∧
        (a.hostIssues core = true) ∧ (a.atomicStalls core = false) ∧ (b.atomicCause core true pa size = 0) ∧
        (1 ≤ size) ∧ (size ≤ 8) ∧ (pa / 64 = (pa + size - 1) / 64) ∧ ((m.host core).resv = some (pa / 64)) ∧
        ((m.host core).cache.any (fun x => x.line == pa / 64 && x.excl) = false)) :=
  ⟨⟨(((wOpenHost fun h => { h with sb := [⟨0, 8, 5, 0, false, 0⟩] }).wr HC_STRICT.STRICT 0 0)), ((((wOpenHost fun h =>
       { h with sb := [⟨0, 8, 5, 0, false, 0⟩] }).wr HC_STRICT.STRICT 0 0)).advance 0), 0, (0), (0), (1), (4095),
       (.plain), (⟨[], [(0, .ce 3)], []⟩), ([5]), (_), (_), ⟨rfl, by decide +kernel⟩, rfl, rfl, by decide +kernel⟩,
   ⟨(wOpen), ((wOpen).advance 0), 0, (0), (0), (1), (4095), (.plain), (.none), (((State.tlbUse (State.ownParity
       ((wOpen.advance 0).reading .none 0 0x100) 0 [0] .none) 0 4095).hostBytes 0 0 1).getD ([], none, State.reset)),
       (_), (_), ⟨rfl, by decide +kernel⟩, rfl, rfl, by decide +kernel⟩,
   ⟨(wOpen), ((wOpen).advance 0), 0, (0), (regBase), (8), (4095), (.plain), (.none), (_), (_), ⟨rfl,
       by decide +kernel⟩, rfl, rfl, by decide +kernel⟩,
   ⟨({ wOpen with poison := [(0, true)] }), (({ wOpen with poison := [(0, true)] }).advance 0), 0, (0), (0), (1),
       (4095), (0), (.plain), (.none), (((State.tlbUse (State.ownParity (({ wOpen with poison := [(0, true)] }.advance
       0).reading .none 0 0x100) 0 [0] .none) 0 4095).hostBytes 0 0 1).getD ([], none, State.reset)), (_), (_), ⟨rfl,
       by decide +kernel⟩, rfl, rfl, by decide +kernel⟩,
   ⟨(wOpen), ((wOpen).advance 0), 0, (0), (farBase), (1), (4095), (.plain), (.none), (_), (_), ⟨rfl,
       by decide +kernel⟩, rfl, rfl, by decide +kernel⟩,
   ⟨(wOpen), ((wOpen).advance 0), 0, (0), (farBase), (8), (4095), (.plain), (7), (_), ⟨rfl, by decide +kernel⟩, rfl,
       by decide +kernel⟩,
   ⟨(wOpen), ((wOpen).advance 0), 0, (0), (keepBase), (8), (1), (2), (1), (0), (.none), ⟨rfl, by decide +kernel⟩,
       by decide +kernel⟩,
   ⟨(wOpen), ((wOpen).advance 0), 0, (0), (keepBase), (8), (1), (.none), ⟨rfl, by decide +kernel⟩, by decide +kernel⟩,
   ⟨(wOpen), ((wOpen).advance 0), 0, (0), (60), (64), (4095), (.plain), (7), (_), ⟨rfl, by decide +kernel⟩, rfl,
       by decide +kernel⟩,
   ⟨((wOpenHost fun h => { h with sb := [⟨0, 8, 5, 0, false, 0⟩], cache := [⟨0, 0, false, true, false, false⟩] })),
       (((wOpenHost fun h => { h with sb := [⟨0, 8, 5, 0, false, 0⟩], cache := [⟨0, 0, false, true, false, false⟩] })).advance
       0), 0, (0), (0), (⟨0, 8, 5, 0, false, 0⟩), (⟨[], [(0, .ce 3)], []⟩), (((((State.ownParity (((wOpenHost fun h =>
       { h with sb := [⟨0, 8, 5, 0, false, 0⟩], cache := [⟨0, 0, false, true, false, false⟩] }).advance 0).reading
       ⟨[], [(0, .ce 3)], []⟩ 0 0x100) 0 [0] ⟨[], [(0, .ce 3)], []⟩).settle 0).performCached 0 ⟨0, 8, 5, 0, false,
       0⟩).getD State.reset)), (_), (_), ⟨rfl, by decide +kernel⟩, rfl, rfl, by decide +kernel⟩,
   ⟨(wOpenHost fun h => { h with sb := [⟨peerBase, 8, 5, 0, true, 0⟩] }), ((wOpenHost fun h =>
       { h with sb := [⟨peerBase, 8, 5, 0, true, 0⟩] }).advance 0), 0, (0), (0), (.lost), (⟨peerBase, 8, 5, 0, true,
       0⟩), (.none), ⟨rfl, by decide +kernel⟩, by decide +kernel⟩,
   ⟨(wOpenHost fun h => { h with sb := [⟨keepBase, 8, 5, 0, false, 0⟩] }), ((wOpenHost fun h =>
       { h with sb := [⟨keepBase, 8, 5, 0, false, 0⟩] }).advance 0), 0, (0), (0), (⟨keepBase, 8, 5, 0, false, 0⟩),
       (.none), ⟨rfl, by decide +kernel⟩, by decide +kernel⟩,
   ⟨(wOpen), ((wOpen).advance 0), 0, (0), (8), (8), (1), (2), (1), (0), (wMopWord ((((State.tlbUse ((wOpen.advance
       0).reading .none 2 0x100) 0 1).mop 0x100 2 ⟨.scalar, 8, true, hostOperand 8 2 1 0, 0, 0, 0, .none,
       none⟩).1).getD .poison)), (.none), (((State.tlbUse ((wOpen.advance 0).reading .none 2 0x100) 0 1).mop 0x100 2
       ⟨.scalar, 8, true, hostOperand 8 2 1 0, 0, 0, 0, .none, none⟩).2), (_), (_), ⟨rfl, by decide +kernel⟩, rfl,
       rfl, by decide +kernel⟩,
   ⟨(wOpen), ((wOpen).advance 0), 0, (0), (63), (1), (2), (0), (1), (0), (.none), (_), (_), ⟨rfl, by decide +kernel⟩,
       rfl, rfl, by decide +kernel⟩,
   ⟨(wOpen), ((wOpen).advance 0), 0, (0), (56), (8), (4095), (.none), (((State.tlbUse (State.ownParity ((wOpen.advance
       0).reading .none 0 0x100) 0 [0] .none) 0 4095).hostBytes 0 56 8).getD ([], none, State.reset)), (_), (_), ⟨rfl,
       by decide +kernel⟩, rfl, rfl, by decide +kernel⟩,
   ⟨(wOpenHost fun h => { h with resv := some 0 }), ((wOpenHost fun h => { h with resv := some 0 }).advance 0), 0,
       (0), (56), (8), (0), (1), (true), (_), (_), ⟨rfl, by decide +kernel⟩, rfl, rfl, by decide +kernel⟩,
   ⟨(wOpenHost fun h => { h with resv := some 0, cache := [⟨0, 0, false, true, false, false⟩] }), ((wOpenHost fun h =>
       { h with resv := some 0, cache := [⟨0, 0, false, true, false, false⟩] }).advance 0), 0, (0), (56), (8), (0),
       (1), (false), (_), (_), ⟨rfl, by decide +kernel⟩, rfl, rfl, by decide +kernel⟩,
   ⟨(wOpenHost fun h => { h with resv := some 0 }), ((wOpenHost fun h => { h with resv := some 0 }).advance 0), 0,
       (0), (56), (8), (0), (1), (false), (_), (_), ⟨rfl, by decide +kernel⟩, rfl, rfl, by decide +kernel⟩⟩

theorem test_meets_barriers_and_system_registers_complete :
    (∃ (s a : State) (t : Nat) (core : Nat), s.runsAt t a ∧ (a.hostRuns core = true) ∧ ((a.host core).barrier = 0) ∧
        ((a.host core).scPend = none)) ∧
    (∃ (s a : State) (t : Nat) (core : Nat), s.runsAt t a ∧ (a.hostRuns core = true) ∧ ((a.host core).barrier = 0) ∧
        ((a.host core).scPend = none)) ∧
    (∃ (s a : State) (t : Nat) (core : Nat), s.runsAt t a ∧ (a.hostRuns core = true) ∧ ((a.host core).barrier = 0) ∧
        ((a.host core).scPend = none)) ∧
    (∃ (s a : State) (t : Nat) (core : Nat), s.runsAt t a ∧ (a.hostRuns core = true) ∧ ((a.host core).barrier = 0) ∧
        ((a.host core).scPend = none)) ∧
    (∃ (s a : State) (t : Nat) (core : Nat), s.runsAt t a ∧ (a.hostRuns core = true) ∧ ((a.host core).barrier = 0) ∧
        ((a.host core).scPend = none)) ∧
    (∃ (s a : State) (t : Nat) (core tag : Nat) (b : State), s.runsAt t a ∧ (b = a.tlbDrop tag) ∧
        (a.hostRuns core = true) ∧ ((a.host core).barrier = 0)) ∧
    (∃ (s a : State) (t : Nat) (core : Nat) (returned : Bool), s.runsAt t a ∧ (a.hostRuns core = true) ∧
        ((a.host core).barrier = 0)) ∧
    (∃ (s a : State) (t : Nat) (core : Nat) (returned : Bool) (v : Word), s.runsAt t a ∧ (a.hostRuns core = true) ∧
        ((a.host core).barrier = 0) ∧ ((a.host core).settled = true)) ∧
    (∃ (s a : State) (t : Nat) (core : Nat) (v : Word), s.runsAt t a ∧ (a.hostRuns core = true) ∧
        ((a.host core).barrier = 0)) :=
  ⟨⟨(wHost id), ((wHost id).advance 0), 0, (0), ⟨rfl, by decide +kernel⟩, by decide +kernel⟩,
   ⟨(wHost id), ((wHost id).advance 0), 0, (0), ⟨rfl, by decide +kernel⟩, by decide +kernel⟩,
   ⟨(wHost id), ((wHost id).advance 0), 0, (0), ⟨rfl, by decide +kernel⟩, by decide +kernel⟩,
   ⟨(wHost id), ((wHost id).advance 0), 0, (0), ⟨rfl, by decide +kernel⟩, by decide +kernel⟩,
   ⟨(wHost id), ((wHost id).advance 0), 0, (0), ⟨rfl, by decide +kernel⟩, by decide +kernel⟩,
   ⟨(wHost fun h => { h with tlb := [4095, 1] }), ((wHost fun h => { h with tlb := [4095, 1] }).advance 0), 0, (0),
       (4095), (_), ⟨rfl, by decide +kernel⟩, rfl, by decide +kernel⟩,
   ⟨(wHost id), ((wHost id).advance 0), 0, (0), (true), ⟨rfl, by decide +kernel⟩, by decide +kernel⟩,
   ⟨(wHost id), ((wHost id).advance 0), 0, (0), (true), (0), ⟨rfl, by decide +kernel⟩, by decide +kernel⟩,
   ⟨(wHost id), ((wHost id).advance 0), 0, (0), (8), ⟨rfl, by decide +kernel⟩, by decide +kernel⟩⟩

theorem test_meets_home_requests_complete :
    (∃ (s a : State) (t : Nat) (core line : Nat) (parityOk : Bool) (x : CacheLine), s.runsAt t a ∧
        ((a.host core).cache.find? (fun x => x.line == line) = some x) ∧ (a.awaits core line = false)) ∧
    (∃ (s a : State) (t : Nat) (core line : Nat) (x : CacheLine), s.runsAt t a ∧
        ((a.host core).wb.find? (fun x => x.line == line) = some x) ∧ (x.dirty = false) ∧ (x.poison = false)) ∧
    (∃ (s a : State) (t : Nat) (core line : Nat) (x : CacheLine), s.runsAt t a ∧
        ((a.host core).wb.find? (fun x => x.line == line) = some x) ∧ (a.homeTakes line = true) ∧
        (x.dirty = true ∨ x.poison = true) ∧ (a.holdKey line = none)) ∧
    (∃ (s a : State) (t : Nat) (core line : Nat) (found : Found) (x : Line × Bool × State) (b r : State), s.runsAt t a
        ∧ (b = a.reading found 0 (0x100 + core)) ∧ (r = x.2.2.answerLine (0x100 + core) x.1 x.2.1) ∧
        (a.homeTakes line = true) ∧ ((a.host core).released = true) ∧ (a.holdKey line = none) ∧
        (b.readShared core line = some x) ∧ (r.access.blocked = none)) ∧
    (∃ (s a : State) (t : Nat) (core line : Nat) (found : Found) (m : State) (b r : State), s.runsAt t a ∧
        (b = a.reading found 0 (0x100 + core)) ∧ (r = m) ∧ (a.homeTakes line = true) ∧
        ((a.host core).released = true) ∧ (a.holdKey line = none) ∧ (b.readOwn core line = some m) ∧
        (r.access.blocked = none)) ∧
    (∃ (s a : State) (t : Nat) (core line : Nat) (found : Found) (b r : State), s.runsAt t a ∧
        (b = ((a.reading found 0 (0x100 + core)).flushWb core line).lookup line) ∧
        (r = b.setHost core { b.host core with scPend := none, scOk := false, resv := none }) ∧
        (a.asksCond core line = true) ∧ (a.holdKey line = none) ∧ (b.dirEntry line = none) ∧
        (r.access.blocked = none)) ∧
    (∃ (s a : State) (t : Nat) (core line : Nat) (found : Found) (m : State) (e : DirEntry) (b r : State), s.runsAt t
        a ∧ (b = ((a.reading found 0 (0x100 + core)).flushWb core line).lookup line) ∧ (r = m) ∧
        (a.asksCond core line = true) ∧ (a.holdKey line = none) ∧ (b.dirEntry line = some e) ∧
        (e.state = 2 ∨ ((e.state = 1 ∨ e.state = 3) ∧ e.ptrs.contains core = true)) ∧ (b.readOwn core line = some m) ∧
        (r.access.blocked = none)) :=
  ⟨⟨(wOpenHost fun h => { h with cache := [⟨0, 7, false, true, false, false⟩] }), ((wOpenHost fun h =>
       { h with cache := [⟨0, 7, false, true, false, false⟩] }).advance 0), 0, (0), (0), (false), (⟨0, 7, false, true,
       false, false⟩), ⟨rfl, by decide +kernel⟩, by decide +kernel⟩,
   ⟨(wOpenHost fun h => { h with wb := [⟨0, 7, false, true, false, false⟩] }), ((wOpenHost fun h =>
       { h with wb := [⟨0, 7, false, true, false, false⟩] }).advance 0), 0, (0), (0), (⟨0, 7, false, true, false,
       false⟩), ⟨rfl, by decide +kernel⟩, by decide +kernel⟩,
   ⟨(wOpenHost fun h => { h with wb := [⟨0, 7, true, true, false, false⟩] }), ((wOpenHost fun h =>
       { h with wb := [⟨0, 7, true, true, false, false⟩] }).advance 0), 0, (0), (0), (⟨0, 7, true, true, false,
       false⟩), ⟨rfl, by decide +kernel⟩, by decide +kernel⟩,
   ⟨(wOpen), ((wOpen).advance 0), 0, (0), (1), (⟨[], [(1, .ce 3)], []⟩), ((((wOpen.advance 0).reading ⟨[], [(1, .ce
       3)], []⟩ 0 0x100).readShared 0 1).getD (0, true, State.reset)), (_), (_), ⟨rfl, by decide +kernel⟩, rfl, rfl,
       by decide +kernel⟩,
   ⟨(wOpen), ((wOpen).advance 0), 0, (0), (1), (⟨[], [(1, .ue)], []⟩), ((((wOpen.advance 0).reading ⟨[], [(1, .ue)],
       []⟩ 0 0x100).readOwn 0 1).getD State.reset), (_), (_), ⟨rfl, by decide +kernel⟩, rfl, rfl, by decide +kernel⟩,
   ⟨((wOpenHost fun h => { h with scPend := some (64, 8, 1) })), (((wOpenHost fun h =>
       { h with scPend := some (64, 8, 1) })).advance 0), 0, (0), (1), (.none), (_), (_), ⟨rfl, by decide +kernel⟩,
       rfl, rfl, by decide +kernel⟩,
   ⟨(({ wOpenHost fun h => { h with scPend := some (64, 8, 1) } with dir := [⟨1, 1, [0], 0⟩] } : State)),
       ((({ wOpenHost fun h => { h with scPend := some (64, 8, 1) } with dir := [⟨1, 1, [0], 0⟩] } : State)).advance
       0), 0, (0), (1), (.none), ((((((({ wOpenHost fun h => { h with scPend := some (64, 8, 1) } with dir := [⟨1, 1, [0], 0⟩] }
       : State).advance 0).reading .none 0 0x100).flushWb 0 1).lookup 1).readOwn 0 1).getD State.reset), (⟨1, 1, [0],
       0⟩), (_), (_), ⟨rfl, by decide +kernel⟩, rfl, rfl, by decide +kernel⟩⟩

theorem test_meets_coherent_accesses_complete :
    (∃ (s a : State) (t : Nat) (agent line k : Nat) (found : Found), s.runsAt t a ∧ (a.homeTakes line = true) ∧
        (a.admits agent false (64 * line) 64 = true) ∧ (a.holdKey line = some k)) ∧
    (∃ (s a : State) (t : Nat) (agent line : Nat) (found : Found) (b r : State), s.runsAt t a ∧
        (b = a.reading found 0 agent) ∧
        (r = (b.coRead line).2.2.answerLine agent (b.coRead line).1 (b.coRead line).2.1) ∧ (a.homeTakes line = true) ∧
        (a.admits agent false (64 * line) 64 = true) ∧ (a.holdKey line = none) ∧ (r.access.blocked = none)) ∧
    (∃ (s a : State) (t : Nat) (agent line : Nat) (mask : Word) (data : Line) (found : Found) (b r : State), s.runsAt
        t a ∧ (b = a.reading found 0 agent) ∧ (r = (b.coWrite line mask data).answer agent 0 0 (b.failedLine line)) ∧
        (a.homeTakes line = true) ∧ (a.admits agent true (64 * line) 64 = true) ∧ (a.holdKey line = none) ∧
        (r.access.blocked = none)) ∧
    (∃ (s a : State) (t : Nat) (cluster : Nat) (e : Nat × Nat) (r : List (Nat × Nat)), s.runsAt t a ∧
        (Tab.get (fun _ => []) a.invq cluster = e :: r)) ∧
    (∃ (s a : State) (t : Nat) (agent : Nat) (v : Word), s.runsAt t a ∧ (a.allows agent 0x38001000 true = true)) :=
  ⟨⟨(({ wSet [(TIER_STATUS.FAR_GIB, 0, 1), (SYS_PROT_LOCK.LOCK, 0, 1)] with cxlRecover := (List.range 8).map fun p => (p, 1) }
       : State)), ((({ wSet [(TIER_STATUS.FAR_GIB, 0, 1), (SYS_PROT_LOCK.LOCK, 0, 1)] with cxlRecover := (List.range 8).map fun p => (p, 1) }
       : State)).advance 0), 0, (1), (farBase / 64),
       (((({ wSet [(TIER_STATUS.FAR_GIB, 0, 1), (SYS_PROT_LOCK.LOCK, 0, 1)] with cxlRecover := (List.range 8).map fun p => (p, 1) }
       : State).advance 0).holdKey (farBase / 64)).getD 9), (.none), ⟨rfl, by decide +kernel⟩, by decide +kernel⟩,
   ⟨({ State.reset with dir := [⟨0, 3, [95], 0⟩] }), (({ State.reset with dir := [⟨0, 3, [95], 0⟩] }).advance 0), 0,
       (1), (0), (⟨[], [(0, .ce 3)], []⟩), (_), (_), ⟨rfl, by decide +kernel⟩, rfl, rfl, by decide +kernel⟩,
   ⟨(State.reset), ((State.reset).advance 0), 0, (1), (0), (1), (7), (.none), (_), (_), ⟨rfl, by decide +kernel⟩, rfl,
       rfl, by decide +kernel⟩,
   ⟨({ State.reset with invq := [(11, [(0, 96)])] }), (({ State.reset with invq := [(11, [(0, 96)])] }).advance 0), 0,
       (11), ((0, 96)), ([]), ⟨rfl, by decide +kernel⟩, by decide +kernel⟩,
   ⟨(State.reset), ((State.reset).advance 0), 0, (1), (64), ⟨rfl, by decide +kernel⟩, by decide +kernel⟩⟩

theorem test_meets_launches_complete :
    (∃ (s a : State) (t : Nat) (q i need : Nat) (found : Found) (f : Fetched) (exts : List Extent) (cs : List (Nat ×
        Nat)) (m n c u : State) (x : InFlight) (b r : State), s.runsAt t a ∧ (c = n.startHead q f exts) ∧
        (u = ((c.setFlight { x with claims := cs, need := need }).passHead q).closeEvents) ∧ (r = u.leaveFault q) ∧
        (a.chosenHead q i = some f) ∧ (kindOf f.words = 1) ∧ (f.status = 0) ∧
        (b = (a.reading found 0 (0x4000 + q)).setQueue q { a.queue q with faulted := false }) ∧
        (b.badCore f.words = none) ∧ (b.prepLaunch q f.words = (.ok exts, m)) ∧ (m.coresFree f.words = true) ∧
        (m.admitWhy (m.launchReq q f.words) = none) ∧
        ((m.stepRamp (m.launchReq q f.words)).admitLaunch (m.launchReq q f.words) = (cs, need, n)) ∧
        (c.flight q f.i = some x) ∧ ((u.queue q).faulted = false) ∧ (r.access.blocked = none)) ∧
    (∃ (s a : State) (t : Nat) (q i : Nat) (x : InFlight), s.runsAt t a ∧ (a.flight q i = some x) ∧ (x.kind = 1) ∧
        (x.begun = false) ∧ (x.status = none) ∧ (a.save.phase = 0) ∧
        ((launchCores x.words).find? (fun c => !a.usable c) = none) ∧
        ((launchCores x.words).all (fun c => a.rd TC_STATUS.STATE c == 1 && !a.factorHeld c) = true)) ∧
    (∃ (s a : State) (t : Nat) (core : Nat) (found : Found) (l : LaunchRef) (b r : State), s.runsAt t a ∧
        (b = a.reading found 0 (0x1000 + core)) ∧ (r = b.loadCore core l) ∧ ((a.core core).launch = some l) ∧
        ((a.core core).loaded = false) ∧ ((a.core core).ended = false) ∧ (a.rd TC_STATUS.STATE core = 2) ∧
        (a.loadOwed core = 0) ∧ ((a.loadBursts core l).length ≤ (a.core core).loadAsked) ∧ (r.access.blocked = none)) ∧
    (∃ (s a : State) (t : Nat) (q i : Nat) (x : InFlight), s.runsAt t a ∧ (a.flight q i = some x) ∧ (x.kind = 1) ∧
        (x.begun = true) ∧ (x.status = none) ∧
        ((launchCores x.words).all (fun c => x.ends.any (fun e => e.core == c)) = true)) ∧
    (∃ (s a : State) (t : Nat) (core r : Nat) (l : LaunchRef), s.runsAt t a ∧ ((a.core core).launch = some l) ∧
        (a.failedRank l = some r) ∧ ((a.core core).ended = false)) ∧
    (∃ (s a : State) (t : Nat) (core f : Nat) (l : LaunchRef), s.runsAt t a ∧ ((a.core core).lastLaunch = some l) ∧
        ((a.core core).firstIssue = some f) ∧ (0 < l.limit) ∧ (f + 2 ^ l.limit * 1000 ≤ a.now)) :=
  ⟨⟨(wLaunchState), ((wLaunchState).advance 0), 0, (0), (0), (wLaunchAdmit.2.1), (.none), (wLaunchCmd),
       (wLaunchPrep.1), (wLaunchAdmit.1), (wLaunchPrep.2), (wLaunchAdmit.2.2), (_), (_), (((wLaunchAdmit.2.2.startHead
       0 wLaunchCmd wLaunchPrep.1).flight 0 0).getD wFlight), (wLaunchRead), (_), ⟨rfl, by decide +kernel⟩, rfl, rfl,
       rfl, by decide +kernel⟩,
   ⟨({ wSet [(TC_STATUS.STATE, 0, 1)] with inflight := [{ wFlight with words := [0x10000, 0, 0, 0, 0, 0, 0, 0, 1] }] }),
       (({ wSet [(TC_STATUS.STATE, 0, 1)] with inflight := [{ wFlight with words := [0x10000, 0, 0, 0, 0, 0, 0, 0, 1] }] }).advance
       0), 0, (0), (5), ({ wFlight with words := [0x10000, 0, 0, 0, 0, 0, 0, 0, 1] }), ⟨rfl, by decide +kernel⟩,
       by decide +kernel⟩,
   ⟨(wTile 0 0 fun k => { k with loaded := false }), ((wTile 0 0 fun k => { k with loaded := false }).advance 0), 0,
       (0), (.none), ({ wLaunch with progLen := 2 }), (_), (_), ⟨rfl, by decide +kernel⟩, rfl, rfl, by decide +kernel⟩,
   ⟨({ State.reset with inflight := [{ wFlight with words := [0x10000, 0, 0, 0, 0, 0, 0, 0, 1], begun := true, ends := [⟨0, 0, 0, 0, 0, 0⟩] }] }),
       (({ State.reset with inflight := [{ wFlight with words := [0x10000, 0, 0, 0, 0, 0, 0, 0, 1], begun := true, ends := [⟨0, 0, 0, 0, 0, 0⟩] }] }).advance
       0), 0, (0), (5), ({ wFlight with words := [0x10000, 0, 0, 0, 0, 0, 0, 0, 1], begun := true, ends := [⟨0, 0, 0, 0, 0, 0⟩] }),
       ⟨rfl, by decide +kernel⟩, by decide +kernel⟩,
   ⟨(({ wTile 0 0 id with inflight := [{ wFlight with i := 0, begun := true, words := [0x10000, 0, 0, 0, 0, 0, 0, 0, 1], ends := [⟨1, 5, 0, 0, 0, 0⟩] }] }
       : State)), ((({ wTile 0 0 id with inflight := [{ wFlight with i := 0, begun := true, words := [0x10000, 0, 0, 0, 0, 0, 0, 0, 1], ends := [⟨1, 5, 0, 0, 0, 0⟩] }] }
       : State)).advance 0), 0, (0),
       (((({ wTile 0 0 id with inflight := [{ wFlight with i := 0, begun := true, words := [0x10000, 0, 0, 0, 0, 0, 0, 0, 1], ends := [⟨1, 5, 0, 0, 0, 0⟩] }] }
       : State).advance 0).failedRank { wLaunch with progLen := 2 }).getD 99), ({ wLaunch with progLen := 2 }), ⟨rfl,
       by decide +kernel⟩, by decide +kernel⟩,
   ⟨(wTile 0 0 fun k => { k with firstIssue := some 0 }), ((wTile 0 0 fun k =>
       { k with firstIssue := some 0 }).advance 2000), 2000, (0), (0), ({ wLaunch with progLen := 2 }), ⟨rfl,
       by decide +kernel⟩, by decide +kernel⟩⟩

theorem test_meets_tile_control_and_signals_complete :
    (∃ (s a : State) (t : Nat) (core : Nat) (body : BitVec 56), s.runsAt t a ∧ (a.issuesNow core 0x00 body = true) ∧
        (lowestOffence body (maskBits 55 0) [] = none)) ∧
    (∃ (s a : State) (t : Nat) (core : Nat) (body : BitVec 56), s.runsAt t a ∧ (a.issuesNow core 0x01 body = true) ∧
        (lowestOffence body (maskBits 55 0) [] = none) ∧ (((a.markIssue core).core core).quiet true true true = true)) ∧
    (∃ (s a : State) (t : Nat) (core : Nat) (body : BitVec 56), s.runsAt t a ∧ (a.issuesNow core 0x48 body = true) ∧
        (lowestOffence body (maskBits 55 24) [] = none)) ∧
    (∃ (s a : State) (t : Nat) (core : Nat) (body : BitVec 56), s.runsAt t a ∧ (a.issuesNow core 0x49 body = true) ∧
        (lowestOffence body (maskBits 46 24)
        [(52, decide (5 < fieldAt body 55 52)),
         (50, (fieldAt body 55 52 == 4 || fieldAt body 55 52 == 5) && decide (7 < fieldAt body 51 47))] = none) ∧
             (brcHolds ((a.markIssue core).core core) (fieldAt body 55 52) (fieldAt body 51 47) = true)) ∧
    (∃ (s a : State) (t : Nat) (core : Nat) (body : BitVec 56), s.runsAt t a ∧ (a.issuesNow core 0x49 body = true) ∧
        (lowestOffence body (maskBits 46 24)
        [(52, decide (5 < fieldAt body 55 52)),
         (50, (fieldAt body 55 52 == 4 || fieldAt body 55 52 == 5) && decide (7 < fieldAt body 51 47))] = none) ∧
             (brcHolds ((a.markIssue core).core core) (fieldAt body 55 52) (fieldAt body 51 47) = false)) ∧
    (∃ (s a : State) (t : Nat) (core : Nat) (body : BitVec 56) (k : Core) (on : List Nat), s.runsAt t a ∧
        (k = (a.markIssue core).core core) ∧ (on = (List.range 4).filter (fun i => (k.loop i).on)) ∧
        (a.issuesNow core 0x4A body = true) ∧ (lowestOffence body (maskBits 55 50 ||| maskBits 42 38) [] = none) ∧
        ((on.contains (fieldAt body 49 48) || fieldAt body 37 24 == 0 || decide (k.progLen ≤ (a.rd TC_PC.PC core) +
        fieldAt body 37 24) || on.any (fun i => decide ((k.loop i).last < (a.rd TC_PC.PC core) + fieldAt body 37 24)))
        = false) ∧ (loopCount k body ≠ 0)) ∧
    (∃ (s a : State) (t : Nat) (core : Nat) (body : BitVec 56) (k : Core) (on : List Nat), s.runsAt t a ∧
        (k = (a.markIssue core).core core) ∧ (on = (List.range 4).filter (fun i => (k.loop i).on)) ∧
        (a.issuesNow core 0x4A body = true) ∧ (lowestOffence body (maskBits 55 50 ||| maskBits 42 38) [] = none) ∧
        ((on.contains (fieldAt body 49 48) || fieldAt body 37 24 == 0 || decide (k.progLen ≤ (a.rd TC_PC.PC core) +
        fieldAt body 37 24) || on.any (fun i => decide ((k.loop i).last < (a.rd TC_PC.PC core) + fieldAt body 37 24)))
        = false) ∧ (loopCount k body = 0)) ∧
    (∃ (s a : State) (t : Nat) (core : Nat) (body : BitVec 56), s.runsAt t a ∧ (a.issuesNow core 0x30 body = true) ∧
        (lowestOffence body (maskBits 55 53 ||| maskBits 47 0) [] = none) ∧
        (((a.markIssue core).core core).quiet (fieldAt body 48 48 == 1) (fieldAt body 50 50 == 1) (fieldAt body 51 51
        == 1) = true) ∧ (fieldAt body 52 52 = 0 ∨ (a.markIssue core).corePeersDone core = true)) ∧
    (∃ (s a : State) (t : Nat) (core : Nat) (body : BitVec 56) (k : Core), s.runsAt t a ∧
        (k = (a.markIssue core).core core) ∧ (a.issuesNow core 0x28 body = true) ∧
        (lowestOffence body (maskBits 42 32 ||| maskBits 15 13) [(54, decide (1 < fieldAt body 55 54))] = none) ∧
        ((a.markIssue core).objExcs core (tileObj k body) = []) ∧ (fieldAt body 53 53 = 0 ∨ k.copies.isEmpty = true)) ∧
    (∃ (s a : State) (t : Nat) (core : Nat) (body : BitVec 56) (k : Core), s.runsAt t a ∧
        (k = (a.markIssue core).core core) ∧ (a.issuesNow core 0x28 body = true) ∧
        (lowestOffence body (maskBits 42 32 ||| maskBits 15 13) [(54, decide (1 < fieldAt body 55 54))] = none) ∧
        ((a.markIssue core).objExcs core (tileObj k body) = []) ∧ (fieldAt body 53 53 = 1) ∧
        (k.copies.isEmpty = false) ∧ (k.held.length < 16)) ∧
    (∃ (s a : State) (t : Nat) (core : Nat) (body : BitVec 56) (k : Core), s.runsAt t a ∧
        (k = (a.markIssue core).core core) ∧ (a.issuesNow core 0x29 body = true) ∧
        (lowestOffence body (maskBits 32 32 ||| maskBits 15 13) [] = none) ∧
        ((a.markIssue core).objExcs core (tileObj k body) = []) ∧
        (condHolds (fieldAt body 55 54) ((a.markIssue core).reg (SY_VAL.VALUE.off (tileObj k body))) (BitVec.ofNat 64
        (k.arOr (fieldAt body 47 43) (fieldAt body 31 16))) = true)) ∧
    (∃ (s a : State) (t : Nat) (core : Nat) (body : BitVec 56) (k : Core), s.runsAt t a ∧
        (k = (a.markIssue core).core core) ∧ (a.issuesNow core 0x29 body = true) ∧
        (lowestOffence body (maskBits 32 32 ||| maskBits 15 13) [] = none) ∧
        ((a.markIssue core).objExcs core (tileObj k body) = []) ∧
        (condHolds (fieldAt body 55 54) ((a.markIssue core).reg (SY_VAL.VALUE.off (tileObj k body))) (BitVec.ofNat 64
        (k.arOr (fieldAt body 47 43) (fieldAt body 31 16))) = false)) ∧
    (∃ (s a : State) (t : Nat) (core : Nat) (body : BitVec 56), s.runsAt t a ∧ (a.issuesNow core 0x39 body = true) ∧
        (lowestOffence body (maskBits 55 51 ||| maskBits 19 0) [] = none) ∧
        (((a.markIssue core).core core).hintWin = (a.markIssue core).winNum 1000 + 1)) ∧
    (∃ (s a : State) (t : Nat) (core : Nat) (body : BitVec 56) (k : Core) (h : HintReq), s.runsAt t a ∧
        (k = (a.markIssue core).core core) ∧
        (h = ⟨k.ctx, (a.markIssue core).coreCls core, (k.launch.map (·.q)).getD 0, k.layer, k.opid, fieldAt body 50
        48, fieldAt body 47 36, fieldAt body 35 20, (a.markIssue core).now, some core⟩) ∧
        (a.issuesNow core 0x39 body = true) ∧ (lowestOffence body (maskBits 55 51 ||| maskBits 19 0) [] = none) ∧
        (k.hintWin ≠ (a.markIssue core).winNum 1000 + 1)) :=
  ⟨⟨(wTile 0x00 0 id), ((wTile 0x00 0 id).advance 0), 0, (0), (0), ⟨rfl, by decide +kernel⟩, by decide +kernel⟩,
   ⟨(wTile 0x01 0 id), ((wTile 0x01 0 id).advance 0), 0, (0), (0), ⟨rfl, by decide +kernel⟩, by decide +kernel⟩,
   ⟨(wTile 0x48 1 id), ((wTile 0x48 1 id).advance 0), 0, (0), (1), ⟨rfl, by decide +kernel⟩, by decide +kernel⟩,
   ⟨(wTile 0x49 0 id), ((wTile 0x49 0 id).advance 0), 0, (0), (0), ⟨rfl, by decide +kernel⟩, by decide +kernel⟩,
   ⟨(wTile 0x49 0x10000000000000 id), ((wTile 0x49 0x10000000000000 id).advance 0), 0, (0), (0x10000000000000), ⟨rfl,
       by decide +kernel⟩, by decide +kernel⟩,
   ⟨(wTile 0x4A 0x1000001 id), ((wTile 0x4A 0x1000001 id).advance 0), 0, (0), (0x1000001), (_), (_), ⟨rfl,
       by decide +kernel⟩, rfl, rfl, by decide +kernel⟩,
   ⟨(wTile 0x4A 0x1000000 id), ((wTile 0x4A 0x1000000 id).advance 0), 0, (0), (0x1000000), (_), (_), ⟨rfl,
       by decide +kernel⟩, rfl, rfl, by decide +kernel⟩,
   ⟨(wTile 0x30 0 id), ((wTile 0x30 0 id).advance 0), 0, (0), (0), ⟨rfl, by decide +kernel⟩, by decide +kernel⟩,
   ⟨(wTile 0x28 0x40000000010000 id), ((wTile 0x28 0x40000000010000 id).advance 0), 0, (0), (0x40000000010000), (_),
       ⟨rfl, by decide +kernel⟩, rfl, by decide +kernel⟩,
   ⟨(wTile 0x28 0x20000000000000 (fun k => { k with copies := [wCopy] })), ((wTile 0x28 0x20000000000000 (fun k =>
       { k with copies := [wCopy] })).advance 0), 0, (0), (0x20000000000000), (_), ⟨rfl, by decide +kernel⟩, rfl,
       by decide +kernel⟩,
   ⟨(wTile 0x29 0 id), ((wTile 0x29 0 id).advance 0), 0, (0), (0), (_), ⟨rfl, by decide +kernel⟩, rfl,
       by decide +kernel⟩,
   ⟨(wTile 0x29 0x10000 id), ((wTile 0x29 0x10000 id).advance 0), 0, (0), (0x10000), (_), ⟨rfl, by decide +kernel⟩,
       rfl, by decide +kernel⟩,
   ⟨(wTile 0x39 0 (fun k => { k with hintWin := 1 })), ((wTile 0x39 0 (fun k => { k with hintWin := 1 })).advance 0),
       0, (0), (0), ⟨rfl, by decide +kernel⟩, by decide +kernel⟩,
   ⟨(wTile 0x39 0 id), ((wTile 0x39 0 id).advance 0), 0, (0), (0), (_), (_), ⟨rfl, by decide +kernel⟩, rfl, rfl,
       by decide +kernel⟩⟩

theorem test_meets_tile_scalar_completes :
    (∃ (s a : State) (t : Nat) (core : Nat) (body : BitVec 56), s.runsAt t a ∧ (a.issuesNow core 0x40 body = true) ∧
        (lowestOffence body (maskBits 55 53 ||| maskBits 32 0) [(48, decide (12 < fieldAt body 52 48))] = none)) ∧
    (∃ (s a : State) (t : Nat) (core : Nat) (body : BitVec 56), s.runsAt t a ∧ (a.issuesNow core 0x41 body = true) ∧
        (lowestOffence body (maskBits 55 53 ||| maskBits 37 32) [(48, decide (12 < fieldAt body 52 48))] = none)) ∧
    (∃ (s a : State) (t : Nat) (core : Nat) (body : BitVec 56), s.runsAt t a ∧ (a.issuesNow core 0x42 body = true) ∧
        (lowestOffence body (maskBits 55 50 ||| maskBits 42 32) [(48, fieldAt body 49 48 == 3)] = none)) ∧
    (∃ (s a : State) (t : Nat) (core : Nat) (body : BitVec 56), s.runsAt t a ∧ (a.issuesNow core 0x43 body = true) ∧
        (lowestOffence body (maskBits 55 48 ||| maskBits 42 8) [(0, decide (15 < fieldAt body 7 0))] = none)) ∧
    (∃ (s a : State) (t : Nat) (core : Nat) (body : BitVec 56), s.runsAt t a ∧ (a.issuesNow core 0x38 body = true) ∧
        (lowestOffence body (maskBits 55 50 ||| maskBits 47 32) [] = none)) ∧
    (∃ (s a : State) (t : Nat) (core : Nat) (body : BitVec 56), s.runsAt t a ∧ (a.issuesNow core 0x22 body = true) ∧
        (lowestOffence body (maskBits 47 32) [] = none)) ∧
    (∃ (s a : State) (t : Nat) (core : Nat) (body : BitVec 56) (k : Core), s.runsAt t a ∧
        (k = (a.markIssue core).core core) ∧ (a.issuesNow core 0x21 body = true) ∧
        (lowestOffence body (maskBits 47 32) [] = none) ∧
        ((k.counter (fieldAt body 55 53) - BitVec.ofNat 32 (k.arOr (fieldAt body 52 48) (fieldAt body 31 0))).toNat <
        2 ^ 31)) :=
  ⟨⟨(wTile 0x40 0xC780000000000 id), ((wTile 0x40 0xC780000000000 id).advance 0), 0, (0), (0xC780000000000), ⟨rfl,
       by decide +kernel⟩, by decide +kernel⟩,
   ⟨(wTile 0x41 0x800FFFFFFFF id), ((wTile 0x41 0x800FFFFFFFF id).advance 0), 0, (0), (0x800FFFFFFFF), ⟨rfl,
       by decide +kernel⟩, by decide +kernel⟩,
   ⟨(wTile 0x42 0x2080000000001 id), ((wTile 0x42 0x2080000000001 id).advance 0), 0, (0), (0x2080000000001), ⟨rfl,
       by decide +kernel⟩, by decide +kernel⟩,
   ⟨(wTile 0x43 0x8000000000F id), ((wTile 0x43 0x8000000000F id).advance 0), 0, (0), (0x8000000000F), ⟨rfl,
       by decide +kernel⟩, by decide +kernel⟩,
   ⟨(wTile 0x38 0x30000FFFFFFFF id), ((wTile 0x38 0x30000FFFFFFFF id).advance 0), 0, (0), (0x30000FFFFFFFF), ⟨rfl,
       by decide +kernel⟩, by decide +kernel⟩,
   ⟨(wTile 0x22 0xE0000000000001 id), ((wTile 0x22 0xE0000000000001 id).advance 0), 0, (0), (0xE0000000000001), ⟨rfl,
       by decide +kernel⟩, by decide +kernel⟩,
   ⟨(wTile 0x21 0 id), ((wTile 0x21 0 id).advance 0), 0, (0), (0), (_), ⟨rfl, by decide +kernel⟩, rfl,
       by decide +kernel⟩⟩

theorem test_meets_array_operations_complete :
    (∃ (s a : State) (t : Nat) (core : Nat) (body : BitVec 56) (k : Core) (o : ArrayOp), s.runsAt t a ∧
        (k = (a.markIssue core).core core) ∧ (o = passOf k body (a.rd TC_PC.PC core)) ∧
        (a.issuesNow core 0x08 body = true) ∧ (k.arr.length < 8) ∧ (passOffence body = none) ∧
        (passExcs k body o = [])) ∧
    (∃ (s a : State) (t : Nat) (core : Nat) (body : BitVec 56) (k : Core) (o : ArrayOp), s.runsAt t a ∧
        (k = (a.markIssue core).core core) ∧ (o = drainOf k body (a.rd TC_PC.PC core)) ∧
        (a.issuesNow core 0x09 body = true) ∧ (k.arr.length < 8) ∧ (drainOffence body = none) ∧
        (drainExcs k body o = [])) ∧
    (∃ (s a : State) (t : Nat) (core conflicts : Nat) (bad : List Nat) (o : ArrayOp) (b : State) (k : Core), s.runsAt
        t a ∧ (b = (a.spParity core bad (o.fillReads a.width)).bumpWrap TC_SP_CONFLICT.COUNT core conflicts) ∧
        (k = b.core core) ∧ ((a.core core).portRuns = some o) ∧ (o.drain = false) ∧
        (k.spPoisonIn (o.fillReads b.width) = false)) ∧
    (∃ (s a : State) (t : Nat) (core conflicts : Nat) (bad : List Nat) (o : ArrayOp) (b : State), s.runsAt t a ∧
        (b = (a.spParity core bad (o.fillReads a.width)).bumpWrap TC_SP_CONFLICT.COUNT core conflicts) ∧
        ((a.core core).portRuns = some o) ∧ (o.drain = false) ∧
        ((b.core core).spPoisonIn (o.fillReads b.width) = true)) ∧
    (∃ (s a : State) (t : Nat) (core conflicts : Nat) (bad : List Nat) (o : ArrayOp), s.runsAt t a ∧
        ((a.core core).portRuns = some o) ∧ (o.drain = false)) ∧
    (∃ (s a : State) (t : Nat) (core stalls gated conflicts : Nat) (bad : List Nat) (k : Core) (o : ArrayOp) (e b c :
        State) (r : Core × Nat) (n : Nat × Bool), s.runsAt t a ∧
        (e = (a.spParity core bad (o.streamReads a.width)).bumpWrap TC_SP_CONFLICT.COUNT core conflicts) ∧
        (k = e.core core) ∧ (b = ((((e.bumpWrap TC_CYC_STREAM.COUNT core o.cycles).pmcCore core (streamSel o.fmtA)
        o.cycles o.layer).bumpWrap TC_SP_OPSTALL.COUNT core stalls).pmcCore core 5 stalls o.layer).pmcCore core 6
        gated o.layer) ∧ (r = (if k.spPoisonIn (o.streamReads b.width) = true then (k, 0) else k.stream o b.width)) ∧
        (n = (if b.rd SLU_POLDER_THR.DUTY (dieOf core) < 16 then (0, true) else recircFor (r.1.setArr b.now
        (k.arr.erase o)) b.width b.now (b.rd TC_RECIRC_CFG.THRESHOLD core))) ∧
        (c = (b.setCore core { r.1.setArr b.now (k.arr.erase o) with recircMax := n.1, recircAll := n.2, recircAt := b.now, streamAt := b.now }).wr
        TC_STATUS.RECIRC core (bit (decide (0 < n.1)))) ∧ ((a.core core).streams = some o) ∧
        (a.flag TC_STATUS.RECIRC core = false)) ∧
    (∃ (s a : State) (t : Nat) (core stalls gated conflicts : Nat) (bad : List Nat) (o : ArrayOp) (e b : State),
        s.runsAt t a ∧ (e = (a.spParity core bad (o.streamReads a.width)).bumpWrap TC_SP_CONFLICT.COUNT core
        conflicts) ∧ (b = ((((e.bumpWrap TC_CYC_STREAM.COUNT core o.cycles).pmcCore core (streamSel o.fmtA) o.cycles
        o.layer).bumpWrap TC_SP_OPSTALL.COUNT core stalls).pmcCore core 5 stalls o.layer).pmcCore core 6 gated
        o.layer) ∧ ((a.core core).streams = some o) ∧ (a.flag TC_STATUS.RECIRC core = false)) ∧
    (∃ (s a : State) (t : Nat) (core cycles : Nat) (k : Core), s.runsAt t a ∧ (k = a.core core) ∧
        (a.flag TC_STATUS.RECIRC core = true)) ∧
    (∃ (s a : State) (t : Nat) (core conflicts : Nat) (k n : Core) (o : ArrayOp) (b : State), s.runsAt t a ∧
        (k = a.core core) ∧ (b = a.bumpWrap TC_SP_CONFLICT.COUNT core conflicts) ∧
        (n = ((k.spStore o.aOff (codeBits o.fmtA) (k.drain o b.width).1).spStore o.saOff 8 (k.drain o b.width).2.1)) ∧
        (k.portRuns = some o) ∧ (o.drain = true)) ∧
    (∃ (s a : State) (t : Nat) (core conflicts : Nat) (o : ArrayOp), s.runsAt t a ∧
        ((a.core core).portRuns = some o) ∧ (o.drain = true)) :=
  ⟨⟨(wTile 0x08 0x22200000000001 id), ((wTile 0x08 0x22200000000001 id).advance 0), 0, (0), (0x22200000000001), (_),
       (_), ⟨rfl, by decide +kernel⟩, rfl, rfl, by decide +kernel⟩,
   ⟨(wTile 0x09 0x8000000000000 id), ((wTile 0x09 0x8000000000000 id).advance 0), 0, (0), (0x8000000000000), (_), (_),
       ⟨rfl, by decide +kernel⟩, rfl, rfl, by decide +kernel⟩,
   ⟨(wTile 0 0 fun k => { k with arr := [⟨false, 0, 1, 1, 1, false, 0, 0, 0, 0, 0, 1, false, false, false, false, 0, 0, 0, false, 0⟩] }),
       ((wTile 0 0 fun k => { k with arr := [⟨false, 0, 1, 1, 1, false, 0, 0, 0, 0, 0, 1, false, false, false, false, 0, 0, 0, false, 0⟩] }).advance
       0), 0, (0), (2), ([3]), (⟨false, 0, 1, 1, 1, false, 0, 0, 0, 0, 0, 1, false, false, false, false, 0, 0, 0,
       false, 0⟩), (_), (_), ⟨rfl, by decide +kernel⟩, rfl, rfl, by decide +kernel⟩,
   ⟨(wTile 0 0 fun k => { k with arr := [⟨false, 0, 2, 1, 1, false, 0, 0, 0, 0, 0, 1, false, false, false, false, 0, 0, 0, false, 0⟩], spPoison := [(3, true)] }),
       ((wTile 0 0 fun k => { k with arr := [⟨false, 0, 2, 1, 1, false, 0, 0, 0, 0, 0, 1, false, false, false, false, 0, 0, 0, false, 0⟩], spPoison := [(3, true)] }).advance
       0), 0, (0), (2), ([]), (⟨false, 0, 2, 1, 1, false, 0, 0, 0, 0, 0, 1, false, false, false, false, 0, 0, 0,
       false, 0⟩), (_), ⟨rfl, by decide +kernel⟩, rfl, by decide +kernel⟩,
   ⟨(wTile 0 0 fun k => { k with arr := [⟨false, 0, 1, 1, 1, false, 0, 0, 0, 0, 0, 1, false, false, false, false, 0, 0, 0, false, 0⟩] }),
       ((wTile 0 0 fun k => { k with arr := [⟨false, 0, 1, 1, 1, false, 0, 0, 0, 0, 0, 1, false, false, false, false, 0, 0, 0, false, 0⟩] }).advance
       0), 0, (0), (2), ([3]), (⟨false, 0, 1, 1, 1, false, 0, 0, 0, 0, 0, 1, false, false, false, false, 0, 0, 0,
       false, 0⟩), ⟨rfl, by decide +kernel⟩, by decide +kernel⟩,
   ⟨(wTile 0 0 fun k => { k with arr := [⟨false, 0, 1, 1, 1, false, 0, 0, 0, 0, 0, 1, false, false, false, false, 0, 0, 0, true, 0⟩] }),
       ((wTile 0 0 fun k => { k with arr := [⟨false, 0, 1, 1, 1, false, 0, 0, 0, 0, 0, 1, false, false, false, false, 0, 0, 0, true, 0⟩] }).advance
       0), 0, (0), (0), (2), (1), ([3]), (_), (⟨false, 0, 1, 1, 1, false, 0, 0, 0, 0, 0, 1, false, false, false,
       false, 0, 0, 0, true, 0⟩), (_), (_), (_), (_), (_), ⟨rfl, by decide +kernel⟩, rfl, rfl, rfl, rfl, rfl, rfl,
       by decide +kernel⟩,
   ⟨(wTile 0 0 fun k => { k with arr := [⟨false, 0, 1, 1, 1, false, 0, 0, 0, 0, 0, 1, false, false, false, false, 0, 0, 0, true, 0⟩] }),
       ((wTile 0 0 fun k => { k with arr := [⟨false, 0, 1, 1, 1, false, 0, 0, 0, 0, 0, 1, false, false, false, false, 0, 0, 0, true, 0⟩] }).advance
       0), 0, (0), (0), (2), (1), ([3]), (⟨false, 0, 1, 1, 1, false, 0, 0, 0, 0, 0, 1, false, false, false, false, 0,
       0, 0, true, 0⟩), (_), (_), ⟨rfl, by decide +kernel⟩, rfl, rfl, by decide +kernel⟩,
   ⟨(wSet [(TC_STATUS.RECIRC, 0, 1)]), ((wSet [(TC_STATUS.RECIRC, 0, 1)]).advance 0), 0, (0), (9), (_), ⟨rfl,
       by decide +kernel⟩, rfl, by decide +kernel⟩,
   ⟨(wTile 0 0 fun k => { k with arr := [⟨true, 0, 0, 8, 0, false, 0, 0, 65536, 0, 0, 0, false, false, false, true, 7, 0, 0, true, 0⟩] }),
       ((wTile 0 0 fun k => { k with arr := [⟨true, 0, 0, 8, 0, false, 0, 0, 65536, 0, 0, 0, false, false, false, true, 7, 0, 0, true, 0⟩] }).advance
       0), 0, (0), (2), (_), (_), (⟨true, 0, 0, 8, 0, false, 0, 0, 65536, 0, 0, 0, false, false, false, true, 7, 0, 0,
       true, 0⟩), (_), ⟨rfl, by decide +kernel⟩, rfl, rfl, rfl, by decide +kernel⟩,
   ⟨(wTile 0 0 fun k => { k with arr := [⟨true, 0, 0, 8, 0, false, 0, 0, 65536, 0, 0, 0, false, false, false, false, 7, 0, 0, true, 0⟩] }),
       ((wTile 0 0 fun k => { k with arr := [⟨true, 0, 0, 8, 0, false, 0, 0, 65536, 0, 0, 0, false, false, false, false, 7, 0, 0, true, 0⟩] }).advance
       0), 0, (0), (2), (⟨true, 0, 0, 8, 0, false, 0, 0, 65536, 0, 0, 0, false, false, false, false, 7, 0, 0, true,
       0⟩), ⟨rfl, by decide +kernel⟩, by decide +kernel⟩⟩

theorem test_meets_tile_vector_completes :
    (∃ (s a : State) (t : Nat) (core : Nat) (body : BitVec 56) (r : Core), s.runsAt t a ∧
        (r = ((a.markIssue core).pmcCore core 7).core core) ∧ (a.issuesNow core 0x10 body = true) ∧
        (lowestOffence body (maskBits 21 0) [(47, !vopCodes.contains (fieldAt body 52 47))] = none)) ∧
    (∃ (s a : State) (t : Nat) (core : Nat) (body : BitVec 56), s.runsAt t a ∧ (a.issuesNow core 0x10 body = true) ∧
        (lowestOffence body (maskBits 21 0) [(47, !vopCodes.contains (fieldAt body 52 47))] = none)) ∧
    (∃ (s a : State) (t : Nat) (core : Nat) (body : BitVec 56) (bad : List Nat) (k j : Core) (n : Nat) (b : State),
        s.runsAt t a ∧ (k = (a.markIssue core).core core) ∧ (n = codeBytes (fieldAt body 52 49) 256) ∧
        (b = (a.markIssue core).spParity core bad [(vecAddr k body, n)]) ∧ (j = b.core core) ∧
        (a.issuesNow core 0x13 body = true) ∧
        (lowestOffence body (maskBits 47 47 ||| maskBits 21 0) [(49, !vecCode (fieldAt body 52 49)), (48, fieldAt body
        48 48 == 1)] = none) ∧ (rangeExcs (fieldAt body 42 38) (vecAddr k body) n = []) ∧
        (k.hazard [(vecAddr k body, n)] [] = false) ∧ (j.spPoisonIn [(vecAddr k body, n)] = false)) ∧
    (∃ (s a : State) (t : Nat) (core : Nat) (body : BitVec 56) (bad : List Nat) (k : Core) (n : Nat) (b : State),
        s.runsAt t a ∧ (k = (a.markIssue core).core core) ∧ (n = codeBytes (fieldAt body 52 49) 256) ∧
        (b = (a.markIssue core).spParity core bad [(vecAddr k body, n)]) ∧ (a.issuesNow core 0x13 body = true) ∧
        (lowestOffence body (maskBits 47 47 ||| maskBits 21 0) [(49, !vecCode (fieldAt body 52 49)), (48, fieldAt body
        48 48 == 1)] = none) ∧ (rangeExcs (fieldAt body 42 38) (vecAddr k body) n = []) ∧
        (k.hazard [(vecAddr k body, n)] [] = false) ∧ ((b.core core).spPoisonIn [(vecAddr k body, n)] = true)) ∧
    (∃ (s a : State) (t : Nat) (core : Nat) (body : BitVec 56) (k x : Core) (n : Nat) (es : List (Nat × Nat × Nat)),
        s.runsAt t a ∧ (k = (a.markIssue core).core core) ∧ (n = codeBytes (fieldAt body 52 49) 256) ∧
        (es = ((List.range 256).filter (fun l => (k.pred (fieldAt body 55 53)).getLsbD l)).map fun l => (l, narrow
        (fieldAt body 52 49) (if fieldAt body 48 48 == 1 then k.laneRnd l else none) (k.lane (fieldAt body 46 43) l)))
        ∧ (x = k.spStore (vecAddr k body) (codeBits (fieldAt body 52 49)) (es.map (fun e => (e.1, e.2.1)))) ∧
        (a.issuesNow core 0x14 body = true) ∧
        (lowestOffence body (maskBits 47 47 ||| maskBits 21 0) [(49, !vecCode (fieldAt body 52 49))] = none) ∧
        (rangeExcs (fieldAt body 42 38) (vecAddr k body) n = []) ∧ (k.hazard [] [(vecAddr k body, n)] = false)) ∧
    (∃ (s a : State) (t : Nat) (core : Nat) (body : BitVec 56) (bad : List Nat) (k j : Core) (d m n : Nat) (b :
        State), s.runsAt t a ∧ (k = (a.markIssue core).core core) ∧ (d = (k.ar (fieldAt body 52 48)).toNat) ∧
        (m = (k.ar (fieldAt body 47 43)).toNat) ∧ (n = (k.ar (fieldAt body 42 38)).toNat) ∧
        (b = (a.markIssue core).spParity core bad [(m, n)]) ∧ (j = b.core core) ∧
        (a.issuesNow core 0x18 body = true) ∧ (lowestOffence body (maskBits 54 53 ||| maskBits 37 0) [] = none) ∧
        (n ≠ 0) ∧ (d + n ≤ spSize) ∧ (fieldAt body 55 55 = 0) ∧ (m + n ≤ spSize) ∧
        (k.hazard [(m, n)] [(d, n)] = false) ∧ (j.spPoisonIn [(m, n)] = false)) ∧
    (∃ (s a : State) (t : Nat) (core : Nat) (body : BitVec 56) (bad : List Nat) (k : Core) (d m n : Nat) (b : State),
        s.runsAt t a ∧ (k = (a.markIssue core).core core) ∧ (d = (k.ar (fieldAt body 52 48)).toNat) ∧
        (m = (k.ar (fieldAt body 47 43)).toNat) ∧ (n = (k.ar (fieldAt body 42 38)).toNat) ∧
        (b = (a.markIssue core).spParity core bad [(m, n)]) ∧ (a.issuesNow core 0x18 body = true) ∧
        (lowestOffence body (maskBits 54 53 ||| maskBits 37 0) [] = none) ∧ (n ≠ 0) ∧ (d + n ≤ spSize) ∧
        (fieldAt body 55 55 = 0) ∧ (m + n ≤ spSize) ∧ (k.hazard [(m, n)] [(d, n)] = false) ∧
        ((b.core core).spPoisonIn [(m, n)] = true)) ∧
    (∃ (s a : State) (t : Nat) (core : Nat) (body : BitVec 56) (bad : List Nat), s.runsAt t a ∧
        (a.issuesNow core 0x18 body = true) ∧ (lowestOffence body (maskBits 54 53 ||| maskBits 37 0) [] = none) ∧
        ((((a.markIssue core).core core).ar (fieldAt body 42 38)).toNat = 0)) ∧
    (∃ (s a : State) (t : Nat) (core : Nat) (body : BitVec 56) (bad : List Nat) (k : Core) (d n : Nat), s.runsAt t a ∧
        (k = (a.markIssue core).core core) ∧ (d = (k.ar (fieldAt body 52 48)).toNat) ∧
        (n = (k.ar (fieldAt body 42 38)).toNat) ∧ (a.issuesNow core 0x18 body = true) ∧
        (lowestOffence body (maskBits 54 53 ||| maskBits 37 0) [] = none) ∧ (n ≠ 0) ∧ (d + n ≤ spSize) ∧
        (fieldAt body 55 55 = 1) ∧ (k.hazard [] [(d, n)] = false)) :=
  ⟨⟨(wTile 0x10 0 id), ((wTile 0x10 0 id).advance 0), 0, (0), (0), (_), ⟨rfl, by decide +kernel⟩, rfl,
       by decide +kernel⟩,
   ⟨(wTile 0x10 0 id), ((wTile 0x10 0 id).advance 0), 0, (0), (0), ⟨rfl, by decide +kernel⟩, by decide +kernel⟩,
   ⟨(wTile 0x13 0 id), ((wTile 0x13 0 id).advance 0), 0, (0), (0), ([3]), (_), (_), (_), (_), ⟨rfl,
       by decide +kernel⟩, rfl, rfl, rfl, rfl, by decide +kernel⟩,
   ⟨(wTile 0x13 0 (fun k => { k with spPoison := [(3, true)] })), ((wTile 0x13 0 (fun k =>
       { k with spPoison := [(3, true)] })).advance 0), 0, (0), (0), ([]), (_), (_), (_), ⟨rfl, by decide +kernel⟩,
       rfl, rfl, rfl, by decide +kernel⟩,
   ⟨(wTile 0x14 0 id), ((wTile 0x14 0 id).advance 0), 0, (0), (0), (_), (_), (_), (_), ⟨rfl, by decide +kernel⟩, rfl,
       rfl, rfl, rfl, by decide +kernel⟩,
   ⟨(wTile 0x18 0x50000000000 (fun k => { k with a := [(20, 1)] })), ((wTile 0x18 0x50000000000 (fun k =>
       { k with a := [(20, 1)] })).advance 0), 0, (0), (0x50000000000), ([3]), (_), (_), (_), (_), (_), (_), ⟨rfl,
       by decide +kernel⟩, rfl, rfl, rfl, rfl, rfl, rfl, by decide +kernel⟩,
   ⟨(wTile 0x18 0x50000000000 (fun k => { k with a := [(20, 1)], spPoison := [(0, true)] })), ((wTile 0x18
       0x50000000000 (fun k => { k with a := [(20, 1)], spPoison := [(0, true)] })).advance 0), 0, (0),
       (0x50000000000), ([]), (_), (_), (_), (_), (_), ⟨rfl, by decide +kernel⟩, rfl, rfl, rfl, rfl, rfl,
       by decide +kernel⟩,
   ⟨(wTile 0x18 0x80050000000000 id), ((wTile 0x18 0x80050000000000 id).advance 0), 0, (0), (0x80050000000000), ([3]),
       ⟨rfl, by decide +kernel⟩, by decide +kernel⟩,
   ⟨(wTile 0x18 0x80050000000000 (fun k => { k with a := [(20, 1)] })), ((wTile 0x18 0x80050000000000 (fun k =>
       { k with a := [(20, 1)] })).advance 0), 0, (0), (0x80050000000000), ([3]), (_), (_), (_), ⟨rfl,
       by decide +kernel⟩, rfl, rfl, rfl, by decide +kernel⟩⟩

theorem test_meets_tile_copies_complete :
    (∃ (s a : State) (t : Nat) (core : Nat) (body : BitVec 56) (bad : List Nat) (k : Core) (o : CopyOp), s.runsAt t a
        ∧ (k = (a.markIssue core).core core) ∧
        (o = copyOf k ((a.markIssue core).coreCls core) body (a.rd TC_PC.PC core)) ∧
        (a.issuesNow core 0x20 body = true) ∧ (k.copies.length < 64) ∧
        (lowestOffence body (maskBits 49 48 ||| maskBits 27 0) [] = none) ∧
        ((k.ar (fieldAt body 37 33)).toNat / 2 ^ 39 = 0) ∧ (o.sx + o.rows * o.rowBytes ≤ spSize) ∧ (o.rowBytes = 0)) ∧
    (∃ (s a : State) (t : Nat) (core : Nat) (body : BitVec 56) (bad : List Nat) (k : Core) (o : CopyOp), s.runsAt t a
        ∧ (k = (a.markIssue core).core core) ∧
        (o = copyOf k ((a.markIssue core).coreCls core) body (a.rd TC_PC.PC core)) ∧
        (a.issuesNow core 0x20 body = true) ∧ (k.copies.length < 64) ∧
        (lowestOffence body (maskBits 49 48 ||| maskBits 27 0) [] = none) ∧
        ((k.ar (fieldAt body 37 33)).toNat / 2 ^ 39 = 0) ∧ (o.sx + o.rows * o.rowBytes ≤ spSize) ∧ (o.rowBytes ≠ 0) ∧
        (o.missing k.exts = none)) ∧
    (∃ (s a : State) (t : Nat) (core n conflicts : Nat) (only : List Nat) (found : Found) (o : CopyOp) (b r : State),
        s.runsAt t a ∧ (b = (a.reading found 0 (0x1000 + core)).bumpWrap TC_SP_CONFLICT.COUNT core conflicts) ∧
        (r = b.copyLinesNow core n (some only) found) ∧ ((a.core core).copyNo n = some o) ∧ (r.access.blocked = none)) ∧
    (∃ (s a : State) (t : Nat) (core n conflicts : Nat) (found : Found) (o p : CopyOp) (m : State) (b r : State),
        s.runsAt t a ∧ (b = (a.reading found 0 (0x1000 + core)).bumpWrap TC_SP_CONFLICT.COUNT core conflicts) ∧
        (m = b.moveAll core n found (o.bursts.length + 1)) ∧
        (r = (m.pmcCore core 8 p.pieces.length p.layer).copyDone core p) ∧ ((a.core core).copyNo n = some o) ∧
        ((m.core core).copyNo n = some p) ∧ (m.copyWhole core p = true) ∧ (p.out = false) ∧ (r.access.blocked = none)) ∧
    (∃ (s a : State) (t : Nat) (core n conflicts : Nat) (found : Found) (o p : CopyOp) (m : State) (b r : State),
        s.runsAt t a ∧ (b = (a.reading found 0 (0x1000 + core)).bumpWrap TC_SP_CONFLICT.COUNT core conflicts) ∧
        (m = b.moveAll core n found (o.bursts.length + 1)) ∧
        (r = (m.pmcCore core 9 p.pieces.length p.layer).copyDone core p) ∧ ((a.core core).copyNo n = some o) ∧
        ((m.core core).copyNo n = some p) ∧ (m.copyWhole core p = true) ∧ (p.out = true) ∧ (r.access.blocked = none)) ∧
    (∃ (s a : State) (t : Nat) (core n row va : Nat) (k : Core) (o : CopyOp), s.runsAt t a ∧ (k = a.core core) ∧
        ((k.copies ++ k.dropped).find? (fun o => o.k == n) = some o) ∧ (row < o.rows) ∧
        (rowAddr o.ux o.stride row ≤ va) ∧ (va < rowAddr o.ux o.stride row + o.rowBytes) ∧
        (a.isPeer ((physIn k.exts va 1 o.out).getD 0) = true ∨ a.burstOk k.ctx o.out ((physIn k.exts va 1 o.out).getD
        0) 1 = false)) ∧
    (∃ (s a : State) (t : Nat) (core n cause row va : Nat) (k : Core) (o : CopyOp), s.runsAt t a ∧ (k = a.core core) ∧
        ((k.copies ++ k.dropped).find? (fun o => o.k == n) = some o) ∧ (row < o.rows) ∧
        (rowAddr o.ux o.stride row ≤ va) ∧ (va < rowAddr o.ux o.stride row + o.rowBytes) ∧ (cause = 2 ∨ cause = 3) ∧
        (a.isPeer ((physIn k.exts va 1 o.out).getD 0) = true)) :=
  ⟨⟨(wTile 0x20 0 id), ((wTile 0x20 0 id).advance 0), 0, (0), (0), ([]), (_), (_), ⟨rfl, by decide +kernel⟩, rfl, rfl,
       by decide +kernel⟩,
   ⟨(wTile 0x20 0x2800000000 (fun k => { k with a := [(20, 64)] })), ((wTile 0x20 0x2800000000 (fun k =>
       { k with a := [(20, 64)] })).advance 0), 0, (0), (0x2800000000), ([0]), (_), (_), ⟨rfl, by decide +kernel⟩,
       rfl, rfl, by decide +kernel⟩,
   ⟨(({ wTile 0 0 fun k => { k with copies := [{ wCopy with begun := 1 }] } with dike := wOpen.dike } : State)),
       ((({ wTile 0 0 fun k => { k with copies := [{ wCopy with begun := 1 }] } with dike := wOpen.dike } :
       State)).advance 0), 0, (0), (0), (3), ([0]), (⟨[], [(0, .ue)], []⟩), ({ wCopy with begun := 1 }), (_), (_),
       ⟨rfl, by decide +kernel⟩, rfl, rfl, by decide +kernel⟩,
   ⟨(({ wTile 0 0 fun k => { k with copies := [{ wCopy with begun := 1 }] } with dike := wOpen.dike } : State)),
       ((({ wTile 0 0 fun k => { k with copies := [{ wCopy with begun := 1 }] } with dike := wOpen.dike } :
       State)).advance 0), 0, (0), (0), (3), (Found.none), ({ wCopy with begun := 1 }), (((((State.bumpWrap
       ((({ wTile 0 0 fun k => { k with copies := [{ wCopy with begun := 1 }] } with dike := wOpen.dike } :
       State).advance 0).reading Found.none 0 0x1000) TC_SP_CONFLICT.COUNT 0 3).moveAll 0 0 Found.none (CopyOp.bursts
       { wCopy with begun := 1 }).length.succ).core 0).copyNo 0).getD wCopy), (_), (_), (_), ⟨rfl, by decide +kernel⟩,
       rfl, rfl, rfl, by decide +kernel⟩,
   ⟨(({ wTile 0 0 fun k => { k with copies := [{ wCopy with out := true, begun := 1 }] } with dike := wOpen.dike } :
       State)), ((({ wTile 0 0 fun k => { k with copies := [{ wCopy with out := true, begun := 1 }] } with dike := wOpen.dike }
       : State)).advance 0), 0, (0), (0), (3), ((⟨[0], [], []⟩ : Found)), ({ wCopy with out := true, begun := 1 }),
       (((((State.bumpWrap ((({ wTile 0 0 fun k => { k with copies := [{ wCopy with out := true, begun := 1 }] } with dike := wOpen.dike }
       : State).advance 0).reading (⟨[0], [], []⟩ : Found) 0 0x1000) TC_SP_CONFLICT.COUNT 0 3).moveAll 0 0 (⟨[0], [],
       []⟩ : Found) (CopyOp.bursts { wCopy with out := true, begun := 1 }).length.succ).core 0).copyNo 0).getD wCopy),
       (_), (_), (_), ⟨rfl, by decide +kernel⟩, rfl, rfl, rfl, by decide +kernel⟩,
   ⟨({ wTile 0 0 fun k => { k with copies := [{ wCopy with begun := 1 }] } with dike := ⟨true, 1, 0, true, [], [], [], [], []⟩ }),
       (({ wTile 0 0 fun k => { k with copies := [{ wCopy with begun := 1 }] } with dike := ⟨true, 1, 0, true, [], [], [], [], []⟩ }).advance
       0), 0, (0), (0), (0), (63), (_), ({ wCopy with begun := 1 }), ⟨rfl, by decide +kernel⟩, rfl, by decide +kernel⟩,
   ⟨((wTile 0 0 fun k => { k with dropped := [{ wCopy with begun := 1 }], launch := some { wLaunch with exts := [⟨0, peerBase, 4096, true⟩] } }).wr
       LK_WIN.VALID 0 1), (((wTile 0 0 fun k =>
       { k with dropped := [{ wCopy with begun := 1 }], launch := some { wLaunch with exts := [⟨0, peerBase, 4096, true⟩] } }).wr
       LK_WIN.VALID 0 1).advance 0), 0, (0), (0), (3), (0), (0), (_), ({ wCopy with begun := 1 }), ⟨rfl,
       by decide +kernel⟩, rfl, by decide +kernel⟩⟩

theorem test_meets_queue_registers_complete :
    (∃ (s a : State) (t : Nat) (agent q : Nat) (v : Word) (b : State), s.runsAt t a ∧
        (b = (a.answer agent 0).storeReg agent (QE_Q_CFG.ENABLE.off q) v) ∧ (q < 16384) ∧
        (QE_Q_CFG.ENABLE.get v = 1) ∧ (a.allows agent (QE_Q_CFG.ENABLE.off q) true = true) ∧
        (b.flag QE_Q_CFG.ENABLE q = true) ∧ (b.rd QE_Q_STATUS.STATE q = 0) ∧ (b.ringsOk q = true)) ∧
    (∃ (s a : State) (t : Nat) (agent q : Nat) (v : Word) (b : State), s.runsAt t a ∧
        (b = (a.answer agent 0).storeReg agent (QE_Q_CFG.ENABLE.off q) v) ∧ (q < 16384) ∧
        (QE_Q_CFG.ENABLE.get v = 0) ∧ (a.allows agent (QE_Q_CFG.ENABLE.off q) true = true) ∧
        (a.flag QE_Q_CFG.ENABLE q = true) ∧ (b.flag QE_Q_CFG.ENABLE q = false) ∧ (b.rd QE_Q_STATUS.STATE q ≠ 0)) ∧
    (∃ (s a : State) (t : Nat) (agent q : Nat) (v : Word), s.runsAt t a ∧ (q < 16384) ∧
        (a.allows agent (QE_DB_TAIL.TAIL.off q) true = true)) ∧
    (∃ (s a : State) (t : Nat) (agent q : Nat), s.runsAt t a ∧ (q < 16384) ∧
        (a.allows agent (QE_Q_CTRL.RESUME.off q) true = true)) ∧
    (∃ (s a : State) (t : Nat) (agent q : Nat), s.runsAt t a ∧ (q < 16384) ∧
        (a.allows agent (QE_Q_CTRL.RESUME.off q) true = true)) ∧
    (∃ (s a : State) (t : Nat) (q i : Nat) (found : Found) (b r : State), s.runsAt t a ∧
        (b = a.reading found 0 (0x4000 + q)) ∧ (r = b.readSlot q i b.now 0) ∧ (a.readsNext q i = true) ∧
        ((a.queue q).reread = none) ∧ (r.access.blocked = none)) ∧
    (∃ (s a : State) (t : Nat) (q i first n : Nat) (found : Found) (b r : State), s.runsAt t a ∧
        (b = a.reading found 0 (0x4000 + q)) ∧ (r = b.readSlot q i first (n + 1)) ∧ (a.readsNext q i = true) ∧
        ((a.queue q).reread = some (i, first, n)) ∧ (first + 250 * (n + 1) ≤ a.now) ∧ (r.access.blocked = none)) :=
  ⟨⟨(wOpen), ((wOpen).advance 0), 0, (1), (16383), (QE_Q_CFG.ENABLE.mask), (_), ⟨rfl, by decide +kernel⟩, rfl,
       by decide +kernel⟩,
   ⟨(wQueue [] false), ((wQueue [] false).advance 0), 0, (1), (16383), (0), (_), ⟨rfl, by decide +kernel⟩, rfl,
       by decide +kernel⟩,
   ⟨(State.reset), ((State.reset).advance 0), 0, (1), (16383), (1), ⟨rfl, by decide +kernel⟩, by decide +kernel⟩,
   ⟨(State.reset), ((State.reset).advance 0), 0, (1), (16383), ⟨rfl, by decide +kernel⟩, by decide +kernel⟩,
   ⟨(State.reset), ((State.reset).advance 0), 0, (1), (16383), ⟨rfl, by decide +kernel⟩, by decide +kernel⟩,
   ⟨((wQueue [] false).wr QE_DB_TAIL.TAIL 16383 1), (((wQueue [] false).wr QE_DB_TAIL.TAIL 16383 1).advance 0), 0,
       (16383), (0), (⟨[], [(0, .ce 3)], []⟩), (_), (_), ⟨rfl, by decide +kernel⟩, rfl, rfl, by decide +kernel⟩,
   ⟨(((wQueue [] false).wr QE_DB_TAIL.TAIL 16383 1).setQueue 16383 { queueInit 0 with reread := some (0, 0, 0) }),
       ((((wQueue [] false).wr QE_DB_TAIL.TAIL 16383 1).setQueue 16383
       { queueInit 0 with reread := some (0, 0, 0) }).advance 250), 250, (16383), (0), (0), (0), (.none), (_), (_),
       ⟨rfl, by decide +kernel⟩, rfl, rfl, by decide +kernel⟩⟩

theorem test_meets_queue_commands_complete :
    (∃ (s a : State) (t : Nat) (q i : Nat) (x : InFlight) (found : Found) (b r : State), s.runsAt t a ∧
        (b = a.reading found 0 (0x4000 + q)) ∧ (r = b.moveDesc q i found x) ∧ (a.running q i 2 = some x) ∧
        (r.access.blocked = none)) ∧
    (∃ (s a : State) (t : Nat) (q i : Nat) (x : InFlight) (found : Found) (b r : State), s.runsAt t a ∧
        (b = a.reading found 0 (0x4000 + q)) ∧ (r = b.doInline q i x) ∧ (a.running q i 3 = some x) ∧
        (x.begun = false) ∧ (r.access.blocked = none)) ∧
    (∃ (s a : State) (t : Nat) (q i : Nat) (x : InFlight), s.runsAt t a ∧ (a.running q i 4 = some x)) ∧
    (∃ (s a : State) (t : Nat) (q i : Nat) (x : InFlight), s.runsAt t a ∧ (a.running q i 5 = some x) ∧
        (x.begun = false)) ∧
    (∃ (s a : State) (t : Nat) (q i slot : Nat) (found : Found) (f : Fetched) (es exts : List Extent) (desc : List
        Word) (m n c d u : State) (k : Bucket) (x : InFlight) (b r : State), s.runsAt t a ∧
        (c = (n.startHead q f exts).passHead q) ∧ (k = c.newBucket q f slot desc exts) ∧
        (d = { c with buckets := c.buckets ++ [k] }) ∧ (u = (d.setFlight { x with begun := true }).ceGo k) ∧
        (r = u.leaveFault q) ∧ (a.chosenHead q i = some f) ∧ (kindOf f.words = 6) ∧ (f.status = 0) ∧
        (a.bucketFree q = true) ∧ (b = (a.reading found 0 (0x4000 + q)).setQueue q
        { a.queue q with faulted := false }) ∧ (b.collSlot f.words = some slot) ∧
        (b.readDesc q f.words = (.ok es, desc, m)) ∧ (m.collCheck desc = none) ∧
        (m.walkRegions q (ceRegions desc { m.shape (m.newBucket q f slot desc []) with e := Desc.elements desc }) [] =
        (.ok exts, n)) ∧ (d.flight q f.i = some x) ∧ ((u.queue q).faulted = false) ∧ (r.access.blocked = none)) ∧
    (∃ (s a : State) (t : Nat) (q i : Nat) (x : InFlight), s.runsAt t a ∧ (a.running q i 7 = some x) ∧
        (x.begun = false)) ∧
    (∃ (s a : State) (t : Nat) (q i : Nat) (x : InFlight), s.runsAt t a ∧ (a.running q i 8 = some x)) ∧
    (∃ (s a : State) (t : Nat) (q i : Nat) (x : InFlight), s.runsAt t a ∧ (a.running q i 9 = some x) ∧
        ((x.words.getD 1 0).toNat.testBit 0 = false ∨ a.queueOwes q = false)) ∧
    (∃ (s a : State) (t : Nat) (q i st : Nat) (x : InFlight), s.runsAt t a ∧ (a.nextDone q = some x) ∧
        (x.status = some st) ∧ (x.i = i)) :=
  ⟨⟨({ State.reset with inflight := [{ wFlight with kind := 2, words := [0x20000] }] }),
       (({ State.reset with inflight := [{ wFlight with kind := 2, words := [0x20000] }] }).advance 0), 0, (0), (5),
       ({ wFlight with kind := 2, words := [0x20000] }), (.none), (_), (_), ⟨rfl, by decide +kernel⟩, rfl, rfl,
       by decide +kernel⟩,
   ⟨({ State.reset with inflight := [{ wFlight with kind := 3, words := [0x20000] }] }),
       (({ State.reset with inflight := [{ wFlight with kind := 3, words := [0x20000] }] }).advance 0), 0, (0), (5),
       ({ wFlight with kind := 3, words := [0x20000] }), (.none), (_), (_), ⟨rfl, by decide +kernel⟩, rfl, rfl,
       by decide +kernel⟩,
   ⟨({ State.reset with inflight := [{ wFlight with kind := 4, words := [0x20000] }] }),
       (({ State.reset with inflight := [{ wFlight with kind := 4, words := [0x20000] }] }).advance 0), 0, (0), (5),
       ({ wFlight with kind := 4, words := [0x20000] }), ⟨rfl, by decide +kernel⟩, by decide +kernel⟩,
   ⟨({ State.reset with inflight := [{ wFlight with kind := 5, words := [0x20000] }] }),
       (({ State.reset with inflight := [{ wFlight with kind := 5, words := [0x20000] }] }).advance 0), 0, (0), (5),
       ({ wFlight with kind := 5, words := [0x20000] }), ⟨rfl, by decide +kernel⟩, by decide +kernel⟩,
   ⟨(wCollState), ((wCollState).advance 0), 0, (0), (0), (wCollSlot), (.none), (wCollCmd), (wCollRead.1),
       (wCollWalk.1), (wCollRead.2.1), (wCollRead.2.2), (wCollWalk.2), (_), (_), (_), (_), (((State.flight
       ((wCollWalk.2.startHead 0 wCollCmd wCollWalk.1).passHead 0) 0 0).getD wFlight)), (wCollBegin), (_), ⟨rfl,
       by decide +kernel⟩, rfl, rfl, rfl, rfl, rfl, by decide +kernel⟩,
   ⟨({ State.reset with inflight := [{ wFlight with kind := 7, words := [0x20000] }] }),
       (({ State.reset with inflight := [{ wFlight with kind := 7, words := [0x20000] }] }).advance 0), 0, (0), (5),
       ({ wFlight with kind := 7, words := [0x20000] }), ⟨rfl, by decide +kernel⟩, by decide +kernel⟩,
   ⟨({ State.reset with inflight := [{ wFlight with kind := 8, words := [0x20000] }] }),
       (({ State.reset with inflight := [{ wFlight with kind := 8, words := [0x20000] }] }).advance 0), 0, (0), (5),
       ({ wFlight with kind := 8, words := [0x20000] }), ⟨rfl, by decide +kernel⟩, by decide +kernel⟩,
   ⟨({ State.reset with inflight := [{ wFlight with kind := 9, words := [0x20000] }] }),
       (({ State.reset with inflight := [{ wFlight with kind := 9, words := [0x20000] }] }).advance 0), 0, (0), (5),
       ({ wFlight with kind := 9, words := [0x20000] }), ⟨rfl, by decide +kernel⟩, by decide +kernel⟩,
   ⟨({ State.reset with inflight := [{ wFlight with kind := 2, words := [0x20000], status := some 0 }] }),
       (({ State.reset with inflight := [{ wFlight with kind := 2, words := [0x20000], status := some 0 }] }).advance
       0), 0, (0), (5), (0), ({ wFlight with kind := 2, words := [0x20000], status := some 0 }), ⟨rfl,
       by decide +kernel⟩, by decide +kernel⟩⟩

theorem test_meets_power_and_sluice_complete :
    (∃ (s a : State) (t : Nat) , s.runsAt t a ∧ (a.save.phase = 0)) ∧
    (∃ (s a : State) (t : Nat) (k : Nat) (r : Reservation), s.runsAt t a ∧
        (a.reservs.find? (fun r => r.k == k) = some r) ∧ (r.waiting = true) ∧ (a.grantDue r ≤ a.now) ∧
        (a.now < r.hi) ∧ (a.save.phase = 0)) ∧
    (∃ (s a : State) (t : Nat) (k : Nat) (r : Reservation), s.runsAt t a ∧
        (a.reservs.find? (fun r => r.k == k) = some r) ∧ (r.hi ≤ a.now) ∧
        ((r.waiting && r.meets a.now (a.now + 1)) = false)) ∧
    (∃ (s a : State) (t : Nat) (k : Nat) (r : Reservation), s.runsAt t a ∧
        (a.reservs.find? (fun r => r.k == k) = some r) ∧ (r.hi ≤ a.now) ∧
        ((r.waiting && r.meets a.now (a.now + 1)) = true)) ∧
    (∃ (s a : State) (t : Nat) (q f : Nat), s.runsAt t a ∧ ((a.queue q).refusedAt = some f) ∧
        (f + a.rd SLU_CFG.STARVE_US * 1000 ≤ a.now)) ∧
    (∃ (s a : State) (t : Nat) (e : ThrEvent) (k : Nat × Nat), s.runsAt t a ∧ (k ∈ thrPairs) ∧
        (a.thrEvents.find? (fun e => e.is k.1 k.2 && decide (e.cont ≤ a.now)) = some e)) ∧
    (∃ (s a : State) (t : Nat) (die : Nat) (b : State), s.runsAt t a ∧ (b = a.setDuty die (a.duty die + 1)) ∧
        (a.edge 1000 = true) ∧ (Tab.get (fun _ => false) a.ramps die = true) ∧ (a.acting 1 die = false) ∧
        (a.acting 2 die = false) ∧ (a.acting 3 die = false) ∧ (b.duty die = 16)) ∧
    (∃ (s a : State) (t : Nat) (cluster : Nat), s.runsAt t a ∧ (cluster < 12) ∧ (a.flag SLU_PKG_STATUS.SAG = false) ∧
        (a.save.phase = 0) ∧ (Tab.get (fun _ => 0) a.hclkAt cluster = 0) ∧ (a.hclkDown cluster = false) ∧
        (a.rd SLU_HCLK.CUR cluster < min 32 (a.rd SLU_HCLK.MAX cluster))) ∧
    (∃ (s a : State) (t : Nat) (cluster : Nat), s.runsAt t a ∧ (cluster < 12) ∧ (a.flag SLU_PKG_STATUS.SAG = false) ∧
        (a.save.phase = 0) ∧ (Tab.get (fun _ => 0) a.hclkAt cluster = 0) ∧ (a.hclkDown cluster = true) ∧
        (10 < a.rd SLU_HCLK.CUR cluster)) ∧
    (∃ (s a : State) (t : Nat) (x : PowerSample) (b : State), s.runsAt t a ∧ (b = a.keepSample x) ∧
        (a.edge 1000 = true) ∧ (a.samples.any (fun r => r.tick == a.now) = false) ∧ (b.save.phase = 0)) :=
  ⟨⟨(State.reset), ((State.reset).advance 0), 0, ⟨rfl, by decide +kernel⟩, by decide +kernel⟩,
   ⟨({ State.reset with reservs := [⟨7, 0, 0, 0, 0, 0, 0, 0, 0, 100, 0, 0, 0, none, [], true, 0, 0, false⟩] }),
       (({ State.reset with reservs := [⟨7, 0, 0, 0, 0, 0, 0, 0, 0, 100, 0, 0, 0, none, [], true, 0, 0, false⟩] }).advance
       0), 0, (7), (⟨7, 0, 0, 0, 0, 0, 0, 0, 0, 100, 0, 0, 0, none, [], true, 0, 0, false⟩), ⟨rfl, by decide +kernel⟩,
       by decide +kernel⟩,
   ⟨({ State.reset with reservs := [⟨7, 0, 0, 0, 0, 0, 0, 0, 0, 100, 0, 0, 0, none, [], true, 0, 0, false⟩] }),
       (({ State.reset with reservs := [⟨7, 0, 0, 0, 0, 0, 0, 0, 0, 100, 0, 0, 0, none, [], true, 0, 0, false⟩] }).advance
       100), 100, (7), (⟨7, 0, 0, 0, 0, 0, 0, 0, 0, 100, 0, 0, 0, none, [], true, 0, 0, false⟩), ⟨rfl,
       by decide +kernel⟩, by decide +kernel⟩,
   ⟨({ State.reset with reservs := [⟨7, 0, 0, 0, 0, 0, 0, 0, 0, 100, 90, 80, 0, some 0, [], true, 0, 200, false⟩] }),
       (({ State.reset with reservs := [⟨7, 0, 0, 0, 0, 0, 0, 0, 0, 100, 90, 80, 0, some 0, [], true, 0, 200, false⟩] }).advance
       100), 100, (7), (⟨7, 0, 0, 0, 0, 0, 0, 0, 0, 100, 90, 80, 0, some 0, [], true, 0, 200, false⟩), ⟨rfl,
       by decide +kernel⟩, by decide +kernel⟩,
   ⟨(State.reset.setQueue 16383 { queueInit 0 with refusedAt := some 0 }), ((State.reset.setQueue 16383
       { queueInit 0 with refusedAt := some 0 }).advance 1000000000), 1000000000, (16383), (0), ⟨rfl,
       by decide +kernel⟩, by decide +kernel⟩,
   ⟨({ State.reset with thrEvents := [⟨1, 15, 0, false, 0, 0, 0, 0, 0, 0, 0, 0, true⟩] }),
       (({ State.reset with thrEvents := [⟨1, 15, 0, false, 0, 0, 0, 0, 0, 0, 0, 0, true⟩] }).advance 0), 0, (⟨1, 15,
       0, false, 0, 0, 0, 0, 0, 0, 0, 0, true⟩), ((1, 15)), ⟨rfl, by decide +kernel⟩, by decide +kernel⟩,
   ⟨((State.setDuty { State.reset with ramps := [(3, true)] } 3 15)), (((State.setDuty
       { State.reset with ramps := [(3, true)] } 3 15)).advance 0), 0, (3), (_), ⟨rfl, by decide +kernel⟩, rfl,
       by decide +kernel⟩,
   ⟨(wSet [(SLU_HCLK.CUR, 11, 10), (SLU_HCLK.MAX, 11, 32)]), ((wSet [(SLU_HCLK.CUR, 11, 10), (SLU_HCLK.MAX, 11,
       32)]).advance 0), 0, (11), ⟨rfl, by decide +kernel⟩, by decide +kernel⟩,
   ⟨(wSet [(SLU_HCLK.CUR, 0, 32), (SLU_HCLK.MAX, 0, 20)]), ((wSet [(SLU_HCLK.CUR, 0, 32), (SLU_HCLK.MAX, 0,
       20)]).advance 0), 0, (0), ⟨rfl, by decide +kernel⟩, by decide +kernel⟩,
   ⟨(State.reset), ((State.reset).advance 0), 0, (⟨[], [], 12000, 0⟩), (_), ⟨rfl, by decide +kernel⟩, rfl,
       by decide +kernel⟩⟩

theorem test_meets_sync_objects_complete :
    (∃ (s a : State) (t : Nat) (agent obj : Nat) (v : Word), s.runsAt t a ∧ (obj < 8192) ∧
        (a.allows agent (SY_ADD.V.off obj) true = true)) ∧
    (∃ (s a : State) (t : Nat) (agent obj : Nat) (v : Word), s.runsAt t a ∧ (obj < 8192) ∧
        (a.allows agent (SY_SET.V.off obj) true = true)) ∧
    (∃ (s a : State) (t : Nat) (q n : Nat) (r : List (Nat × Nat)), s.runsAt t a ∧ (a.advances = (q, n) :: r)) ∧
    (∃ (s a : State) (t : Nat) (agent obj : Nat) (v : Word), s.runsAt t a ∧ (obj < 8192) ∧
        (a.allows agent (SY_TRIG_CFG.ARM.off obj) true = true) ∧ (a.rd TXN_STATUS.STATE = 0)) ∧
    (∃ (s a : State) (t : Nat) (agent core : Nat), s.runsAt t a ∧ (core < 96) ∧
        (a.allows agent (SY_EVENT.OBJ.off core) false = true)) ∧
    (∃ (s a : State) (t : Nat) (w : WaiterId) (x : Waiter), s.runsAt t a ∧
        (a.waiters.find? (fun x => decide (x.who = w)) = some x) ∧ (x.open a.now = false)) :=
  ⟨⟨(State.reset), ((State.reset).advance 0), 0, (1), (8191), (1), ⟨rfl, by decide +kernel⟩, by decide +kernel⟩,
   ⟨(State.reset), ((State.reset).advance 0), 0, (1), (8191), (1), ⟨rfl, by decide +kernel⟩, by decide +kernel⟩,
   ⟨({ State.reset with advances := [(16383, 1)] }), (({ State.reset with advances := [(16383, 1)] }).advance 0), 0,
       (16383), (1), ([]), ⟨rfl, by decide +kernel⟩, by decide +kernel⟩,
   ⟨(State.reset), ((State.reset).advance 0), 0, (1), (8191), (1), ⟨rfl, by decide +kernel⟩, by decide +kernel⟩,
   ⟨(State.reset), ((State.reset).advance 0), 0, (1), (95), ⟨rfl, by decide +kernel⟩, by decide +kernel⟩,
   ⟨({ State.reset with waiters := [⟨.queue 5, 9, 0, 1, 0, 3⟩] }),
       (({ State.reset with waiters := [⟨.queue 5, 9, 0, 1, 0, 3⟩] }).advance 4000000000), 4000000000, (.queue 5),
       (⟨.queue 5, 9, 0, 1, 0, 3⟩), ⟨rfl, by decide +kernel⟩, by decide +kernel⟩⟩

theorem test_meets_mailboxes_complete :
    (∃ (s a : State) (t : Nat) (agent m : Nat), s.runsAt t a ∧ (m < 64) ∧
        (a.allows agent (MB_LOCK.RESULT.off m) false = true) ∧ ((isHost agent || isService agent) = true) ∧
        (a.mbState m = 0)) ∧
    (∃ (s a : State) (t : Nat) (agent m : Nat) (v : Word) (b : State), s.runsAt t a ∧
        (b = (a.answer agent 0).storeReg agent (MB_RELEASE.GO.off m) v) ∧ (m < 64) ∧
        (a.allows agent (MB_RELEASE.GO.off m) true = true) ∧ (MB_RELEASE.GO.get v = 1) ∧ (b.mbState m ≠ 0) ∧
        (b.mbOwner m = agent)) ∧
    (∃ (s a : State) (t : Nat) (agent m : Nat) (v : Word), s.runsAt t a ∧ (m < 64) ∧
        (a.allows agent (MB_REQ.WORD.off m) true = true) ∧ (a.mbOwner m = agent) ∧
        (a.mbState m = 1 ∨ a.mbState m = 3) ∧ ((a.mbox m).req.length < 32)) ∧
    (∃ (s a : State) (t : Nat) (agent m : Nat) (w : Word) (r : List Word), s.runsAt t a ∧ (m < 64) ∧
        (a.allows agent (MB_REQ.WORD.off m) false = true) ∧ (a.mbState m = 2) ∧ (a.responds m agent = true) ∧
        ((a.mbox m).req = w :: r)) ∧
    (∃ (s a : State) (t : Nat) (agent m : Nat) (v : Word), s.runsAt t a ∧ (m < 64) ∧
        (a.allows agent (MB_RSP.WORD.off m) true = true) ∧ (a.mbState m = 2) ∧ (a.responds m agent = true) ∧
        ((a.mbox m).rsp.length < 32)) ∧
    (∃ (s a : State) (t : Nat) (agent m : Nat) (w : Word) (r : List Word), s.runsAt t a ∧ (m < 64) ∧
        (a.allows agent (MB_RSP.WORD.off m) false = true) ∧ (a.mbState m = 3) ∧ (a.mbOwner m = agent) ∧
        ((a.mbox m).rsp = w :: r)) ∧
    (∃ (s a : State) (t : Nat) (agent m : Nat) (v : Word) (b : State), s.runsAt t a ∧
        (b = (a.answer agent 0).storeReg agent (MB_SEND.CMD.off m) v) ∧ (m < 64) ∧
        (a.allows agent (MB_SEND.CMD.off m) true = true) ∧ (b.mbOwner m = agent) ∧
        (b.mbState m = 1 ∨ b.mbState m = 3) ∧ (b.flag MB_STATUS.OVERFLOW m = false) ∧ (isHost agent = true)) ∧
    (∃ (s a : State) (t : Nat) (agent m : Nat) (v : Word) (b : State), s.runsAt t a ∧
        (b = (a.answer agent 0).storeReg agent (MB_SEND.CMD.off m) v) ∧ (m < 64) ∧
        (a.allows agent (MB_SEND.CMD.off m) true = true) ∧ (b.mbOwner m = agent) ∧
        (b.mbState m = 1 ∨ b.mbState m = 3) ∧ (b.flag MB_STATUS.OVERFLOW m = true)) ∧
    (∃ (s a : State) (t : Nat) (agent m : Nat) (v : Word), s.runsAt t a ∧ (m < 64) ∧
        (a.allows agent (MB_ACK.CODE.off m) true = true) ∧ (a.mbState m = 2) ∧ (a.responds m agent = true) ∧
        (a.now < a.mbDue m) ∧ (ackCode (MB_ACK.CODE.get v) = true)) ∧
    (∃ (s a : State) (t : Nat) (m : Nat), s.runsAt t a ∧ (a.mbState m = 2) ∧ (a.mbDue m ≤ a.now)) :=
  ⟨⟨(State.reset), ((State.reset).advance 0), 0, (1), (63), ⟨rfl, by decide +kernel⟩, by decide +kernel⟩,
   ⟨(wSet [(MB_STATUS.STATE, 63, 1), (MB_STATUS.OWNER, 63, 1)]), ((wSet [(MB_STATUS.STATE, 63, 1), (MB_STATUS.OWNER,
       63, 1)]).advance 0), 0, (1), (63), (1), (_), ⟨rfl, by decide +kernel⟩, rfl, by decide +kernel⟩,
   ⟨(wSet [(MB_STATUS.STATE, 0, 3), (MB_STATUS.OWNER, 0, 1)]), ((wSet [(MB_STATUS.STATE, 0, 3), (MB_STATUS.OWNER, 0,
       1)]).advance 0), 0, (1), (0), (9), ⟨rfl, by decide +kernel⟩, by decide +kernel⟩,
   ⟨((wSet [(MB_STATUS.STATE, 0, 2), (MB_STATUS.OWNER, 0, 0x100)]).setMbox 0 ⟨[9], [], 0, 0, true⟩), (((wSet
       [(MB_STATUS.STATE, 0, 2), (MB_STATUS.OWNER, 0, 0x100)]).setMbox 0 ⟨[9], [], 0, 0, true⟩).advance 0), 0, (1),
       (0), (9), ([]), ⟨rfl, by decide +kernel⟩, by decide +kernel⟩,
   ⟨(wSet [(MB_STATUS.STATE, 0, 2), (MB_STATUS.OWNER, 0, 0x100)]), ((wSet [(MB_STATUS.STATE, 0, 2), (MB_STATUS.OWNER,
       0, 0x100)]).advance 0), 0, (1), (0), (9), ⟨rfl, by decide +kernel⟩, by decide +kernel⟩,
   ⟨((wSet [(MB_STATUS.STATE, 0, 3), (MB_STATUS.OWNER, 0, 1)]).setMbox 0 ⟨[], [9], 0, 0, false⟩), (((wSet
       [(MB_STATUS.STATE, 0, 3), (MB_STATUS.OWNER, 0, 1)]).setMbox 0 ⟨[], [9], 0, 0, false⟩).advance 0), 0, (1), (0),
       (9), ([]), ⟨rfl, by decide +kernel⟩, by decide +kernel⟩,
   ⟨((wOpen.wr MB_STATUS.STATE 0 1).wr MB_STATUS.OWNER 0 0x100), (((wOpen.wr MB_STATUS.STATE 0 1).wr MB_STATUS.OWNER 0
       0x100).advance 0), 0, (0x100), (0), (0x200), (_), ⟨rfl, by decide +kernel⟩, rfl, by decide +kernel⟩,
   ⟨(wSet [(MB_STATUS.STATE, 0, 1), (MB_STATUS.OWNER, 0, 1), (MB_STATUS.OVERFLOW, 0, 1)]), ((wSet [(MB_STATUS.STATE,
       0, 1), (MB_STATUS.OWNER, 0, 1), (MB_STATUS.OVERFLOW, 0, 1)]).advance 0), 0, (1), (0), (0), (_), ⟨rfl,
       by decide +kernel⟩, rfl, by decide +kernel⟩,
   ⟨(wSet [(MB_STATUS.STATE, 0, 2), (MB_STATUS.OWNER, 0, 0x100)]), ((wSet [(MB_STATUS.STATE, 0, 2), (MB_STATUS.OWNER,
       0, 0x100)]).advance 0), 0, (1), (0), (1), ⟨rfl, by decide +kernel⟩, by decide +kernel⟩,
   ⟨(wSet [(MB_STATUS.STATE, 63, 2)]), ((wSet [(MB_STATUS.STATE, 63, 2)]).advance 4000000000000), 4000000000000, (63),
       ⟨rfl, by decide +kernel⟩, by decide +kernel⟩⟩

theorem test_meets_firmware_complete :
    (∃ (s a : State) (t : Nat) (m : Nat) (w : List Word) (b : State), s.runsAt t a ∧ (w = (a.takeReq m 9).1) ∧
        (b = (a.takeReq m 9).2) ∧ (m < 32) ∧ (a.fwHolds m 0x100 = true) ∧ ((w.getD 8 0).toNat % 4096 = 0) ∧
        (b.fwMay (b.mbOwner m) (w.getD 8 0).toNat 4096 = true)) ∧
    (∃ (s a : State) (t : Nat) (m n : Nat) (w : List Word) (b : State), s.runsAt t a ∧ (w = (a.takeReq m 2).1) ∧
        (b = (a.takeReq m 2).2) ∧ (n = Config.certificates.length) ∧ (m < 32) ∧ (a.fwHolds m 0x101 = true) ∧
        (b.fwMay (b.mbOwner m) (w.getD 0 0).toNat (w.getD 1 0).toNat = true)) ∧
    (∃ (s a : State) (t : Nat) (m pa len slot n : Nat) (ok : Bool) (found : Found) (w : List Word) (e c : State) (bs :
        List Byte) (bad : Bool) (b r : State), s.runsAt t a ∧ (b = a.reading found 0 1) ∧ (w = (b.takeReq m 3).1) ∧
        (e = (b.takeReq m 3).2) ∧ (pa = (w.getD 0 0).toNat) ∧ (len = (w.getD 1 0).toNat) ∧
        (slot = (w.getD 2 0).toNat) ∧ (bs = (e.engRead pa len).1) ∧ (bad = (e.engRead pa len).2.1) ∧
        (c = (e.engRead pa len).2.2) ∧ (n = c.checkImage (stagedImg bs) bad false) ∧
        (r = (if n ≠ 1 then c.fwAnswer m 5 [w64 n]
        else if ok then (c.programSlot slot (bs.take (imgLen (stagedImg bs)))).fwAnswer m 1 []
        else (c.spoilSlot slot (bs.take (imgLen (stagedImg bs))).length).fwAnswer m 5 [0xFF])) ∧
            (b.imageTurn m = true) ∧ (m < 32) ∧ (b.fwHolds m 0x102 = true) ∧ (e.isAdmin (e.mbOwner m) = true) ∧
            (slot < 2) ∧ (slot ≠ e.rd BOOT_STATUS.SLOT) ∧ (e.fwMay (e.mbOwner m) pa len = true) ∧
            (imgLen (stagedImg bs) ≤ len) ∧ (r.access.blocked = none)) ∧
    (∃ (s a : State) (t : Nat) (m : Nat) (w : List Word) (b : State), s.runsAt t a ∧ (w = (a.takeReq m 1).1) ∧
        (b = (a.takeReq m 1).2) ∧ (a.imageTurn m = true) ∧ (m < 32) ∧ (a.fwHolds m 0x103 = true) ∧
        (b.isAdmin (b.mbOwner m) = true)) ∧
    (∃ (s a : State) (t : Nat) (m : Nat) (b : State), s.runsAt t a ∧ (b = (a.takeReq m 0).2) ∧
        (a.imageTurn m = true) ∧ (m < 32) ∧ (a.fwHolds m 0x104 = true) ∧ (b.isAdmin (b.mbOwner m) = true)) ∧
    (∃ (s a : State) (t : Nat) (m : Nat) (w : List Word) (b : State) (l : List (List Word)), s.runsAt t a ∧
        (w = (a.takeReq m 2).1) ∧ (b = (a.takeReq m 2).2) ∧ (l = b.thrLog.take ((w.getD 1 0).toNat / 32)) ∧ (m < 32) ∧
        (a.fwHolds m 0x200 = true) ∧ ((w.getD 0 0).toNat % 4096 = 0) ∧ (32 ≤ (w.getD 1 0).toNat) ∧
        (b.fwMay (b.mbOwner m) (w.getD 0 0).toNat (w.getD 1 0).toNat = true)) ∧
    (∃ (s a : State) (t : Nat) (m t2 n : Nat) (w : List Word) (b c : State) (g : List Word), s.runsAt t a ∧
        (w = (a.takeReq m 3).1) ∧ (b = (a.takeReq m 3).2) ∧
        (c = { b.advance t2 with freeIdx := b.freeIdx + g.length }) ∧ (a.fwHolds m 0x300 = true) ∧
        (b.fwMay (b.mbOwner m) (w.getD 0 0).toNat (w.getD 1 0).toNat = true) ∧
        (b.graphWords (w.getD 2 0).toNat (w.getD 1 0).toNat b.tb (b.advance t2).tb b.freeIdx = (g, n)) ∧
        (64 ≤ (w.getD 1 0).toNat)) ∧
    (∃ (s a : State) (t : Nat) (m : Nat) (w : List Word) (b : State) (r : List Byte), s.runsAt t a ∧
        (w = (a.takeReq m 3).1) ∧ (b = (a.takeReq m 3).2) ∧
        (r = wordBytes (b.collectWords (w.getD 2 0).toNat (b.mbOwner m) (w.getD 1 0).toNat)) ∧
        (a.fwHolds m 0x301 = true) ∧ (1024 ≤ (w.getD 1 0).toNat) ∧ ((w.getD 2 0).toNat < 4096) ∧
        (b.fwMay (b.mbOwner m) (w.getD 0 0).toNat (w.getD 1 0).toNat = true)) :=
  ⟨⟨(wFw 0x100 [0, 0, 0, 0, 0, 0, 0, 0, 0x1000]), ((wFw 0x100 [0, 0, 0, 0, 0, 0, 0, 0, 0x1000]).advance 0), 0, (0),
       (_), (_), ⟨rfl, by decide +kernel⟩, rfl, rfl, by decide +kernel⟩,
   ⟨(wFw 0x101 [0x1000, 0x100000]), ((wFw 0x101 [0x1000, 0x100000]).advance 0), 0, (0), (_), (_), (_), ⟨rfl,
       by decide +kernel⟩, rfl, rfl, rfl, by decide +kernel⟩,
   ⟨(wFw 0x102 [0x1000, 64, 1]), ((wFw 0x102 [0x1000, 64, 1]).advance 0), 0, (0), (_), (_), (_), (_), (true), (.none),
       (_), (_), (_), (_), (_), (_), (_), ⟨rfl, by decide +kernel⟩, rfl, rfl, rfl, rfl, rfl, rfl, rfl, rfl, rfl, rfl,
       rfl, by decide +kernel⟩,
   ⟨(wFw 0x103 [1]), ((wFw 0x103 [1]).advance 0), 0, (0), (_), (_), ⟨rfl, by decide +kernel⟩, rfl, rfl,
       by decide +kernel⟩,
   ⟨(wFw 0x104 []), ((wFw 0x104 []).advance 0), 0, (0), (_), ⟨rfl, by decide +kernel⟩, rfl, by decide +kernel⟩,
   ⟨(wFw 0x200 [0x1000, 32]), ((wFw 0x200 [0x1000, 32]).advance 0), 0, (0), (_), (_), (_), ⟨rfl, by decide +kernel⟩,
       rfl, rfl, rfl, by decide +kernel⟩,
   ⟨(wFw 0x300 [0x1000, 64, 0xFFF]), ((wFw 0x300 [0x1000, 64, 0xFFF]).advance 0), 0, (0), (100), ((((wFw 0x300
       [0x1000, 64, 0xFFF]).advance 0).takeReq 0 3).2.graphWords 0xFFF 64 0 100 0 |>.2), (_), (_), (_), ((((wFw 0x300
       [0x1000, 64, 0xFFF]).advance 0).takeReq 0 3).2.graphWords 0xFFF 64 0 100 0 |>.1), ⟨rfl, by decide +kernel⟩,
       rfl, rfl, rfl, by decide +kernel⟩,
   ⟨(wFw 0x301 [0x1000, 1024, 4095]), ((wFw 0x301 [0x1000, 1024, 4095]).advance 0), 0, (0), (_), (_), (_), ⟨rfl,
       by decide +kernel⟩, rfl, rfl, rfl, by decide +kernel⟩⟩

theorem test_meets_memory_side_operations_complete :
    (∃ (s a : State) (t : Nat) (agent old y v : Nat) (r : MopReq) (d : Line) (c b u : State), s.runsAt t a ∧
        (c = a.reading r.found 0 agent) ∧ (d = (c.adderTake (r.pa / 64)).1) ∧ (b = (c.adderTake (r.pa / 64)).2.2) ∧
        (old = (d.toNat >>> (8 * (r.pa % 64))) % 2 ^ 32) ∧ (y = r.operand.toNat % 2 ^ 32) ∧ (v = (old + y) % 2 ^ 32) ∧
        (u = ((b.countMop (r.pa / 64)).storeLine (r.pa / 64) (maskOf (r.pa % 64) 4) (BitVec.ofNat 512 (v <<< (8 *
        (r.pa % 64))))).answer agent (if r.fetch then BitVec.ofNat 64 old else 0)) ∧ (a.save.phase = 0) ∧
        (r.form = .scalar) ∧ ((a.region r.pa).coherent = true) ∧ (r.pa % 4 = 0) ∧
        (a.admits agent true r.pa 4 = true) ∧ (a.holdKey (r.pa / 64) = none) ∧ (c.lostLine (r.pa / 64) = false) ∧
        ((c.adderTake (r.pa / 64)).2.1 = false) ∧ (u.access.blocked = none)) ∧
    (∃ (s a : State) (t : Nat) (agent old y v : Nat) (r : MopReq) (d : Line) (c b u : State), s.runsAt t a ∧
        (c = a.reading r.found 0 agent) ∧ (d = (c.adderTake (r.pa / 64)).1) ∧ (b = (c.adderTake (r.pa / 64)).2.2) ∧
        (old = (d.toNat >>> (8 * (r.pa % 64))) % 2 ^ 64) ∧ (y = r.operand.toNat % 2 ^ 64) ∧ (v = (old + y) % 2 ^ 64) ∧
        (u = ((b.countMop (r.pa / 64)).storeLine (r.pa / 64) (maskOf (r.pa % 64) 8) (BitVec.ofNat 512 (v <<< (8 *
        (r.pa % 64))))).answer agent (if r.fetch then BitVec.ofNat 64 old else 0)) ∧ (a.save.phase = 0) ∧
        (r.form = .scalar) ∧ ((a.region r.pa).coherent = true) ∧ (r.pa % 8 = 0) ∧
        (a.admits agent true r.pa 8 = true) ∧ (a.holdKey (r.pa / 64) = none) ∧ (c.lostLine (r.pa / 64) = false) ∧
        ((c.adderTake (r.pa / 64)).2.1 = false) ∧ (u.access.blocked = none)) ∧
    (∃ (s a : State) (t : Nat) (agent old y v : Nat) (r : MopReq) (d : Line) (c b u : State), s.runsAt t a ∧
        (c = a.reading r.found 0 agent) ∧ (d = (c.adderTake (r.pa / 64)).1) ∧ (b = (c.adderTake (r.pa / 64)).2.2) ∧
        (old = (d.toNat >>> (8 * (r.pa % 64))) % 2 ^ 32) ∧ (y = r.operand.toNat % 2 ^ 32) ∧
        (v = if signedNat 32 old ≤ signedNat 32 y then old else y) ∧
        (u = ((b.countMop (r.pa / 64)).storeLine (r.pa / 64) (maskOf (r.pa % 64) 4) (BitVec.ofNat 512 (v <<< (8 *
        (r.pa % 64))))).answer agent (if r.fetch then BitVec.ofNat 64 old else 0)) ∧ (a.save.phase = 0) ∧
        (r.form = .scalar) ∧ ((a.region r.pa).coherent = true) ∧ (r.pa % 4 = 0) ∧
        (a.admits agent true r.pa 4 = true) ∧ (a.holdKey (r.pa / 64) = none) ∧ (c.lostLine (r.pa / 64) = false) ∧
        ((c.adderTake (r.pa / 64)).2.1 = false) ∧ (u.access.blocked = none)) ∧
    (∃ (s a : State) (t : Nat) (agent old y v : Nat) (r : MopReq) (d : Line) (c b u : State), s.runsAt t a ∧
        (c = a.reading r.found 0 agent) ∧ (d = (c.adderTake (r.pa / 64)).1) ∧ (b = (c.adderTake (r.pa / 64)).2.2) ∧
        (old = (d.toNat >>> (8 * (r.pa % 64))) % 2 ^ 64) ∧ (y = r.operand.toNat % 2 ^ 64) ∧
        (v = if signedNat 64 old ≤ signedNat 64 y then old else y) ∧
        (u = ((b.countMop (r.pa / 64)).storeLine (r.pa / 64) (maskOf (r.pa % 64) 8) (BitVec.ofNat 512 (v <<< (8 *
        (r.pa % 64))))).answer agent (if r.fetch then BitVec.ofNat 64 old else 0)) ∧ (a.save.phase = 0) ∧
        (r.form = .scalar) ∧ ((a.region r.pa).coherent = true) ∧ (r.pa % 8 = 0) ∧
        (a.admits agent true r.pa 8 = true) ∧ (a.holdKey (r.pa / 64) = none) ∧ (c.lostLine (r.pa / 64) = false) ∧
        ((c.adderTake (r.pa / 64)).2.1 = false) ∧ (u.access.blocked = none)) ∧
    (∃ (s a : State) (t : Nat) (agent old y v : Nat) (r : MopReq) (d : Line) (c b u : State), s.runsAt t a ∧
        (c = a.reading r.found 0 agent) ∧ (d = (c.adderTake (r.pa / 64)).1) ∧ (b = (c.adderTake (r.pa / 64)).2.2) ∧
        (old = (d.toNat >>> (8 * (r.pa % 64))) % 2 ^ 32) ∧ (y = r.operand.toNat % 2 ^ 32) ∧
        (v = if signedNat 32 old ≤ signedNat 32 y then y else old) ∧
        (u = ((b.countMop (r.pa / 64)).storeLine (r.pa / 64) (maskOf (r.pa % 64) 4) (BitVec.ofNat 512 (v <<< (8 *
        (r.pa % 64))))).answer agent (if r.fetch then BitVec.ofNat 64 old else 0)) ∧ (a.save.phase = 0) ∧
        (r.form = .scalar) ∧ ((a.region r.pa).coherent = true) ∧ (r.pa % 4 = 0) ∧
        (a.admits agent true r.pa 4 = true) ∧ (a.holdKey (r.pa / 64) = none) ∧ (c.lostLine (r.pa / 64) = false) ∧
        ((c.adderTake (r.pa / 64)).2.1 = false) ∧ (u.access.blocked = none)) ∧
    (∃ (s a : State) (t : Nat) (agent old y v : Nat) (r : MopReq) (d : Line) (c b u : State), s.runsAt t a ∧
        (c = a.reading r.found 0 agent) ∧ (d = (c.adderTake (r.pa / 64)).1) ∧ (b = (c.adderTake (r.pa / 64)).2.2) ∧
        (old = (d.toNat >>> (8 * (r.pa % 64))) % 2 ^ 64) ∧ (y = r.operand.toNat % 2 ^ 64) ∧
        (v = if signedNat 64 old ≤ signedNat 64 y then y else old) ∧
        (u = ((b.countMop (r.pa / 64)).storeLine (r.pa / 64) (maskOf (r.pa % 64) 8) (BitVec.ofNat 512 (v <<< (8 *
        (r.pa % 64))))).answer agent (if r.fetch then BitVec.ofNat 64 old else 0)) ∧ (a.save.phase = 0) ∧
        (r.form = .scalar) ∧ ((a.region r.pa).coherent = true) ∧ (r.pa % 8 = 0) ∧
        (a.admits agent true r.pa 8 = true) ∧ (a.holdKey (r.pa / 64) = none) ∧ (c.lostLine (r.pa / 64) = false) ∧
        ((c.adderTake (r.pa / 64)).2.1 = false) ∧ (u.access.blocked = none)) ∧
    (∃ (s a : State) (t : Nat) (agent old y v : Nat) (r : MopReq) (d : Line) (c b u : State), s.runsAt t a ∧
        (c = a.reading r.found 0 agent) ∧ (d = (c.adderTake (r.pa / 64)).1) ∧ (b = (c.adderTake (r.pa / 64)).2.2) ∧
        (old = (d.toNat >>> (8 * (r.pa % 64))) % 2 ^ 32) ∧ (y = r.operand.toNat % 2 ^ 32) ∧ (v = min old y) ∧
        (u = ((b.countMop (r.pa / 64)).storeLine (r.pa / 64) (maskOf (r.pa % 64) 4) (BitVec.ofNat 512 (v <<< (8 *
        (r.pa % 64))))).answer agent (if r.fetch then BitVec.ofNat 64 old else 0)) ∧ (a.save.phase = 0) ∧
        (r.form = .scalar) ∧ ((a.region r.pa).coherent = true) ∧ (r.pa % 4 = 0) ∧
        (a.admits agent true r.pa 4 = true) ∧ (a.holdKey (r.pa / 64) = none) ∧ (c.lostLine (r.pa / 64) = false) ∧
        ((c.adderTake (r.pa / 64)).2.1 = false) ∧ (u.access.blocked = none)) ∧
    (∃ (s a : State) (t : Nat) (agent old y v : Nat) (r : MopReq) (d : Line) (c b u : State), s.runsAt t a ∧
        (c = a.reading r.found 0 agent) ∧ (d = (c.adderTake (r.pa / 64)).1) ∧ (b = (c.adderTake (r.pa / 64)).2.2) ∧
        (old = (d.toNat >>> (8 * (r.pa % 64))) % 2 ^ 64) ∧ (y = r.operand.toNat % 2 ^ 64) ∧ (v = min old y) ∧
        (u = ((b.countMop (r.pa / 64)).storeLine (r.pa / 64) (maskOf (r.pa % 64) 8) (BitVec.ofNat 512 (v <<< (8 *
        (r.pa % 64))))).answer agent (if r.fetch then BitVec.ofNat 64 old else 0)) ∧ (a.save.phase = 0) ∧
        (r.form = .scalar) ∧ ((a.region r.pa).coherent = true) ∧ (r.pa % 8 = 0) ∧
        (a.admits agent true r.pa 8 = true) ∧ (a.holdKey (r.pa / 64) = none) ∧ (c.lostLine (r.pa / 64) = false) ∧
        ((c.adderTake (r.pa / 64)).2.1 = false) ∧ (u.access.blocked = none)) ∧
    (∃ (s a : State) (t : Nat) (agent old y v : Nat) (r : MopReq) (d : Line) (c b u : State), s.runsAt t a ∧
        (c = a.reading r.found 0 agent) ∧ (d = (c.adderTake (r.pa / 64)).1) ∧ (b = (c.adderTake (r.pa / 64)).2.2) ∧
        (old = (d.toNat >>> (8 * (r.pa % 64))) % 2 ^ 32) ∧ (y = r.operand.toNat % 2 ^ 32) ∧ (v = max old y) ∧
        (u = ((b.countMop (r.pa / 64)).storeLine (r.pa / 64) (maskOf (r.pa % 64) 4) (BitVec.ofNat 512 (v <<< (8 *
        (r.pa % 64))))).answer agent (if r.fetch then BitVec.ofNat 64 old else 0)) ∧ (a.save.phase = 0) ∧
        (r.form = .scalar) ∧ ((a.region r.pa).coherent = true) ∧ (r.pa % 4 = 0) ∧
        (a.admits agent true r.pa 4 = true) ∧ (a.holdKey (r.pa / 64) = none) ∧ (c.lostLine (r.pa / 64) = false) ∧
        ((c.adderTake (r.pa / 64)).2.1 = false) ∧ (u.access.blocked = none)) ∧
    (∃ (s a : State) (t : Nat) (agent old y v : Nat) (r : MopReq) (d : Line) (c b u : State), s.runsAt t a ∧
        (c = a.reading r.found 0 agent) ∧ (d = (c.adderTake (r.pa / 64)).1) ∧ (b = (c.adderTake (r.pa / 64)).2.2) ∧
        (old = (d.toNat >>> (8 * (r.pa % 64))) % 2 ^ 64) ∧ (y = r.operand.toNat % 2 ^ 64) ∧ (v = max old y) ∧
        (u = ((b.countMop (r.pa / 64)).storeLine (r.pa / 64) (maskOf (r.pa % 64) 8) (BitVec.ofNat 512 (v <<< (8 *
        (r.pa % 64))))).answer agent (if r.fetch then BitVec.ofNat 64 old else 0)) ∧ (a.save.phase = 0) ∧
        (r.form = .scalar) ∧ ((a.region r.pa).coherent = true) ∧ (r.pa % 8 = 0) ∧
        (a.admits agent true r.pa 8 = true) ∧ (a.holdKey (r.pa / 64) = none) ∧ (c.lostLine (r.pa / 64) = false) ∧
        ((c.adderTake (r.pa / 64)).2.1 = false) ∧ (u.access.blocked = none)) ∧
    (∃ (s a : State) (t : Nat) (agent old y v : Nat) (r : MopReq) (d : Line) (c b u : State), s.runsAt t a ∧
        (c = a.reading r.found 0 agent) ∧ (d = (c.adderTake (r.pa / 64)).1) ∧ (b = (c.adderTake (r.pa / 64)).2.2) ∧
        (old = (d.toNat >>> (8 * (r.pa % 64))) % 2 ^ 32) ∧ (y = r.operand.toNat % 2 ^ 32) ∧
        (v = Fmt.addCodes .fp32 old y) ∧
        (u = ((b.countMop (r.pa / 64)).storeLine (r.pa / 64) (maskOf (r.pa % 64) 4) (BitVec.ofNat 512 (v <<< (8 *
        (r.pa % 64))))).answer agent (if r.fetch then BitVec.ofNat 64 old else 0)) ∧ (a.save.phase = 0) ∧
        (r.form = .scalar) ∧ ((a.region r.pa).coherent = true) ∧ (r.pa % 4 = 0) ∧
        (a.admits agent true r.pa 4 = true) ∧ (a.holdKey (r.pa / 64) = none) ∧ (c.lostLine (r.pa / 64) = false) ∧
        ((c.adderTake (r.pa / 64)).2.1 = false) ∧ (u.access.blocked = none)) ∧
    (∃ (s a : State) (t : Nat) (agent old y v : Nat) (r : MopReq) (d : Line) (c b u : State), s.runsAt t a ∧
        (c = a.reading r.found 0 agent) ∧ (d = (c.adderTake (r.pa / 64)).1) ∧ (b = (c.adderTake (r.pa / 64)).2.2) ∧
        (old = (d.toNat >>> (8 * (r.pa % 64))) % 2 ^ 16) ∧ (y = r.operand.toNat % 2 ^ 16) ∧
        (v = Fmt.addCodes .bf16 old y) ∧
        (u = ((b.countMop (r.pa / 64)).storeLine (r.pa / 64) (maskOf (r.pa % 64) 2) (BitVec.ofNat 512 (v <<< (8 *
        (r.pa % 64))))).answer agent (if r.fetch then BitVec.ofNat 64 old else 0)) ∧ (a.save.phase = 0) ∧
        (r.form = .scalar) ∧ ((a.region r.pa).coherent = true) ∧ (r.pa % 2 = 0) ∧
        (a.admits agent true r.pa 2 = true) ∧ (a.holdKey (r.pa / 64) = none) ∧ (c.lostLine (r.pa / 64) = false) ∧
        ((c.adderTake (r.pa / 64)).2.1 = false) ∧ (u.access.blocked = none)) ∧
    (∃ (s a : State) (t : Nat) (agent old y v : Nat) (r : MopReq) (d : Line) (c b u : State), s.runsAt t a ∧
        (c = a.reading r.found 0 agent) ∧ (d = (c.adderTake (r.pa / 64)).1) ∧ (b = (c.adderTake (r.pa / 64)).2.2) ∧
        (old = (d.toNat >>> (8 * (r.pa % 64))) % 2 ^ 16) ∧ (y = r.operand.toNat % 2 ^ 16) ∧
        (v = Fmt.addCodes .fp16 old y) ∧
        (u = ((b.countMop (r.pa / 64)).storeLine (r.pa / 64) (maskOf (r.pa % 64) 2) (BitVec.ofNat 512 (v <<< (8 *
        (r.pa % 64))))).answer agent (if r.fetch then BitVec.ofNat 64 old else 0)) ∧ (a.save.phase = 0) ∧
        (r.form = .scalar) ∧ ((a.region r.pa).coherent = true) ∧ (r.pa % 2 = 0) ∧
        (a.admits agent true r.pa 2 = true) ∧ (a.holdKey (r.pa / 64) = none) ∧ (c.lostLine (r.pa / 64) = false) ∧
        ((c.adderTake (r.pa / 64)).2.1 = false) ∧ (u.access.blocked = none)) ∧
    (∃ (s a : State) (t : Nat) (agent old y v : Nat) (r : MopReq) (d : Line) (c b u : State), s.runsAt t a ∧
        (c = a.reading r.found 0 agent) ∧ (d = (c.adderTake (r.pa / 64)).1) ∧ (b = (c.adderTake (r.pa / 64)).2.2) ∧
        (old = (d.toNat >>> (8 * (r.pa % 64))) % 2 ^ 32) ∧ (y = r.operand.toNat % 2 ^ 32) ∧
        (v = if old = y then (r.operand.toNat >>> 32) % 2 ^ 32 else old) ∧
        (u = ((b.countMop (r.pa / 64)).storeLine (r.pa / 64) (maskOf (r.pa % 64) 4) (BitVec.ofNat 512 (v <<< (8 *
        (r.pa % 64))))).answer agent (BitVec.ofNat 64 old)) ∧ (a.save.phase = 0) ∧ (r.form = .scalar) ∧
        ((a.region r.pa).coherent = true) ∧ (r.pa % 4 = 0) ∧ (a.admits agent true r.pa 4 = true) ∧
        (a.holdKey (r.pa / 64) = none) ∧ (c.lostLine (r.pa / 64) = false) ∧ ((c.adderTake (r.pa / 64)).2.1 = false) ∧
        (u.access.blocked = none)) ∧
    (∃ (s a : State) (t : Nat) (agent old y v : Nat) (r : MopReq) (d : Line) (c b u : State), s.runsAt t a ∧
        (c = a.reading r.found 0 agent) ∧ (d = (c.adderTake (r.pa / 64)).1) ∧ (b = (c.adderTake (r.pa / 64)).2.2) ∧
        (old = (d.toNat >>> (8 * (r.pa % 64))) % 2 ^ 64) ∧ (y = r.operand.toNat % 2 ^ 64) ∧
        (v = if old = y then (r.operand.toNat >>> 64) % 2 ^ 64 else old) ∧
        (u = ((b.countMop (r.pa / 64)).storeLine (r.pa / 64) (maskOf (r.pa % 64) 8) (BitVec.ofNat 512 (v <<< (8 *
        (r.pa % 64))))).answer agent (BitVec.ofNat 64 old)) ∧ (a.save.phase = 0) ∧ (r.form = .scalar) ∧
        ((a.region r.pa).coherent = true) ∧ (r.pa % 8 = 0) ∧ (a.admits agent true r.pa 8 = true) ∧
        (a.holdKey (r.pa / 64) = none) ∧ (c.lostLine (r.pa / 64) = false) ∧ ((c.adderTake (r.pa / 64)).2.1 = false) ∧
        (u.access.blocked = none)) ∧
    (∃ (s a : State) (t : Nat) (agent old y v : Nat) (r : MopReq) (d : Line) (c b u : State), s.runsAt t a ∧
        (c = a.reading r.found 0 agent) ∧ (d = (c.adderTake (r.pa / 64)).1) ∧ (b = (c.adderTake (r.pa / 64)).2.2) ∧
        (old = (d.toNat >>> (8 * (r.pa % 64))) % 2 ^ 32) ∧ (y = r.operand.toNat % 2 ^ 32) ∧ (v = y) ∧
        (u = ((b.countMop (r.pa / 64)).storeLine (r.pa / 64) (maskOf (r.pa % 64) 4) (BitVec.ofNat 512 (v <<< (8 *
        (r.pa % 64))))).answer agent (BitVec.ofNat 64 old)) ∧ (a.save.phase = 0) ∧ (r.form = .scalar) ∧
        ((a.region r.pa).coherent = true) ∧ (r.pa % 4 = 0) ∧ (a.admits agent true r.pa 4 = true) ∧
        (a.holdKey (r.pa / 64) = none) ∧ (c.lostLine (r.pa / 64) = false) ∧ ((c.adderTake (r.pa / 64)).2.1 = false) ∧
        (u.access.blocked = none)) ∧
    (∃ (s a : State) (t : Nat) (agent old y v : Nat) (r : MopReq) (d : Line) (c b u : State), s.runsAt t a ∧
        (c = a.reading r.found 0 agent) ∧ (d = (c.adderTake (r.pa / 64)).1) ∧ (b = (c.adderTake (r.pa / 64)).2.2) ∧
        (old = (d.toNat >>> (8 * (r.pa % 64))) % 2 ^ 64) ∧ (y = r.operand.toNat % 2 ^ 64) ∧ (v = y) ∧
        (u = ((b.countMop (r.pa / 64)).storeLine (r.pa / 64) (maskOf (r.pa % 64) 8) (BitVec.ofNat 512 (v <<< (8 *
        (r.pa % 64))))).answer agent (BitVec.ofNat 64 old)) ∧ (a.save.phase = 0) ∧ (r.form = .scalar) ∧
        ((a.region r.pa).coherent = true) ∧ (r.pa % 8 = 0) ∧ (a.admits agent true r.pa 8 = true) ∧
        (a.holdKey (r.pa / 64) = none) ∧ (c.lostLine (r.pa / 64) = false) ∧ ((c.adderTake (r.pa / 64)).2.1 = false) ∧
        (u.access.blocked = none)) ∧
    (∃ (s a : State) (t : Nat) (agent : Nat) (r : MopReq) (c b u : State), s.runsAt t a ∧
        (c = a.reading r.found 0 agent) ∧ (b = (c.mopCells agent 0x18 .fp32 r).2) ∧ (u = b.answer agent 0) ∧
        (a.save.phase = 0) ∧ (r.form = .cells) ∧ ((a.region r.pa).coherent = true) ∧ (r.pa % 64 = 0) ∧ (1 ≤ r.n) ∧
        (r.n ≤ 16) ∧ (r.pa / 4096 = (r.pa + 64 * r.n - 1) / 4096) ∧ (a.admits agent true r.pa (64 * r.n) = true) ∧
        (a.holdKey (r.pa / 64) = none) ∧ ((c.mopCells agent 0x18 .fp32 r).1 = some (.ok 0)) ∧
        (u.access.blocked = none)) ∧
    (∃ (s a : State) (t : Nat) (agent : Nat) (r : MopReq) (c b u : State), s.runsAt t a ∧
        (c = a.reading r.found 0 agent) ∧ (b = (c.mopCells agent 0x19 .bf16 r).2) ∧ (u = b.answer agent 0) ∧
        (a.save.phase = 0) ∧ (r.form = .cells) ∧ ((a.region r.pa).coherent = true) ∧ (r.pa % 64 = 0) ∧ (1 ≤ r.n) ∧
        (r.n ≤ 16) ∧ (r.pa / 4096 = (r.pa + 64 * r.n - 1) / 4096) ∧ (a.admits agent true r.pa (64 * r.n) = true) ∧
        (a.holdKey (r.pa / 64) = none) ∧ ((c.mopCells agent 0x19 .bf16 r).1 = some (.ok 0)) ∧
        (u.access.blocked = none)) ∧
    (∃ (s a : State) (t : Nat) (agent : Nat) (r : MopReq) (c b u : State), s.runsAt t a ∧
        (c = a.reading r.found 0 agent) ∧ (b = (c.mopCells agent 0x1A .fp16 r).2) ∧ (u = b.answer agent 0) ∧
        (a.save.phase = 0) ∧ (r.form = .cells) ∧ ((a.region r.pa).coherent = true) ∧ (r.pa % 64 = 0) ∧ (1 ≤ r.n) ∧
        (r.n ≤ 16) ∧ (r.pa / 4096 = (r.pa + 64 * r.n - 1) / 4096) ∧ (a.admits agent true r.pa (64 * r.n) = true) ∧
        (a.holdKey (r.pa / 64) = none) ∧ ((c.mopCells agent 0x1A .fp16 r).1 = some (.ok 0)) ∧
        (u.access.blocked = none)) ∧
    (∃ (s a : State) (t : Nat) (agent : Nat) (r : MopReq) (c b u : State), s.runsAt t a ∧
        (c = a.reading r.found 0 agent) ∧ (b = (c.mopCells agent 0x18 .fp32 r).2) ∧ (u = b) ∧ (a.save.phase = 0) ∧
        (r.form = .cells) ∧ ((a.region r.pa).coherent = true) ∧ (r.pa % 64 = 0) ∧ (1 ≤ r.n) ∧ (r.n ≤ 16) ∧
        (r.pa / 4096 = (r.pa + 64 * r.n - 1) / 4096) ∧ (a.admits agent true r.pa (64 * r.n) = true) ∧
        (a.holdKey (r.pa / 64) = none) ∧ ((c.mopCells agent 0x18 .fp32 r).1 = none) ∧ (u.access.blocked = none)) ∧
    (∃ (s a : State) (t : Nat) (agent : Nat) (r : MopReq) (c b u : State), s.runsAt t a ∧
        (c = a.reading r.found 0 agent) ∧ (b = (c.mopCells agent 0x19 .bf16 r).2) ∧ (u = b) ∧ (a.save.phase = 0) ∧
        (r.form = .cells) ∧ ((a.region r.pa).coherent = true) ∧ (r.pa % 64 = 0) ∧ (1 ≤ r.n) ∧ (r.n ≤ 16) ∧
        (r.pa / 4096 = (r.pa + 64 * r.n - 1) / 4096) ∧ (a.admits agent true r.pa (64 * r.n) = true) ∧
        (a.holdKey (r.pa / 64) = none) ∧ ((c.mopCells agent 0x19 .bf16 r).1 = none) ∧ (u.access.blocked = none)) ∧
    (∃ (s a : State) (t : Nat) (agent : Nat) (r : MopReq) (c b u : State), s.runsAt t a ∧
        (c = a.reading r.found 0 agent) ∧ (b = (c.mopCells agent 0x1A .fp16 r).2) ∧ (u = b) ∧ (a.save.phase = 0) ∧
        (r.form = .cells) ∧ ((a.region r.pa).coherent = true) ∧ (r.pa % 64 = 0) ∧ (1 ≤ r.n) ∧ (r.n ≤ 16) ∧
        (r.pa / 4096 = (r.pa + 64 * r.n - 1) / 4096) ∧ (a.admits agent true r.pa (64 * r.n) = true) ∧
        (a.holdKey (r.pa / 64) = none) ∧ ((c.mopCells agent 0x1A .fp16 r).1 = none) ∧ (u.access.blocked = none)) ∧
    (∃ (s a : State) (t : Nat) (agent : Nat) (r : MopReq) (c b u : State), s.runsAt t a ∧
        (c = a.reading r.found 0 agent) ∧ (b = (c.mopSettle agent .fp32 r).2) ∧ (u = b.answer agent 0) ∧
        (a.save.phase = 0) ∧ (r.form = .cells) ∧ ((a.region r.pa).coherent = true) ∧ (r.pa % 64 = 0) ∧ (1 ≤ r.n) ∧
        (r.n ≤ 16) ∧ (r.pa / 4096 = (r.pa + 64 * r.n - 1) / 4096) ∧ (a.admits agent false r.pa (64 * r.n) = true) ∧
        (a.targetLegal r 4 = true) ∧ (a.holdKey (r.pa / 64) = none) ∧ ((c.mopSettle agent .fp32 r).1 = .ok 0) ∧
        (u.access.blocked = none)) ∧
    (∃ (s a : State) (t : Nat) (agent : Nat) (r : MopReq) (c b u : State), s.runsAt t a ∧
        (c = a.reading r.found 0 agent) ∧ (b = (c.mopSettle agent .bf16 r).2) ∧ (u = b.answer agent 0) ∧
        (a.save.phase = 0) ∧ (r.form = .cells) ∧ ((a.region r.pa).coherent = true) ∧ (r.pa % 64 = 0) ∧ (1 ≤ r.n) ∧
        (r.n ≤ 16) ∧ (r.pa / 4096 = (r.pa + 64 * r.n - 1) / 4096) ∧ (a.admits agent false r.pa (64 * r.n) = true) ∧
        (a.targetLegal r 2 = true) ∧ (a.holdKey (r.pa / 64) = none) ∧ ((c.mopSettle agent .bf16 r).1 = .ok 0) ∧
        (u.access.blocked = none)) :=
  ⟨⟨(State.reset), ((State.reset).advance 0), 0, (1), (_), (_), (_), (⟨.scalar, 0x38, true, 1, 0, 0, 0, ⟨[], [(0, .ce
       3)], []⟩, none⟩), (_), (_), (_), (_), ⟨rfl, by decide +kernel⟩, rfl, rfl, rfl, rfl, rfl, rfl, rfl,
       by decide +kernel⟩,
   ⟨(State.reset), ((State.reset).advance 0), 0, (1), (_), (_), (_), (⟨.scalar, 0x38, true, 1, 0, 0, 0, ⟨[], [(0, .ce
       3)], []⟩, none⟩), (_), (_), (_), (_), ⟨rfl, by decide +kernel⟩, rfl, rfl, rfl, rfl, rfl, rfl, rfl,
       by decide +kernel⟩,
   ⟨(State.reset), ((State.reset).advance 0), 0, (1), (_), (_), (_), (⟨.scalar, 0x38, true, 1, 0, 0, 0, ⟨[], [(0, .ce
       3)], []⟩, none⟩), (_), (_), (_), (_), ⟨rfl, by decide +kernel⟩, rfl, rfl, rfl, rfl, rfl, rfl, rfl,
       by decide +kernel⟩,
   ⟨(State.reset), ((State.reset).advance 0), 0, (1), (_), (_), (_), (⟨.scalar, 0x38, true, 1, 0, 0, 0, ⟨[], [(0, .ce
       3)], []⟩, none⟩), (_), (_), (_), (_), ⟨rfl, by decide +kernel⟩, rfl, rfl, rfl, rfl, rfl, rfl, rfl,
       by decide +kernel⟩,
   ⟨(State.reset), ((State.reset).advance 0), 0, (1), (_), (_), (_), (⟨.scalar, 0x38, true, 1, 0, 0, 0, ⟨[], [(0, .ce
       3)], []⟩, none⟩), (_), (_), (_), (_), ⟨rfl, by decide +kernel⟩, rfl, rfl, rfl, rfl, rfl, rfl, rfl,
       by decide +kernel⟩,
   ⟨(State.reset), ((State.reset).advance 0), 0, (1), (_), (_), (_), (⟨.scalar, 0x38, true, 1, 0, 0, 0, ⟨[], [(0, .ce
       3)], []⟩, none⟩), (_), (_), (_), (_), ⟨rfl, by decide +kernel⟩, rfl, rfl, rfl, rfl, rfl, rfl, rfl,
       by decide +kernel⟩,
   ⟨(State.reset), ((State.reset).advance 0), 0, (1), (_), (_), (_), (⟨.scalar, 0x38, true, 1, 0, 0, 0, ⟨[], [(0, .ce
       3)], []⟩, none⟩), (_), (_), (_), (_), ⟨rfl, by decide +kernel⟩, rfl, rfl, rfl, rfl, rfl, rfl, rfl,
       by decide +kernel⟩,
   ⟨(State.reset), ((State.reset).advance 0), 0, (1), (_), (_), (_), (⟨.scalar, 0x38, true, 1, 0, 0, 0, ⟨[], [(0, .ce
       3)], []⟩, none⟩), (_), (_), (_), (_), ⟨rfl, by decide +kernel⟩, rfl, rfl, rfl, rfl, rfl, rfl, rfl,
       by decide +kernel⟩,
   ⟨(State.reset), ((State.reset).advance 0), 0, (1), (_), (_), (_), (⟨.scalar, 0x38, true, 1, 0, 0, 0, ⟨[], [(0, .ce
       3)], []⟩, none⟩), (_), (_), (_), (_), ⟨rfl, by decide +kernel⟩, rfl, rfl, rfl, rfl, rfl, rfl, rfl,
       by decide +kernel⟩,
   ⟨(State.reset), ((State.reset).advance 0), 0, (1), (_), (_), (_), (⟨.scalar, 0x38, true, 1, 0, 0, 0, ⟨[], [(0, .ce
       3)], []⟩, none⟩), (_), (_), (_), (_), ⟨rfl, by decide +kernel⟩, rfl, rfl, rfl, rfl, rfl, rfl, rfl,
       by decide +kernel⟩,
   ⟨(State.reset), ((State.reset).advance 0), 0, (1), (_), (_), (_), (⟨.scalar, 0x38, true, 1, 0, 0, 0, ⟨[], [(0, .ce
       3)], []⟩, none⟩), (_), (_), (_), (_), ⟨rfl, by decide +kernel⟩, rfl, rfl, rfl, rfl, rfl, rfl, rfl,
       by decide +kernel⟩,
   ⟨(State.reset), ((State.reset).advance 0), 0, (1), (_), (_), (_), (⟨.scalar, 0x38, true, 1, 0, 0, 0, ⟨[], [(0, .ce
       3)], []⟩, none⟩), (_), (_), (_), (_), ⟨rfl, by decide +kernel⟩, rfl, rfl, rfl, rfl, rfl, rfl, rfl,
       by decide +kernel⟩,
   ⟨(State.reset), ((State.reset).advance 0), 0, (1), (_), (_), (_), (⟨.scalar, 0x38, true, 1, 0, 0, 0, ⟨[], [(0, .ce
       3)], []⟩, none⟩), (_), (_), (_), (_), ⟨rfl, by decide +kernel⟩, rfl, rfl, rfl, rfl, rfl, rfl, rfl,
       by decide +kernel⟩,
   ⟨(State.reset), ((State.reset).advance 0), 0, (1), (_), (_), (_), (⟨.scalar, 0x38, true, 1, 0, 0, 0, ⟨[], [(0, .ce
       3)], []⟩, none⟩), (_), (_), (_), (_), ⟨rfl, by decide +kernel⟩, rfl, rfl, rfl, rfl, rfl, rfl, rfl,
       by decide +kernel⟩,
   ⟨(State.reset), ((State.reset).advance 0), 0, (1), (_), (_), (_), (⟨.scalar, 0x38, true, 1, 0, 0, 0, ⟨[], [(0, .ce
       3)], []⟩, none⟩), (_), (_), (_), (_), ⟨rfl, by decide +kernel⟩, rfl, rfl, rfl, rfl, rfl, rfl, rfl,
       by decide +kernel⟩,
   ⟨(State.reset), ((State.reset).advance 0), 0, (1), (_), (_), (_), (⟨.scalar, 0x38, true, 1, 0, 0, 0, ⟨[], [(0, .ce
       3)], []⟩, none⟩), (_), (_), (_), (_), ⟨rfl, by decide +kernel⟩, rfl, rfl, rfl, rfl, rfl, rfl, rfl,
       by decide +kernel⟩,
   ⟨(State.reset), ((State.reset).advance 0), 0, (1), (_), (_), (_), (⟨.scalar, 0x38, true, 1, 0, 0, 0, ⟨[], [(0, .ce
       3)], []⟩, none⟩), (_), (_), (_), (_), ⟨rfl, by decide +kernel⟩, rfl, rfl, rfl, rfl, rfl, rfl, rfl,
       by decide +kernel⟩,
   ⟨(State.reset), ((State.reset).advance 0), 0, (1), (⟨.cells, 0x400, false, 1, 0, 2, 0, ⟨[], [(17, .ce 3)], []⟩,
       none⟩), (_), (_), (_), ⟨rfl, by decide +kernel⟩, rfl, rfl, rfl, by decide +kernel⟩,
   ⟨(State.reset), ((State.reset).advance 0), 0, (1), (⟨.cells, 0x400, false, 1, 0, 2, 0, ⟨[], [(17, .ce 3)], []⟩,
       none⟩), (_), (_), (_), ⟨rfl, by decide +kernel⟩, rfl, rfl, rfl, by decide +kernel⟩,
   ⟨(State.reset), ((State.reset).advance 0), 0, (1), (⟨.cells, 0x400, false, 1, 0, 2, 0, ⟨[], [(17, .ce 3)], []⟩,
       none⟩), (_), (_), (_), ⟨rfl, by decide +kernel⟩, rfl, rfl, rfl, by decide +kernel⟩,
   ⟨(State.reset), ((State.reset).advance 0), 0, (1), (⟨.cells, 0x400, false, 1, 0, 2, 0, ⟨[], [(17, .ce 3)], []⟩,
       some 1⟩), (_), (_), (_), ⟨rfl, by decide +kernel⟩, rfl, rfl, rfl, by decide +kernel⟩,
   ⟨(State.reset), ((State.reset).advance 0), 0, (1), (⟨.cells, 0x400, false, 1, 0, 2, 0, ⟨[], [(17, .ce 3)], []⟩,
       some 1⟩), (_), (_), (_), ⟨rfl, by decide +kernel⟩, rfl, rfl, rfl, by decide +kernel⟩,
   ⟨(State.reset), ((State.reset).advance 0), 0, (1), (⟨.cells, 0x400, false, 1, 0, 2, 0, ⟨[], [(17, .ce 3)], []⟩,
       some 1⟩), (_), (_), (_), ⟨rfl, by decide +kernel⟩, rfl, rfl, rfl, by decide +kernel⟩,
   ⟨(State.reset), ((State.reset).advance 0), 0, (1), (⟨.cells, 0x400, false, 1, 0, 1, 0x2000, ⟨[], [(16, .ce 3)],
       []⟩, none⟩), (_), (_), (_), ⟨rfl, by decide +kernel⟩, rfl, rfl, rfl, by decide +kernel⟩,
   ⟨(State.reset), ((State.reset).advance 0), 0, (1), (⟨.cells, 0x400, false, 1, 0, 1, 0x2000, ⟨[], [(16, .ce 3)],
       []⟩, none⟩), (_), (_), (_), ⟨rfl, by decide +kernel⟩, rfl, rfl, rfl, by decide +kernel⟩⟩

theorem test_meets_memory_channels_complete :
    (∃ (s a : State) (t : Nat) (line : Nat), s.runsAt t a ∧
        (a.lineStore.any (fun e => e.1 == line && decide (e.2 + 1000 ≤ a.now)) = true)) ∧
    (∃ (s a : State) (t : Nat) (line : Nat) (ecc : EccFinding), s.runsAt t a ∧
        (onDram (a.region (64 * line)) = true) ∧ (a.hbmDead (64 * line) = false) ∧
        (a.chanHeld (a.chanOf (64 * line)) = false)) ∧
    (∃ (s a : State) (t : Nat) (ch agent : Nat), s.runsAt t a ∧ (ch < 384) ∧ (a.canRetrain ch = true) ∧
        ((a.chan ch).ceWin.1 = a.winNum 1000000) ∧ (a.rd HM_CFG.CE_RETRAIN < (a.chan ch).ceWin.2)) ∧
    (∃ (s a : State) (t : Nat) (ch cause agent : Nat), s.runsAt t a ∧ (ch < 384) ∧ (cause = 1 ∨ cause = 2) ∧
        (a.canRetrain ch = true)) ∧
    (∃ (s a : State) (t : Nat) (ch agent : Nat), s.runsAt t a ∧ (ch < 384) ∧
        (a.allows agent (HM_CH_CTRL.RETRAIN.off ch) true = true) ∧ ((a.answer agent 0).canRetrain ch = true)) ∧
    (∃ (s a : State) (t : Nat) (ch agent : Nat), s.runsAt t a ∧ (ch < 384) ∧ (a.rd HM_CH_STATUS.STATE ch = 2)) ∧
    (∃ (s a : State) (t : Nat) (ch : Nat) (b : State), s.runsAt t a ∧
        (b = (a.bump HM_CH_STATUS.RETRAINS ch).wr HM_CH_STATUS.TRAIN_FAILS ch 0) ∧ (ch < 384) ∧
        (a.rd HM_CH_STATUS.STATE ch = 1)) ∧
    (∃ (s a : State) (t : Nat) (ch : Nat) (b : State), s.runsAt t a ∧
        (b = (a.setChan ch { a.chan ch with failedAt := some a.now }).wr HM_CH_STATUS.TRAIN_FAILS ch (a.rd
        HM_CH_STATUS.TRAIN_FAILS ch + 1)) ∧ (ch < 384) ∧ (a.rd HM_CH_STATUS.STATE ch = 1) ∧
        (a.rd HM_CH_STATUS.TRAIN_FAILS ch < 2)) ∧
    (∃ (s a : State) (t : Nat) (ch : Nat) (b : State), s.runsAt t a ∧
        (b = (a.setChan ch { a.chan ch with failedAt := some a.now }).wr HM_CH_STATUS.TRAIN_FAILS ch (a.rd
        HM_CH_STATUS.TRAIN_FAILS ch + 1)) ∧ (ch < 384) ∧ (a.rd HM_CH_STATUS.STATE ch = 1) ∧
        (2 ≤ a.rd HM_CH_STATUS.TRAIN_FAILS ch)) ∧
    (∃ (s a : State) (t : Nat) (ch f : Nat), s.runsAt t a ∧ (ch < 384) ∧ ((a.chan ch).failedAt = some f) ∧
        (f + 1000000 ≤ a.now) ∧ (a.canRetrain ch = true)) ∧
    (∃ (s a : State) (t : Nat) (ch agent : Nat), s.runsAt t a ∧ (ch < 384) ∧ (a.flag HM_CFG.AUTO_RETIRE = true) ∧
        ((a.chan ch).ceSec.1 = a.winNum 1000000000) ∧ (a.rd HM_CFG.CE_RETIRE < (a.chan ch).ceSec.2) ∧
        ((a.chan ch).lost = false)) ∧
    (∃ (s a : State) (t : Nat) (ch agent : Nat), s.runsAt t a ∧ (ch < 384) ∧
        (a.allows agent (HM_CH_CTRL.RETRAIN.off ch) true = true) ∧ (isService agent = true) ∧
        ((a.chan ch).lost = false)) ∧
    (∃ (s a : State) (t : Nat) (answers : Bool) (ecc : List (Nat × EccFinding)) (r : Repair) (n g : Nat) (ls : List
        Nat) (b c : State), s.runsAt t a ∧ (g = a.granuleAt n r.ch r.moved) ∧
        (ls = (List.range 64).map (fun k => g * 64 + k)) ∧
        (b = a.each ls fun s l => if answers && !r.dead then (s.countRead r.ch).findErrors ecc [l] 3 0 else if
        s.inStore l then s else s.setPoison l true) ∧
        (c = State.mapRepair { b with lineStore := b.lineStore.filter (fun e => e.1 / 64 != g) } n fun x =>
        { x with moved := r.moved + 1, done := false }) ∧
        (a.repairs.zipIdx.find? (fun e => !e.1.done && !a.chanHeld e.1.ch) = some (r, n)) ∧
        (r.moved + 1 < a.toMove n) ∧ (b.toMove n = a.toMove n)) :=
  ⟨⟨({ State.reset with lineStore := [(5, 0)] }), (({ State.reset with lineStore := [(5, 0)] }).advance 1000), 1000,
       (5), ⟨rfl, by decide +kernel⟩, by decide +kernel⟩,
   ⟨(State.reset), ((State.reset).advance 0), 0, (0), (.ue), ⟨rfl, by decide +kernel⟩, by decide +kernel⟩,
   ⟨(State.reset.setChan 383 { chanInit 0 with ceWin := (0, 100000) }), ((State.reset.setChan 383
       { chanInit 0 with ceWin := (0, 100000) }).advance 0), 0, (383), (0), ⟨rfl, by decide +kernel⟩,
       by decide +kernel⟩,
   ⟨(State.reset), ((State.reset).advance 0), 0, (383), (1), (0), ⟨rfl, by decide +kernel⟩, by decide +kernel⟩,
   ⟨(State.reset), ((State.reset).advance 0), 0, (383), (1), ⟨rfl, by decide +kernel⟩, by decide +kernel⟩,
   ⟨(wSet [(HM_CH_STATUS.STATE, 383, 2)]), ((wSet [(HM_CH_STATUS.STATE, 383, 2)]).advance 0), 0, (383), (0), ⟨rfl,
       by decide +kernel⟩, by decide +kernel⟩,
   ⟨(wSet [(HM_CH_STATUS.STATE, 383, 1)]), ((wSet [(HM_CH_STATUS.STATE, 383, 1)]).advance 0), 0, (383), (_), ⟨rfl,
       by decide +kernel⟩, rfl, by decide +kernel⟩,
   ⟨(wSet [(HM_CH_STATUS.STATE, 383, 1), (HM_CH_STATUS.TRAIN_FAILS, 383, 1)]), ((wSet [(HM_CH_STATUS.STATE, 383, 1),
       (HM_CH_STATUS.TRAIN_FAILS, 383, 1)]).advance 0), 0, (383), (_), ⟨rfl, by decide +kernel⟩, rfl,
       by decide +kernel⟩,
   ⟨(wSet [(HM_CH_STATUS.STATE, 0, 1), (HM_CH_STATUS.TRAIN_FAILS, 0, 2)]), ((wSet [(HM_CH_STATUS.STATE, 0, 1),
       (HM_CH_STATUS.TRAIN_FAILS, 0, 2)]).advance 0), 0, (0), (_), ⟨rfl, by decide +kernel⟩, rfl, by decide +kernel⟩,
   ⟨(State.reset.setChan 383 { chanInit 0 with failedAt := some 0 }), ((State.reset.setChan 383
       { chanInit 0 with failedAt := some 0 }).advance 1000000), 1000000, (383), (0), ⟨rfl, by decide +kernel⟩,
       by decide +kernel⟩,
   ⟨((wSet [(HM_CFG.AUTO_RETIRE, 0, 1)]).setChan 383 { chanInit 0 with ceSec := (0, 1000000) }), (((wSet
       [(HM_CFG.AUTO_RETIRE, 0, 1)]).setChan 383 { chanInit 0 with ceSec := (0, 1000000) }).advance 0), 0, (383), (0),
       ⟨rfl, by decide +kernel⟩, by decide +kernel⟩,
   ⟨(State.reset), ((State.reset).advance 0), 0, (383), (1), ⟨rfl, by decide +kernel⟩, by decide +kernel⟩,
   ⟨({ State.reset with repairs := [⟨383, 0, 0, false, false⟩] }),
       (({ State.reset with repairs := [⟨383, 0, 0, false, false⟩] }).advance 0), 0, (true), ([]), (⟨383, 0, 0, false,
       false⟩), (0), (_), (_), (_), (_), ⟨rfl, by decide +kernel⟩, rfl, rfl, rfl, rfl, by decide +kernel⟩⟩

theorem test_meets_far_tier_complete :
    (∃ (s a : State) (t : Nat) (port : Nat), s.runsAt t a ∧ (port < 8) ∧ (a.rd TIER_PORT_STATUS.STATE port = 2) ∧
        (a.cxlRecovering port = false)) ∧
    (∃ (s a : State) (t : Nat) (port : Nat), s.runsAt t a ∧ (a.cxlRecovering port = true) ∧
        (a.recoveryOver port = false)) ∧
    (∃ (s a : State) (t : Nat) (port : Nat), s.runsAt t a ∧ (a.cxlRecovering port = true) ∧
        (a.recoveryOver port = true)) ∧
    (∃ (s a : State) (t : Nat) (port : Nat) (status : Word), s.runsAt t a ∧ (port < 8)) ∧
    (∃ (s a : State) (t : Nat) (agent n : Nat) (v : Word), s.runsAt t a ∧ (n < 65536) ∧
        (a.allows agent (TIER_OBJ_CFG.VALID.off n) true = true)) ∧
    (∃ (s a : State) (t : Nat) (n : Nat) (found : Found) (m : Mig), s.runsAt t a ∧ (a.migOf n = some m) ∧
        (a.migReady m = true) ∧ (a.rd TIER_OBJ_CFG.HOME n = m.target)) ∧
    (∃ (s a : State) (t : Nat) (n : Nat) (found : Found) (m : Mig) (e : State) (b r : State), s.runsAt t a ∧
        (b = a.reading found 0 (a.migAgent m)) ∧ (r = (e.wr TIER_OBJ_CFG.LAST n 1).endMig m 4 8 true) ∧
        (a.migOf n = some m) ∧ (a.migReady m = true) ∧ (a.rd TIER_OBJ_CFG.HOME n ≠ m.target) ∧
        (b.leavesOk n = (false, e)) ∧ (r.access.blocked = none)) ∧
    (∃ (s a : State) (t : Nat) (n tag : Nat) (found : Found) (m k : Mig) (e c d : State) (b r : State), s.runsAt t a ∧
        (b = a.reading found 0 (a.migAgent m)) ∧
        (c = (((e.wr TIER_OBJ_CFG.STATE n 2).tracePhase m 0).rewriteLeaves n (fun _ pte => clearV pte)).tracePhase m
        1) ∧ (tag = c.rd TIER_OBJ_CFG.CONTEXT n) ∧ (r = d.setMig m k) ∧ (a.migOf n = some m) ∧ (a.migReady m = true) ∧
        (a.rd TIER_OBJ_CFG.HOME n ≠ m.target) ∧ (b.leavesOk n = (true, e)) ∧
        ((c.tlbDrop tag).startInval { m with phase := 1, tlb := c.tlbMarks tag } = (d, k)) ∧
        (r.access.blocked = none)) ∧
    (∃ (s a : State) (t : Nat) (n : Nat) (m : Mig), s.runsAt t a ∧ (a.migOf n = some m) ∧ (m.phase = 1) ∧
        (m.inval = none)) ∧
    (∃ (s a : State) (t : Nat) (n k : Nat) (m : Mig), s.runsAt t a ∧ (a.migOf n = some m) ∧ (m.phase = 1) ∧
        (m.inval = some k) ∧ (a.invals.any (fun x => x.k == k) = false) ∧ (a.tlbDone m.tlb = true)) ∧
    (∃ (s a : State) (t : Nat) (n bad lost : Nat) (l ks : List Nat) (found : Found) (m : Mig) (e : State) (b r :
        State), s.runsAt t a ∧ (b = a.reading found 0 (a.migAgent m)) ∧ (ks = (b.linesLeft m).filter l.contains) ∧
        (r = e.setMig m { m with copied := m.copied ++ ks, bad := m.bad + bad, lost := m.lost + lost }) ∧
        (a.migOf n = some m) ∧ (m.phase = 2) ∧
        (b.moveLines (b.objBacking n (1 - m.target)) (b.objBacking n m.target) ks = (bad, lost, e)) ∧
        (r.access.blocked = none)) ∧
    (∃ (s a : State) (t : Nat) (n bad lost : Nat) (found : Found) (m : Mig) (e : State) (b r : State), s.runsAt t a ∧
        (b = a.reading found 0 (a.migAgent m)) ∧ (r = e.remap m (m.bad + bad) (m.lost + lost)) ∧
        (a.migOf n = some m) ∧ (m.phase = 2) ∧
        (b.moveLines (b.objBacking n (1 - m.target)) (b.objBacking n m.target) (b.linesLeft m) = (bad, lost, e)) ∧
        (r.access.blocked = none)) ∧
    (∃ (s a : State) (t : Nat) (agent n : Nat) (v : Word), s.runsAt t a ∧ (n < 64) ∧
        (TIER_RILL_CFG.ENABLE.get v = 1) ∧ (a.allows agent (TIER_RILL_CFG.ENABLE.off n) true = true) ∧
        (a.rd TXN_STATUS.STATE = 0)) ∧
    (∃ (s a : State) (t : Nat) (q : Nat) (found : Found) (f : Fetched) (l : List Fetched) (c : State) (b r : State),
        s.runsAt t a ∧ (b = a.reading found 0 (0x4000 + q)) ∧
        (c = b.each (b.rillsOf q) fun s n => s.evalRill q (hdrLayer f.words) n) ∧
        (r = c.setQueue q { c.queue q with evaluated := true, gates := (c.gatesOf q).map fun n => (n, c.now) }) ∧
        ((a.queue q).fetched = f :: l) ∧ (bitsOf (f.words.headD 0).toNat 23 16 = 1) ∧
        ((a.queue q).evaluated = false) ∧ (a.qRuns q = true) ∧ ((a.rillsOf q).isEmpty = false) ∧
        (r.access.blocked = none)) :=
  ⟨⟨(wSet [(TIER_PORT_STATUS.STATE, 7, 2)]), ((wSet [(TIER_PORT_STATUS.STATE, 7, 2)]).advance 0), 0, (7), ⟨rfl,
       by decide +kernel⟩, by decide +kernel⟩,
   ⟨({ State.reset with cxlRecover := [(7, 1)] }), (({ State.reset with cxlRecover := [(7, 1)] }).advance 0), 0, (7),
       ⟨rfl, by decide +kernel⟩, by decide +kernel⟩,
   ⟨({ State.reset with cxlRecover := [(7, 1)] }), (({ State.reset with cxlRecover := [(7, 1)] }).advance 1000000),
       1000000, (7), ⟨rfl, by decide +kernel⟩, by decide +kernel⟩,
   ⟨(State.reset), ((State.reset).advance 0), 0, (7), (1), ⟨rfl, by decide +kernel⟩, by decide +kernel⟩,
   ⟨(State.reset), ((State.reset).advance 0), 0, (1), (65535), (1), ⟨rfl, by decide +kernel⟩, by decide +kernel⟩,
   ⟨({ State.reset with migs := [⟨9, 0, none, none, none, 0, (0, 0), 0, none, [], [], 0, 0, false⟩] }),
       (({ State.reset with migs := [⟨9, 0, none, none, none, 0, (0, 0), 0, none, [], [], 0, 0, false⟩] }).advance 0),
       0, (9), (.none), (⟨9, 0, none, none, none, 0, (0, 0), 0, none, [], [], 0, 0, false⟩), ⟨rfl, by decide +kernel⟩,
       by decide +kernel⟩,
   ⟨(({ State.reset with migs := [⟨9, 1, none, none, none, 0, (0, 0), 0, none, [], [], 0, 0, false⟩] } : State)),
       ((({ State.reset with migs := [⟨9, 1, none, none, none, 0, (0, 0), 0, none, [], [], 0, 0, false⟩] } :
       State)).advance 0), 0, (9), (.none), (⟨9, 1, none, none, none, 0, (0, 0), 0, none, [], [], 0, 0, false⟩),
       ((((({ State.reset with migs := [⟨9, 1, none, none, none, 0, (0, 0), 0, none, [], [], 0, 0, false⟩] } :
       State).advance 0).reading .none 0 0).leavesOk 9).2), (_), (_), ⟨rfl, by decide +kernel⟩, rfl, rfl,
       by decide +kernel⟩,
   ⟨(({ wSet [(TR_CTX.VALID, 0, 1), (TIER_OBJ_VA.LENGTH, 9, 0)] with migs := [⟨9, 1, none, none, none, 0, (0, 0), 0, none, [], [], 0, 0, false⟩] }
       : State)), ((({ wSet [(TR_CTX.VALID, 0, 1), (TIER_OBJ_VA.LENGTH, 9, 0)] with migs := [⟨9, 1, none, none, none, 0, (0, 0), 0, none, [], [], 0, 0, false⟩] }
       : State)).advance 0), 0, (9), (_), (.none), (⟨9, 1, none, none, none, 0, (0, 0), 0, none, [], [], 0, 0,
       false⟩), (((State.startInval
       (((((((((({ wSet [(TR_CTX.VALID, 0, 1), (TIER_OBJ_VA.LENGTH, 9, 0)] with migs := [⟨9, 1, none, none, none, 0, (0, 0), 0, none, [], [], 0, 0, false⟩] }
       : State).advance 0).reading .none 0 0).leavesOk 9).2.wr TIER_OBJ_CFG.STATE 9 2).tracePhase ⟨9, 1, none, none,
       none, 0, (0, 0), 0, none, [], [], 0, 0, false⟩ 0).rewriteLeaves 9 (fun _ pte => clearV pte)).tracePhase ⟨9, 1,
       none, none, none, 0, (0, 0), 0, none, [], [], 0, 0, false⟩ 1)).tlbDrop
       (((((((((({ wSet [(TR_CTX.VALID, 0, 1), (TIER_OBJ_VA.LENGTH, 9, 0)] with migs := [⟨9, 1, none, none, none, 0, (0, 0), 0, none, [], [], 0, 0, false⟩] }
       : State).advance 0).reading .none 0 0).leavesOk 9).2.wr TIER_OBJ_CFG.STATE 9 2).tracePhase ⟨9, 1, none, none,
       none, 0, (0, 0), 0, none, [], [], 0, 0, false⟩ 0).rewriteLeaves 9 (fun _ pte => clearV pte)).tracePhase ⟨9, 1,
       none, none, none, 0, (0, 0), 0, none, [], [], 0, 0, false⟩ 1)).rd TIER_OBJ_CFG.CONTEXT 9))
       { (⟨9, 1, none, none, none, 0, (0, 0), 0, none, [], [], 0, 0, false⟩ : Mig) with phase := 1, tlb := ((((((((({ wSet [(TR_CTX.VALID, 0, 1), (TIER_OBJ_VA.LENGTH, 9, 0)] with migs := [⟨9, 1, none, none, none, 0, (0, 0), 0, none, [], [], 0, 0, false⟩] } : State).advance 0).reading .none 0 0).leavesOk 9).2.wr TIER_OBJ_CFG.STATE 9 2).tracePhase ⟨9, 1, none, none, none, 0, (0, 0), 0, none, [], [], 0, 0, false⟩ 0).rewriteLeaves 9 (fun _ pte => clearV pte)).tracePhase ⟨9, 1, none, none, none, 0, (0, 0), 0, none, [], [], 0, 0, false⟩ 1)).tlbMarks (((((((((({ wSet [(TR_CTX.VALID, 0, 1), (TIER_OBJ_VA.LENGTH, 9, 0)] with migs := [⟨9, 1, none, none, none, 0, (0, 0), 0, none, [], [], 0, 0, false⟩] } : State).advance 0).reading .none 0 0).leavesOk 9).2.wr TIER_OBJ_CFG.STATE 9 2).tracePhase ⟨9, 1, none, none, none, 0, (0, 0), 0, none, [], [], 0, 0, false⟩ 0).rewriteLeaves 9 (fun _ pte => clearV pte)).tracePhase ⟨9, 1, none, none, none, 0, (0, 0), 0, none, [], [], 0, 0, false⟩ 1)).rd TIER_OBJ_CFG.CONTEXT 9) })).2),
       ((((({ wSet [(TR_CTX.VALID, 0, 1), (TIER_OBJ_VA.LENGTH, 9, 0)] with migs := [⟨9, 1, none, none, none, 0, (0, 0), 0, none, [], [], 0, 0, false⟩] }
       : State).advance 0).reading .none 0 0).leavesOk 9).2), (_), (((State.startInval
       (((((((((({ wSet [(TR_CTX.VALID, 0, 1), (TIER_OBJ_VA.LENGTH, 9, 0)] with migs := [⟨9, 1, none, none, none, 0, (0, 0), 0, none, [], [], 0, 0, false⟩] }
       : State).advance 0).reading .none 0 0).leavesOk 9).2.wr TIER_OBJ_CFG.STATE 9 2).tracePhase ⟨9, 1, none, none,
       none, 0, (0, 0), 0, none, [], [], 0, 0, false⟩ 0).rewriteLeaves 9 (fun _ pte => clearV pte)).tracePhase ⟨9, 1,
       none, none, none, 0, (0, 0), 0, none, [], [], 0, 0, false⟩ 1)).tlbDrop
       (((((((((({ wSet [(TR_CTX.VALID, 0, 1), (TIER_OBJ_VA.LENGTH, 9, 0)] with migs := [⟨9, 1, none, none, none, 0, (0, 0), 0, none, [], [], 0, 0, false⟩] }
       : State).advance 0).reading .none 0 0).leavesOk 9).2.wr TIER_OBJ_CFG.STATE 9 2).tracePhase ⟨9, 1, none, none,
       none, 0, (0, 0), 0, none, [], [], 0, 0, false⟩ 0).rewriteLeaves 9 (fun _ pte => clearV pte)).tracePhase ⟨9, 1,
       none, none, none, 0, (0, 0), 0, none, [], [], 0, 0, false⟩ 1)).rd TIER_OBJ_CFG.CONTEXT 9))
       { (⟨9, 1, none, none, none, 0, (0, 0), 0, none, [], [], 0, 0, false⟩ : Mig) with phase := 1, tlb := ((((((((({ wSet [(TR_CTX.VALID, 0, 1), (TIER_OBJ_VA.LENGTH, 9, 0)] with migs := [⟨9, 1, none, none, none, 0, (0, 0), 0, none, [], [], 0, 0, false⟩] } : State).advance 0).reading .none 0 0).leavesOk 9).2.wr TIER_OBJ_CFG.STATE 9 2).tracePhase ⟨9, 1, none, none, none, 0, (0, 0), 0, none, [], [], 0, 0, false⟩ 0).rewriteLeaves 9 (fun _ pte => clearV pte)).tracePhase ⟨9, 1, none, none, none, 0, (0, 0), 0, none, [], [], 0, 0, false⟩ 1)).tlbMarks (((((((((({ wSet [(TR_CTX.VALID, 0, 1), (TIER_OBJ_VA.LENGTH, 9, 0)] with migs := [⟨9, 1, none, none, none, 0, (0, 0), 0, none, [], [], 0, 0, false⟩] } : State).advance 0).reading .none 0 0).leavesOk 9).2.wr TIER_OBJ_CFG.STATE 9 2).tracePhase ⟨9, 1, none, none, none, 0, (0, 0), 0, none, [], [], 0, 0, false⟩ 0).rewriteLeaves 9 (fun _ pte => clearV pte)).tracePhase ⟨9, 1, none, none, none, 0, (0, 0), 0, none, [], [], 0, 0, false⟩ 1)).rd TIER_OBJ_CFG.CONTEXT 9) })).1),
       (_), (_), ⟨rfl, by decide +kernel⟩, rfl, rfl, rfl, rfl, by decide +kernel⟩,
   ⟨({ State.reset with migs := [⟨9, 1, none, none, none, 0, (0, 0), 1, none, [], [], 0, 0, false⟩] }),
       (({ State.reset with migs := [⟨9, 1, none, none, none, 0, (0, 0), 1, none, [], [], 0, 0, false⟩] }).advance 0),
       0, (9), (⟨9, 1, none, none, none, 0, (0, 0), 1, none, [], [], 0, 0, false⟩), ⟨rfl, by decide +kernel⟩,
       by decide +kernel⟩,
   ⟨({ State.reset with migs := [⟨9, 1, none, none, none, 0, (0, 0), 1, some 4, [], [], 0, 0, false⟩] }),
       (({ State.reset with migs := [⟨9, 1, none, none, none, 0, (0, 0), 1, some 4, [], [], 0, 0, false⟩] }).advance
       0), 0, (9), (4), (⟨9, 1, none, none, none, 0, (0, 0), 1, some 4, [], [], 0, 0, false⟩), ⟨rfl,
       by decide +kernel⟩, by decide +kernel⟩,
   ⟨(({ wSet [(TR_CTX.VALID, 0, 1), (TIER_OBJ_VA.LENGTH, 9, 0)] with migs := [⟨9, 1, none, none, none, 0, (0, 0), 2, none, [], [], 0, 0, false⟩] }
       : State)), ((({ wSet [(TR_CTX.VALID, 0, 1), (TIER_OBJ_VA.LENGTH, 9, 0)] with migs := [⟨9, 1, none, none, none, 0, (0, 0), 2, none, [], [], 0, 0, false⟩] }
       : State)).advance 0), 0, (9), (0), (0), ([0]), (_), (.none), (⟨9, 1, none, none, none, 0, (0, 0), 2, none, [],
       [], 0, 0, false⟩), (((({ wSet [(TR_CTX.VALID, 0, 1), (TIER_OBJ_VA.LENGTH, 9, 0)] with migs := [⟨9, 1, none, none, none, 0, (0, 0), 2, none, [], [], 0, 0, false⟩] }
       : State).advance 0).reading .none 0 0)), (_), (_), ⟨rfl, by decide +kernel⟩, rfl, rfl, rfl, by decide +kernel⟩,
   ⟨(({ wSet [(TR_CTX.VALID, 0, 1), (TIER_OBJ_VA.LENGTH, 9, 0)] with migs := [⟨9, 1, none, none, none, 0, (0, 0), 2, none, [], [], 0, 0, false⟩] }
       : State)), ((({ wSet [(TR_CTX.VALID, 0, 1), (TIER_OBJ_VA.LENGTH, 9, 0)] with migs := [⟨9, 1, none, none, none, 0, (0, 0), 2, none, [], [], 0, 0, false⟩] }
       : State)).advance 0), 0, (9), (0), (0), (.none), (⟨9, 1, none, none, none, 0, (0, 0), 2, none, [], [], 0, 0,
       false⟩), (((({ wSet [(TR_CTX.VALID, 0, 1), (TIER_OBJ_VA.LENGTH, 9, 0)] with migs := [⟨9, 1, none, none, none, 0, (0, 0), 2, none, [], [], 0, 0, false⟩] }
       : State).advance 0).reading .none 0 0)), (_), (_), ⟨rfl, by decide +kernel⟩, rfl, rfl, by decide +kernel⟩,
   ⟨(State.reset), ((State.reset).advance 0), 0, (1), (63), (TIER_RILL_CFG.ENABLE.mask), ⟨rfl, by decide +kernel⟩,
       by decide +kernel⟩,
   ⟨(((wQueue [⟨0, [0x10000], 0, 0⟩] false).wr TIER_RILL_CFG.ENABLE 0 1).wr TIER_RILL_CFG.QUEUE 0 16383), ((((wQueue
       [⟨0, [0x10000], 0, 0⟩] false).wr TIER_RILL_CFG.ENABLE 0 1).wr TIER_RILL_CFG.QUEUE 0 16383).advance 0), 0,
       (16383), (.none), (⟨0, [0x10000], 0, 0⟩), ([]), (_), (_), (_), ⟨rfl, by decide +kernel⟩, rfl, rfl, rfl,
       by decide +kernel⟩⟩

theorem test_meets_collectives_complete :
    (∃ (s a : State) (t : Nat) (agent n : Nat) (v : Word), s.runsAt t a ∧ (n < 16) ∧
        (a.allows agent (CE_EPOCH_CFG.EPOCH.off n) true = true) ∧ (a.rd TXN_STATUS.STATE = 0)) ∧
    (∃ (s a : State) (t : Nat) (n : Nat) (found : Found) (b r : State), s.runsAt t a ∧
        (b = a.reading found 0 (Tab.get (fun _ => 0) a.ringAgent (64 + n))) ∧ (r = b.checkEpoch n) ∧ (n < 16) ∧
        (a.rd CE_EPOCH_STATUS.STATE n = 1) ∧ (r.access.blocked = none)) ∧
    (∃ (s a : State) (t : Nat) (q i : Nat) (found : Found) (x : Bucket) (c : State) (b r : State), s.runsAt t a ∧
        (b = a.reading found 0 (0xA000 + x.hub)) ∧ (c = b.ceGo x) ∧ (r = c.ceEnd (c.again x) 0 0) ∧
        (a.bucketAt q i = some x) ∧ (c.bucketWhole (c.again x) = true) ∧ (c.now < c.bucketDue (c.again x)) ∧
        (r.access.blocked = none)) ∧
    (∃ (s a : State) (t : Nat) (q i : Nat) (x : Bucket), s.runsAt t a ∧ (a.bucketAt q i = some x) ∧
        (a.bucketDue x ≤ a.now)) ∧
    (∃ (s a : State) (t : Nat) (h : Nat) (r : Resend), s.runsAt t a ∧
        (a.resends.find? (fun r => r.hub == h && decide (r.due ≤ a.now)) = some r)) ∧
    (∃ (s a : State) (t : Nat) (port : Nat) (found : Found) (x : RxMsg) (l : List RxMsg) (b r : State), s.runsAt t a ∧
        (b = { a.reading found 0 port with rx := Tab.put (fun _ => []) a.rx port l }) ∧
        (r = (b.msgColl port x).doneBound port x) ∧ (a.save.phase = 0) ∧ (a.rxOf port = x :: l) ∧
        (isDone x.msg = true) ∧ (x.msg.dst = b.deviceId) ∧ (b.guardAdmits x.msg.src = true) ∧
        (r.access.blocked = none)) :=
  ⟨⟨(State.reset), ((State.reset).advance 0), 0, (1), (15), (1), ⟨rfl, by decide +kernel⟩, by decide +kernel⟩,
   ⟨(wSet [(CE_EPOCH_STATUS.STATE, 15, 1)]), ((wSet [(CE_EPOCH_STATUS.STATE, 15, 1)]).advance 0), 0, (15), (.none),
       (_), (_), ⟨rfl, by decide +kernel⟩, rfl, rfl, by decide +kernel⟩,
   ⟨({ State.reset with buckets := [⟨0, 5, 0, 3, 2, 0, [], [], 0, 0, 4, [], [], [], [], false, 0, [], [], [], [], []⟩] }),
       (({ State.reset with buckets := [⟨0, 5, 0, 3, 2, 0, [], [], 0, 0, 4, [], [], [], [], false, 0, [], [], [], [], []⟩] }).advance
       0), 0, (0), (5), (.none), (⟨0, 5, 0, 3, 2, 0, [], [], 0, 0, 4, [], [], [], [], false, 0, [], [], [], [], []⟩),
       (_), (_), (_), ⟨rfl, by decide +kernel⟩, rfl, rfl, rfl, by decide +kernel⟩,
   ⟨({ State.reset with buckets := [⟨0, 5, 0, 3, 2, 0, [], [], 0, 0, 4, [], [], [], [], false, 0, [], [], [], [], []⟩] }),
       (({ State.reset with buckets := [⟨0, 5, 0, 3, 2, 0, [], [], 0, 0, 4, [], [], [], [], false, 0, [], [], [], [], []⟩] }).advance
       4000000000000), 4000000000000, (0), (5), (⟨0, 5, 0, 3, 2, 0, [], [], 0, 0, 4, [], [], [], [], false, 0, [], [],
       [], [], []⟩), ⟨rfl, by decide +kernel⟩, by decide +kernel⟩,
   ⟨({ State.reset with resends := [⟨1, 0, 0, ⟨5, 1, 0, 0, 0, 0, 0, []⟩⟩] }),
       (({ State.reset with resends := [⟨1, 0, 0, ⟨5, 1, 0, 0, 0, 0, 0, []⟩⟩] }).advance 0), 0, (1), (⟨1, 0, 0, ⟨5, 1,
       0, 0, 0, 0, 0, []⟩⟩), ⟨rfl, by decide +kernel⟩, by decide +kernel⟩,
   ⟨({ State.reset with buckets := [⟨0, 5, 0, 3, 2, 0, [2 ^ 34], [], 0, 0, 0, [], [], [], [], false, 0, [], [], [], [], []⟩], rx := [(0x9000, [wRx ⟨5, 1, 0, 0, 0, 1, 3 + 2 * 2 ^ 32 + 3 * 2 ^ 48, [1]⟩])] }),
       (({ State.reset with buckets := [⟨0, 5, 0, 3, 2, 0, [2 ^ 34], [], 0, 0, 0, [], [], [], [], false, 0, [], [], [], [], []⟩], rx := [(0x9000, [wRx ⟨5, 1, 0, 0, 0, 1, 3 + 2 * 2 ^ 32 + 3 * 2 ^ 48, [1]⟩])] }).advance
       0), 0, (0x9000), (.none), (wRx ⟨5, 1, 0, 0, 0, 1, 3 + 2 * 2 ^ 32 + 3 * 2 ^ 48, [1]⟩), ([]), (_), (_), ⟨rfl,
       by decide +kernel⟩, rfl, rfl, by decide +kernel⟩⟩

theorem test_meets_flits_complete :
    (∃ (s a : State) (t : Nat) (link : Nat) (f : Flit) (r : List Flit), s.runsAt t a ∧ (link < 24) ∧
        (a.linkState link = 2) ∧ (a.save.phase = 0) ∧ ((a.link link).again = f :: r)) ∧
    (∃ (s a : State) (t : Nat) (link : Nat), s.runsAt t a ∧ (link < 24) ∧ (a.linkState link = 2) ∧
        (a.save.phase = 0) ∧ ((a.link link).again = []) ∧
        (1024 ≤ (a.link link).replay.length ∨ a.pickFlit link = none)) ∧
    (∃ (s a : State) (t : Nat) (link : Nat) (p : Pick) (turns : Tab Nat), s.runsAt t a ∧ (link < 24) ∧
        (a.linkState link = 2) ∧ (a.save.phase = 0) ∧ ((a.link link).again = []) ∧
        ((a.link link).replay.length < 1024) ∧ (a.pickFlit link = some (p, turns))) ∧
    (∃ (s a : State) (t : Nat) (link n : Nat) (words : List Word), s.runsAt t a ∧ (link < 24) ∧
        (a.linkState link = 2)) ∧
    (∃ (s a : State) (t : Nat) (link n : Nat) (words : List Word), s.runsAt t a ∧ (link < 24) ∧
        (a.linkState link = 2) ∧ (flitIntact words = false)) ∧
    (∃ (s a : State) (t : Nat) (link n : Nat) (words : List Word) (f : Flit), s.runsAt t a ∧ (f = flitOf words) ∧
        (link < 24) ∧ (a.linkState link = 2) ∧ (flitIntact words = true) ∧ (f.null = true)) ∧
    (∃ (s a : State) (t : Nat) (link n : Nat) (words : List Word) (f : Flit), s.runsAt t a ∧ (f = flitOf words) ∧
        (link < 24) ∧ (a.linkState link = 2) ∧ (flitIntact words = true) ∧ (f.null = false) ∧
        (f.seq = (((a.bump LK_LINK_ERR.FEC_CORR link n).link link).rxSeq + 1) % 65536)) ∧
    (∃ (s a : State) (t : Nat) (link : Nat), s.runsAt t a ∧ (a.linkState link = 2) ∧
        ((a.link link).replay.isEmpty = false) ∧ ((a.link link).ackAt + 2000 ≤ a.now)) ∧
    (∃ (s a : State) (t : Nat) (link n k : Nat), s.runsAt t a ∧ (link < 24) ∧
        ((a.link link).earnedBy (a.rd LK_LINK_CFG.C0_PCT link) a.now = (n, k)) ∧ (0 < n) ∧
        (0 < (a.link link).tokensOut)) :=
  ⟨⟨((wSet [(LK_LINK_STATUS.STATE, 23, 2)]).setLink 23
       { (wSet [(LK_LINK_STATUS.STATE, 23, 2)]).link 23 with again := [⟨1, 0, false, 0, false, 0, false, 0, []⟩] }),
       (((wSet [(LK_LINK_STATUS.STATE, 23, 2)]).setLink 23
       { (wSet [(LK_LINK_STATUS.STATE, 23, 2)]).link 23 with again := [⟨1, 0, false, 0, false, 0, false, 0, []⟩] }).advance
       0), 0, (23), (⟨1, 0, false, 0, false, 0, false, 0, []⟩), ([]), ⟨rfl, by decide +kernel⟩, by decide +kernel⟩,
   ⟨(wSet [(LK_LINK_STATUS.STATE, 23, 2)]), ((wSet [(LK_LINK_STATUS.STATE, 23, 2)]).advance 0), 0, (23), ⟨rfl,
       by decide +kernel⟩, by decide +kernel⟩,
   ⟨(wEgress), ((wEgress).advance 0), 0, (23), ((((wEgress.advance 0).pickFlit 23).getD (⟨9, true, 9⟩, [])).1),
       ((((wEgress.advance 0).pickFlit 23).getD (⟨9, true, 9⟩, [])).2), ⟨rfl, by decide +kernel⟩, by decide +kernel⟩,
   ⟨(wSet [(LK_LINK_STATUS.STATE, 23, 2)]), ((wSet [(LK_LINK_STATUS.STATE, 23, 2)]).advance 0), 0, (23), (1), ([]),
       ⟨rfl, by decide +kernel⟩, by decide +kernel⟩,
   ⟨(wSet [(LK_LINK_STATUS.STATE, 23, 2)]), ((wSet [(LK_LINK_STATUS.STATE, 23, 2)]).advance 0), 0, (23), (1), ([]),
       ⟨rfl, by decide +kernel⟩, by decide +kernel⟩,
   ⟨(wSet [(LK_LINK_STATUS.STATE, 23, 2)]), ((wSet [(LK_LINK_STATUS.STATE, 23, 2)]).advance 0), 0, (23), (1), (wFlit
       0x800000000), (_), ⟨rfl, by decide +kernel⟩, rfl, by decide +kernel⟩,
   ⟨((wSet [(LK_LINK_STATUS.STATE, 23, 2)]).setLink 23
       { (wSet [(LK_LINK_STATUS.STATE, 23, 2)]).link 23 with rxSeq := 65535 }), (((wSet [(LK_LINK_STATUS.STATE, 23,
       2)]).setLink 23 { (wSet [(LK_LINK_STATUS.STATE, 23, 2)]).link 23 with rxSeq := 65535 }).advance 0), 0, (23),
       (1), (wFlit 0), (_), ⟨rfl, by decide +kernel⟩, rfl, by decide +kernel⟩,
   ⟨((wSet [(LK_LINK_STATUS.STATE, 23, 2)]).setLink 23
       { (wSet [(LK_LINK_STATUS.STATE, 23, 2)]).link 23 with replay := [⟨1, 0, false, 0, false, 0, false, 0, []⟩], ackAt := 0 }),
       (((wSet [(LK_LINK_STATUS.STATE, 23, 2)]).setLink 23
       { (wSet [(LK_LINK_STATUS.STATE, 23, 2)]).link 23 with replay := [⟨1, 0, false, 0, false, 0, false, 0, []⟩], ackAt := 0 }).advance
       2000), 2000, (23), ⟨rfl, by decide +kernel⟩, by decide +kernel⟩,
   ⟨(((wSet [(LK_LINK_STATUS.STATE, 23, 2)]).wr LK_LINK_CFG.C0_PCT 23 5).setLink 23
       { (wSet [(LK_LINK_STATUS.STATE, 23, 2)]).link 23 with tokensOut := 1 }), ((((wSet [(LK_LINK_STATUS.STATE, 23,
       2)]).wr LK_LINK_CFG.C0_PCT 23 5).setLink 23
       { (wSet [(LK_LINK_STATUS.STATE, 23, 2)]).link 23 with tokensOut := 1 }).advance 128), 128, (23), (5), (0),
       ⟨rfl, by decide +kernel⟩, by decide +kernel⟩⟩

theorem test_meets_links_complete :
    (∃ (s a : State) (t : Nat) (agent link : Nat) (v : Word), s.runsAt t a ∧ (link < 24) ∧
        (a.allows agent (LK_LINK_CFG.ENABLE.off link) true = true) ∧ (a.rd TXN_STATUS.STATE = 0)) ∧
    (∃ (s a : State) (t : Nat) (link peer lastSeq : Nat) (resume : Bool), s.runsAt t a ∧ (a.linkState link = 1)) ∧
    (∃ (s a : State) (t : Nat) (link peer lastSeq : Nat), s.runsAt t a ∧ (a.linkState link = 3) ∧
        ((a.link link).resume = true)) ∧
    (∃ (s a : State) (t : Nat) (link peer lastSeq : Nat), s.runsAt t a ∧ (a.linkState link = 3)) ∧
    (∃ (s a : State) (t : Nat) (link : Nat), s.runsAt t a ∧ (a.linkState link = 1) ∧
        ((a.link link).since + 100000000 ≤ a.now)) ∧
    (∃ (s a : State) (t : Nat) (link agent : Nat), s.runsAt t a ∧ (link < 24) ∧
        ((a.link link).replayWin.1 = a.winNum 1000000) ∧
        (a.rd LK_LINK_CFG.REPLAY_LIMIT link < (a.link link).replayWin.2) ∧ (a.linkState link = 2)) ∧
    (∃ (s a : State) (t : Nat) (link cause agent : Nat), s.runsAt t a ∧ (link < 24) ∧ (cause = 1 ∨ cause = 2) ∧
        (a.linkState link = 2)) ∧
    (∃ (s a : State) (t : Nat) (link agent : Nat), s.runsAt t a ∧ (link < 24) ∧
        (a.allows agent (LK_LINK_CTRL.RETRAIN.off link) true = true) ∧ (a.linkState link = 2)) ∧
    (∃ (s a : State) (t : Nat) (link : Nat), s.runsAt t a ∧ (a.linkState link = 3) ∧
        ((a.link link).since + 1000000 ≤ a.now)) ∧
    (∃ (s a : State) (t : Nat) (link : Nat), s.runsAt t a ∧ (a.linkState link = 4) ∧
        (a.flag LK_LINK_CFG.AUTO_TRAIN link = true) ∧ ((a.link link).since + 100000000 ≤ a.now)) ∧
    (∃ (s a : State) (t : Nat) (agent link : Nat), s.runsAt t a ∧ (link < 24) ∧
        (a.allows agent (LK_LINK_CTRL.TRAIN.off link) true = true) ∧ (a.linkState link = 4)) ∧
    (∃ (s a : State) (t : Nat) (tag : Nat) (r : PeerReq), s.runsAt t a ∧
        (a.peerReqs.find? (fun r => r.tag == tag && r.sent.isSome) = some r) ∧ (a.overdue r = true)) ∧
    (∃ (s a : State) (t : Nat) (agent w : Nat) (v : Word), s.runsAt t a ∧ (w < 256) ∧
        (a.allows agent (LK_WIN.VALID.off w) true = true) ∧ (a.rd TXN_STATUS.STATE = 0)) ∧
    (∃ (s a : State) (t : Nat) (w link : Nat), s.runsAt t a ∧ (a.linkState link = 2) ∧ (a.edge 1000 = true) ∧
        (a.peerReqs.any (fun r => r.win == w) = false)) :=
  ⟨⟨(State.reset), ((State.reset).advance 0), 0, (1), (23), (1), ⟨rfl, by decide +kernel⟩, by decide +kernel⟩,
   ⟨(wSet [(LK_LINK_STATUS.STATE, 23, 1)]), ((wSet [(LK_LINK_STATUS.STATE, 23, 1)]).advance 0), 0, (23), (5), (0),
       (true), ⟨rfl, by decide +kernel⟩, by decide +kernel⟩,
   ⟨((wSet [(LK_LINK_STATUS.STATE, 23, 3)]).setLink 23
       { (wSet [(LK_LINK_STATUS.STATE, 23, 3)]).link 23 with resume := true }), (((wSet [(LK_LINK_STATUS.STATE, 23,
       3)]).setLink 23 { (wSet [(LK_LINK_STATUS.STATE, 23, 3)]).link 23 with resume := true }).advance 0), 0, (23),
       (5), (0), ⟨rfl, by decide +kernel⟩, by decide +kernel⟩,
   ⟨(wSet [(LK_LINK_STATUS.STATE, 23, 3)]), ((wSet [(LK_LINK_STATUS.STATE, 23, 3)]).advance 0), 0, (23), (5), (0),
       ⟨rfl, by decide +kernel⟩, by decide +kernel⟩,
   ⟨(wSet [(LK_LINK_STATUS.STATE, 23, 1)]), ((wSet [(LK_LINK_STATUS.STATE, 23, 1)]).advance 100000000), 100000000,
       (23), ⟨rfl, by decide +kernel⟩, by decide +kernel⟩,
   ⟨((wSet [(LK_LINK_STATUS.STATE, 23, 2)]).setLink 23
       { (wSet [(LK_LINK_STATUS.STATE, 23, 2)]).link 23 with replayWin := (0, 100000) }), (((wSet
       [(LK_LINK_STATUS.STATE, 23, 2)]).setLink 23
       { (wSet [(LK_LINK_STATUS.STATE, 23, 2)]).link 23 with replayWin := (0, 100000) }).advance 0), 0, (23), (0),
       ⟨rfl, by decide +kernel⟩, by decide +kernel⟩,
   ⟨(wSet [(LK_LINK_STATUS.STATE, 23, 2)]), ((wSet [(LK_LINK_STATUS.STATE, 23, 2)]).advance 0), 0, (23), (1), (0),
       ⟨rfl, by decide +kernel⟩, by decide +kernel⟩,
   ⟨(wSet [(LK_LINK_STATUS.STATE, 23, 2)]), ((wSet [(LK_LINK_STATUS.STATE, 23, 2)]).advance 0), 0, (23), (1), ⟨rfl,
       by decide +kernel⟩, by decide +kernel⟩,
   ⟨(wSet [(LK_LINK_STATUS.STATE, 23, 3)]), ((wSet [(LK_LINK_STATUS.STATE, 23, 3)]).advance 1000000), 1000000, (23),
       ⟨rfl, by decide +kernel⟩, by decide +kernel⟩,
   ⟨((wSet [(LK_LINK_STATUS.STATE, 23, 4)]).wr LK_LINK_CFG.AUTO_TRAIN 23 1), (((wSet [(LK_LINK_STATUS.STATE, 23,
       4)]).wr LK_LINK_CFG.AUTO_TRAIN 23 1).advance 100000000), 100000000, (23), ⟨rfl, by decide +kernel⟩,
       by decide +kernel⟩,
   ⟨(wSet [(LK_LINK_STATUS.STATE, 23, 4)]), ((wSet [(LK_LINK_STATUS.STATE, 23, 4)]).advance 0), 0, (1), (23), ⟨rfl,
       by decide +kernel⟩, by decide +kernel⟩,
   ⟨({ State.reset with peerReqs := [⟨0, 7, 0, 0, 0, 1, .site 0 0 0, some 0, 0, ⟨3, 1, 7, 0, 0, 0, 0, []⟩⟩] }),
       (({ State.reset with peerReqs := [⟨0, 7, 0, 0, 0, 1, .site 0 0 0, some 0, 0, ⟨3, 1, 7, 0, 0, 0, 0, []⟩⟩] }).advance
       4000000000000), 4000000000000, (7), (⟨0, 7, 0, 0, 0, 1, .site 0 0 0, some 0, 0, ⟨3, 1, 7, 0, 0, 0, 0, []⟩⟩),
       ⟨rfl, by decide +kernel⟩, by decide +kernel⟩,
   ⟨(State.reset), ((State.reset).advance 0), 0, (1), (255), (1), ⟨rfl, by decide +kernel⟩, by decide +kernel⟩,
   ⟨({ wSet [(LK_LINK_STATUS.STATE, 23, 2)] with rejoin := [(255, 23)] }),
       (({ wSet [(LK_LINK_STATUS.STATE, 23, 2)] with rejoin := [(255, 23)] }).advance 0), 0, (255), (23), ⟨rfl,
       by decide +kernel⟩, by decide +kernel⟩⟩

theorem test_meets_messages_complete :
    (∃ (s a : State) (t : Nat) (port : Nat) (found : Found) (x : RxMsg) (l : List RxMsg) (b r : State), s.runsAt t a ∧
        (b = { a.reading found 0 port with rx := Tab.put (fun _ => []) a.rx port l }) ∧
        (r = (b.msgWrite port x).doneBound port x) ∧ (a.save.phase = 0) ∧ (a.rxOf port = x :: l) ∧ (x.msg.kind = 1) ∧
        (x.msg.dst = b.deviceId) ∧ (b.guardAdmits x.msg.src = true) ∧ (r.access.blocked = none)) ∧
    (∃ (s a : State) (t : Nat) (port : Nat) (found : Found) (x : RxMsg) (l : List RxMsg) (b r : State), s.runsAt t a ∧
        (b = { a.reading found 0 port with rx := Tab.put (fun _ => []) a.rx port l }) ∧
        (r = (b.msgMasked port x).doneBound port x) ∧ (a.save.phase = 0) ∧ (a.rxOf port = x :: l) ∧ (x.msg.kind = 2) ∧
        (x.msg.dst = b.deviceId) ∧ (b.guardAdmits x.msg.src = true) ∧ (r.access.blocked = none)) ∧
    (∃ (s a : State) (t : Nat) (port : Nat) (found : Found) (x : RxMsg) (l : List RxMsg) (b r : State), s.runsAt t a ∧
        (b = { a.reading found 0 port with rx := Tab.put (fun _ => []) a.rx port l }) ∧
        (r = (b.msgRead port x).doneBound port x) ∧ (a.save.phase = 0) ∧ (a.rxOf port = x :: l) ∧ (x.msg.kind = 3) ∧
        (x.msg.dst = b.deviceId) ∧ (b.guardAdmits x.msg.src = true) ∧ (r.access.blocked = none)) ∧
    (∃ (s a : State) (t : Nat) (port : Nat) (found : Found) (x : RxMsg) (l : List RxMsg) (b r : State), s.runsAt t a ∧
        (b = { a.reading found 0 port with rx := Tab.put (fun _ => []) a.rx port l }) ∧
        (r = (b.msgMop port x).doneBound port x) ∧ (a.save.phase = 0) ∧ (a.rxOf port = x :: l) ∧ (x.msg.kind = 4) ∧
        (x.msg.dst = b.deviceId) ∧ (b.guardAdmits x.msg.src = true) ∧ (r.access.blocked = none)) ∧
    (∃ (s a : State) (t : Nat) (port : Nat) (found : Found) (x : RxMsg) (l : List RxMsg) (b r : State), s.runsAt t a ∧
        (b = { a.reading found 0 port with rx := Tab.put (fun _ => []) a.rx port l }) ∧
        (r = (b.msgColl port x).doneBound port x) ∧ (a.save.phase = 0) ∧ (a.rxOf port = x :: l) ∧ (x.msg.kind = 5) ∧
        (isDone x.msg = false) ∧ (x.msg.dst = b.deviceId) ∧ (b.guardAdmits x.msg.src = true) ∧
        (r.access.blocked = none)) ∧
    (∃ (s a : State) (t : Nat) (port : Nat) (x : RxMsg) (l : List RxMsg) (b : State), s.runsAt t a ∧
        (b = { a with rx := Tab.put (fun _ => []) a.rx port l }) ∧ (a.save.phase = 0) ∧ (a.rxOf port = x :: l) ∧
        (x.msg.kind = 6) ∧ (x.msg.dst = b.deviceId)) ∧
    (∃ (s a : State) (t : Nat) (port : Nat) (x : RxMsg) (l : List RxMsg) (b : State) (q : PeerReq), s.runsAt t a ∧
        (b = { a with rx := Tab.put (fun _ => []) a.rx port l }) ∧ (a.save.phase = 0) ∧ (a.rxOf port = x :: l) ∧
        (x.msg.kind = 0x41) ∧ (x.msg.dst = b.deviceId) ∧
        (b.peerReqs.find? (fun r => r.tag == x.msg.tag && r.sent.isSome) = some q) ∧ (b.overdue q = false)) ∧
    (∃ (s a : State) (t : Nat) (port : Nat) (x : RxMsg) (l : List RxMsg) (b : State) (q : PeerReq), s.runsAt t a ∧
        (b = { a with rx := Tab.put (fun _ => []) a.rx port l }) ∧ (a.save.phase = 0) ∧ (a.rxOf port = x :: l) ∧
        (x.msg.kind = 0x42) ∧ (x.msg.dst = b.deviceId) ∧
        (b.peerReqs.find? (fun r => r.tag == x.msg.tag && r.sent.isSome) = some q) ∧ (b.overdue q = false)) ∧
    (∃ (s a : State) (t : Nat) (port : Nat) (x : RxMsg) (l : List RxMsg) (b : State) (q : PeerReq), s.runsAt t a ∧
        (b = { a with rx := Tab.put (fun _ => []) a.rx port l }) ∧ (a.save.phase = 0) ∧ (a.rxOf port = x :: l) ∧
        (x.msg.kind = 0x43) ∧ (x.msg.dst = b.deviceId) ∧
        (b.peerReqs.find? (fun r => r.tag == x.msg.tag && r.sent.isSome) = some q) ∧ (b.overdue q = false)) ∧
    (∃ (s a : State) (t : Nat) (port : Nat) (x : RxMsg) (l : List RxMsg) (b : State) (q : PeerReq), s.runsAt t a ∧
        (b = State.bump { a with rx := Tab.put (fun _ => []) a.rx port l } LK_STATUS.REFUSED 0) ∧ (a.save.phase = 0) ∧
        (a.rxOf port = x :: l) ∧ (x.msg.kind = 0x44) ∧ (x.msg.dst = a.deviceId) ∧ (x.msg.dst = b.deviceId) ∧
        (b.peerReqs.find? (fun r => r.tag == x.msg.tag && r.sent.isSome) = some q) ∧ (b.overdue q = false)) :=
  ⟨⟨({ State.reset with rx := [(0x9000, [wRx ⟨1, 1, 0, 0, 3, 0, 0, []⟩])] }),
       (({ State.reset with rx := [(0x9000, [wRx ⟨1, 1, 0, 0, 3, 0, 0, []⟩])] }).advance 0), 0, (0x9000), (.none),
       (wRx ⟨1, 1, 0, 0, 3, 0, 0, []⟩), ([]), (_), (_), ⟨rfl, by decide +kernel⟩, rfl, rfl, by decide +kernel⟩,
   ⟨({ State.reset with rx := [(0x9000, [wRx ⟨2, 1, 0, 0, 3, 0, 0, []⟩])] }),
       (({ State.reset with rx := [(0x9000, [wRx ⟨2, 1, 0, 0, 3, 0, 0, []⟩])] }).advance 0), 0, (0x9000), (.none),
       (wRx ⟨2, 1, 0, 0, 3, 0, 0, []⟩), ([]), (_), (_), ⟨rfl, by decide +kernel⟩, rfl, rfl, by decide +kernel⟩,
   ⟨({ State.reset with rx := [(0x9000, [wRx ⟨3, 1, 0, 0, 3, 0, 0, []⟩])] }),
       (({ State.reset with rx := [(0x9000, [wRx ⟨3, 1, 0, 0, 3, 0, 0, []⟩])] }).advance 0), 0, (0x9000), (.none),
       (wRx ⟨3, 1, 0, 0, 3, 0, 0, []⟩), ([]), (_), (_), ⟨rfl, by decide +kernel⟩, rfl, rfl, by decide +kernel⟩,
   ⟨({ State.reset with rx := [(0x9000, [wRx ⟨4, 1, 0, 0, 3, 0, 0, []⟩])] }),
       (({ State.reset with rx := [(0x9000, [wRx ⟨4, 1, 0, 0, 3, 0, 0, []⟩])] }).advance 0), 0, (0x9000), (.none),
       (wRx ⟨4, 1, 0, 0, 3, 0, 0, []⟩), ([]), (_), (_), ⟨rfl, by decide +kernel⟩, rfl, rfl, by decide +kernel⟩,
   ⟨({ State.reset with rx := [(0x9000, [wRx ⟨5, 1, 0, 0, 3, 0, 0, []⟩])] }),
       (({ State.reset with rx := [(0x9000, [wRx ⟨5, 1, 0, 0, 3, 0, 0, []⟩])] }).advance 0), 0, (0x9000), (.none),
       (wRx ⟨5, 1, 0, 0, 3, 0, 0, []⟩), ([]), (_), (_), ⟨rfl, by decide +kernel⟩, rfl, rfl, by decide +kernel⟩,
   ⟨({ State.reset with rx := [(0x9000, [wRx ⟨6, 1, 0, 0, 3, 0, 0, []⟩])] }),
       (({ State.reset with rx := [(0x9000, [wRx ⟨6, 1, 0, 0, 3, 0, 0, []⟩])] }).advance 0), 0, (0x9000), (wRx ⟨6, 1,
       0, 0, 3, 0, 0, []⟩), ([]), (_), ⟨rfl, by decide +kernel⟩, rfl, by decide +kernel⟩,
   ⟨({ State.reset with rx := [(0x9000, [wRx ⟨0x41, 1, 0, 0, 3, 0, 0, []⟩])], peerReqs := [⟨0, 0, 0, 0, 0, 1, .site 0 0 0, some 0, 0, ⟨3, 1, 0, 0, 0, 0, 0, []⟩⟩] }),
       (({ State.reset with rx := [(0x9000, [wRx ⟨0x41, 1, 0, 0, 3, 0, 0, []⟩])], peerReqs := [⟨0, 0, 0, 0, 0, 1, .site 0 0 0, some 0, 0, ⟨3, 1, 0, 0, 0, 0, 0, []⟩⟩] }).advance
       0), 0, (0x9000), (wRx ⟨0x41, 1, 0, 0, 3, 0, 0, []⟩), ([]), (_), (⟨0, 0, 0, 0, 0, 1, .site 0 0 0, some 0, 0, ⟨3,
       1, 0, 0, 0, 0, 0, []⟩⟩), ⟨rfl, by decide +kernel⟩, rfl, by decide +kernel⟩,
   ⟨({ State.reset with rx := [(0x9000, [wRx ⟨0x42, 1, 0, 0, 3, 0, 0, []⟩])], peerReqs := [⟨0, 0, 0, 0, 0, 1, .site 0 0 0, some 0, 0, ⟨3, 1, 0, 0, 0, 0, 0, []⟩⟩] }),
       (({ State.reset with rx := [(0x9000, [wRx ⟨0x42, 1, 0, 0, 3, 0, 0, []⟩])], peerReqs := [⟨0, 0, 0, 0, 0, 1, .site 0 0 0, some 0, 0, ⟨3, 1, 0, 0, 0, 0, 0, []⟩⟩] }).advance
       0), 0, (0x9000), (wRx ⟨0x42, 1, 0, 0, 3, 0, 0, []⟩), ([]), (_), (⟨0, 0, 0, 0, 0, 1, .site 0 0 0, some 0, 0, ⟨3,
       1, 0, 0, 0, 0, 0, []⟩⟩), ⟨rfl, by decide +kernel⟩, rfl, by decide +kernel⟩,
   ⟨({ State.reset with rx := [(0x9000, [wRx ⟨0x43, 1, 0, 0, 3, 0, 0, []⟩])], peerReqs := [⟨0, 0, 0, 0, 0, 1, .site 0 0 0, some 0, 0, ⟨3, 1, 0, 0, 0, 0, 0, []⟩⟩] }),
       (({ State.reset with rx := [(0x9000, [wRx ⟨0x43, 1, 0, 0, 3, 0, 0, []⟩])], peerReqs := [⟨0, 0, 0, 0, 0, 1, .site 0 0 0, some 0, 0, ⟨3, 1, 0, 0, 0, 0, 0, []⟩⟩] }).advance
       0), 0, (0x9000), (wRx ⟨0x43, 1, 0, 0, 3, 0, 0, []⟩), ([]), (_), (⟨0, 0, 0, 0, 0, 1, .site 0 0 0, some 0, 0, ⟨3,
       1, 0, 0, 0, 0, 0, []⟩⟩), ⟨rfl, by decide +kernel⟩, rfl, by decide +kernel⟩,
   ⟨({ State.reset with rx := [(0x9000, [wRx ⟨0x44, 1, 0, 0, 3, 0, 0, []⟩])], peerReqs := [⟨0, 0, 0, 0, 0, 1, .site 0 0 0, some 0, 0, ⟨3, 1, 0, 0, 0, 0, 0, []⟩⟩] }),
       (({ State.reset with rx := [(0x9000, [wRx ⟨0x44, 1, 0, 0, 3, 0, 0, []⟩])], peerReqs := [⟨0, 0, 0, 0, 0, 1, .site 0 0 0, some 0, 0, ⟨3, 1, 0, 0, 0, 0, 0, []⟩⟩] }).advance
       0), 0, (0x9000), (wRx ⟨0x44, 1, 0, 0, 3, 0, 0, []⟩), ([]), (_), (⟨0, 0, 0, 0, 0, 1, .site 0 0 0, some 0, 0, ⟨3,
       1, 0, 0, 0, 0, 0, []⟩⟩), ⟨rfl, by decide +kernel⟩, rfl, by decide +kernel⟩⟩

theorem test_meets_ethernet_completes :
    (∃ (s a : State) (t : Nat) (port : Nat) (bytes : List Byte) (found : Found) (f : FrameParts) (d : Datagram) (b r :
        State), s.runsAt t a ∧ (b = a.reading found 0 (0x9100 + port)) ∧ (f = frameParts bytes) ∧
        (r = b.bump LK_ETH_STATUS.CSUM_DROP port) ∧ (port < 4) ∧ (a.ethRuns port = true) ∧
        (b.frameFits port bytes.length = true) ∧ (f.tags ≤ 1) ∧
        (b.flag LK_ETH_CFG.PFC port = false ∨ f.type ≠ 0x8808 ∨ beNat (f.body.take 2) ≠ 0x0101) ∧
        (b.fabricOf port f = some d) ∧ (d.sound = false) ∧ (r.access.blocked = none)) ∧
    (∃ (s a : State) (t : Nat) (port : Nat) (bytes : List Byte) (found : Found) (f : FrameParts) (d : Datagram) (b r :
        State), s.runsAt t a ∧ (b = a.reading found 0 (0x9100 + port)) ∧ (f = frameParts bytes) ∧
        (r = b.bump LK_ETH_STATUS.NO_PEER port) ∧ (port < 4) ∧ (a.ethRuns port = true) ∧
        (b.frameFits port bytes.length = true) ∧ (f.tags ≤ 1) ∧
        (b.flag LK_ETH_CFG.PFC port = false ∨ f.type ≠ 0x8808 ∨ beNat (f.body.take 2) ≠ 0x0101) ∧
        (b.fabricOf port f = some d) ∧ (d.sound = true) ∧ (b.entryOf d.src.1 d.src.2 = none) ∧
        (r.access.blocked = none)) ∧
    (∃ (s a : State) (t : Nat) (port : Nat) (bytes : List Byte) (found : Found) (f : FrameParts) (d : Datagram) (e :
        Nat) (k : Packet) (b r : State), s.runsAt t a ∧ (b = a.reading found 0 (0x9100 + port)) ∧
        (f = frameParts bytes) ∧ (k = packetOf d.data) ∧ (r = (b.ackPackets e k.cls k.ack).takePacket port e k) ∧
        (port < 4) ∧ (a.ethRuns port = true) ∧ (b.frameFits port bytes.length = true) ∧ (f.tags ≤ 1) ∧
        (b.flag LK_ETH_CFG.PFC port = false ∨ f.type ≠ 0x8808 ∨ beNat (f.body.take 2) ≠ 0x0101) ∧
        (b.fabricOf port f = some d) ∧ (d.sound = true) ∧ (b.entryOf d.src.1 d.src.2 = some e) ∧
        (b.rd LK_EPEER_CFG.STATE e ≠ 2) ∧ (k.nak = false) ∧ (k.ackOnly = false) ∧ (r.access.blocked = none)) ∧
    (∃ (s a : State) (t : Nat) (port : Nat) (bytes : List Byte) (found : Found) (f : FrameParts) (b r : State),
        s.runsAt t a ∧ (b = a.reading found 0 (0x9100 + port)) ∧ (f = frameParts bytes) ∧
        (r = b.mgmtFrame port bytes) ∧ (port < 4) ∧ (a.ethRuns port = true) ∧ (b.frameFits port bytes.length = true) ∧
        (f.tags ≤ 1) ∧ (b.flag LK_ETH_CFG.PFC port = false ∨ f.type ≠ 0x8808 ∨ beNat (f.body.take 2) ≠ 0x0101) ∧
        (b.fabricOf port f = none) ∧ (r.access.blocked = none)) ∧
    (∃ (s a : State) (t : Nat) (peer cls : Nat) (b : State), s.runsAt t a ∧ (b = a.drainStream peer cls) ∧
        ((b.stream peer cls).unacked.isEmpty = false) ∧
        ((b.stream peer cls).progress + b.rd LK_ETH_CFG.RTO_US (b.rd LK_EPEER_CFG.PORT peer) * 1000 ≤ b.now)) ∧
    (∃ (s a : State) (t : Nat) (peer c : Nat), s.runsAt t a ∧ (c < 4) ∧ (a.peerUp peer = true) ∧
        ((a.stream peer c).unacked.isEmpty = false) ∧ ((a.stream peer c).progress + a.peerTicks ≤ a.now)) ∧
    (∃ (s a : State) (t : Nat) (agent peer : Nat) (v : Word), s.runsAt t a ∧ (peer < 4096) ∧
        (a.allows agent (LK_EPEER_CFG.VALID.off peer) true = true)) ∧
    (∃ (s a : State) (t : Nat) (agent port : Nat) (v : Word) (found : Found) (b r : State), s.runsAt t a ∧
        (b = (a.answer agent 0).reading found 0 (0x9100 + port)) ∧
        (r = (b.storeReg agent (LK_ETH_MTX_TAIL.TAIL.off port) v).mtxSend port) ∧ (port < 4) ∧
        (a.allows agent (LK_ETH_MTX_TAIL.TAIL.off port) true = true) ∧ (r.access.blocked = none)) ∧
    (∃ (s a : State) (t : Nat) (port : Nat) (up : Bool), s.runsAt t a ∧ (port < 4)) :=
  ⟨⟨(wEth), ((wEth).advance 0), 0, (3), ((wFrame.dropLast ++ [1])), (.none), (_), (((wEth.fabricOf 3 (frameParts
       (wFrame.dropLast ++ [1]))).getD ⟨(0, 0), (0, 0), 0, true, []⟩)), (_), (_), ⟨rfl, by decide +kernel⟩, rfl, rfl,
       rfl, by decide +kernel⟩,
   ⟨(wEth.wr LK_EPEER_CFG.VALID 0 0), ((wEth.wr LK_EPEER_CFG.VALID 0 0).advance 0), 0, (3), (wFrame), (.none), (_),
       (((wEth.fabricOf 3 (frameParts wFrame)).getD ⟨(0, 0), (0, 0), 0, true, []⟩)), (_), (_), ⟨rfl,
       by decide +kernel⟩, rfl, rfl, rfl, by decide +kernel⟩,
   ⟨(wEth), ((wEth).advance 0), 0, (3), (wFrame), (.none), (_), (((wEth.fabricOf 3 (frameParts wFrame)).getD ⟨(0, 0),
       (0, 0), 0, true, []⟩)), (0), (_), (_), (_), ⟨rfl, by decide +kernel⟩, rfl, rfl, rfl, rfl, by decide +kernel⟩,
   ⟨(wEth), ((wEth).advance 0), 0, (3), ((List.replicate 60 0)), (.none), (_), (_), (_), ⟨rfl, by decide +kernel⟩,
       rfl, rfl, rfl, by decide +kernel⟩,
   ⟨(State.reset.setStream 4095 3 ⟨1, 0, [⟨0, 0, 0, false, false, false, []⟩], 0, false, false, [], none⟩),
       ((State.reset.setStream 4095 3 ⟨1, 0, [⟨0, 0, 0, false, false, false, []⟩], 0, false, false, [], none⟩).advance
       4000000000000), 4000000000000, (4095), (3), (_), ⟨rfl, by decide +kernel⟩, rfl, by decide +kernel⟩,
   ⟨((wSet [(LK_EPEER_CFG.VALID, 4095, 1)]).setStream 4095 3 ⟨1, 0, [⟨0, 0, 0, false, false, false, []⟩], 0, false,
       false, [], none⟩), (((wSet [(LK_EPEER_CFG.VALID, 4095, 1)]).setStream 4095 3 ⟨1, 0, [⟨0, 0, 0, false, false,
       false, []⟩], 0, false, false, [], none⟩).advance 4000000000000), 4000000000000, (4095), (3), ⟨rfl,
       by decide +kernel⟩, by decide +kernel⟩,
   ⟨(State.reset), ((State.reset).advance 0), 0, (1), (4095), (1), ⟨rfl, by decide +kernel⟩, by decide +kernel⟩,
   ⟨(State.reset), ((State.reset).advance 0), 0, (1), (3), (0), (.none), (_), (_), ⟨rfl, by decide +kernel⟩, rfl, rfl,
       by decide +kernel⟩,
   ⟨(State.reset), ((State.reset).advance 0), 0, (3), (true), ⟨rfl, by decide +kernel⟩, by decide +kernel⟩⟩

theorem test_meets_save_completes :
    (∃ (s a : State) (t : Nat) (cause : Nat) (b : State), a = s.advance t ∧
        (b = if cause < 2 then a.openEvent 4 15 nobodys 0 (a.rd SLU_PKG_EXC.VIN_MV) true else a) ∧ (a.maySave = true)) ∧
    (∃ (s a : State) (t : Nat) (b : State), a = s.advance t ∧
        (b = { a.abandonStores with save := { a.abandonStores.save with phase := 2 } }) ∧ (a.save.phase = 1) ∧
        (a.save.began + 20000 ≤ a.now ∨ a.rd SLU_PKG_EXC.VIN_MV < 1200)) ∧
    (∃ (s a : State) (t : Nat) (b : State), a = s.advance t ∧
        (b = a.each a.saveSections fun s e => s.engWrite (keepBase + e.1) (wordBytes e.2)) ∧ (a.save.phase = 2)) ∧
    (∃ (s a : State) (t : Nat) , a = s.advance t ∧ (a.save.phase = 1 ∨ a.save.phase = 2)) ∧
    (∃ (s a : State) (t : Nat) , a = s.advance t ∧ (a.save.phase ≠ 1) ∧ (a.save.phase ≠ 2)) ∧
    (∃ (s a : State) (t : Nat) (mv : Nat), a = s.advance t) ∧
    (∃ (s a : State) (t : Nat) (temps : List Nat), a = s.advance t ∧ (a.edge 10000 = true) ∧ (a.inReset = false) ∧
        (a.save.phase = 0) ∧ (temps.any (fun x => decide (115 ≤ x)) = false)) ∧
    (∃ (s a : State) (t : Nat) (temps : List Nat), a = s.advance t ∧ (a.edge 10000 = true) ∧ (a.inReset = false) ∧
        (a.save.phase = 0) ∧ (temps.any (fun x => decide (115 ≤ x)) = true)) :=
  ⟨⟨(wSave), ((wSave).advance 0), 0, (1), (_), rfl, rfl, by decide +kernel⟩,
   ⟨({ State.reset with save := ⟨1, 0, 1, 0, 0, false, 0⟩ }),
       (({ State.reset with save := ⟨1, 0, 1, 0, 0, false, 0⟩ }).advance 20000), 20000, (_), rfl, rfl,
       by decide +kernel⟩,
   ⟨({ State.reset with save := ⟨2, 0, 1, 0, 0, false, 0⟩ }),
       (({ State.reset with save := ⟨2, 0, 1, 0, 0, false, 0⟩ }).advance 0), 0, (_), rfl, rfl, by decide +kernel⟩,
   ⟨({ State.reset with save := ⟨2, 0, 1, 0, 0, false, 0⟩ }),
       (({ State.reset with save := ⟨2, 0, 1, 0, 0, false, 0⟩ }).advance 0), 0, rfl, by decide +kernel⟩,
   ⟨(State.reset), ((State.reset).advance 0), 0, rfl, by decide +kernel⟩,
   ⟨(State.reset), ((State.reset).advance 0), 0, (9000), rfl⟩,
   ⟨(State.reset), ((State.reset).advance 0), 0, ([114]), rfl, by decide +kernel⟩,
   ⟨(State.reset), ((State.reset).advance 0), 0, ([115]), rfl, by decide +kernel⟩⟩

theorem test_meets_resets_complete :
    (∃ (s a : State) (t : Nat) (agent : Nat) (v : Word), s.runsAt t a ∧
        (a.allows agent (DBG_CTXRST.CONTEXT.off 0) true = true)) ∧
    (∃ (s a : State) (t : Nat) (r : CtxReq) (l : List CtxReq), s.runsAt t a ∧ (a.ctxReqs = r :: l) ∧
        (a.save.phase = 0)) ∧
    (∃ (s a : State) (t : Nat) (agent n : Nat) (v : Word), s.runsAt t a ∧ (n < 4) ∧
        (a.allows agent (DBG_FENCE_TC.FENCE.off n) true = true)) ∧
    (∃ (s a : State) (t : Nat) (agent : Nat) (v : Word), s.runsAt t a ∧
        (a.allows agent (DBG_FENCE_HC_0.FENCE.off 0) true = true)) ∧
    (∃ (s a : State) (t : Nat) (agent : Nat) (v : Word), s.runsAt t a ∧
        (a.allows agent (DBG_FENCE_HC_1.FENCE.off 0) true = true)) ∧
    (∃ (s a : State) (t : Nat) (agent : Nat) (v : Word), s.runsAt t a ∧
        (a.allows agent (DBG_HOSTDIE_RESET.GO.off 0) true = true) ∧ (DBG_HOSTDIE_RESET.GO.get v = 1)) ∧
    (∃ (s a : State) (t : Nat) (die agent : Nat), s.runsAt t a ∧ (die < 4) ∧
        (a.allows agent (DBG_TDIE_CTRL.RESET.off die) true = true)) ∧
    (∃ (s a : State) (t : Nat) (die agent : Nat), s.runsAt t a ∧ (die < 4)) ∧
    (∃ (s a : State) (t : Nat) (die : Nat), s.runsAt t a ∧ (die < 4) ∧ (a.dieState die = 1) ∧
        (Tab.get (fun _ => []) a.dieWaits die = [])) ∧
    (∃ (s a : State) (t : Nat) (die : Nat) (b : State), s.runsAt t a ∧
        (b = (a.clkBit SYS_CLK_STATUS.TDIE_LOCK die true).setDie die 3) ∧ (die < 4) ∧ (a.dieState die = 2)) ∧
    (∃ (s a : State) (t : Nat) (die : Nat), s.runsAt t a ∧ (die < 4) ∧ (a.dieState die = 2)) ∧
    (∃ (s a : State) (t : Nat) (agent die : Nat), s.runsAt t a ∧ (die < 4) ∧
        (a.allows agent (DBG_TDIE_CTRL.RESET.off die) true = true) ∧ (a.dieState die = 3)) :=
  ⟨⟨(State.reset), ((State.reset).advance 0), 0, (1), (9), ⟨rfl, by decide +kernel⟩, by decide +kernel⟩,
   ⟨({ State.reset with ctxReqs := [⟨9, 1, 0, [], []⟩] }),
       (({ State.reset with ctxReqs := [⟨9, 1, 0, [], []⟩] }).advance 0), 0, (⟨9, 1, 0, [], []⟩), ([]), ⟨rfl,
       by decide +kernel⟩, by decide +kernel⟩,
   ⟨(State.reset), ((State.reset).advance 0), 0, (1), (3), (1), ⟨rfl, by decide +kernel⟩, by decide +kernel⟩,
   ⟨(State.reset), ((State.reset).advance 0), 0, (1), (1), ⟨rfl, by decide +kernel⟩, by decide +kernel⟩,
   ⟨(State.reset), ((State.reset).advance 0), 0, (1), (1), ⟨rfl, by decide +kernel⟩, by decide +kernel⟩,
   ⟨(State.reset), ((State.reset).advance 0), 0, (1), (1), ⟨rfl, by decide +kernel⟩, by decide +kernel⟩,
   ⟨(State.reset), ((State.reset).advance 0), 0, (3), (1), ⟨rfl, by decide +kernel⟩, by decide +kernel⟩,
   ⟨(State.reset), ((State.reset).advance 0), 0, (3), (0), ⟨rfl, by decide +kernel⟩, by decide +kernel⟩,
   ⟨(wSet [(DBG_TDIE_STATUS.STATE, 3, 1)]), ((wSet [(DBG_TDIE_STATUS.STATE, 3, 1)]).advance 0), 0, (3), ⟨rfl,
       by decide +kernel⟩, by decide +kernel⟩,
   ⟨(wSet [(DBG_TDIE_STATUS.STATE, 3, 2)]), ((wSet [(DBG_TDIE_STATUS.STATE, 3, 2)]).advance 1000), 1000, (3), (_),
       ⟨rfl, by decide +kernel⟩, rfl, by decide +kernel⟩,
   ⟨(wSet [(DBG_TDIE_STATUS.STATE, 0, 2)]), ((wSet [(DBG_TDIE_STATUS.STATE, 0, 2)]).advance 0), 0, (0), ⟨rfl,
       by decide +kernel⟩, by decide +kernel⟩,
   ⟨(wSet [(DBG_TDIE_STATUS.STATE, 3, 3)]), ((wSet [(DBG_TDIE_STATUS.STATE, 3, 3)]).advance 0), 0, (1), (3), ⟨rfl,
       by decide +kernel⟩, by decide +kernel⟩⟩

theorem test_meets_trace_and_debug_complete :
    (∃ (s a : State) (t : Nat) (e : TraceRec) (r : List TraceRec), a = s.advance t ∧ (a.awake = true) ∧
        (a.offers = e :: r)) ∧
    (∃ (s a : State) (t : Nat) , a = s.advance t ∧ (a.awake = true) ∧ (a.edge 1000 = true)) ∧
    (∃ (s a : State) (t : Nat) (agent : Nat) (v : Word), a = s.advance t ∧ (a.awake = true) ∧
        (a.allows agent (TRC_MARK.VALUE.off 0) true = true)) ∧
    (∃ (s a : State) (t : Nat) , a = s.advance t ∧ (a.awake = true) ∧ (a.flag TRC_CFG.SAMPLE_EN = true) ∧
        (a.edge (1000 * a.rd TRC_CFG.SAMPLE_US) = true)) ∧
    (∃ (s a : State) (t : Nat) (agent : Nat) (bad : List Nat), a = s.advance t ∧ (a.awake = true) ∧
        (a.allows agent (DBG_SP_DATA.DATA.off 0) false = true)) ∧
    (∃ (s a : State) (t : Nat) (agent : Nat) (v : Word), a = s.advance t ∧ (a.awake = true) ∧
        (a.allows agent (DBG_HC_HALT_0.HALT.off 0) true = true)) ∧
    (∃ (s a : State) (t : Nat) (agent : Nat) (v : Word), a = s.advance t ∧ (a.awake = true) ∧
        (a.allows agent (DBG_HC_HALT_1.HALT.off 0) true = true)) ∧
    (∃ (s a : State) (t : Nat) (wr : Bool) (target : JtagTarget) (v : Word) (found : Found) (b r : State), a =
        s.advance t ∧ (b = a.reading found 0 2) ∧
        (r = ((b.jtagRecord wr target).jtagAccess wr target v).releaseSites) ∧ (a.awake = true) ∧
        (a.locked = false ∨ a.flag DBG_CFG.EXT_DEBUG = true) ∧ (r.access.blocked = none)) ∧
    (∃ (s a : State) (t : Nat) (index : Byte), a = s.advance t ∧ (a.i3cOn = true)) ∧
    (∃ (s a : State) (t : Nat) , a = s.advance t ∧ (a.i3cOn = true)) ∧
    (∃ (s a : State) (t : Nat) (addr : Nat), a = s.advance t ∧ (a.i3cOn = true)) :=
  ⟨⟨({ State.reset with offers := [⟨0, 9, 0, 1, 0xFFF, 0, 0, 7, 0⟩] }),
       (({ State.reset with offers := [⟨0, 9, 0, 1, 0xFFF, 0, 0, 7, 0⟩] }).advance 0), 0, (⟨0, 9, 0, 1, 0xFFF, 0, 0,
       7, 0⟩), ([]), rfl, by decide +kernel⟩,
   ⟨({ State.reset with overWin := true }), (({ State.reset with overWin := true }).advance 0), 0, rfl,
       by decide +kernel⟩,
   ⟨(State.reset), ((State.reset).advance 0), 0, (1), (5), rfl, by decide +kernel⟩,
   ⟨(wSet [(TRC_CFG.SAMPLE_EN, 0, 1)]), ((wSet [(TRC_CFG.SAMPLE_EN, 0, 1)]).advance 0), 0, rfl, by decide +kernel⟩,
   ⟨(State.reset), ((State.reset).advance 0), 0, (1), ([3]), rfl, by decide +kernel⟩,
   ⟨(State.reset), ((State.reset).advance 0), 0, (1), (1), rfl, by decide +kernel⟩,
   ⟨(State.reset), ((State.reset).advance 0), 0, (1), (1), rfl, by decide +kernel⟩,
   ⟨(State.reset), ((State.reset).advance 0), 0, (true), (.address 0), (1), (.none), (_), (_), rfl, rfl, rfl,
       by decide +kernel⟩,
   ⟨(State.reset), ((State.reset).advance 200000), 200000, (255), rfl, by decide +kernel⟩,
   ⟨(State.reset), ((State.reset).advance 200000), 200000, rfl, by decide +kernel⟩,
   ⟨(State.reset), ((State.reset).advance 200000), 200000, (127), rfl, by decide +kernel⟩⟩

/-! ### Well-formedness: each check refuses a term that it should, and lets terms at its boundary pass -/

theorem test_ill_formed_0 : ([
    .hbmTrainingTimeout 0 12, .sysProtLock 0 0 0, .sysProtLock 0 65535 0, .d2dParityError 0 12,
    .d2dResentTransfer 0 12 1 0 .answer true, .d2dResentTransfer 0 0 1 (2 ^ 52) .answer true, .sitePowerWindow 0 2 0,
    .ringEnable 0 0 0 0, .ringEnable 0 65535 0 0, .ringEnable 0 1 21 0, .hostCoreLoad 0 96 0 8 0 .plain .none,
    .hostCoreLoad 0 0 0 0 0 .plain .none, .hostCoreLoad 0 0 0 65 0 .plain .none, .hostCoreLoad 0 0 (2 ^ 52) 8 0 .plain .none, .hostCoreLoad 0 0 0 8 4096 .plain .none,
    .storeAck 0 96 0 .ok .none, .tlbInvalidation 0 96 0, .tlbInvalidation 0 0 4096, .l2Eviction 0 96 0 true,
    .l2Eviction 0 0 (2 ^ 46) true, .coherentRead 0 0 0 .none, .coherentRead 0 65535 0 .none,
    .coherentRead 0 1 (2 ^ 46) .none, .invalidation 0 12, .launch 0 16384 0 .none, .programLoadDone 0 52 .none,
    .programLoadDone 0 256 .none, .copyFault 0 52 0 0 0 0, .copyFault 0 256 0 0 0 0, .copyFault 0 0 0 0 0 (2 ^ 64),
    .queueEnable 0 0 0 0, .queueEnable 0 65535 0 0, .queueEnable 0 1 16384 0, .walkAhead 0 16384 0 .none,
    .walkAhead 0 0 (2 ^ 64) .none, .trCtxWrite 0 0 0 0, .trCtxWrite 0 65535 0 0, .trCtxWrite 0 1 4096 0,
    .continuationRecord 0 1024, .syAdd 0 0 0 0, .syAdd 0 65535 0 0] : List Instr).all (fun i => !i.wf) = true := by
  decide +kernel

theorem test_ill_formed_1 : ([
    .syAdd 0 1 8192 0, .syEventRead 0 0 0, .syEventRead 0 65535 0, .syEventRead 0 1 96, .mbLock 0 0 0,
    .mbLock 0 65535 0, .mbLock 0 1 64, .mailboxTimeout 0 64, .iadd32 0 0 ⟨.scalar, 0, false, 0, 0, 0, 0, .none, none⟩,
    .iadd32 0 65535 ⟨.scalar, 0, false, 0, 0, 0, 0, .none, none⟩, .iadd32 0 1 ⟨.scalar, 2 ^ 52, false, 0, 0, 0, 0, .none, none⟩,
    .lineStoreWriteback 0 (2 ^ 46), .retrain 0 384 0 1, .retrain 0 0 5 1, .retrainDone 0 384, .retire 0 384 0 1,
    .cxlLinkRecovery 0 8, .tierObjCfg 0 0 0 0, .tierObjCfg 0 65535 0 0, .tierObjCfg 0 1 65536 0,
    .migrationCheck 0 65536 .none, .rillEnable 0 0 0 0, .rillEnable 0 65535 0 0, .rillEnable 0 1 64 0,
    .ceEpochCfg 0 0 0 0, .ceEpochCfg 0 65535 0 0, .ceEpochCfg 0 1 16 0, .epochCheckDone 0 16 .none, .collResend 0 2,
    .flitSend 0 24, .flitReceive 0 23 [] 0 false, .write 0 0x9018 .none, .write 0 0x9104 .none, .linkEnable 0 0 0 0, .linkEnable 0 65535 0 0,
    .linkEnable 0 1 24 0, .linkRetrain 0 24 0 1, .peerTimeout 0 65536, .windowValid 0 0 0 0,
    .windowValid 0 65535 0 0, .windowValid 0 1 256 0] : List Instr).all (fun i => !i.wf) = true := by
  decide +kernel

theorem test_ill_formed_2 : ([
    .linkRejoin 0 256 0, .linkRejoin 0 0 24, .fabricPacket 0 4 [] .none, .rtoResend 0 4096 0, .rtoResend 0 0 4,
    .epeerDown 0 4096, .epeerValid 0 0 0 0, .epeerValid 0 65535 0 0, .epeerValid 0 1 4096 0, .mtxTail 0 0 0 0 .none,
    .mtxTail 0 65535 0 0 .none, .mtxTail 0 1 4 0 .none, .dutyRamp 0 4, .saveStart 0 2, .tcFence 0 0 0 0, .tcFence 0 65535 0 0,
    .tcFence 0 1 4 0, .hcFence 0 0 0 0, .hcFence 0 65535 0 0, .hcFence 0 1 2 0, .cofferdam 0 0 true 0,
    .cofferdam 0 0 true 65535, .cofferdam 0 4 true 1, .readmit 0 0 0, .readmit 0 65535 0, .readmit 0 1 4,
    .hubControlError 0 2, .customerDieRequest 0 0 0 0 0 0 true 0 .none, .customerDieRequest 0 0 0 0 0 65 true 0 .none,
    .customerDieRequest 0 2 0 0 0 8 true 0 .none, .customerDieRequest 0 0 16 0 0 8 true 0 .none,
    .customerDieRequest 0 0 0 0 (2 ^ 52) 8 true 0 .none, .i3cDynamicAddress 0 128, .customerDieRequest 0 0 0 4 0 8 true 0 .none, .thermalSample 0 [0, 0, 0, 0, 0, 0, 0],
    .retrain 0 0 3 0, .retire 0 0 2 0, .linkRetrain 0 0 3 0, .cofferdam 0 0 true 0] : List Instr).all (fun i => !i.wf) = true := by
  decide +kernel

theorem test_well_formed : ([
    .hbmTrainingTimeout 0 0, .sysProtLock 0 1 0, .d2dParityError 0 0, .d2dResentTransfer 0 0 1 0 .answer true,
    .sitePowerWindow 0 0 0, .ringEnable 0 1 0 0, .hostCoreLoad 0 0 0 8 0 .plain .none, .storeAck 0 0 0 .ok .none,
    .tlbInvalidation 0 0 0, .l2Eviction 0 0 0 true, .coherentRead 0 1 0 .none, .invalidation 0 0, .launch 0 0 0 .none,
    .programLoadDone 0 0 .none, .copyFault 0 0 0 0 0 0, .queueEnable 0 1 0 0, .walkAhead 0 0 0 .none, .trCtxWrite 0 1 0 0,
    .continuationRecord 0 0, .syAdd 0 1 0 0, .syEventRead 0 1 0, .mbLock 0 1 0, .mailboxTimeout 0 0,
    .iadd32 0 1 ⟨.scalar, 0, false, 0, 0, 0, 0, .none, none⟩, .lineStoreWriteback 0 0, .retrain 0 0 0 1, .retrainDone 0 0,
    .retire 0 0 0 1, .cxlLinkRecovery 0 0, .tierObjCfg 0 1 0 0, .migrationCheck 0 0 .none, .rillEnable 0 1 0 0,
    .ceEpochCfg 0 1 0 0, .epochCheckDone 0 0 .none, .collResend 0 0, .flitSend 0 0, .flitReceive 0 23 (List.replicate 32 0) 0 false, .write 0 0x9017 .none, .linkEnable 0 1 0 0,
    .linkRetrain 0 0 0 1, .peerTimeout 0 0, .windowValid 0 1 0 0, .linkRejoin 0 0 0, .fabricPacket 0 0 [] .none,
    .rtoResend 0 0 0, .epeerDown 0 0, .epeerValid 0 1 0 0, .mtxTail 0 1 0 0 .none, .dutyRamp 0 0,
    .thermalSample 0 [0, 0, 0, 0, 0, 0, 0, 0], .saveStart 0 0, .tcFence 0 1 0 0, .hcFence 0 1 0 0,
    .cofferdam 0 0 true 1, .readmit 0 1 0, .hubControlError 0 0, .customerDieRequest 0 0 0 0 0 8 true 0 .none,
    .i3cDynamicAddress 0 0] : List Instr).all Instr.wf = true := by
  decide +kernel

/-! ### Single steps and values that the manual gives -/

/-- R246: an ADD wraps modulo 2^64. -/
theorem test_sync_add_wraps :
    (match exec (.syAdd 0 1 5 2) (State.reset.setReg (SY_VAL.VALUE.off 5) 0xFFFFFFFFFFFFFFFF) with
      | .next s => s.reg (SY_VAL.VALUE.off 5)
      | _ => 7) = 1 := by decide +kernel

/-- R262: a FREE mailbox is locked by the agent that reads MB_LOCK, which reads 0. -/
theorem test_mailbox_lock :
    (match exec (.mbLock 0 1 63) State.reset with
      | .next s => (s.mbState 63, s.mbOwner 63, s.reply.value)
      | _ => (9, 9, 9)) = (1, 1, 0) := by decide +kernel

/-- R68: the second agent to read TXN_BEGIN reads the number of the first. -/
theorem test_txn_begin_second :
    (match exec (.txnBegin 0 2) (wSet [(SYS_PROT_LOCK.LOCK, 0, 1), (TXN_STATUS.STATE, 0, 1), (TXN_STATUS.OWNER, 0, 4)]) with
      | .next s => s.reply.value
      | _ => 99) = 4 := by decide +kernel

/-- R270 and the example of R293: PA 0x4000_5000 lies in channel 367 at local granule 682. -/
theorem test_interleave : channelOf (0x40005000 / 4096) = (367, 682) := by decide +kernel

/-- The example of R293: after the loss and repair of channel 367, that line is performed by channel 299. -/
theorem test_repaired_channel :
    State.chanOf { State.reset with repairs := [⟨367, 520192, 0, false, true⟩] } 0x40005000 = 299 := by decide +kernel

/-- The example of R124: 2^24 + 1 ties to even in FP32, so the sum depends on the order. -/
theorem test_fadd_order :
    Fmt.fp32.addCodes (Fmt.fp32.addCodes (Fmt.fp32.addCodes 0x4B800000 0x3F800000) 0x3F800000) 0xCB800000 = 0 ∧
    Fmt.fp32.addCodes (Fmt.fp32.addCodes (Fmt.fp32.addCodes 0x3F800000 0x3F800000) 0x4B800000) 0xCB800000 =
      0x40000000 := by decide +kernel

/-- The example of R124: the exact cell after the four contributions, and what it settles to. -/
theorem test_ea_cell :
    ([0x4B800000, 0x3F800000, 0x3F800000, 0xCB800000].foldl (fun c x => cellAdd c (Fmt.fp32.decode x)) 0 : Line).toNat =
        0x2000000 * 2 ^ 128 + 4 * 2 ^ 320 ∧
      settle ([0x4B800000, 0x3F800000, 0x3F800000, 0xCB800000].foldl (fun c x => cellAdd c (Fmt.fp32.decode x)) 0) .fp32 =
        0x40000000 := by decide +kernel

/-- The example of R108: 16,777,217.875 rounds to 16,777,218 in FP32. -/
theorem test_round_total : Fmt.fp32.rne (.fin false 134217743 (-3)) = 0x4B800001 := by decide +kernel

/-- R158: AOP of FN 0 adds modulo 2^64; here A31 = A16 + A17. -/
theorem test_aop_add :
    (match exec (.aop 0 0 0xFC220000000000) (wTile 0x40 0xFC220000000000 fun k => k) with
      | .next s => s.rd TC_PC.PC 0
      | _ => 99) = 0 := by decide +kernel

/-- R484: a package reset is not started by a pulse of RST_N shorter than 1 µs. -/
theorem test_short_reset :
    (match exec (.packageReset 1 (.rstN 999)) (wSet [(SYS_PROT_LOCK.LOCK, 0, 1)]) with
      | .next s => s.locked
      | _ => false) = true := by decide +kernel

/-- R46, R57: a host core's access beyond the physical map is a hole, which nothing admits. -/
theorem test_hole : wOpen.admits 0x100 false 0xC000000000 8 = false ∧ wOpen.admits 1 false 0xBE80000000 8 = false := by
  decide +kernel

/-- No row of the table gives bits, so no word spells a command. -/
theorem test_decode_none : decodeTableWord 64 0 = none ∧ State.reset.withFetchWord 64 0 = State.reset := ⟨rfl, rfl⟩

end Sys2Proof.Tests
end

/-! Writes under SYS_PROT_LOCK (R14, R445). A register of the tables that holds an RWL field holds nothing else,
and the report of R60 goes to registers without RWL fields, so a store leaves the whole word of such a register as it
was. -/

namespace Sys2Proof.Machine

/-! ### The tables -/

/-- The registers of a block are those of one entry of the table of blocks. -/
theorem exists_mem_of_blockRegs {bs : List (Nat × Nat × List Reg)} {off : Nat} {rs : List Reg}
    (h : blockRegs bs off = some rs) : ∃ b ∈ bs, b.2.2 = rs := by
  induction bs with
  | nil => simp [blockRegs] at h
  | cons b bs ih =>
    obtain ⟨lo, hi, regs⟩ := b
    rw [blockRegs] at h
    split at h
    · exact ⟨_, List.mem_cons_self, Option.some.inj h⟩
    · obtain ⟨b, hb, hrs⟩ := ih h
      exact ⟨b, List.mem_cons_of_mem _ hb, hrs⟩

/-- A register that lies at an offset is a row of some block's table. -/
theorem exists_block_of_regAt {off : Nat} {r : Reg} (h : regAt off = some r) : ∃ b ∈ regBlocks, r ∈ b.2.2 := by
  unfold regAt at h
  split at h
  next => cases h
  next rs hrs =>
    obtain ⟨b, hb, rfl⟩ := exists_mem_of_blockRegs hrs
    exact ⟨b, hb, List.mem_of_find?_eq_some h⟩

/-- No row of the tables mixes RWL fields with fields of another access. -/
theorem regBlocks_rwl_uniform : ∀ b ∈ regBlocks, ∀ r ∈ b.2.2,
    (∃ f ∈ r.fields, f.acc = .rwl) → ∀ g ∈ r.fields, g.acc = .rwl := by
  decide

theorem regAt_rwl_uniform {off : Nat} {r : Reg} {f : RField} (hr : regAt off = some r) (hf : f ∈ r.fields)
    (hrwl : f.acc = .rwl) : ∀ g ∈ r.fields, g.acc = .rwl := by
  obtain ⟨b, hb, hmem⟩ := exists_block_of_regAt hr
  exact regBlocks_rwl_uniform b hb r hmem ⟨f, hf, hrwl⟩

/-- Neither register that the report of R60 and R61 changes, SYS_REG_STATUS and SYS_REG_LAST_ADDR, has an RWL field. -/
theorem report_regs_not_rwl : ∀ o ∈ [0x120, 0x128], ∀ r ∈ regAt o, ∀ f ∈ r.fields, f.acc ≠ .rwl := by
  decide

theorem ne_report_regs_of_rwl {off : Nat} {r : Reg} {f : RField} (hr : regAt off = some r) (hf : f ∈ r.fields)
    (hrwl : f.acc = .rwl) : off ≠ 0x120 ∧ off ≠ 0x128 := by
  constructor
  all_goals
    rintro rfl
    exact report_regs_not_rwl _ (by simp) r hr f hf hrwl

/-! ### A locked register written, and the report -/

theorem RField.write_locked_word {f : RField} (h : f.acc = .rwl) (frozen seen new : Word) (a : Written) :
    (f.write true frozen seen new a).word = a.word := by
  simp [RField.write, h]

theorem Reg.write_locked_word {r : Reg} (h : ∀ f ∈ r.fields, f.acc = .rwl) (frozen stored seen new : Word) :
    (r.write true frozen stored seen new).word = stored :=
  List.foldlRecOn (motive := fun a : Written => a.word = stored) r.fields _ rfl
    fun a ha f hf => (RField.write_locked_word (h f hf) frozen seen new a).trans ha

/-- A report changes SYS_REG_STATUS and SYS_REG_LAST_ADDR and no other register. -/
theorem State.reg_report_other (s : State) (agent off : Nat) (ignored bad : Bool) {o : Nat} (h0 : o ≠ 0x120)
    (h1 : o ≠ 0x128) : (s.report agent off ignored bad).reg o = s.reg o := by
  have hign (s : State) : (s.wr SYS_REG_STATUS.IGNORED_WRITE 0 1).reg o = s.reg o := State.reg_wr_other s _ _ _ _ h0
  have hbad (s : State) : (s.wr SYS_REG_STATUS.BAD_CODE 0 1).reg o = s.reg o := State.reg_wr_other s _ _ _ _ h0
  have hcount (s : State) : (s.bump SYS_REG_STATUS.COUNT 0).reg o = s.reg o := State.reg_wr_other s _ _ _ _ h0
  unfold State.report
  split
  · rw [State.reg_setReg_other _ _ h1, hcount]
    cases ignored <;> cases bad <;> simp [hign, hbad]
  · rfl

/-- Under the lock, a store leaves the whole word of a register that holds an RWL field as it was, inside and outside
a transaction. -/
theorem State.reg_storeReg_locked {s : State} (hlock : s.locked = true) {off : Nat} {r : Reg} {f : RField}
    (hr : regAt off = some r) (hf : f ∈ r.fields) (hrwl : f.acc = .rwl) (agent : Nat) (v : Word) (inTxn : Bool) :
    (s.storeReg agent off v inTxn).reg off = s.reg off := by
  have hword : (s.written off v inTxn).word = s.reg off := by
    simp only [State.written, hr, hlock]
    exact Reg.write_locked_word (regAt_rwl_uniform hr hf hrwl) _ _ _ _
  obtain ⟨h0, h1⟩ := ne_report_regs_of_rwl hr hf hrwl
  rw [State.storeReg, State.reg_report_other _ _ _ _ _ h0 h1, State.reg_setReg_same, hword]

/-- Settles O27: the store leaves the whole word of the register as it was. -/
theorem lockedFieldsKeepTheirValues : Obligations.LockedFieldsKeepTheirValues := by
  unfold Obligations.LockedFieldsKeepTheirValues
  intro s agent off v r f hlock hr hf hrwl
  rw [State.reg_storeReg_locked hlock hr hf hrwl]

end Sys2Proof.Machine

/-! The timebase between two moments of the clock (R28, R33). After a move of the clock fewer than 64 ticks wait since
the last correction, so the next move, whatever is left to correct, makes no more corrections than ticks pass. -/

namespace Sys2Proof.Machine

theorem State.advance_now (s : State) (t : Nat) : (s.advance t).now = max s.now t := rfl

theorem State.advance_tbAdj (s : State) (t : Nat) :
    (s.advance t).tbAdj = s.tbAdj + slewDue s (s.slew + (rateDue s (max s.now t)).1) (max s.now t) := rfl

/-- Log entry 17: at most one correction falls in any 64 ticks since the last. -/
theorem slewDue_natAbs_le (s : State) (left : Int) (n : Nat) : (slewDue s left n).natAbs ≤ (n - s.slewAt) / 64 := by
  simp only [slewDue]
  split <;> omega

/-- The tick up to which a slew counts stays less than 64 ticks behind the clock. -/
theorem State.now_sub_slewAt_advance_lt (s : State) (t : Nat) : (s.advance t).now - (s.advance t).slewAt < 64 := by
  simp only [State.advance]
  split <;> omega

/-- From one move of the clock to the next, the correction changes by at most the ticks that pass. -/
theorem State.tbAdj_moves_le (s : State) (t u : Nat) :
    (((s.advance t).advance u).tbAdj - (s.advance t).tbAdj).natAbs ≤ ((s.advance t).advance u).now - (s.advance t).now := by
  generalize hb : s.advance t = b
  have hwait : b.now - b.slewAt < 64 := hb ▸ s.now_sub_slewAt_advance_lt t
  rw [State.advance_tbAdj, State.advance_now]
  have hdue := slewDue_natAbs_le b (b.slew + (rateDue b (max b.now u)).1) (max b.now u)
  omega

/-- Settles O13: a slew corrects by no more than the ticks that pass. -/
theorem timebaseNeverDecreases : Obligations.TimebaseNeverDecreases := by
  unfold Obligations.TimebaseNeverDecreases
  rintro s _ _ t u rfl rfl
  have hmoves := s.tbAdj_moves_le t u
  have hnow : (s.advance t).now ≤ ((s.advance t).advance u).now := le_max_left _ _
  omega

end Sys2Proof.Machine

/-! What reset leaves (R126, R190, R245, R261, R352, R388, R445). No register is listed at reset, so each reads as the
reset word of its row of the tables. -/

namespace Sys2Proof.Machine

/-- The blocks of the register space are apart, so an offset inside one of them finds that one's rows. -/
theorem blockRegs_eq_some {bs : List (Nat × Nat × List Reg)} {lo hi off : Nat} {rs : List Reg}
    (hapart : bs.Pairwise fun b c => b.2.1 ≤ c.1) (hmem : (lo, hi, rs) ∈ bs) (hlo : lo ≤ off) (hhi : off < hi) :
    blockRegs bs off = some rs := by
  induction bs with
  | nil => cases hmem
  | cons b bs ih =>
    obtain ⟨blo, bhi, brs⟩ := b
    rw [List.pairwise_cons] at hapart
    rcases List.mem_cons.mp hmem with heq | htail
    · cases heq
      rw [blockRegs, if_pos ⟨hlo, hhi⟩]
    · have hbefore : bhi ≤ lo := hapart.1 _ htail
      rw [blockRegs, if_neg (by omega), ih hapart.2 htail]

theorem regBlocks_apart : regBlocks.Pairwise fun b c => b.2.1 ≤ c.1 := by decide

/-- What the word 0 and every row of a block that lies at an offset have, the word at that offset has at reset. -/
theorem State.reg_reset_of_rows {off lo hi : Nat} {rs : List Reg} (P : Word → Prop)
    (hmem : (lo, hi, rs) ∈ regBlocks) (hlo : lo ≤ off) (hhi : off < hi) (hzero : P 0)
    (hrows : ∀ r ∈ rs, r.has off = true → P r.resetWord) : P (State.reset.reg off) := by
  have hreg : State.reset.reg off = regReset off := rfl
  rw [hreg, regReset, regAt, blockRegs_eq_some regBlocks_apart hmem hlo hhi]
  dsimp only
  split
  next => exact hzero
  next r hfind => exact hrows r (List.mem_of_find?_eq_some hfind) (by simpa using List.find?_some hfind)

/-- A field that every row of its block resets to 0 reads 0 at reset. -/
theorem State.rd_reset_eq_zero {f : Fld} {i lo hi : Nat} {rs : List Reg} (hmem : (lo, hi, rs) ∈ regBlocks)
    (hlo : lo ≤ f.off i) (hhi : f.off i < hi) (hrows : ∀ r ∈ rs, f.get r.resetWord = 0) : State.reset.rd f i = 0 :=
  State.reg_reset_of_rows (fun v => f.get v = 0) hmem hlo hhi (by simp [Fld.get]) fun r hr _ => hrows r hr

/-! ### The blocks of queues, objects, mailboxes and channels -/

theorem reset_queue_enable {q : Nat} (hq : q < 16384) : State.reset.rd QE_Q_CFG.ENABLE q = 0 :=
  have hoff : QE_Q_CFG.ENABLE.off q = 0x5000008 + 0x40 * q := rfl
  State.rd_reset_eq_zero (lo := 0x5000000) (hi := 0x6000000) (rs := regsQE) (by simp [regBlocks]) (by omega) (by omega)
    (by decide)

theorem reset_trigger_arm {o : Nat} (ho : o < 8192) : State.reset.rd SY_TRIG_CFG.ARM o = 0 :=
  have hoff : SY_TRIG_CFG.ARM.off o = 0x8000018 + 0x40 * o := rfl
  State.rd_reset_eq_zero (lo := 0x8000000) (hi := 0x9000000) (rs := regsSY) (by simp [regBlocks]) (by omega) (by omega)
    (by decide)

theorem reset_mailbox_state {m : Nat} (hm : m < 64) : State.reset.rd MB_STATUS.STATE m = 0 :=
  have hoff : MB_STATUS.STATE.off m = 0x9000030 + 0x100 * m := rfl
  State.rd_reset_eq_zero (lo := 0x9000000) (hi := 0xa000000) (rs := regsMB) (by simp [regBlocks]) (by omega) (by omega)
    (by decide)

theorem reset_channel_state {c : Nat} (hc : c < 384) : State.reset.rd HM_CH_STATUS.STATE c = 0 :=
  have hoff : HM_CH_STATUS.STATE.off c = 0x20000000 + 0x40 * c := rfl
  State.rd_reset_eq_zero (lo := 0x20000000) (hi := 0x21000000) (rs := regsHM) (by simp [regBlocks]) (by omega) (by omega)
    (by decide)

/-- The rows of the objects' block that do not reset to 0 lie beside the first word of an object. -/
theorem regsSY_nonzero_beside_value : ∀ r ∈ regsSY, r.resetWord ≠ 0 →
    r.stride = 0x40 ∧ 0x8000000 ≤ r.base ∧ r.base % 0x40 ≠ 0 := by
  decide

theorem reset_object_value {o : Nat} (ho : o < 8192) : State.reset.reg (SY_VAL.VALUE.off o) = 0 := by
  have hoff : SY_VAL.VALUE.off o = 0x8000000 + 0x40 * o := rfl
  refine State.reg_reset_of_rows (fun v => v = 0) (lo := 0x8000000) (hi := 0x9000000) (rs := regsSY) (by simp [regBlocks])
    (by omega) (by omega) rfl fun r hr hhas => ?_
  by_contra hne
  obtain ⟨hstride, hbase, hbeside⟩ := regsSY_nonzero_beside_value r hr hne
  have hresidue : (SY_VAL.VALUE.off o - r.base) % 0x40 = 0 ∧ r.base ≤ SY_VAL.VALUE.off o := by
    simp [Reg.has, hstride] at hhas
    exact ⟨hhas.2.1, hhas.1⟩
  omega

/-! ### The links and the host cores -/

theorem reset_link_state (l : Nat) : State.reset.linkState l = 0 := by
  have hlinks : ∀ l < 24, State.reset.rd LK_LINK_STATUS.STATE l = 0 := by decide
  unfold State.linkState
  split
  next hl => exact hlinks l hl
  next => rfl

theorem reset_host_strict : ∀ c < 96, State.reset.flag HC_STRICT.STRICT c = true := by decide

/-- Settles O2: the records of the units are empty lists at reset, and the registers have the words of the tables. -/
theorem resetValues : Obligations.ResetValues := by
  unfold Obligations.ResetValues
  refine ⟨rfl, by decide, rfl, by decide, rfl, rfl, rfl, fun c hc => ⟨rfl, reset_host_strict c hc⟩,
    fun c => ⟨rfl, fun x => ?address⟩, fun q hq => ⟨?enable, rfl⟩, fun o ho => ⟨reset_object_value ho, ?arm⟩,
    fun m hm => ⟨reset_mailbox_state hm, rfl, rfl⟩, fun l _ => reset_link_state l, fun c hc => reset_channel_state hc⟩
  case address => simp [State.core, State.reset, Tab.get, coreInit, Core.ar]
  case enable => simp [State.flag, reset_queue_enable hq]
  case arm => simp [State.flag, reset_trigger_arm ho]

end Sys2Proof.Machine

/-! Resets, boot and losses of clocks (R25, R446, R481, R484, R490, R531): each clause is one branch of its command's
effect. -/

namespace Sys2Proof.Machine

/-- A command that runs answers its effect on the state at its tick. -/
theorem State.live_next {s a b : State} {t : Nat} {f : State → State} (hruns : s.runsAt t a) (heffect : f a = b) :
    s.live t f = .next b := by
  obtain ⟨rfl, hawake⟩ := hruns
  rw [State.live_awake s t f hawake, heffect]

/-- A reset that is not the loss of a hub waits for a save that runs (R481). -/
theorem execPackageReset_due (s : State) (t : Nat) {src : ResetSource} (hstarts : startsReset src = true)
    (hhub : src ≠ .hubLoss) : execPackageReset t src s = .next (s.advance t).resetDue := by
  cases src with
  | hubLoss => exact absurd rfl hhub
  | rstN ns => simp only [execPackageReset, if_pos hstarts]
  | pwrGood ns => simp only [execPackageReset, if_pos hstarts]
  | pllLoss => rfl

/-- A loss among those of the hubs and the timebase resets the package at once (R25, R484). -/
theorem execPllLockLoss_ofPackage (s : State) (t : Nat) {l : List Pll} (hpackage : l.any Pll.ofPackage = true)
    (hout : (s.advance t).inReset = false) : execPllLockLoss t l s = .next (s.advance t).packageReset := by
  simp only [execPllLockLoss, hpackage, hout, if_true, Bool.false_eq_true, if_false]

theorem execPllLockLoss_refclk (s : State) (t : Nat) {l : List Pll} (hpackage : l.any Pll.ofPackage = false)
    (href : l.contains .refclk = true) : execPllLockLoss t l s = .next (s.advance t).resetDue := by
  simp only [execPllLockLoss, hpackage, href, if_true, Bool.false_eq_true, if_false]

theorem execPllLockLoss_units (s : State) (t : Nat) {l : List Pll} (hpackage : l.any Pll.ofPackage = false)
    (href : l.contains .refclk = false) (hawake : (s.advance t).awake = true) :
    execPllLockLoss t l s = .next ((s.advance t).losePlls l) := by
  simp only [execPllLockLoss, hpackage, href, hawake, if_true, Bool.false_eq_true, if_false]

/-- Settles O30: the resets by their sources, the losses of PLLs by their kinds, the others by what their command asks. -/
theorem packageResetAndBootComplete : Obligations.PackageResetAndBootComplete := by
  unfold Obligations.PackageResetAndBootComplete
  rintro s a t rfl
  refine ⟨fun src => execPackageReset_due s t, rfl, ?boot, ?training, ?bringup, fun l => execPllLockLoss_ofPackage s t,
    fun l => execPllLockLoss_refclk s t, fun l => execPllLockLoss_units s t, ?relocked, ?lost, ?hub, rfl, rfl⟩
  case boot =>
    intro env hawake hmay
    show execBoot t env s = _
    exact State.live_next ⟨rfl, hawake⟩ (if_pos hmay)
  case training =>
    intro stack hawake hmay hstack hdue
    show execHbmTrainingTimeout t stack s = _
    exact State.live_next ⟨rfl, hawake⟩ (if_pos (by simp [hmay, hstack, hdue]))
  case bringup =>
    intro since left hawake hsince hdue
    show execBringupTimeout t s = _
    exact State.live_next ⟨rfl, hawake⟩ (by simp only [hsince, if_pos hdue])
  case relocked =>
    intro stack hawake hheld
    show execMclkRelock t stack true s = _
    exact State.live_next ⟨rfl, hawake⟩ (by simp only [if_neg hheld, if_true])
  case lost =>
    intro stack hawake hheld
    show execMclkRelock t stack false s = _
    exact State.live_next ⟨rfl, hawake⟩ (by simp only [if_neg hheld, Bool.false_eq_true, if_false])
  case hub =>
    intro hub hawake
    show execHubControlError t hub s = _
    exact State.live_next ⟨rfl, hawake⟩ rfl

end Sys2Proof.Machine

/-! Die-to-die ports, customer sites and the timebase (R21, R31, R33, R36, R43, R44, R46, R442). -/

namespace Sys2Proof.Machine

/-- A write that is admitted is answered and stored. -/
theorem execSysTbCfgWrite_next {s a : State} {t agent : Nat} {v : Word} (hruns : s.runsAt t a)
    (hallows : a.allows agent (SYS_TB_CFG.ENABLE.off 0) true = true) :
    execSysTbCfgWrite t agent v s = .next ((a.answer agent 0).tbStore agent v) :=
  State.live_next hruns (State.gate_allows _ _ _ _ _ hallows)

/-- The draw of a site's window above 40 W throttles the site (R43). -/
theorem execSitePowerWindow_over {s a b : State} {t site mean : Nat} (hruns : s.runsAt t a) (hsite : site < 2)
    (hover : 4000 < mean) (hb : b = a.wr SYS_CDS_STATUS_n.POWER site (min mean 65535)) :
    execSitePowerWindow t site mean s = .next ((State.wr
      { b with siteThrottle := Tab.put (fun _ => 0) b.siteThrottle site (Tab.get (fun _ => 0) b.siteThrottle site + 1) }
      SYS_CDS_STATUS_n.OVER site 1).openEvent 2 (sitePolder site) nobodys 0 40 true) := by
  subst hb
  exact State.live_next hruns (by simp only [Nat.not_le.mpr hsite, if_false, hover, if_true])

/-- At or below 40 W, the site's event ends if its polder has no cap (R43). -/
theorem execSitePowerWindow_within {s a b : State} {t site mean : Nat} (hruns : s.runsAt t a) (hsite : site < 2)
    (hwithin : mean ≤ 4000) (hb : b = a.wr SYS_CDS_STATUS_n.POWER site (min mean 65535)) :
    execSitePowerWindow t site mean s =
      .next (if b.cap (sitePolder site) = 0 then (b.endAct 2 (sitePolder site)).closeEvents else b) := by
  subst hb
  exact State.live_next hruns (by simp only [Nat.not_le.mpr hsite, if_false, Nat.not_lt.mpr hwithin])

/-- A request that the site's descriptor allows is held until the lock is set, and performed after (R39, R442). -/
theorem execCustomerDieRequest_next {s a : State} {t site n cls pa size : Nat} {wr : Bool} {data : Line} {found : Found}
    (hruns : s.runsAt t a) (hsite : site < 2) (hn : n < 16) (hpos : 1 ≤ size) (hsize : size ≤ 64)
    (hissues : a.siteIssues site n cls = true) :
    execCustomerDieRequest t site n cls pa size wr data found s = .next
      (if a.locked = true then a.reads found 0 (0x8000 + 16 * site + n) fun s =>
        s.siteRequest ⟨site, 0x8000 + 16 * site + n, cls, pa, size, wr, data⟩
      else { a with siteHeld := a.siteHeld ++ [⟨site, 0x8000 + 16 * site + n, cls, pa, size, wr, data⟩] }) := by
  have hformed : ¬ (2 ≤ site ∨ 16 ≤ n ∨ size = 0 ∨ 64 < size ∨ (!a.siteIssues site n cls) = true) := by
    simp only [hissues, Bool.not_true, Bool.false_eq_true, or_false]
    omega
  exact State.live_next hruns (if_neg hformed)

/-- A transfer that a port waits for has come: it is delivered, as poison when it has failed again (R21). -/
theorem execD2dResentTransfer_next {s a : State} {t port agent pa : Nat} {into : D2dInto} {failed : Bool}
    (hruns : s.runsAt t a) (hwaits : Tab.get (fun _ => false) a.d2dWait port = true) :
    execD2dResentTransfer t port agent pa into failed s = .next
      (if failed = true then (State.poisonInto
          { a with d2dWait := Tab.put (fun _ => false) a.d2dWait port false, d2dPoison :=
              Tab.put (fun _ => 0) a.d2dPoison port (Tab.get (fun _ => 0) a.d2dPoison port + 1) }
          agent pa into).faultRecord 1 port 0xFFF agent pa (Tab.get (fun _ => 0) a.d2dPoison port + 1)
      else { a with d2dWait := Tab.put (fun _ => false) a.d2dWait port false }) :=
  State.live_next hruns (if_neg (by simp [hwaits]))

/-- The exchange that is under way completes when the parent's message has come (R29). -/
theorem execTimingExchange_measured {s a : State} {t g t1 t2 t3 t4 : Nat} (hruns : s.runsAt t a)
    (hexchanges : a.exchanges = true) (hcome : a.tbXchg = some ⟨g, t1, some (t2, t3, t4)⟩) :
    execTimingExchange t s = .next (a.measured t1 t2 t3 t4) :=
  State.live_next hruns (by simp [hexchanges, hcome])

/-- An exchange begins at a multiple of its interval (R31). -/
theorem execTimingExchange_ask {s a : State} {t : Nat} (hruns : s.runsAt t a) (hexchanges : a.exchanges = true)
    (hnone : a.tbXchg = none) (hmultiple : a.tb % 2 ^ a.rd SYS_TB_CFG.SYNC_LOG2 = 0) (hfresh : a.tb ≠ a.tbFrom) :
    execTimingExchange t s = .next a.askTime :=
  State.live_next hruns (by simp [hexchanges, hnone, hmultiple, hfresh])

/-- Four intervals without an exchange end LOCKED (R36). -/
theorem execHoldoverEntry_next {s a : State} {t : Nat} (hruns : s.runsAt t a) (henable : a.flag SYS_TB_CFG.ENABLE = true)
    (hroot : a.flag SYS_TB_CFG.ROOT = false) (hlocked : a.rd SYS_TB_STATUS.STATE = 2)
    (hdue : a.tbLast + 4 * 2 ^ a.rd SYS_TB_CFG.SYNC_LOG2 ≤ a.now) :
    execHoldoverEntry t s = .next ((a.wr SYS_TB_STATUS.STATE 0 3).traceTb false) :=
  State.live_next hruns (by simp [State.tbState, henable, hroot, hlocked, hdue])

/-- Settles O32: each clause is one branch of its command's effect. -/
theorem portsSitesAndTimebaseComplete : Obligations.PortsSitesAndTimebaseComplete := by
  unfold Obligations.PortsSitesAndTimebaseComplete
  intro s a t hruns
  refine ⟨?parity, ?delivered, ?failed, fun site mean b hsite hover => execSitePowerWindow_over hruns hsite hover,
    ?closed, ?capped, ?cut, ?down, ?held, ?performed, fun agent v => execSysTbCfgWrite_next hruns,
    fun g t1 t2 t3 t4 => execTimingExchange_measured hruns, execTimingExchange_ask hruns, execHoldoverEntry_next hruns⟩
  case parity =>
    intro port hport
    show execD2dParityError t port s = _
    exact State.live_next hruns (if_neg (Nat.not_le.mpr hport))
  case delivered =>
    intro port agent pa into hwaits
    exact execD2dResentTransfer_next hruns hwaits
  case failed =>
    rintro port agent pa _ into hwaits rfl
    exact execD2dResentTransfer_next hruns hwaits
  case closed =>
    intro site mean hsite hwithin hcap
    exact (execSitePowerWindow_within hruns hsite hwithin rfl).trans (by rw [if_pos hcap])
  case capped =>
    intro site mean hsite hwithin hcap
    exact (execSitePowerWindow_within hruns hsite hwithin rfl).trans (by rw [if_neg hcap])
  case cut =>
    intro site hsite
    show execSiteSupplyCut t site s = _
    exact State.live_next hruns (if_neg (Nat.not_le.mpr hsite))
  case down =>
    intro site cause hsite
    show execSiteDown t site cause s = _
    exact State.live_next hruns (if_neg (Nat.not_le.mpr hsite))
  case held =>
    intro site n cls pa size wr data found hsite hn hpos hsize hissues hlock
    exact (execCustomerDieRequest_next hruns hsite hn hpos hsize hissues).trans
      (by simp only [hlock, Bool.false_eq_true, if_false])
  case performed =>
    intro site n cls pa size wr data found hsite hn hpos hsize hissues hlock
    exact (execCustomerDieRequest_next hruns hsite hn hpos hsize hissues).trans (by rw [if_pos hlock])

end Sys2Proof.Machine

/-! Messages that a port has delivered (R29, R339, R346, R358 to R361): the oldest one, of the kind that a command takes,
leaves its port and is carried out. -/

namespace Sys2Proof.Machine

/-- The oldest message of a port leaves it and is handled, while no save runs and the command takes it. -/
theorem State.handle_oldest {s b : State} {port : Nat} {takes : Msg → Bool} {x : RxMsg} {l : List RxMsg}
    (f : RxMsg → State → State) (hsave : s.save.phase = 0) (hrx : s.rxOf port = x :: l) (htakes : takes x.msg = true)
    (hb : b = { s with rx := Tab.put (fun _ => []) s.rx port l }) : s.handle port takes f = f x b := by
  rw [hb]
  simp only [State.handle, hsave, hrx, htakes, ne_eq, not_true_eq_false, if_true, if_false]

/-- A request for this device that the guard admits is performed (R358, R361). -/
theorem State.arrive_admitted {s : State} {port : Nat} {x : RxMsg} (f : State → State) (hdst : x.msg.dst = s.deviceId)
    (hguard : s.guardAdmits x.msg.src = true) : s.arrive port x f = (f s).doneBound port x := by
  simp [State.arrive, hdst, hguard]

/-- A response ends the request that waits for it while the window of that is open (R360). -/
theorem State.response_awaited {s : State} {m : Msg} {q : PeerReq} (e : ReqEnd) (hdst : m.dst = s.deviceId)
    (hfind : s.peerReqs.find? (fun r => r.tag == m.tag && r.sent.isSome) = some q) (hopen : s.overdue q = false) :
    s.response m e = s.reqEnd q e := by
  simp [State.response, hdst, hfind, hopen]

section
variable {s a b r : State} {t port : Nat} {found : Found} {takes : Msg → Bool} {x : RxMsg} {l : List RxMsg}

/-- A request none of whose reads is held is performed, and what its reads found follows (R346, R358). -/
theorem State.live_request (f : State → RxMsg → State) (hruns : s.runsAt t a) (hsave : a.save.phase = 0)
    (hrx : a.rxOf port = x :: l) (htakes : takes x.msg = true)
    (hb : b = { a.reading found 0 port with rx := Tab.put (fun _ => []) a.rx port l }) (hdst : x.msg.dst = b.deviceId)
    (hguard : b.guardAdmits x.msg.src = true) (hr : r = (f b x).doneBound port x) (hfree : r.access.blocked = none) :
    s.live t (fun s => s.reads found 0 port fun s => s.handle port takes fun x s => s.arrive port x fun s => f s x) =
      .next r.readsDone := by
  have heffect : ((a.reading found 0 port).handle port takes fun x s => s.arrive port x fun s => f s x) = r := by
    rw [State.handle_oldest (s := a.reading found 0 port) _ hsave hrx htakes hb, hr]
    exact State.arrive_admitted _ hdst hguard
  refine State.live_next hruns ?_
  rw [State.reads_done (by rw [heffect]; exact hfree), heffect]

/-- A response that a request waits for ends it (R360). -/
theorem State.live_response {kind : Nat} {q : PeerReq} (e : Msg → ReqEnd) (hruns : s.runsAt t a)
    (hsave : a.save.phase = 0) (hrx : a.rxOf port = x :: l) (hkind : x.msg.kind = kind)
    (hb : b = { a with rx := Tab.put (fun _ => []) a.rx port l }) (hdst : x.msg.dst = b.deviceId)
    (hfind : b.peerReqs.find? (fun r => r.tag == x.msg.tag && r.sent.isSome) = some q) (hopen : b.overdue q = false) :
    s.live t (fun s => s.handleResponse port kind fun m s => s.response m (e m)) = .next (b.reqEnd q (e x.msg)) := by
  refine State.live_next hruns ?_
  rw [State.handleResponse, State.handle_oldest _ hsave hrx (by simp [hkind]) hb]
  exact State.response_awaited _ hdst hfind hopen

end

/-- Settles O56: a request, a response or a TIME is the oldest message of its port, and its command takes it. -/
theorem messagesComplete : Obligations.MessagesComplete := by
  unfold Obligations.MessagesComplete
  intro s a t hruns
  refine ⟨?write, ?masked, ?read, ?mop, ?coll, ?time, fun port x l b q => State.live_response (fun _ => .ok []) hruns,
    fun port x l b q => State.live_response (fun m => .ok m.data) hruns,
    fun port x l b q => State.live_response (fun m => .ok m.data) hruns, ?refuse⟩
  case write =>
    intro port found x l b r hsave hrx hkind
    exact State.live_request (fun s x => s.msgWrite port x) hruns hsave hrx (by simp [hkind])
  case masked =>
    intro port found x l b r hsave hrx hkind
    exact State.live_request (fun s x => s.msgMasked port x) hruns hsave hrx (by simp [hkind])
  case read =>
    intro port found x l b r hsave hrx hkind
    exact State.live_request (fun s x => s.msgRead port x) hruns hsave hrx (by simp [hkind])
  case mop =>
    intro port found x l b r hsave hrx hkind
    exact State.live_request (fun s x => s.msgMop port x) hruns hsave hrx (by simp [hkind])
  case coll =>
    intro port found x l b r hsave hrx hkind hdone
    exact State.live_request (fun s x => s.msgColl port x) hruns hsave hrx (by simp [hkind, hdone])
  case time =>
    intro port x l b hsave hrx hkind hb hdst
    show execTime t port s = _
    exact State.live_next hruns
      ((State.handle_oldest _ hsave hrx (by simp [hkind]) hb).trans (if_neg (by simp [hdst])))
  case refuse =>
    intro port x l b q hsave hrx hkind hb hcounted hdst hfind hopen
    show execRefuse t port s = _
    refine State.live_next hruns ((State.handle_oldest _ hsave hrx (by simp [hkind]) rfl).trans ?_)
    exact (congrArg (State.response · x.msg _) ((if_pos hcounted).trans hb.symm)).trans
      (State.response_awaited _ hdst hfind hopen)

end Sys2Proof.Machine

/-! What every command keeps of memory and the registers (R45, R51, R57, R274). The canonical forms survive each
operation of the model, so they survive every command; a command that stores nothing leaves memory alone. -/

namespace Sys2Proof.Machine

/-! ### The canonical forms -/

theorem State.canonical_iff (s : State) : s.canonical = true ↔
    Memory.wf s.mem = true ∧ Tab.wf (fun _ => false) s.poison = true ∧ Tab.wf regReset s.regs = true := by
  simp only [State.canonical, Bool.and_eq_true, and_assoc]

theorem closed_canonical : Closed fun s : State => s.canonical = true where
  other s t hmem hpoison hregs _ h := by
    rwa [State.canonical, hmem, hpoison, hregs]
  reg s off v h := by
    obtain ⟨hmem, hpoison, hregs⟩ := s.canonical_iff.mp h
    exact (State.canonical_iff _).mpr ⟨hmem, hpoison, Tab.wf_put _ _ _ _ hregs⟩
  dropReg s t f hmem hpoison _ hregs h := by
    obtain ⟨hm, hp, hr⟩ := s.canonical_iff.mp h
    rw [State.canonical_iff, hmem, hpoison, hregs]
    exact ⟨hm, hp, Tab.wf_filter _ _ f hr⟩

/-- At reset the three tables are empty. -/
theorem State.reset_canonical : State.reset.canonical = true := rfl

theorem closedMem_canonical : ClosedMem fun s : State => s.canonical = true where
  toClosed := closed_canonical
  byte s pa b h := by
    obtain ⟨hmem, hpoison, hregs⟩ := s.canonical_iff.mp h
    exact (State.canonical_iff _).mpr ⟨Tab.wf_put _ _ _ _ hmem, hpoison, hregs⟩
  mark s line b h := by
    obtain ⟨hmem, hpoison, hregs⟩ := s.canonical_iff.mp h
    exact (State.canonical_iff _).mpr ⟨hmem, Tab.wf_put _ _ _ _ hpoison, hregs⟩
  dropMem s t f g hmem hpoison hregs _ h := by
    obtain ⟨hm, hp, hr⟩ := s.canonical_iff.mp h
    rw [State.canonical_iff, hmem, hpoison, hregs]
    exact ⟨Tab.wf_filter _ _ f hm, Tab.wf_filter _ _ g hp, hr⟩
  reset s h := by
    obtain ⟨hmem, hpoison, _⟩ := s.canonical_iff.mp h
    exact (State.canonical_iff _).mpr ⟨Tab.wf_filter _ _ _ hmem, Tab.wf_filter _ _ _ hpoison, rfl⟩

/-- Settles O3: the tables of memory, poison and registers are empty at reset. -/
theorem resetIsCanonical : Obligations.ResetIsCanonical := by
  unfold Obligations.ResetIsCanonical
  exact State.reset_canonical

/-- Settles O4: the canonical forms survive writes of bytes, marks and registers and a package reset, which are all that a
command does to the three tables. -/
theorem stepKeepsCanonical : Obligations.StepKeepsCanonical := by
  unfold Obligations.StepKeepsCanonical
  intro s s' hs hstep
  exact step_keeps closedMem_canonical (fun _ _ h => h) hs s' hstep

/-! ### Every command answers a next state -/

/-- The arm of each command is a next state, its effect after the move of the clock. -/
theorem exec_next (c : Instr) (s : State) : ∃ t : State, exec c s = .next t := by
  cases c
  all_goals exact ⟨_, rfl⟩

/-- Settles O5: each arm of the dispatch answers a next state. -/
theorem everyCommandGoesOn : Obligations.EveryCommandGoesOn := by
  unfold Obligations.EveryCommandGoesOn
  exact exec_next

/-! ### Commands that store nothing -/

/-- A predicate that survives what leaves memory alone survives every command that stores nothing. -/
theorem exec_keeps_of_not_mayStore {P : State → Prop} (hP : Closed P) {c : Instr} {s : State}
    (hstores : c.mayStore = false) (hS : P s) : OkN P (exec c s) := by
  cases c
  case hbmTrainingTimeout => exact execHbmTrainingTimeout_keeps hP hS
  case bootRelease => exact execBootRelease_keeps hP hS
  case d2dParityError => exact execD2dParityError_keeps hP hS
  case sysTbCfgWrite => exact execSysTbCfgWrite_keeps hP hS
  case timingExchange => exact execTimingExchange_keeps hP hS
  case holdoverEntry => exact execHoldoverEntry_keeps hP hS
  case txnBegin => exact execTxnBegin_keeps hP hS
  case txnCommit => exact execTxnCommit_keeps hP hS
  case txnRollback => exact execTxnRollback_keeps hP hS
  case txnAbort => exact execTxnAbort_keeps hP hS
  case leaseExpiry => exact execLeaseExpiry_keeps hP hS
  case ringEnable => exact execRingEnable_keeps hP hS
  case hostCoreStore => exact execHostCoreStore_keeps hP hS
  case storeConditional => exact execStoreConditional_keeps hP hS
  case acquire => exact execAcquire_keeps hP hS
  case release => exact execRelease_keeps hP hS
  case full => exact execFull_keeps hP hS
  case device => exact execDevice_keeps hP hS
  case rc => exact execRc_keeps hP hS
  case tlbInvalidation => exact execTlbInvalidation_keeps hP hS
  case hcDevsynRead => exact execHcDevsynRead_keeps hP hS
  case hcStrictWrite => exact execHcStrictWrite_keeps hP hS
  case hcL2lockWrite => exact execHcL2lockWrite_keeps hP hS
  case invalidation => exact execInvalidation_keeps hP hS
  case dirProbe => exact execDirProbe_keeps hP hS
  case launchDispatch => exact execLaunchDispatch_keeps hP hS
  case launchComplete => exact execLaunchComplete_keeps hP hS
  case sibling => exact execSibling_keeps hP hS
  case watchdog => exact execWatchdog_keeps hP hS
  case nop => exact execNop_keeps hP hS
  case end_ => exact execEnd_keeps hP hS
  case mpass => exact execMpass_keeps hP hS
  case mdrain => exact execMdrain_keeps hP hS
  case recirculationEnd => exact execRecirculationEnd_keeps hP hS
  case vst => exact execVst_keeps hP hS
  case copyFault => exact execCopyFault_keeps hP hS
  case ccwait => exact execCcwait_keeps hP hS
  case ccset => exact execCcset_keeps hP hS
  case ssig => exact execSsig_keeps hP hS
  case swait => exact execSwait_keeps hP hS
  case fence => exact execFence_keeps hP hS
  case tag => exact execTag_keeps hP hS
  case hint => exact execHint_keeps hP hS
  case aop => exact execAop_keeps hP hS
  case aopi => exact execAopi_keeps hP hS
  case ali => exact execAli_keeps hP hS
  case ard => exact execArd_keeps hP hS
  case br => exact execBr_keeps hP hS
  case brc => exact execBrc_keeps hP hS
  case loop => exact execLoop_keeps hP hS
  case queueEnable => exact execQueueEnable_keeps hP hS
  case queueDisable => exact execQueueDisable_keeps hP hS
  case signal => exact execSignal_keeps hP hS
  case wait => exact execWait_keeps hP hS
  case migrate => exact execMigrate_keeps hP hS
  case hintCommand => exact execHintCommand_keeps hP hS
  case fenceCommand => exact execFenceCommand_keeps hP hS
  case trCtxWrite => exact execTrCtxWrite_keeps hP hS
  case trInvalAst => exact execTrInvalAst_keeps hP hS
  case invalidationComplete => exact execInvalidationComplete_keeps hP hS
  case syAdd => exact execSyAdd_keeps hP hS
  case sySet => exact execSySet_keeps hP hS
  case syTrigCfg => exact execSyTrigCfg_keeps hP hS
  case syEventRead => exact execSyEventRead_keeps hP hS
  case mbLock => exact execMbLock_keeps hP hS
  case mbRelease => exact execMbRelease_keeps hP hS
  case mbReqWrite => exact execMbReqWrite_keeps hP hS
  case mbReqRead => exact execMbReqRead_keeps hP hS
  case mbRspWrite => exact execMbRspWrite_keeps hP hS
  case mbRspRead => exact execMbRspRead_keeps hP hS
  case mbSend => exact execMbSend_keeps hP hS
  case mbAck => exact execMbAck_keeps hP hS
  case mailboxTimeout => exact execMailboxTimeout_keeps hP hS
  case rollbackCommit => exact execRollbackCommit_keeps hP hS
  case lineStoreWriteback => exact execLineStoreWriteback_keeps hP hS
  case cxlLinkRecovery => exact execCxlLinkRecovery_keeps hP hS
  case tierObjCfg => exact execTierObjCfg_keeps hP hS
  case migrationDrain => exact execMigrationDrain_keeps hP hS
  case rillEnable => exact execRillEnable_keeps hP hS
  case ceEpochCfg => exact execCeEpochCfg_keeps hP hS
  case bucketTimeout => exact execBucketTimeout_keeps hP hS
  case collResend => exact execCollResend_keeps hP hS
  case flitSend => exact execFlitSend_keeps hP hS
  case flitReceive => exact execFlitReceive_keeps hP hS
  case replayTimeout => exact execReplayTimeout_keeps hP hS
  case tokenEarn => exact execTokenEarn_keeps hP hS
  case time => exact execTime_keeps hP hS
  case linkRetrain => exact execLinkRetrain_keeps hP hS
  case autoTrain => exact execAutoTrain_keeps hP hS
  case train => exact execTrain_keeps hP hS
  case windowValid => exact execWindowValid_keeps hP hS
  case linkRejoin => exact execLinkRejoin_keeps hP hS
  case rtoResend => exact execRtoResend_keeps hP hS
  case epeerValid => exact execEpeerValid_keeps hP hS
  case dutyRamp => exact execDutyRamp_keeps hP hS
  case hclkStep => exact execHclkStep_keeps hP hS
  case starve => exact execStarve_keeps hP hS
  case saveStart => exact execSaveStart_keeps hP hS
  case dbgCtxrst => exact execDbgCtxrst_keeps hP hS
  case traceBudgetWindow => exact execTraceBudgetWindow_keeps hP hS
  case trcMark => exact execTrcMark_keeps hP hS
  case counterSample => exact execCounterSample_keeps hP hS
  case dbgHcHalt => exact execDbgHcHalt_keeps hP hS
  case i3cWrite => exact execI3cWrite_keeps hP hS
  case i3cRead => exact execI3cRead_keeps hP hS
  case holdOkChange => exact execHoldOkChange_keeps hP hS
  case i3cDynamicAddress => exact execI3cDynamicAddress_keeps hP hS
  all_goals cases hstores

/-- Settles O7: memory and the poison marks survive what leaves them alone. -/
theorem storelessCommandsKeepMemory : Obligations.StorelessCommandsKeepMemory := by
  unfold Obligations.StorelessCommandsKeepMemory
  intro c s t hstores hexec
  obtain ⟨hmem, hpoison⟩ := exec_keeps_of_not_mayStore (closed_memory s) hstores ⟨rfl, rfl⟩ t hexec
  exact ⟨fun pa => by rw [State.byte, hmem, State.byte], fun line => by rw [State.poisoned, hpoison, State.poisoned]⟩

end Sys2Proof.Machine

/-! The gate of a register access and the region of an admitted one (R46, R48, R57, R384, R443). -/

namespace Sys2Proof.Machine

/-! ### Holes and the repair spare -/

/-- Settles O10: admission asks that the range lies in one region, which is no hole, and then that it is not the spare. -/
theorem holesAreNeverAdmitted : Obligations.HolesAreNeverAdmitted := by
  unfold Obligations.HolesAreNeverAdmitted
  intro s agent pa len wr hadmits
  simp only [State.admits, State.admitsSub, State.inOneRegion, Bool.and_eq_true, decide_eq_true_eq] at hadmits
  obtain ⟨⟨⟨⟨hhole, hend⟩, -⟩, hspare⟩, -⟩ := hadmits
  exact ⟨hhole, hspare, hend⟩

/-! ### A denied access -/

theorem State.gate_denied {s : State} {agent off : Nat} {wr : Bool} (f : State → State) (hissues : s.issues agent = true)
    (hdenied : s.admits agent wr (regBase + off) 8 = false) :
    s.gate agent off wr f = s.refuse agent 5 (regBase + off) := by
  simp [State.gate, hissues, hdenied]

section
variable {s a : State} {t agent off : Nat} {wr : Bool} {f : State → State}

/-- A command that accesses one register answers the refusal and has no other effect. -/
theorem State.live_denied (hruns : s.runsAt t a) (hissues : a.issues agent = true)
    (hdenied : a.admits agent wr (regBase + off) 8 = false) :
    s.live t (fun s => s.gate agent off wr f) = .next (a.refuse agent 5 (regBase + off)) :=
  State.live_next hruns (State.gate_denied f hissues hdenied)

/-- So does one whose register is number n of a row, where commands beyond the row do nothing. -/
theorem State.live_row_denied {n count : Nat} (hruns : s.runsAt t a) (hn : n < count) (hissues : a.issues agent = true)
    (hdenied : a.admits agent wr (regBase + off) 8 = false) :
    s.live t (fun s => if count ≤ n then s else s.gate agent off wr f) = .next (a.refuse agent 5 (regBase + off)) :=
  State.live_next hruns ((if_neg (Nat.not_le.mpr hn)).trans (State.gate_denied f hissues hdenied))

theorem State.live_within_denied {n count : Nat} (hruns : s.runsAt t a) (hn : n < count) (hissues : a.issues agent = true)
    (hdenied : a.admits agent wr (regBase + off) 8 = false) :
    s.live t (fun s => if n < count then s.gate agent off wr f else s) = .next (a.refuse agent 5 (regBase + off)) :=
  State.live_next hruns ((if_pos hn).trans (State.gate_denied f hissues hdenied))

end

/-- A write of RETRAIN reaches the gate of HM_CH_CTRL_c (R287). -/
theorem exec_retrain_software (s : State) (t ch agent : Nat) :
    exec (.retrain t ch 3 agent) s = s.live t fun s =>
      if 384 ≤ ch then s else s.gate agent (HM_CH_CTRL.RETRAIN.off ch) true fun s => s.retrainWrite ch := rfl

/-- A write of RETIRE reaches the gate of HM_CH_CTRL_c (R290). -/
theorem exec_retire_software (s : State) (t ch agent : Nat) :
    exec (.retire t ch 2 agent) s = s.live t fun s =>
      if 384 ≤ ch then s else s.gate agent (HM_CH_CTRL.RETRAIN.off ch) true fun s => s.retireWrite agent ch := rfl

/-- A write of RESET by software reaches the gate of DBG_TDIE_CTRL_n (R488). -/
theorem exec_cofferdam_software (s : State) (t die agent : Nat) :
    exec (.cofferdam t die true agent) s = s.live t fun s =>
      if 4 ≤ die then s
      else s.gate agent (DBG_TDIE_CTRL.RESET.off die) true fun s =>
        (s.storeReg agent (DBG_TDIE_CTRL.RESET.off die) 1).cofferdam die 1 agent := rfl

/-- Settles O9: each command passes the gate at its register, whose number is within the row. -/
theorem deniedAccessesAnswerDenied : Obligations.DeniedAccessesAnswerDenied := by
  unfold Obligations.DeniedAccessesAnswerDenied
  intro s a t hruns
  exact ⟨
    fun _ _ => State.live_denied hruns, -- bootRelease
    fun _ _ => State.live_denied hruns, -- sysTbCfgWrite
    fun _ => State.live_denied hruns, -- txnBegin
    fun _ _ => State.live_denied hruns, -- txnCommit
    fun _ _ => State.live_denied hruns, -- txnRollback
    fun _ _ => State.live_denied hruns, -- txnAbort
    fun _ _ _ => State.live_row_denied hruns, -- trCtxWrite
    fun _ _ => State.live_denied hruns, -- trInvalAst
    fun _ _ => State.live_denied hruns, -- trFaultResolve
    fun _ _ => State.live_denied hruns, -- dirProbe
    fun _ _ _ => State.live_row_denied hruns, -- tailWrite
    fun _ _ => State.live_row_denied hruns, -- resume
    fun _ _ => State.live_row_denied hruns, -- abandon
    fun _ _ _ => State.live_row_denied hruns, -- syAdd
    fun _ _ _ => State.live_row_denied hruns, -- sySet
    fun _ _ _ => State.live_row_denied hruns, -- syTrigCfg
    fun _ _ => State.live_row_denied hruns, -- syEventRead
    fun _ _ => State.live_row_denied hruns, -- mbLock
    fun _ _ _ => State.live_row_denied hruns, -- mbRelease
    fun _ _ _ => State.live_row_denied hruns, -- mbReqWrite
    fun _ _ => State.live_row_denied hruns, -- mbReqRead
    fun _ _ _ => State.live_row_denied hruns, -- mbRspWrite
    fun _ _ => State.live_row_denied hruns, -- mbRspRead
    fun _ _ _ => State.live_row_denied hruns, -- mbSend
    fun _ _ _ => State.live_row_denied hruns, -- mbAck
    fun ch agent hch hissues hdenied =>
      (exec_retrain_software s t ch agent).trans (State.live_row_denied hruns hch hissues hdenied), -- retrain
    fun ch agent hch hissues hdenied =>
      (exec_retire_software s t ch agent).trans (State.live_row_denied hruns hch hissues hdenied), -- retire
    fun _ _ _ => State.live_row_denied hruns, -- tierObjCfg
    fun _ _ _ => State.live_row_denied hruns, -- ceEpochCfg
    fun _ _ _ => State.live_within_denied hruns, -- linkEnable
    fun _ _ => State.live_row_denied hruns, -- linkRetrain
    fun _ _ => State.live_within_denied hruns, -- train
    fun _ _ _ => State.live_within_denied hruns, -- windowValid
    fun _ _ _ => State.live_within_denied hruns, -- epeerValid
    fun _ _ _ _ => State.live_within_denied hruns, -- mtxTail
    fun _ _ => State.live_denied hruns, -- dbgCtxrst
    fun _ _ _ => State.live_row_denied hruns, -- tcFence
    fun _ _ => State.live_row_denied hruns (n := 0) (count := 2) (by decide), -- hcFence
    fun _ _ => State.live_denied hruns, -- hostDieReset
    fun die agent hdie hissues hdenied =>
      (exec_cofferdam_software s t die agent).trans (State.live_row_denied hruns hdie hissues hdenied), -- cofferdam
    fun _ _ => State.live_row_denied hruns, -- readmit
    fun _ _ => State.live_denied hruns, -- trcMark
    fun _ _ => State.live_denied hruns, -- dbgSpDataRead
    fun _ _ => State.live_row_denied hruns (n := 0) (count := 2) (by decide) -- dbgHcHalt
  ⟩

end Sys2Proof.Machine

/-! Setting transactions (R67 to R78): what a write of their registers, of a register among their entries, and the boundary
leave of the open transaction. -/

namespace Sys2Proof.Machine

/-! ### A register stored, reported and counted -/

theorem State.rd_congr {s t : State} {f : Fld} {i : Nat} (h : t.reg (f.off i) = s.reg (f.off i)) : t.rd f i = s.rd f i := by
  rw [State.rd, h, State.rd]

/-- A report changes registers only. -/
@[simp] theorem State.report_txn (s : State) (agent off : Nat) (ignored bad : Bool) :
    (s.report agent off ignored bad).txn = s.txn := by
  unfold State.report
  split
  · cases ignored <;> cases bad <;> rfl
  · rfl

@[simp] theorem State.storeReg_txn (s : State) (agent off : Nat) (v : Word) (inTxn : Bool) :
    (s.storeReg agent off v inTxn).txn = s.txn :=
  State.report_txn _ _ _ _ _

theorem State.reg_storeReg_other (s : State) (agent : Nat) {off o : Nat} (v : Word) (inTxn : Bool) (hne : o ≠ off)
    (h0 : o ≠ 0x120) (h1 : o ≠ 0x128) : (s.storeReg agent off v inTxn).reg o = s.reg o := by
  rw [State.storeReg, State.reg_report_other _ _ _ _ _ h0 h1, State.reg_setReg_other _ _ hne]

/-- The registers of the device's own reports and TXN_STATUS are not transactional (R67). -/
theorem ne_report_regs_of_isTxn {off : Nat} (htxn : isTxn off = true) :
    off ≠ 0x120 ∧ off ≠ 0x128 ∧ off ≠ 0x10018 := by
  have hnot : ∀ o ∈ [0x120, 0x128, 0x10018], isTxn o = false := by decide
  refine ⟨?_, ?_, ?_⟩
  all_goals
    rintro rfl
    rw [hnot _ (by simp)] at htxn
    cases htxn

/-! ### The open transaction: kept, counted as foreign, ended -/

/-- The transaction and its TXN_STATUS are as they were. -/
def SameTxn (s t : State) : Prop := t.txn = s.txn ∧ t.reg 0x10018 = s.reg 0x10018

/-- The transaction is as it was, and FOREIGN has counted one more write (R72, R75, R76). -/
def ForeignCounted (s t : State) : Prop :=
  t.txn = s.txn ∧ t.rd TXN_STATUS.STATE = s.rd TXN_STATUS.STATE ∧ t.rd TXN_STATUS.OWNER = s.rd TXN_STATUS.OWNER ∧
    t.rd TXN_STATUS.FOREIGN = min (s.rd TXN_STATUS.FOREIGN + 1) 0xFFFF

/-- The transaction has ended with a result, and its entries are discarded (R78). -/
def TxnEnded (result : Nat) (t : State) : Prop :=
  t.txn.shadow = [] ∧ t.rd TXN_STATUS.STATE = 0 ∧ t.rd TXN_STATUS.RESULT = result

/-- A field of TXN_STATUS of the same transaction reads as it did. -/
theorem SameTxn.rd {s t : State} (h : SameTxn s t) {f : Fld} (hf : f.off 0 = 0x10018) : t.rd f = s.rd f :=
  State.rd_congr (by rw [hf]; exact h.2)

theorem SameTxn.foreignCounted {s t u : State} (h : SameTxn s t) (hcounted : ForeignCounted t u) : ForeignCounted s u := by
  obtain ⟨htxn, hstate, howner, hforeign⟩ := hcounted
  exact ⟨htxn.trans h.1, hstate.trans (h.rd rfl), howner.trans (h.rd rfl), by rw [hforeign, h.rd rfl]⟩

/-- A store to a register other than TXN_STATUS leaves the transaction as it was. -/
theorem State.sameTxn_answer_storeReg (s : State) (agent : Nat) {off : Nat} (v : Word) (hoff : 0x10018 ≠ off) :
    SameTxn s ((s.answer agent 0).storeReg agent off v) :=
  ⟨State.storeReg_txn _ _ _ _ _, State.reg_storeReg_other _ _ _ _ hoff (by decide) (by decide)⟩

theorem State.foreignCounted_bump (s : State) : ForeignCounted s (s.bump TXN_STATUS.FOREIGN 0) := by
  refine ⟨rfl, State.rd_wr_bits _ _ _ _ _ _ (by decide) (by decide),
    State.rd_wr_bits _ _ _ _ _ _ (by decide) (by decide), ?_⟩
  rw [State.bump, State.rd_wr_same _ _ _ _ (by decide)]
  exact Nat.mod_eq_of_lt (Nat.lt_of_le_of_lt (Nat.min_le_right _ _) (by decide))

/-- A write that the open transaction discards is counted; what is reported of it does not reach TXN_STATUS. -/
theorem State.foreignCounted_txnDiscard (s : State) (agent off : Nat) (v : Word) :
    ForeignCounted s (s.txnDiscard agent off v) := by
  have hstatus (b : Bool) : ((s.bump TXN_STATUS.FOREIGN 0).report agent off b false).reg 0x10018 =
      (s.bump TXN_STATUS.FOREIGN 0).reg 0x10018 := State.reg_report_other _ _ _ _ _ (by decide) (by decide)
  obtain ⟨htxn, hstate, howner, hforeign⟩ := s.foreignCounted_bump
  exact ⟨(State.report_txn _ _ _ _ _).trans htxn, (State.rd_congr (hstatus _)).trans hstate,
    (State.rd_congr (hstatus _)).trans howner, (State.rd_congr (hstatus _)).trans hforeign⟩

/-- And a transactional register keeps its word. -/
theorem State.reg_txnDiscard (s : State) (agent : Nat) {off : Nat} (v : Word) (htxn : isTxn off = true) :
    (s.txnDiscard agent off v).reg off = s.reg off := by
  obtain ⟨h0, h1, hstatus⟩ := ne_report_regs_of_isTxn htxn
  exact (State.reg_report_other _ _ _ _ _ h0 h1).trans (State.reg_wr_other _ _ _ _ _ hstatus)

/-- The end of a transaction as TXN_STATUS shows it (R78). -/
def State.endStatus (s : State) (result : Nat) : State :=
  (((s.wr TXN_STATUS.STATE 0 0).wr TXN_STATUS.OVERFLOW 0 0).wr TXN_STATUS.RESULT 0 result).wr TXN_STATUS.OWNER 0 0

theorem State.rd_endStatus_state (s : State) (result : Nat) : (s.endStatus result).rd TXN_STATUS.STATE = 0 := by
  rw [State.endStatus, State.rd_wr_bits _ TXN_STATUS.OWNER _ _ _ _ (by decide) (by decide),
    State.rd_wr_bits _ TXN_STATUS.RESULT _ _ _ _ (by decide) (by decide),
    State.rd_wr_bits _ TXN_STATUS.OVERFLOW _ _ _ _ (by decide) (by decide), State.rd_wr_same _ _ _ _ (by decide)]
  rfl

theorem State.rd_endStatus_result (s : State) {result : Nat} (hresult : result < 2 ^ 8) :
    (s.endStatus result).rd TXN_STATUS.RESULT = result := by
  rw [State.endStatus, State.rd_wr_bits _ TXN_STATUS.OWNER _ _ _ _ (by decide) (by decide),
    State.rd_wr_same _ _ _ _ (by decide)]
  exact Nat.mod_eq_of_lt hresult

/-- The end of a transaction that notifies nobody. -/
theorem State.txnEnd_quiet {s : State} {result : Nat} (tick : Nat)
    (hquiet : ¬ (s.txn.signal = true ∧ (result = 1 ∨ result = 3 ∨ result = 4))) :
    s.txnEnd result tick =
      { ((s.endStatus result).setReg (TXN_LAST_TIME.TICK.off 0) (BitVec.ofNat 64 tick)).offer 19 3 0 0
        (packBits [(0, result), (16, s.rd TXN_STATUS.OWNER)]) with txn := ⟨[], 0, 0, 0, false, 0⟩ } :=
  if_neg hquiet

/-- Such a transaction ends with its result. -/
theorem State.txnEnded_txnEnd {s : State} {result : Nat} (tick : Nat) (hresult : result < 2 ^ 8)
    (hquiet : ¬ (s.txn.signal = true ∧ (result = 1 ∨ result = 3 ∨ result = 4))) :
    TxnEnded result (s.txnEnd result tick) := by
  have hregs : (s.txnEnd result tick).regs =
      ((s.endStatus result).setReg (TXN_LAST_TIME.TICK.off 0) (BitVec.ofNat 64 tick)).regs := by
    rw [State.txnEnd_quiet tick hquiet]
    rfl
  have hstatus : (s.txnEnd result tick).reg 0x10018 = (s.endStatus result).reg 0x10018 := by
    rw [State.reg, hregs]
    exact State.reg_setReg_other _ _ (by decide)
  refine ⟨?_, (State.rd_congr hstatus).trans (s.rd_endStatus_state result),
    (State.rd_congr hstatus).trans (s.rd_endStatus_result hresult)⟩
  rw [State.txnEnd_quiet tick hquiet]

/-! ### Writes of TXN_COMMIT, TXN_ROLLBACK and TXN_ABORT, and a read of TXN_BEGIN -/

section
variable {s : State} {agent : Nat}

theorem State.txnBegin_idle (howns : ownsTxn agent = true) (hidle : s.rd TXN_STATUS.STATE = 0) :
    s.txnBegin agent = State.answer { (s.wr TXN_STATUS.STATE 0 1).wr TXN_STATUS.OWNER 0 agent with
      txn := ⟨[], s.now, ((s.wr TXN_STATUS.STATE 0 1).wr TXN_STATUS.OWNER 0 agent).rd TXN_CFG.LEASE, 0, false, 0⟩ }
        agent 0 := by
  simp only [State.txnBegin, howns, hidle, Bool.not_true, Bool.false_eq_true, if_true, if_false]
  rfl

/-- Another agent's read is answered with the owner's number (R68). -/
theorem State.txnBegin_other (howns : ownsTxn agent = true) (hopen : s.rd TXN_STATUS.STATE ≠ 0)
    (hother : s.rd TXN_STATUS.OWNER ≠ agent) :
    s.txnBegin agent = s.answer agent (BitVec.ofNat 64 (s.rd TXN_STATUS.OWNER)) := by
  simp only [State.txnBegin, howns, hopen, hother, Bool.not_true, Bool.false_eq_true, if_false]

variable (v : Word)

theorem State.txnCommit_idle (hidle : s.rd TXN_STATUS.STATE = 0) : s.txnCommit agent v = s := by
  simp only [State.txnCommit, hidle]

theorem State.txnCommit_owner (hopen : s.rd TXN_STATUS.STATE = 1) (howner : s.rd TXN_STATUS.OWNER = agent) :
    s.txnCommit agent v = { s.wr TXN_STATUS.STATE 0 2 with
      txn := { s.txn with boundary := nextBoundary s.tb, signal := TXN_COMMIT.SIGNAL.get v == 1,
                          sync := TXN_COMMIT.SYNC.get v } } := by
  simp only [State.txnCommit, hopen, howner, if_true]

/-- Another agent's commit of an open transaction, and any of a sealed one, is a foreign write (R75, R76). -/
theorem State.txnCommit_foreign
    (hforeign : s.rd TXN_STATUS.STATE = 1 ∧ s.rd TXN_STATUS.OWNER ≠ agent ∨ s.rd TXN_STATUS.STATE = 2) :
    s.txnCommit agent v = s.bump TXN_STATUS.FOREIGN 0 := by
  rcases hforeign with ⟨hopen, hother⟩ | hsealed
  · simp only [State.txnCommit, hopen, if_neg hother]
  · simp only [State.txnCommit, hsealed]

theorem State.txnRollback_idle (hidle : s.rd TXN_STATUS.STATE = 0) : s.txnRollback agent v = s := by
  simp only [State.txnRollback, hidle]

theorem State.txnRollback_owner (hopen : s.rd TXN_STATUS.STATE = 1) (howner : s.rd TXN_STATUS.OWNER = agent)
    (hgo : TXN_ROLLBACK.GO.get v = 1) : s.txnRollback agent v = s.txnEnd 2 s.tb := by
  simp only [State.txnRollback, hopen, howner, hgo, ne_eq, not_true_eq_false, if_true, if_false]

theorem State.txnRollback_foreign
    (hforeign : s.rd TXN_STATUS.STATE = 1 ∧ s.rd TXN_STATUS.OWNER ≠ agent ∨ s.rd TXN_STATUS.STATE = 2) :
    s.txnRollback agent v = s.bump TXN_STATUS.FOREIGN 0 := by
  rcases hforeign with ⟨hopen, hother⟩ | hsealed
  · simp only [State.txnRollback, hopen, if_pos hother]
  · simp only [State.txnRollback, hsealed]

end

/-! ### The commands -/

section
variable {s a : State} {t agent : Nat}

/-- A command that accesses one register, of an agent that the dike table admits, is answered and has its effect. -/
theorem State.live_allowed {off : Nat} {wr : Bool} {f : State → State} (hruns : s.runsAt t a)
    (hallows : a.allows agent off wr = true) :
    s.live t (fun s => s.gate agent off wr f) = .next (f (a.answer agent 0)) :=
  State.live_next hruns (State.gate_allows _ _ _ _ _ hallows)

theorem exec_txnBegin (hruns : s.runsAt t a) (hallows : a.allows agent 0x10000 false = true) :
    exec (.txnBegin t agent) s = .next ((a.answer agent 0).txnBegin agent) :=
  State.live_allowed hruns hallows

theorem exec_txnCommit (v : Word) (hruns : s.runsAt t a) (hallows : a.allows agent 0x10008 true = true) :
    exec (.txnCommit t agent v) s = .next (((a.answer agent 0).storeReg agent 0x10008 v).txnCommit agent v) :=
  State.live_allowed hruns hallows

theorem exec_txnRollback (v : Word) (hruns : s.runsAt t a) (hallows : a.allows agent 0x10010 true = true) :
    exec (.txnRollback t agent v) s = .next (((a.answer agent 0).storeReg agent 0x10010 v).txnRollback agent v) :=
  State.live_allowed hruns hallows

theorem exec_txnAbort (v : Word) (hruns : s.runsAt t a) (hallows : a.allows agent 0x10038 true = true) :
    exec (.txnAbort t agent v) s = .next (((a.answer agent 0).storeReg agent 0x10038 v).txnAbort v) :=
  State.live_allowed hruns hallows

theorem exec_txnApply_due (hruns : s.runsAt t a) (hsealed : a.rd TXN_STATUS.STATE = 2) (hdue : a.txn.boundary ≤ a.tb) :
    exec (.txnApply t) s = .next a.txnBoundary := by
  show execTxnApply t s = _
  exact State.live_next hruns (if_pos ⟨hsealed, hdue⟩)

theorem exec_txnApply_early (hruns : s.runsAt t a) (hearly : a.tb < a.txn.boundary) : exec (.txnApply t) s = .next a := by
  show execTxnApply t s = _
  exact State.live_next hruns (if_neg fun hdue => absurd hdue.2 (Nat.not_le.mpr hearly))

/-- A write of any register whose access has no cause of refusal is answered and performed (R57, R60). -/
theorem exec_registerWrite {off : Nat} (v : Word) (hruns : s.runsAt t a) (hissues : a.issues agent = true)
    (hcause : a.accessCause agent true (regBase + off) 8 = 0) :
    exec (.registerWrite t agent (.space off) v) s = .next (((a.answer agent 0).regWrite agent off v).releaseSites) := by
  show execRegisterWrite t agent (.space off) v s = _
  refine State.live_next hruns ?_
  simp only [State.registerWrite, hissues, hcause, Bool.not_true, Bool.false_eq_true, if_false]

/-- A foreign write of TXN_COMMIT is counted and leaves the transaction as it was. -/
theorem exec_txnCommit_foreign (v : Word) (hruns : s.runsAt t a) (hallows : a.allows agent 0x10008 true = true)
    (hforeign : a.rd TXN_STATUS.STATE = 1 ∧ a.rd TXN_STATUS.OWNER ≠ agent ∨ a.rd TXN_STATUS.STATE = 2) :
    ∃ s' : State, exec (.txnCommit t agent v) s = .next s' ∧ ForeignCounted a s' := by
  have hsame := a.sameTxn_answer_storeReg agent v (off := 0x10008) (by decide)
  refine ⟨_, (exec_txnCommit v hruns hallows).trans ?_, hsame.foreignCounted (State.foreignCounted_bump _)⟩
  rw [State.txnCommit_foreign]
  rwa [hsame.rd rfl, hsame.rd rfl]

/-- So is one of TXN_ROLLBACK. -/
theorem exec_txnRollback_foreign (v : Word) (hruns : s.runsAt t a) (hallows : a.allows agent 0x10010 true = true)
    (hforeign : a.rd TXN_STATUS.STATE = 1 ∧ a.rd TXN_STATUS.OWNER ≠ agent ∨ a.rd TXN_STATUS.STATE = 2) :
    ∃ s' : State, exec (.txnRollback t agent v) s = .next s' ∧ ForeignCounted a s' := by
  have hsame := a.sameTxn_answer_storeReg agent v (off := 0x10010) (by decide)
  refine ⟨_, (exec_txnRollback v hruns hallows).trans ?_, hsame.foreignCounted (State.foreignCounted_bump _)⟩
  rw [State.txnRollback_foreign]
  rwa [hsame.rd rfl, hsame.rd rfl]

end

/-- Settles O19: the store of the register leaves the transaction alone, so its effect is that of its state before. -/
theorem rollbacksAndForeignWrites : Obligations.RollbacksAndForeignWrites := by
  unfold Obligations.RollbacksAndForeignWrites
  intro s a t agent v hruns
  have hcommit := a.sameTxn_answer_storeReg agent v (off := 0x10008) (by decide)
  have hrollback := a.sameTxn_answer_storeReg agent v (off := 0x10010) (by decide)
  refine ⟨?owner, ?commit, ?rollback, ?idleCommit, ?idleRollback⟩
  case owner =>
    intro hallows hopen howner hgo
    refine ⟨_, exec_txnRollback v hruns hallows, ?_⟩
    rw [State.txnRollback_owner v ((hrollback.rd rfl).trans hopen) ((hrollback.rd rfl).trans howner) hgo]
    exact State.txnEnded_txnEnd _ (by decide) (by simp)
  case commit =>
    intro hallows hstate hother
    exact exec_txnCommit_foreign v hruns hallows (hstate.imp_left fun hopen => ⟨hopen, hother⟩)
  case rollback =>
    intro hallows hstate hother
    exact exec_txnRollback_foreign v hruns hallows (hstate.imp_left fun hopen => ⟨hopen, hother⟩)
  case idleCommit =>
    intro hallows hidle
    refine ⟨_, exec_txnCommit v hruns hallows, ?_⟩
    rw [State.txnCommit_idle v ((hcommit.rd rfl).trans hidle)]
    exact hcommit
  case idleRollback =>
    intro hallows hidle
    refine ⟨_, exec_txnRollback v hruns hallows, ?_⟩
    rw [State.txnRollback_idle v ((hrollback.rd rfl).trans hidle)]
    exact hrollback

/-! ### A sealed transaction -/

/-- The owner's write of a transactional register while SEALED is discarded (R75). -/
theorem State.regWrite_sealed_owner {s : State} {agent off : Nat} (v : Word) (hsealed : s.rd TXN_STATUS.STATE = 2)
    (howner : s.rd TXN_STATUS.OWNER = agent) (htxn : isTxn off = true) :
    s.regWrite agent off v = s.txnDiscard agent off v := by
  simp [State.regWrite, State.txnWrite, hsealed, howner, htxn]

/-- Settles O20: every write of a sealed transaction's owner is a foreign one. -/
theorem sealedTransactionsHold : Obligations.SealedTransactionsHold := by
  unfold Obligations.SealedTransactionsHold
  intro s a t agent v hruns hsealed
  refine ⟨?write, ?commit, ?rollback, ?begin_, exec_txnApply_early hruns⟩
  case write =>
    intro off howner htxn hissues hcause
    obtain ⟨hsame, hstate, -, hforeign⟩ := (a.answer agent 0).foreignCounted_txnDiscard agent off v
    refine ⟨_, ?_, hsame, hstate.trans hsealed, State.reg_txnDiscard _ agent v htxn, hforeign⟩
    rw [exec_registerWrite v hruns hissues hcause, State.regWrite_sealed_owner (s := a.answer agent 0) v hsealed howner htxn]
  case commit =>
    intro howner hallows
    obtain ⟨s', hexec, hsame, hstate, howner', hforeign⟩ := exec_txnCommit_foreign v hruns hallows (.inr hsealed)
    exact ⟨s', hexec, hsame, hstate.trans hsealed, howner'.trans howner, hforeign⟩
  case rollback =>
    intro howner hallows
    obtain ⟨s', hexec, hsame, hstate, howner', hforeign⟩ := exec_txnRollback_foreign v hruns hallows (.inr hsealed)
    exact ⟨s', hexec, hsame, hstate.trans hsealed, howner'.trans howner, hforeign⟩
  case begin_ =>
    intro hother howns hallows
    have hopen : (a.answer agent 0).rd TXN_STATUS.STATE ≠ 0 := fun h => absurd (hsealed.symm.trans h) (by decide)
    have howns' : ownsTxn agent = true := by simpa [ownsTxn] using howns
    rw [exec_txnBegin hruns hallows, State.txnBegin_other (s := a.answer agent 0) howns' hopen hother]
    rfl

/-! ### The shadow -/

/-- Entries of one register replaced: the register's entry is the new one. -/
theorem find?_map_replaced {off : Nat} {v : Word} {l : List (Nat × Word)}
    (h : (l.find? fun e => e.1 == off).isSome = true) :
    (l.map fun e => if e.1 = off then (off, v) else e).find? (fun e => e.1 == off) = some (off, v) := by
  induction l with
  | nil => cases h
  | cons e l ih =>
    by_cases he : e.1 = off
    · simp [he]
    · have htail : (l.find? fun e => e.1 == off).isSome = true := by simpa [List.find?_cons, he] using h
      simpa [List.find?_cons, he] using ih htail

section
variable {s : State} {off : Nat} (v : Word)

theorem State.putShadow_replaces (hentry : (s.shadowOf off).isSome = true) : s.putShadow off v =
    { s with txn := { s.txn with shadow := s.txn.shadow.map (fun e => if e.1 = off then (off, v) else e) } } := by
  simp only [State.putShadow, hentry, if_true]

theorem State.putShadow_full (hentry : s.shadowOf off = none) (hfull : 256 ≤ s.txn.shadow.length) :
    s.putShadow off v = s.wr TXN_STATUS.OVERFLOW 0 1 := by
  simp only [State.putShadow, hentry, Option.isSome_none, Bool.false_eq_true, if_false, if_neg (Nat.not_lt.mpr hfull)]

theorem State.putShadow_length_le (hlength : s.txn.shadow.length ≤ 256) :
    (s.putShadow off v).txn.shadow.length ≤ 256 := by
  unfold State.putShadow
  split
  next => simpa using hlength
  next =>
    split
    next hroom => simpa using hroom
    next => exact hlength

end

/-- Settles O21: a write replaces its entry, joins the shadow or is discarded; the boundary after an overflow is the end
OVERFLOW. -/
theorem shadowOfATransaction : Obligations.ShadowOfATransaction := by
  unfold Obligations.ShadowOfATransaction
  refine ⟨?replaces, fun s off v => State.putShadow_full v, fun s off v => State.putShadow_length_le v, ?overflows⟩
  case replaces =>
    intro s off v hentry
    rw [State.putShadow_replaces v hentry]
    refine ⟨?_, by simp⟩
    rw [State.shadowOf, Option.isSome_map] at hentry
    simp only [State.shadowOf, find?_map_replaced hentry, Option.map_some]
  case overflows =>
    intro s a t hruns hsealed hover hdue hsignal
    refine ⟨_, exec_txnApply_due hruns hsealed hdue, ?_⟩
    obtain ⟨hshadow, hstate, hresult⟩ : TxnEnded 3 a.txnBoundary := by
      rw [State.txnBoundary, if_pos hover]
      exact State.txnEnded_txnEnd _ (by decide) (by simp [hsignal])
    exact ⟨hresult, hstate, hshadow⟩

/-! ### The lock, the release and the ends of transactions -/

/-- A host core whose turn it is writes its system register; HC_STRICT waits until earlier accesses are performed (R387,
R390). -/
theorem State.registerWrite_system {s : State} {c num : Nat} (v : Word) (hhost : s.hostRuns c = true)
    (hbarrier : (s.host c).barrier = 0) (hsettled : num ≠ 0xC02 ∨ (s.host c).settled = true) :
    s.registerWrite (0x100 + c) (.system c num) v = s.systemWrite c num v := by
  have hwaits : ¬ (num = 0xC02 ∧ (!(s.host c).settled) = true) := by
    rintro ⟨hnum, hunsettled⟩
    exact hsettled.elim (absurd hnum) fun h => by simp [h] at hunsettled
  have hturn : (s.hostRuns c && (s.host c).barrier == 0) = true := by simp [hhost, hbarrier]
  simp only [State.registerWrite, State.systemBy, State.systemTurn, hwaits, hturn, decide_false, Bool.not_false, and_self,
    if_true, Bool.false_eq_true, if_false]

/-- Settles O31: each clause is one branch of its command's effect. -/
theorem locksAndTransactionsComplete : Obligations.LocksAndTransactionsComplete := by
  unfold Obligations.LocksAndTransactionsComplete
  intro s a t hruns
  refine ⟨?lock, ?release, fun agent off v => exec_registerWrite v hruns, ?system, ?begin_, ?commit, ?rollback, ?abort,
    exec_txnApply_due hruns, ?lease⟩
  case lock =>
    intro agent v hallows
    show execSysProtLock t agent v s = _
    exact State.live_next hruns (congrArg State.releaseSites (State.gate_allows _ _ _ _ _ hallows))
  case release =>
    intro agent v hallows
    exact State.live_allowed hruns hallows
  case system =>
    intro c num v hhost hbarrier hsettled
    show execRegisterWrite t (0x100 + c) (.system c num) v s = _
    exact State.live_next hruns (congrArg State.releaseSites (State.registerWrite_system v hhost hbarrier hsettled))
  case begin_ =>
    intro agent hallows howns hidle
    rw [exec_txnBegin hruns hallows, State.txnBegin_idle (s := a.answer agent 0) howns hidle]
    rfl
  case commit =>
    intro agent v b hallows hb hopen howner
    rw [exec_txnCommit v hruns hallows, ← hb, State.txnCommit_owner v hopen howner]
  case rollback =>
    intro agent v b hallows hb hopen howner hgo
    rw [exec_txnRollback v hruns hallows, ← hb, State.txnRollback_owner v hopen howner hgo]
  case abort =>
    intro agent v b hallows hb hopen hgo
    rw [exec_txnAbort v hruns hallows, ← hb, State.txnAbort, if_pos ⟨hgo, hopen⟩]
  case lease =>
    intro hopen hpassed
    show execLeaseExpiry t s = _
    exact State.live_next hruns (if_pos ⟨hopen, hpassed⟩)

end Sys2Proof.Machine

/-! Array operations (R88, R93, R116, R136, R140, R141, R151): MPASS and MDRAIN enter the queue of operations; the port and
the array end the operation that each works on. -/

namespace Sys2Proof.Machine

section
variable {s a b : State} {t core : Nat}

/-! ### Operations that enter the queue -/

/-- A command that issues the instruction at its core's PC answers what the instruction means. -/
theorem State.live_issues {op : Nat} {body : BitVec 56} {f : State → Nat → Option State} (hruns : s.runsAt t a)
    (hissues : a.issuesNow core op body = true) (hmeans : f (a.markIssue core) (a.rd TC_PC.PC core) = some b) :
    s.live t (fun s => s.issue core op body f) = .next b := by
  refine State.live_next hruns ?_
  rw [State.issue_now _ _ _ _ _ hissues, hmeans, Option.getD_some]

/-- An array operation that finds room, with no offending field and no exception, has its effect (R88, R133). -/
theorem State.enters_withRoom {c pc : Nat} {ill : Option Nat} {excs : List (Nat × Nat)} {queue : List ArrayOp}
    (hroom : queue.length < 8) (hfields : ill = none) (hexcs : excs = []) :
    (if 8 ≤ queue.length then none else a.checked c pc ill excs (some b)) = some b := by
  rw [if_neg (Nat.not_le.mpr hroom), hfields, hexcs, State.checked_none]

/-! ### The accumulator port -/

variable {conflicts : Nat} {parityOk : Bool} {bad : List Nat} {o : ArrayOp}

/-- A fill at the port reads the scratchpad, and then its parity and the poison of what it has read tell its end. -/
theorem execFillDone_fill (hruns : s.runsAt t a) (hport : (a.core core).portRuns = some o) (hfill : o.drain = false)
    (hread : b = (a.spParity core bad (o.fillReads a.width)).bumpWrap TC_SP_CONFLICT.COUNT core conflicts) :
    execFillDone t core conflicts parityOk bad s = .next (
      if parityOk = false then b.integrity core o.pc
      else if (b.core core).spPoisonIn (o.fillReads b.width) = true then
        ((b.setCore core ((b.core core).setArr b.now ((b.core core).arr.erase o))).raise core 12 o.pc 0).tryEnd core
      else b.setCore core { ((b.core core).fill o b.width).setArr b.now
        (replaceFirst o { o with filled := true } (b.core core).arr) with portAt := b.now }) := by
  subst hread
  refine State.live_next hruns ?_
  simp only [hport, hfill, Bool.not_eq_true', Bool.false_eq_true, if_false]

/-- A drain at the port whose parity has failed ends the launch, counted first (R102, R171). -/
theorem execDrainDone_parity (hruns : s.runsAt t a) (hport : (a.core core).portRuns = some o) (hdrain : o.drain = true) :
    execDrainDone t core conflicts false s =
      .next ((a.bumpWrap TC_SP_CONFLICT.COUNT core conflicts).integrity core o.pc) := by
  refine State.live_next hruns ?_
  simp only [hport, hdrain, Bool.not_true, Bool.not_false, Bool.false_eq_true, if_false, if_true]

/-- A completion counter is no part of the array-operation queue. -/
theorem Core.setCounter_arr (k : Core) (n : Nat) (v : Word32) : (k.setCounter n v).arr = k.arr := rfl

/-- A drain that is written removes itself from the queue, whether or not its completion counter has risen. -/
theorem execDrainDone_written {n : Core} (hruns : s.runsAt t a) (hport : (a.core core).portRuns = some o)
    (hdrain : o.drain = true) (hread : b = a.bumpWrap TC_SP_CONFLICT.COUNT core conflicts)
    (hwritten : n = ((a.core core).spStore o.aOff (codeBits o.fmtA) ((a.core core).drain o b.width).1).spStore o.saOff 8
      ((a.core core).drain o b.width).2.1) :
    execDrainDone t core conflicts true s = .next (((b.setCore core
      { ((if o.cnten = true then n.setCounter o.cnt (n.counter o.cnt + 1) else n).setArr b.now (n.arr.erase o)) with
        portAt := b.now }).orFlags core o.pc ((a.core core).drain o b.width).2.2).tryEnd core) := by
  have harr : (if o.cnten = true then n.setCounter o.cnt (n.counter o.cnt + 1) else n).arr = n.arr := by
    split
    · exact Core.setCounter_arr _ _ _
    · rfl
  subst hread
  rw [← harr, hwritten]
  refine State.live_next hruns ?_
  simp only [hport, hdrain, Bool.not_true, Bool.false_eq_true, if_false]

/-! ### The array -/

/-- A recirculation ends after the whole of a known gap, and otherwise after at most the cycles that its start allowed
(R93, R96; log entry 26). -/
theorem execRecirculationEnd_recirc {cycles : Nat} (hruns : s.runsAt t a)
    (hrecirc : a.flag TC_STATUS.RECIRC core = true) :
    execRecirculationEnd t core cycles s = .next (State.wr ((a.bumpWrap TC_CYC_RECIRC.COUNT core
      (if (a.core core).recircAll then (a.core core).recircMax else min cycles (a.core core).recircMax)).setCore core
        { a.core core with streamAt := a.now }) TC_STATUS.RECIRC core 0) :=
  State.live_next hruns (if_pos hrecirc)

end

/-- Settles O41: an operation that may issue enters the queue; the operation that the port or the array works on ends by its
parity, then by the poison of what it has read. -/
theorem arrayOperationsComplete : Obligations.ArrayOperationsComplete := by
  unfold Obligations.ArrayOperationsComplete
  intro s a t hruns
  refine ⟨?pass, ?drain, ?filled, ?fillPoisoned, ?fillParity, ?streamed, ?streamParity, ?recirculated,
    ?drained, ?drainParity⟩
  case pass =>
    rintro core body k o hissues rfl rfl hroom hfields hexcs
    exact State.live_issues hruns hissues (State.enters_withRoom hroom hfields hexcs)
  case drain =>
    rintro core body k o hissues rfl rfl hroom hfields hexcs
    exact State.live_issues hruns hissues (State.enters_withRoom hroom hfields hexcs)
  case filled =>
    rintro core conflicts bad o b k hport hfill hread rfl hclean
    refine (execFillDone_fill hruns hport hfill hread).trans ?_
    simp only [hclean, Bool.true_eq_false, Bool.false_eq_true, if_false]
  case fillPoisoned =>
    intro core conflicts bad o b hport hfill hread hpoisoned
    refine (execFillDone_fill hruns hport hfill hread).trans ?_
    simp only [hpoisoned, Bool.true_eq_false, if_false, if_true]
  case fillParity =>
    intro core conflicts bad o hport hfill
    exact execFillDone_fill hruns hport hfill rfl
  case streamed =>
    rintro core stalls gated conflicts bad k o e b c r n hstreams hidle rfl rfl rfl rfl rfl rfl
    show execStreamEnd t core stalls gated conflicts true bad s = _
    refine State.live_next hruns ?_
    simp only [hstreams, hidle, Bool.not_true, Bool.false_eq_true, if_false]
  case streamParity =>
    rintro core stalls gated conflicts bad o e b hstreams hidle rfl rfl
    show execStreamEnd t core stalls gated conflicts false bad s = _
    refine State.live_next hruns ?_
    simp only [hstreams, hidle, Bool.not_false, Bool.false_eq_true, if_false, if_true]
  case recirculated =>
    rintro core cycles k hrecirc rfl
    exact execRecirculationEnd_recirc hruns hrecirc
  case drained =>
    rintro core conflicts k n o b rfl hport hdrain hread hwritten
    exact execDrainDone_written hruns hport hdrain hread hwritten
  case drainParity =>
    intro core conflicts o hport hdrain
    exact execDrainDone_parity hruns hport hdrain

end Sys2Proof.Machine

/-! The exact accumulator cell (R122 to R125). A cell gives the fields back that it was made of; so a cell that has
received at most 2^32 contributions is made of their sum, their number and their kinds, whatever their order, and SETTLE
of a cell depends on its VALUE and flags alone. -/

namespace Sys2Proof.Machine

/-! ### A cell made of its fields -/

/-- COUNT and the flags of a cell, the bits above its VALUE. -/
def cellTop (n : Nat) (nan pinf ninf ovf : Bool) : Nat :=
  min n (2 ^ 32 - 1) ||| ((if nan then 1 else 0) <<< 32) ||| ((if pinf then 1 else 0) <<< 33) |||
    ((if ninf then 1 else 0) <<< 34) ||| ((if ovf then 1 else 0) <<< 35)

theorem cellTop_lt (n : Nat) (nan pinf ninf ovf : Bool) : cellTop n nan pinf ninf ovf < 2 ^ 36 := by
  have hmin : min n (2 ^ 32 - 1) < 2 ^ 36 := by omega
  have hbit : ∀ (b : Bool) (k : Nat), k < 36 → (if b then 1 else 0) <<< k < 2 ^ 36 := by
    intro b k hk
    rw [Nat.shiftLeft_eq]
    calc (if b then 1 else 0) * 2 ^ k ≤ 1 * 2 ^ k := Nat.mul_le_mul_right _ (by split <;> decide)
      _ < 2 ^ 36 := by rw [one_mul]; exact Nat.pow_lt_pow_right (by decide) hk
  exact Nat.or_lt_two_pow (Nat.or_lt_two_pow (Nat.or_lt_two_pow (Nat.or_lt_two_pow hmin (hbit _ _ (by decide)))
    (hbit _ _ (by decide))) (hbit _ _ (by decide))) (hbit _ _ (by decide))

theorem toNat_emod_lt (v : Int) (w : Nat) : (v % 2 ^ w).toNat < 2 ^ w := by
  have hpos : (0 : Int) < 2 ^ w := by positivity
  rw [Int.toNat_lt (Int.emod_nonneg _ hpos.ne')]
  exact_mod_cast Int.emod_lt_of_pos v hpos

theorem toNat_mkCell (v : Int) (n : Nat) (nan pinf ninf ovf : Bool) :
    (mkCell v n nan pinf ninf ovf).toNat = (v % 2 ^ 320).toNat ||| cellTop n nan pinf ninf ovf <<< 320 := by
  have hle : ∀ k : Nat, k ≤ 512 → 2 ^ k ≤ 2 ^ 512 := fun k hk => Nat.pow_le_pow_right (by decide) hk
  have htop : cellTop n nan pinf ninf ovf <<< 320 < 2 ^ (36 + 320) := by
    rw [Nat.shiftLeft_eq, pow_add]
    exact Nat.mul_lt_mul_of_pos_right (cellTop_lt ..) (by positivity)
  exact BitVec.toNat_ofNat _ _ |>.trans (Nat.mod_eq_of_lt (Nat.or_lt_two_pow
    ((toNat_emod_lt v 320).trans_le (hle 320 (by decide))) (htop.trans_le (hle _ (by decide)))))

theorem toNat_mkCell_mod (v : Int) (n : Nat) (nan pinf ninf ovf : Bool) :
    (mkCell v n nan pinf ninf ovf).toNat % 2 ^ 320 = (v % 2 ^ 320).toNat := by
  rw [toNat_mkCell, Nat.or_mod_two_pow, Nat.mod_eq_of_lt (toNat_emod_lt v 320), Nat.shiftLeft_eq, Nat.mul_mod_left,
    Nat.or_zero]

theorem toNat_mkCell_shift (v : Int) (n : Nat) (nan pinf ninf ovf : Bool) :
    (mkCell v n nan pinf ninf ovf).toNat >>> 320 = cellTop n nan pinf ninf ovf := by
  rw [toNat_mkCell, Nat.shiftRight_or_distrib, Nat.shiftRight_eq_div_pow, Nat.div_eq_of_lt (toNat_emod_lt v 320),
    Nat.zero_or, Nat.shiftLeft_shiftRight]

theorem cellValue_mkCell {v : Int} (n : Nat) (nan pinf ninf ovf : Bool) (hlo : -(2 ^ 319) ≤ v) (hhi : v < 2 ^ 319) :
    cellValue (mkCell v n nan pinf ninf ovf) = v := by
  have hhalf : (2 : Int) ^ 320 = 2 * 2 ^ 319 := pow_succ' 2 319
  have hmod : (((mkCell v n nan pinf ninf ovf).toNat % 2 ^ 320 : Nat) : Int) = v % 2 ^ 320 := by
    rw [toNat_mkCell_mod, Int.toNat_of_nonneg (Int.emod_nonneg _ (by positivity))]
  simp only [cellValue, hmod]
  rcases le_or_gt 0 v with hpos | hneg
  · have hself : v % 2 ^ 320 = v := Int.emod_eq_of_lt hpos (by omega)
    rw [hself, if_pos hhi]
  · have hwrap : v % 2 ^ 320 = v + 2 ^ 320 := by
      rw [← Int.add_emod_right]
      exact Int.emod_eq_of_lt (by omega) (by omega)
    rw [hwrap, if_neg (by omega), Int.add_sub_cancel]

theorem cellCount_mkCell (v : Int) (n : Nat) (nan pinf ninf ovf : Bool) :
    cellCount (mkCell v n nan pinf ninf ovf) = min n (2 ^ 32 - 1) := by
  have hmin : min n (2 ^ 32 - 1) < 2 ^ 32 := by omega
  have hbit : ∀ b k : Nat, b <<< (32 + k) % 2 ^ 32 = 0 := fun b k => by
    rw [Nat.shiftLeft_eq, pow_add, mul_comm, mul_assoc, Nat.mul_mod_right]
  rw [cellCount, toNat_mkCell_shift, cellTop]
  simp only [Nat.or_mod_two_pow, hbit _ 0, hbit _ 1, hbit _ 2, hbit _ 3, Nat.or_zero, Nat.mod_eq_of_lt hmin]

theorem testBit_flag (b : Bool) (i j : Nat) : ((if b then 1 else 0) <<< i).testBit j = (b && decide (j = i)) := by
  cases b
  · simp
  · simp [Nat.one_shiftLeft, Nat.testBit_two_pow, eq_comm]

theorem cellFlag_mkCell (v : Int) (n : Nat) (nan pinf ninf ovf : Bool) (k : Nat) :
    cellFlag (mkCell v n nan pinf ninf ovf) k = [nan, pinf, ninf, ovf].getD k false := by
  have hmin : (min n (2 ^ 32 - 1)).testBit (32 + k) = false :=
    Nat.testBit_lt_two_pow (by have := Nat.pow_le_pow_right (n := 2) (by decide) (show 32 ≤ 32 + k by omega); omega)
  have hshift : (mkCell v n nan pinf ninf ovf).toNat.testBit (352 + k) =
      (cellTop n nan pinf ninf ovf).testBit (32 + k) := by
    rw [← toNat_mkCell_shift v, Nat.testBit_shiftRight, ← Nat.add_assoc]
  rw [cellFlag, hshift, cellTop]
  simp only [Nat.testBit_or, hmin, testBit_flag]
  rcases k with _ | _ | _ | _ | k <;> simp +arith

theorem mkCell_cleared : mkCell 0 0 false false false false = 0 := by simp [mkCell]

/-! ### SETTLE -/

theorem settle_mkCell {v : Int} (n : Nat) (nan pinf ninf ovf : Bool) (f : Fmt) (hlo : -(2 ^ 319) ≤ v)
    (hhi : v < 2 ^ 319) :
    settle (mkCell v n nan pinf ninf ovf) f =
      if nan || ovf || (pinf && ninf) then f.nanCode
      else if pinf then f.infCode false else if ninf then f.infCode true else f.rne (ofUnits v (-152) false) := by
  simp only [settle, cellFlag_mkCell, cellValue_mkCell n nan pinf ninf ovf hlo hhi, List.getD_cons_zero,
    List.getD_cons_succ]

/-- A cell cleared to zeros settles to +0. -/
theorem settle_cleared (f : Fmt) : settle 0 f = 0 := by
  rw [← mkCell_cleared, settle_mkCell _ _ _ _ _ _ (neg_nonpos.mpr (by positivity)) (by positivity)]
  rfl

/-- Settles O16: the cell gives its VALUE and flags back, and SETTLE chooses by the flags. -/
theorem settleOfACell : Obligations.SettleOfACell := by
  unfold Obligations.SettleOfACell
  exact ⟨fun v n nan pinf ninf ovf f hlo hhi _ => settle_mkCell n nan pinf ninf ovf f hlo hhi, settle_cleared .fp32,
    settle_cleared .bf16⟩

/-! ### Contributions to a cell -/

/-- The value that a contribution's code stands for. -/
def contribution (x : Fmt × Nat) : Val := x.1.decode (x.2 % 2 ^ x.1.width)

/-- What a value adds to VALUE, in units of 2^-152: a NaN or an infinity adds nothing (R123). -/
def Val.cellUnits : Val → Int
  | .fin neg m e => unitsAt neg m e (-152)
  | _ => 0

/-- The cell that has received some values: their exact sum, their number, and a flag for each special among them. -/
def cellOf (vs : List Val) : Line :=
  mkCell (vs.map Val.cellUnits).sum vs.length (vs.contains .nan) (vs.contains (.inf false)) (vs.contains (.inf true))
    false

theorem natAbs_unitsAt (neg : Bool) (m : Nat) (e q : Int) : (unitsAt neg m e q).natAbs = m * 2 ^ (e - q).toNat := by
  rw [unitsAt, ← Nat.shiftLeft_eq]
  cases neg
  · exact Int.natAbs_natCast _
  · exact (Int.natAbs_neg _).trans (Int.natAbs_natCast _)

/-- A finite value of a format with infinities has a mantissa of mw + 1 bits and an exponent below the infinities'. -/
theorem Fmt.decode_fin_bounds {f : Fmt} {code m : Nat} {neg : Bool} {e : Int} (hinf : f.hasInf = true)
    (h : f.decode code = .fin neg m e) : m < 2 ^ (f.mw + 1) ∧ e + f.bias + f.mw + 1 < 2 ^ f.ew := by
  have hman : code % 2 ^ f.mw < 2 ^ f.mw := Nat.mod_lt _ (by positivity)
  have hex : (code >>> f.mw) % 2 ^ f.ew < 2 ^ f.ew := Nat.mod_lt _ (by positivity)
  have hnotop : 2 < 2 ^ f.ew := by cases f <;> decide
  have hdouble : 2 ^ (f.mw + 1) = 2 * 2 ^ f.mw := pow_succ' 2 f.mw
  simp only [Fmt.decode, hinf, Bool.true_and, beq_iff_eq] at h
  generalize (code >>> f.mw) % 2 ^ f.ew = ex at hex h
  split at h
  case isTrue => split at h <;> cases h
  case isFalse hfinite =>
    rw [if_neg (fun he => absurd hinf (by rw [he.1]; decide))] at h
    split at h
    case isTrue hzero =>
      cases h
      zify at hnotop
      constructor <;> omega
    case isFalse hnormal =>
      cases h
      have hfin : ex + 1 < 2 ^ f.ew := by omega
      zify at hfin
      constructor <;> omega

/-- A finite value of a format of R123 is at most 2^280 units of a cell. -/
theorem Val.abs_cellUnits_contribution_le {x : Fmt × Nat} (hx : x.1 = .fp32 ∨ x.1 = .bf16 ∨ x.1 = .fp16) :
    |(contribution x).cellUnits| ≤ 2 ^ 280 := by
  have hinf : x.1.hasInf = true := by rcases hx with h | h | h <;> rw [h] <;> rfl
  have hrange : x.1.mw + 1 ≤ 280 ∧ (2 : Int) ^ x.1.ew + 152 ≤ 281 + x.1.bias := by
    rcases hx with h | h | h <;> rw [h] <;> decide
  generalize hv : contribution x = v
  cases v with
  | nan => exact abs_zero.trans_le (by positivity)
  | inf neg => exact abs_zero.trans_le (by positivity)
  | fin neg m e =>
    obtain ⟨hm, he⟩ := Fmt.decode_fin_bounds hinf hv
    have hexp : x.1.mw + 1 + (e - -152).toNat ≤ 280 := by omega
    have hnat : (unitsAt neg m e (-152)).natAbs ≤ 2 ^ 280 := calc
      (unitsAt neg m e (-152)).natAbs = m * 2 ^ (e - -152).toNat := natAbs_unitsAt ..
      _ ≤ 2 ^ (x.1.mw + 1) * 2 ^ (e - -152).toNat := Nat.mul_le_mul_right _ hm.le
      _ ≤ 2 ^ 280 := by rw [← pow_add]; exact Nat.pow_le_pow_right (by decide) hexp
    rw [Val.cellUnits, Int.abs_eq_natAbs]
    exact_mod_cast hnat

/-- The triangle inequality of a list whose elements have one bound. -/
theorem abs_list_sum_le {l : List Int} {b : Int} (hl : ∀ x ∈ l, |x| ≤ b) : |l.sum| ≤ l.length * b := calc
  |l.sum| ≤ (l.map abs).sum := List.le_sum_of_subadditive _ abs_zero.le abs_add_le l
  _ ≤ (l.map abs).length • b := List.sum_le_card_nsmul _ _ (by simpa using hl)
  _ = l.length * b := by rw [List.length_map, nsmul_eq_mul]

/-- Contributions keep VALUE within its 320 bits (R123). -/
theorem cellSum_bounds {vs : List Val} (hvs : ∀ v ∈ vs, |v.cellUnits| ≤ 2 ^ 280) (hlen : vs.length ≤ 2 ^ 32) :
    -(2 ^ 319) ≤ (vs.map Val.cellUnits).sum ∧ (vs.map Val.cellUnits).sum < 2 ^ 319 := by
  have habs := abs_list_sum_le (l := vs.map Val.cellUnits) (b := 2 ^ 280) (by simpa using hvs)
  have hlt : ((vs.map Val.cellUnits).length : Int) * 2 ^ 280 < 2 ^ 319 := calc
    ((vs.map Val.cellUnits).length : Int) * 2 ^ 280 ≤ 2 ^ 32 * 2 ^ 280 := by
      rw [List.length_map]
      exact mul_le_mul_of_nonneg_right (by exact_mod_cast hlen) (by positivity)
    _ < 2 ^ 319 := by rw [← pow_add]; exact pow_lt_pow_right₀ (by decide) (by decide)
  obtain ⟨hneg, hpos⟩ := abs_lt.mp (habs.trans_lt hlt)
  exact ⟨hneg.le, hpos⟩

theorem abs_cellUnits_contributions_le {l : List (Fmt × Nat)} (hl : ∀ x ∈ l, x.1 = .fp32 ∨ x.1 = .bf16 ∨ x.1 = .fp16) :
    ∀ v ∈ l.map contribution, |v.cellUnits| ≤ 2 ^ 280 :=
  List.forall_mem_map.mpr fun x hx => Val.abs_cellUnits_contribution_le (hl x hx)

/-- One more value, while VALUE holds the sums. -/
theorem cellAdd_cellOf {vs : List Val} {v : Val} (hvs : ∀ w ∈ vs ++ [v], |w.cellUnits| ≤ 2 ^ 280)
    (hlen : (vs ++ [v]).length ≤ 2 ^ 32) : cellAdd (cellOf vs) v = cellOf (vs ++ [v]) := by
  obtain ⟨hlo', hhi'⟩ := cellSum_bounds hvs hlen
  rw [List.length_append, List.length_singleton] at hlen
  obtain ⟨hlo, hhi⟩ := cellSum_bounds (fun w hw => hvs w (List.mem_append_left _ hw)) (by omega)
  have hcount : min vs.length (2 ^ 32 - 1) + 1 = vs.length + 1 := by omega
  have hsum : ((vs ++ [v]).map Val.cellUnits).sum = (vs.map Val.cellUnits).sum + v.cellUnits := by simp
  rw [hsum] at hlo' hhi'
  simp only [cellAdd, cellOf, cellValue_mkCell _ _ _ _ _ hlo hhi, cellCount_mkCell, cellFlag_mkCell, hcount, hsum,
    List.length_append, List.length_singleton, List.contains_append]
  cases v with
  | nan => simp [Val.cellUnits]
  | inf neg => cases neg <;> simp [Val.cellUnits]
  | fin neg m e =>
    have hbelow : decide ((vs.map Val.cellUnits).sum + unitsAt neg m e (-152) < -(2 ^ 319)) = false :=
      decide_eq_false (not_lt.mpr hlo')
    have habove : decide (2 ^ 319 ≤ (vs.map Val.cellUnits).sum + unitsAt neg m e (-152)) = false :=
      decide_eq_false (not_le.mpr hhi')
    simp [Val.cellUnits, hbelow, habove]

theorem foldl_cellAdd_eq_cellOf {vs : List Val} (hvs : ∀ v ∈ vs, |v.cellUnits| ≤ 2 ^ 280) (hlen : vs.length ≤ 2 ^ 32) :
    vs.foldl cellAdd 0 = cellOf vs := by
  induction vs using List.reverseRecOn with
  | nil => exact mkCell_cleared.symm
  | append_singleton vs v ih =>
    have hinit : vs.length ≤ 2 ^ 32 := by rw [List.length_append] at hlen; omega
    rw [List.foldl_append, ih (fun w hw => hvs w (List.mem_append_left _ hw)) hinit]
    exact cellAdd_cellOf hvs hlen

theorem cellOf_perm {vs ws : List Val} (h : vs.Perm ws) : cellOf vs = cellOf ws := by
  simp only [cellOf, (h.map _).sum_eq, h.length_eq, h.contains_eq]

theorem foldl_contributions {l : List (Fmt × Nat)} (hl : ∀ x ∈ l, x.1 = .fp32 ∨ x.1 = .bf16 ∨ x.1 = .fp16)
    (hlen : l.length ≤ 2 ^ 32) :
    l.foldl (fun c x => cellAdd c (x.1.decode (x.2 % 2 ^ x.1.width))) 0 = cellOf (l.map contribution) := by
  rw [← foldl_cellAdd_eq_cellOf (abs_cellUnits_contributions_le hl) (by rwa [List.length_map]), List.foldl_map]
  rfl

/-- Settles O15: the cell is a function of the sum, the number and the kinds of the contributions. -/
theorem orderOfContributionsDoesNotMatter : Obligations.OrderOfContributionsDoesNotMatter := by
  unfold Obligations.OrderOfContributionsDoesNotMatter
  intro l m hl hlen hperm
  have hm : ∀ x ∈ m, x.1 = .fp32 ∨ x.1 = .bf16 ∨ x.1 = .fp16 := fun x hx => hl x (hperm.mem_iff.mpr hx)
  rw [foldl_contributions hl hlen, foldl_contributions hm (hperm.length_eq ▸ hlen)]
  exact cellOf_perm (hperm.map contribution)

/-- Settles O14: the cell that the contributions make has their sum as its VALUE, and OVF clear. -/
theorem cellHoldsTheExactSum : Obligations.CellHoldsTheExactSum := by
  unfold Obligations.CellHoldsTheExactSum
  rintro l _ hl hlen rfl
  rw [foldl_contributions hl hlen]
  refine ⟨cellFlag_mkCell .., ?value⟩
  case value =>
    obtain ⟨hlo, hhi⟩ := cellSum_bounds (abs_cellUnits_contributions_le hl) (by rwa [List.length_map])
    rw [cellOf, cellValue_mkCell _ _ _ _ _ hlo hhi, List.map_map]
    rfl

end Sys2Proof.Machine

/-! Floating additions at the memory side and the FP4 codes (R105, R106, R280). -/

namespace Sys2Proof.Machine

/-! ### Additions in a format -/

theorem Val.add_comm (x y : Val) : Val.add x y = Val.add y x := by
  cases x with
  | nan => cases y <;> rfl
  | inf a =>
    cases y with
    | inf b => cases a <;> cases b <;> rfl
    | _ => rfl
  | fin a m e =>
    cases y with
    | fin b n f =>
      have hsign : (a && b && m == 0 && n == 0) = (b && a && n == 0 && m == 0) := by
        rw [Bool.and_comm a b, Bool.and_right_comm]
      simp only [Val.add, min_comm e f, hsign, Int.add_comm (unitsAt a m e _)]
    | _ => rfl

theorem Val.nan_add (y : Val) : Val.add .nan y = .nan := rfl

theorem Fmt.addCodes_comm (f : Fmt) (x y : Nat) : f.addCodes x y = f.addCodes y x :=
  congrArg f.rne (Val.add_comm _ _)

theorem Fmt.addCodes_nan {f : Fmt} {x : Nat} (y : Nat) (hx : f.decode x = .nan) : f.addCodes x y = f.nanCode := by
  rw [Fmt.addCodes, hx]
  rfl

/-- Settles O17: the exact sum is symmetric, and the codes of zeros and infinities are decoded and added. -/
theorem floatingAdditionsCommute : Obligations.FloatingAdditionsCommute := by
  unfold Obligations.FloatingAdditionsCommute
  intro f hf
  refine ⟨f.addCodes_comm, fun x y hx => Fmt.addCodes_nan y hx, ?special⟩
  case special =>
    rcases hf with rfl | rfl | rfl
    all_goals decide

/-! ### FP4 -/

/-- Settles O18: each code is decoded. -/
theorem fp4Codes : Obligations.Fp4Codes := by
  unfold Obligations.Fp4Codes
  intro fp4 htable
  simp only [htable]
  decide

end Sys2Proof.Machine

/-! Memory-side operations (R123, R125, R279 to R284): a request that keeps the rules and is admitted goes to the
operation of its form, and its result is the answer. -/

namespace Sys2Proof.Machine

/-! ### Requests that keep the rules -/

section
variable {c : State} {agent code size : Nat} {f : Fmt} {r : MopReq}

theorem isSettle_of_mopSize (hsize : mopSize code = some size) : isSettle code = false := by
  by_contra h
  rw [Bool.not_eq_false, isSettle, Bool.or_eq_true, beq_iff_eq, beq_iff_eq] at h
  rcases h with rfl | rfl
  · cases hsize
  · cases hsize

theorem State.mopLegal_scalar (hform : r.form = .scalar) (hsize : mopSize code = some size)
    (hcoh : (c.region r.pa).coherent = true) (halign : r.pa % size = 0) : c.mopLegal code r = true := by
  simp [State.mopLegal, hform, hsize, hcoh, halign]

theorem State.mopLegal_cells (hform : r.form = .cells) (hfmt : cellFmt code = some f)
    (hcoh : (c.region r.pa).coherent = true) (halign : r.pa % 64 = 0) (hmin : 1 ≤ r.n) (hmax : r.n ≤ 16)
    (hgranule : r.pa / 4096 = (r.pa + 64 * r.n - 1) / 4096) : c.mopLegal code r = true := by
  simp [State.mopLegal, hform, hfmt, hcoh, halign, hmin, hmax, ← hgranule]

theorem State.mop_scalar (hform : r.form = .scalar) (hsize : mopSize code = some size)
    (hlegal : c.mopLegal code r = true) (hadmits : c.admits agent true r.pa size = true) :
    c.mop agent code r = (some (c.mopLine code r size).1, (c.mopLine code r size).2) := by
  have hsettle := isSettle_of_mopSize hsize
  have hspan : mopSpan r code = size := by simp [mopSpan, hform, hsize]
  simp [State.mop, hlegal, hsettle, hspan, hadmits, hform, hsize]

theorem State.mop_cells (hform : r.form = .cells) (hfmt : cellFmt code = some f) (hadds : isSettle code = false)
    (hlegal : c.mopLegal code r = true) (hadmits : c.admits agent true r.pa (64 * r.n) = true) :
    c.mop agent code r = c.mopCells agent code f r := by
  have hspan : mopSpan r code = 64 * r.n := by simp [mopSpan, hform]
  simp [State.mop, hlegal, hadds, hspan, hadmits, hform, hfmt]

theorem State.mop_settle (hform : r.form = .cells) (hfmt : cellFmt code = some f) (hsettle : isSettle code = true)
    (hlegal : c.mopLegal code r = true) (hadmits : c.admits agent false r.pa (64 * r.n) = true)
    (htarget : c.targetLegal r (f.width / 8) = true) :
    c.mop agent code r = (some (c.mopSettle agent f r).1, (c.mopSettle agent f r).2) := by
  have hspan : mopSpan r code = 64 * r.n := by simp [mopSpan, hform]
  simp [State.mop, hlegal, hsettle, hspan, hadmits, hform, hfmt, htarget]

/-- A scalar operation at a line that its adder has taken unpoisoned stores its new value and fetches the old one. -/
theorem State.mopLine_scalar {old : Nat} (hform : r.form = .scalar) (hlost : c.lostLine (r.pa / 64) = false)
    (hclean : (c.adderTake (r.pa / 64)).2.1 = false)
    (hold : old = ((c.adderTake (r.pa / 64)).1.toNat >>> (8 * (r.pa % 64))) % 2 ^ (8 * size)) :
    c.mopLine code r size =
      (.ok (if r.fetch || decide (0x20 ≤ code) then BitVec.ofNat 64 old else 0),
        ((c.adderTake (r.pa / 64)).2.2.countMop (r.pa / 64)).storeLine (r.pa / 64) (maskOf (r.pa % 64) size)
          (BitVec.ofNat 512 (mopNew code (8 * size) old r.operand.toNat <<< (8 * (r.pa % 64))))) := by
  subst hold
  simp [State.mopLine, hlost, hclean, hform, State.adderPut]

end

/-! ### The answers -/

section
variable {s a b : State} {t agent code : Nat} {r : MopReq}

theorem State.mopAnswer_now (hsave : a.save.phase = 0) (hhold : a.holdKey (r.pa / 64) = none) :
    a.mopAnswer agent code r = a.mopNow agent code r := by
  simp [State.mopAnswer, hsave, State.orHold, hhold]

theorem State.live_mop_ok {w : Word} (hruns : s.runsAt t a) (hsave : a.save.phase = 0)
    (hhold : a.holdKey (r.pa / 64) = none)
    (hmop : (a.reading r.found 0 agent).mop agent code r = (some (.ok w), b))
    (hfree : (b.answer agent w).access.blocked = none) :
    s.live t (fun s => s.mopAnswer agent code r) = .next (b.answer agent w).readsDone := by
  refine State.live_next hruns ((State.mopAnswer_now hsave hhold).trans ?_)
  rw [State.mopNow, State.reads_done (by simpa only [hmop] using hfree)]
  simp only [hmop]

theorem State.live_mop_waits (hruns : s.runsAt t a) (hsave : a.save.phase = 0)
    (hhold : a.holdKey (r.pa / 64) = none) (hmop : (a.reading r.found 0 agent).mop agent code r = (none, b))
    (hfree : b.access.blocked = none) : s.live t (fun s => s.mopAnswer agent code r) = .next b.readsDone := by
  refine State.live_next hruns ((State.mopAnswer_now hsave hhold).trans ?_)
  rw [State.mopNow, State.reads_done (by simpa only [hmop] using hfree)]
  simp only [hmop]

end

/-! ### The operations of each form -/

section
variable {s a : State} {t code size : Nat} {f : Fmt}

/-- A scalar operation completes: `op` gives its new value from the old one, the operand's element and the whole operand,
`word` the answer from the request's fetch bit and the old value. -/
theorem State.live_scalar (hruns : s.runsAt t a) (hsize : mopSize code = some size) (op : Nat → Nat → Nat → Nat)
    (hop : ∀ old x, mopNew code (8 * size) old x = op old (x % 2 ^ (8 * size)) x) {word : Bool → Nat → Word}
    (hword : ∀ fetch old, (if fetch || decide (0x20 ≤ code) then BitVec.ofNat 64 old else 0) = word fetch old) :
    ∀ (agent old y v : Nat) (r : MopReq) (d : Line) (c b u : State), a.save.phase = 0 → r.form = .scalar →
      (a.region r.pa).coherent = true → r.pa % size = 0 → a.admits agent true r.pa size = true →
      a.holdKey (r.pa / 64) = none → c = a.reading r.found 0 agent → c.lostLine (r.pa / 64) = false →
      d = (c.adderTake (r.pa / 64)).1 → (c.adderTake (r.pa / 64)).2.1 = false → b = (c.adderTake (r.pa / 64)).2.2 →
      old = (d.toNat >>> (8 * (r.pa % 64))) % 2 ^ (8 * size) → y = r.operand.toNat % 2 ^ (8 * size) →
      v = op old y r.operand.toNat →
      u = ((b.countMop (r.pa / 64)).storeLine (r.pa / 64) (maskOf (r.pa % 64) size)
        (BitVec.ofNat 512 (v <<< (8 * (r.pa % 64))))).answer agent (word r.fetch old) →
      u.access.blocked = none → s.live t (fun s => s.mopAnswer agent code r) = .next u.readsDone := by
  rintro agent old _ _ r d c b u hsave hform hcoh halign hadmits hhold hc hlost rfl hclean rfl hold rfl rfl rfl hfree
  have hlegal : c.mopLegal code r = true := State.mopLegal_scalar hform hsize (by rwa [hc, State.reading_region]) halign
  have hadmits' : c.admits agent true r.pa size = true := by rwa [hc, State.reading_admits]
  have hmop := State.mop_scalar hform hsize hlegal hadmits'
  rw [State.mopLine_scalar hform hlost hclean hold, hop, hword, hc] at hmop
  rw [hc] at hfree ⊢
  exact State.live_mop_ok hruns hsave hhold hmop hfree

/-- An operation below 0x20 answers the old value when its request fetches it. -/
theorem mopWord_below (hcode : code < 0x20) (fetch : Bool) (old : Nat) :
    (if fetch || decide (0x20 ≤ code) then BitVec.ofNat 64 old else 0) = if fetch then BitVec.ofNat 64 old else 0 := by
  simp [Nat.not_le.mpr hcode]

/-- A CAS or a SWAP answers the old value. -/
theorem mopWord_fetching (hcode : 0x20 ≤ code) (fetch : Bool) (old : Nat) :
    (if fetch || decide (0x20 ≤ code) then BitVec.ofNat 64 old else 0) = BitVec.ofNat 64 old := by
  simp [hcode]

/-- An EA that keeps the rules and is admitted adds to its cells, also when the command has begun to read. -/
theorem State.reading_mop_cells {found : Found} {source who agent : Nat} {r : MopReq} (hfmt : cellFmt code = some f)
    (hadds : isSettle code = false) (hform : r.form = .cells) (hcoh : (a.region r.pa).coherent = true)
    (halign : r.pa % 64 = 0) (hmin : 1 ≤ r.n) (hmax : r.n ≤ 16) (hgranule : r.pa / 4096 = (r.pa + 64 * r.n - 1) / 4096)
    (hadmits : a.admits agent true r.pa (64 * r.n) = true) :
    (a.reading found source who).mop agent code r = (a.reading found source who).mopCells agent code f r :=
  have hcoh' : ((a.reading found source who).region r.pa).coherent = true := by rwa [State.reading_region]
  State.mop_cells hform hfmt hadds (State.mopLegal_cells hform hfmt hcoh' halign hmin hmax hgranule)
    (by rwa [State.reading_admits])

/-- An EA whose last cells take their contributions unpoisoned answers its agent. -/
theorem State.live_cells_done (hruns : s.runsAt t a) (hfmt : cellFmt code = some f) (hadds : isSettle code = false) :
    ∀ (agent : Nat) (r : MopReq) (c b u : State), a.save.phase = 0 → r.form = .cells →
      (a.region r.pa).coherent = true → r.pa % 64 = 0 → 1 ≤ r.n → r.n ≤ 16 →
      r.pa / 4096 = (r.pa + 64 * r.n - 1) / 4096 → a.admits agent true r.pa (64 * r.n) = true →
      a.holdKey (r.pa / 64) = none → c = a.reading r.found 0 agent → b = (c.mopCells agent code f r).2 →
      u = b.answer agent 0 → (c.mopCells agent code f r).1 = some (.ok 0) → u.access.blocked = none →
      s.live t (fun s => s.mopAnswer agent code r) = .next u.readsDone := by
  rintro agent r c b _ hsave hform hcoh halign hmin hmax hgranule hadmits hhold hc hb rfl hok hfree
  have hmop := State.reading_mop_cells (found := r.found) (source := 0) (who := agent) hfmt hadds hform hcoh halign hmin
    hmax hgranule hadmits
  exact State.live_mop_ok hruns hsave hhold (hmop.trans (hc ▸ Prod.ext hok hb.symm)) hfree

/-- An EA with cells left has done the others, and answers nothing yet (R283). -/
theorem State.live_cells_waits (hruns : s.runsAt t a) (hfmt : cellFmt code = some f) (hadds : isSettle code = false) :
    ∀ (agent : Nat) (r : MopReq) (c b u : State), a.save.phase = 0 → r.form = .cells →
      (a.region r.pa).coherent = true → r.pa % 64 = 0 → 1 ≤ r.n → r.n ≤ 16 →
      r.pa / 4096 = (r.pa + 64 * r.n - 1) / 4096 → a.admits agent true r.pa (64 * r.n) = true →
      a.holdKey (r.pa / 64) = none → c = a.reading r.found 0 agent → b = (c.mopCells agent code f r).2 → u = b →
      (c.mopCells agent code f r).1 = none → u.access.blocked = none →
      s.live t (fun s => s.mopAnswer agent code r) = .next u.readsDone := by
  rintro agent r c b _ hsave hform hcoh halign hmin hmax hgranule hadmits hhold hc hb rfl hwaits hfree
  have hmop := State.reading_mop_cells (found := r.found) (source := 0) (who := agent) hfmt hadds hform hcoh halign hmin
    hmax hgranule hadmits
  exact State.live_mop_waits hruns hsave hhold (hmop.trans (hc ▸ Prod.ext hwaits hb.symm)) hfree

/-- A SETTLE that meets no poison and whose target is admitted answers its agent (R125). -/
theorem State.live_settle (hruns : s.runsAt t a) (hfmt : cellFmt code = some f) (hsettle : isSettle code = true) :
    ∀ (agent : Nat) (r : MopReq) (c b u : State), a.save.phase = 0 → r.form = .cells →
      (a.region r.pa).coherent = true → r.pa % 64 = 0 → 1 ≤ r.n → r.n ≤ 16 →
      r.pa / 4096 = (r.pa + 64 * r.n - 1) / 4096 → a.admits agent false r.pa (64 * r.n) = true →
      a.targetLegal r (f.width / 8) = true → a.holdKey (r.pa / 64) = none → c = a.reading r.found 0 agent →
      b = (c.mopSettle agent f r).2 → u = b.answer agent 0 → (c.mopSettle agent f r).1 = .ok 0 →
      u.access.blocked = none → s.live t (fun s => s.mopAnswer agent code r) = .next u.readsDone := by
  rintro agent r c b _ hsave hform hcoh halign hmin hmax hgranule hadmits htarget hhold hc rfl rfl hok hfree
  have hlegal : c.mopLegal code r = true :=
    State.mopLegal_cells hform hfmt (by rwa [hc, State.reading_region]) halign hmin hmax hgranule
  have hmop := State.mop_settle (agent := agent) hform hfmt hsettle hlegal (by rwa [hc, State.reading_admits])
    (by rwa [hc, State.reading_targetLegal])
  rw [hok, hc] at hmop
  rw [hc] at hfree ⊢
  exact State.live_mop_ok hruns hsave hhold hmop hfree

end

/-- Settles O50, in the order of the statement: each scalar operation by its code, its bytes and its new value, then the
operations on cells by their codes. -/
theorem memorySideOperationsComplete : Obligations.MemorySideOperationsComplete := by
  unfold Obligations.MemorySideOperationsComplete
  intro s a t hruns
  exact ⟨State.live_scalar hruns (code := 0x01) (size := 4) rfl (fun old y _ => (old + y) % 2 ^ 32)
      (fun _ _ => rfl) (mopWord_below (by decide)),
    State.live_scalar hruns (code := 0x02) (size := 8) rfl (fun old y _ => (old + y) % 2 ^ 64)
      (fun _ _ => rfl) (mopWord_below (by decide)),
    State.live_scalar hruns (code := 0x03) (size := 4) rfl
      (fun old y _ => if signedNat 32 old ≤ signedNat 32 y then old else y)
      (fun _ _ => rfl) (mopWord_below (by decide)),
    State.live_scalar hruns (code := 0x04) (size := 8) rfl
      (fun old y _ => if signedNat 64 old ≤ signedNat 64 y then old else y)
      (fun _ _ => rfl) (mopWord_below (by decide)),
    State.live_scalar hruns (code := 0x05) (size := 4) rfl
      (fun old y _ => if signedNat 32 old ≤ signedNat 32 y then y else old)
      (fun _ _ => rfl) (mopWord_below (by decide)),
    State.live_scalar hruns (code := 0x06) (size := 8) rfl
      (fun old y _ => if signedNat 64 old ≤ signedNat 64 y then y else old)
      (fun _ _ => rfl) (mopWord_below (by decide)),
    State.live_scalar hruns (code := 0x07) (size := 4) rfl (fun old y _ => min old y)
      (fun _ _ => rfl) (mopWord_below (by decide)),
    State.live_scalar hruns (code := 0x08) (size := 8) rfl (fun old y _ => min old y)
      (fun _ _ => rfl) (mopWord_below (by decide)),
    State.live_scalar hruns (code := 0x09) (size := 4) rfl (fun old y _ => max old y)
      (fun _ _ => rfl) (mopWord_below (by decide)),
    State.live_scalar hruns (code := 0x0A) (size := 8) rfl (fun old y _ => max old y)
      (fun _ _ => rfl) (mopWord_below (by decide)),
    State.live_scalar hruns (code := 0x10) (size := 4) rfl (fun old y _ => Fmt.addCodes .fp32 old y)
      (fun _ _ => rfl) (mopWord_below (by decide)),
    State.live_scalar hruns (code := 0x11) (size := 2) rfl (fun old y _ => Fmt.addCodes .bf16 old y)
      (fun _ _ => rfl) (mopWord_below (by decide)),
    State.live_scalar hruns (code := 0x12) (size := 2) rfl (fun old y _ => Fmt.addCodes .fp16 old y)
      (fun _ _ => rfl) (mopWord_below (by decide)),
    State.live_scalar hruns (code := 0x20) (size := 4) rfl (fun old y x => if old = y then (x >>> 32) % 2 ^ 32 else old)
      (fun _ _ => rfl) (mopWord_fetching (by decide)),
    State.live_scalar hruns (code := 0x21) (size := 8) rfl (fun old y x => if old = y then (x >>> 64) % 2 ^ 64 else old)
      (fun _ _ => rfl) (mopWord_fetching (by decide)),
    State.live_scalar hruns (code := 0x22) (size := 4) rfl (fun _ y _ => y)
      (fun _ _ => rfl) (mopWord_fetching (by decide)),
    State.live_scalar hruns (code := 0x23) (size := 8) rfl (fun _ y _ => y)
      (fun _ _ => rfl) (mopWord_fetching (by decide)),
    State.live_cells_done hruns (code := 0x18) rfl rfl,
    State.live_cells_done hruns (code := 0x19) rfl rfl,
    State.live_cells_done hruns (code := 0x1A) rfl rfl,
    State.live_cells_waits hruns (code := 0x18) rfl rfl,
    State.live_cells_waits hruns (code := 0x19) rfl rfl,
    State.live_cells_waits hruns (code := 0x1A) rfl rfl,
    State.live_settle hruns (code := 0x1C) rfl rfl,
    State.live_settle hruns (code := 0x1D) rfl rfl⟩

end Sys2Proof.Machine

/-! Tile instructions of the scalar unit, control and signals (R126, R132, R133, R151 to R160). An instruction that a
core issues with no offending field and no exception has its effect; the scalar ones write one address register, and the
next PC depends on the loop counters alone. -/

namespace Sys2Proof.Machine

/-! ### A core replaced, and the PC that follows -/

@[simp] theorem State.core_setCore_same (s : State) (c : Nat) (k : Core) : (s.setCore c k).core c = k :=
  Tab.get_put_same _ _ _ _

theorem State.core_setCore_other (s : State) (k : Core) {c j : Nat} (h : j ≠ c) : (s.setCore c k).core j = s.core j :=
  Tab.get_put_other _ _ _ h

/-- A write of an address register changes the address registers alone. -/
theorem Core.setA_eq (k : Core) (n : Nat) (v : Word) : k.setA n v = { k with a := (k.setA n v).a } := by
  unfold Core.setA
  split
  · rfl
  · rfl

theorem Core.setA_loops (k : Core) (n : Nat) (v : Word) : (k.setA n v).loops = k.loops := by rw [Core.setA_eq]

theorem Core.setA_launch (k : Core) (n : Nat) (v : Word) : (k.setA n v).launch = k.launch := by rw [Core.setA_eq]

theorem Core.ar_congr {k j : Core} (h : j.a = k.a) (x : Nat) : j.ar x = k.ar x := by
  rw [Core.ar, h, Core.ar]

theorem Core.ar_setA_same (k : Core) {n : Nat} (v : Word) (hn : n ≠ 0) : (k.setA n v).ar n = v := by
  simp [Core.ar, Core.setA, hn]

theorem Core.ar_setA_other (k : Core) {n x : Nat} (v : Word) (h : x ≠ n ∨ x = 0) : (k.setA n v).ar x = k.ar x := by
  rcases h with hne | rfl
  · unfold Core.setA
    split
    · rfl
    · simp [Core.ar, Tab.get_put_other _ _ _ hne]
  · rfl

theorem Core.loop_congr {k j : Core} (h : j.loops = k.loops) : j.loop = k.loop :=
  funext fun n => by rw [Core.loop, h, Core.loop]

theorem Core.loops_setLoop_congr {k j : Core} (h : j.loops = k.loops) (n : Nat) (l : LoopCtr) :
    (j.setLoop n l).loops = (k.setLoop n l).loops :=
  congrArg (Tab.put loopOff · n l) h

/-- The next PC depends on the loop counters alone, and reaching it changes them alone (R159, R160). -/
theorem Core.nextPc_of_loops (pc : Nat) (ds : List Nat) {k j : Core} (h : j.loops = k.loops) :
    j.nextPc pc ds = ({ j with loops := (k.nextPc pc ds).1.loops }, (k.nextPc pc ds).2) := by
  induction ds generalizing k j with
  | nil => simp only [Core.nextPc, ← h]
  | cons d ds ih =>
    simp only [Core.nextPc, Core.loop_congr h]
    split
    next => exact ih h
    next n _ =>
      split
      next => exact congrArg (fun x => ({ j with loops := x }, _)) (Core.loops_setLoop_congr h n _)
      next => exact ih (Core.loops_setLoop_congr h n _)

/-! ### A core marked by issue (R164) -/

theorem State.core_markIssue (s : State) (c : Nat) : (s.markIssue c).core c =
    { s.core c with firstIssue := some ((s.core c).firstIssue.getD s.now) } :=
  State.core_setCore_same _ _ _

theorem State.setA_core_markIssue (s : State) (c n : Nat) (v : Word) : ((s.markIssue c).core c).setA n v =
    { (s.core c).setA n v with firstIssue := some ((s.core c).firstIssue.getD s.now) } := by
  rw [State.core_markIssue]
  unfold Core.setA
  split
  · rfl
  · rfl

/-- No source of ARD is the mark of a first issue (R158). -/
theorem State.ardValue_markIssue (s : State) (c src pc : Nat) :
    (s.markIssue c).ardValue c src pc = s.ardValue c src pc := by
  have hflags : (s.markIssue c).rd TC_FLAGS.FLAGS c = s.rd TC_FLAGS.FLAGS c := State.setCore_rd _ _ _ _ _
  have htb : (s.markIssue c).tb = s.tb := rfl
  simp only [State.ardValue, hflags, htb, State.core_markIssue]
  rfl

/-! ### Instructions that take effect -/

/-- An instruction after its checks, when no field offends and no exception is its own, has its effect (R133). -/
theorem State.checked_passes {s : State} {c pc : Nat} {ill : Option Nat} {excs : List (Nat × Nat)} {ok : Option State}
    (hfields : ill = none) (hexcs : excs = []) : s.checked c pc ill excs ok = ok := by
  rw [hfields, hexcs, State.checked_none]

section
variable {s a b : State} {t core : Nat} {body : BitVec 56}

/-- A command whose instruction is at its core's PC, with no offending field and no exception, has the instruction's
effect (R132, R133). -/
theorem State.live_effect {op : Nat} {ill : State → Nat → Option Nat} {excs : State → Nat → List (Nat × Nat)}
    {ok : State → Nat → Option State} (hruns : s.runsAt t a) (hissues : a.issuesNow core op body = true)
    (hfields : ill (a.markIssue core) (a.rd TC_PC.PC core) = none)
    (hexcs : excs (a.markIssue core) (a.rd TC_PC.PC core) = [])
    (hok : ok (a.markIssue core) (a.rd TC_PC.PC core) = some b) :
    s.live t (fun s => s.issue core op body fun s pc => s.checked core pc (ill s pc) (excs s pc) (ok s pc)) =
      .next b :=
  State.live_issues hruns hissues ((State.checked_passes hfields hexcs).trans hok)

theorem exec_aop (hruns : s.runsAt t a) (hissues : a.issuesNow core 0x40 body = true)
    (hfields : lowestOffence body (maskBits 55 53 ||| maskBits 32 0) [(48, decide (12 < fieldAt body 52 48))] = none) :
    exec (.aop t core body) s = .next ((a.markIssue core).passWith core (a.rd TC_PC.PC core) fun k =>
      k.setA (fieldAt body 47 43)
        (scalarOp (fieldAt body 52 48) (k.ar (fieldAt body 42 38)) (k.ar (fieldAt body 37 33)))) :=
  State.live_effect hruns hissues hfields rfl rfl

theorem exec_aopi (hruns : s.runsAt t a) (hissues : a.issuesNow core 0x41 body = true)
    (hfields : lowestOffence body (maskBits 55 53 ||| maskBits 37 32) [(48, decide (12 < fieldAt body 52 48))] = none) :
    exec (.aopi t core body) s = .next ((a.markIssue core).passWith core (a.rd TC_PC.PC core) fun k =>
      k.setA (fieldAt body 47 43) (scalarOp (fieldAt body 52 48) (k.ar (fieldAt body 42 38))
        (BitVec.ofInt 64 (signedOf 32 (fieldAt body 31 0))))) :=
  State.live_effect hruns hissues hfields rfl rfl

theorem exec_ali (hruns : s.runsAt t a) (hissues : a.issuesNow core 0x42 body = true)
    (hfields : lowestOffence body (maskBits 55 50 ||| maskBits 42 32) [(48, fieldAt body 49 48 == 3)] = none) :
    exec (.ali t core body) s = .next ((a.markIssue core).passWith core (a.rd TC_PC.PC core) fun k =>
      k.setA (fieldAt body 47 43)
        (aliValue (fieldAt body 49 48) (fieldAt body 31 0) (k.ar (fieldAt body 47 43)))) :=
  State.live_effect hruns hissues hfields rfl rfl

theorem exec_ard (hruns : s.runsAt t a) (hissues : a.issuesNow core 0x43 body = true)
    (hfields : lowestOffence body (maskBits 55 48 ||| maskBits 42 8) [(0, decide (15 < fieldAt body 7 0))] = none) :
    exec (.ard t core body) s = .next ((a.markIssue core).passWith core (a.rd TC_PC.PC core) fun k =>
      k.setA (fieldAt body 47 43) ((a.markIssue core).ardValue core (fieldAt body 7 0) (a.rd TC_PC.PC core))) :=
  State.live_effect hruns hissues hfields rfl rfl

end

/-- Settles O40: each instruction passes its checks, and a counter that has reached its value lets CCWAIT pass. -/
theorem tileScalarCompletes : Obligations.TileScalarCompletes := by
  unfold Obligations.TileScalarCompletes
  intro s a t hruns
  refine ⟨fun core body => exec_aop hruns, fun core body => exec_aopi hruns, fun core body => exec_ali hruns,
    fun core body => exec_ard hruns, ?tag, ?ccset, ?ccwait⟩
  case tag =>
    intro core body hissues hfields
    exact State.live_effect hruns hissues hfields rfl rfl
  case ccset =>
    intro core body hissues hfields
    exact State.live_effect hruns hissues hfields rfl rfl
  case ccwait =>
    rintro core body k hissues hfields rfl hreached
    exact State.live_effect hruns hissues hfields rfl (if_pos hreached)

/-! ### What a scalar instruction leaves -/

/-- Of a core, what an instruction that writes address register d leaves as it was (R126, R158). -/
def Core.ScalarFrame (k : Core) (d : Nat) (j : Core) : Prop :=
  (∀ x : Nat, x ≠ d ∨ x = 0 → j.ar x = k.ar x) ∧ j.v = k.v ∧ j.m = k.m ∧ j.cc = k.cc ∧ j.banks = k.banks ∧
    j.sp = k.sp ∧ j.layer = k.layer ∧ j.opid = k.opid

/-- Neither the mark of a first issue nor loops that go on are part of it. -/
theorem Core.scalarFrame_setA (k : Core) (d : Nat) (v : Word) (first : Option Nat) (loops : Tab LoopCtr) :
    k.ScalarFrame d { k.setA d v with firstIssue := first, loops := loops } := by
  refine ⟨fun x hx => (Core.ar_congr rfl x).trans (k.ar_setA_other v hx), ?_⟩
  rw [k.setA_eq d v]
  exact ⟨rfl, rfl, rfl, rfl, rfl, rfl, rfl⟩

section
variable {s a : State} {core pc d : Nat}

/-- Issue passes an instruction that leaves the loop counters and the launch of its core as they were: the core takes
its effect, its loops go on, and the next PC, within the program, is stored. -/
theorem State.passWith_within {f : Core → Core} {k j : Core} (hj : f (s.core core) = j) (hloops : j.loops = k.loops)
    (hlaunch : j.launch = k.launch) (hin : (k.nextPc pc [4, 3, 2, 1]).2 < k.progLen) :
    s.passWith core pc f =
      ((s.setCore core j).setCore core { j with loops := (k.nextPc pc [4, 3, 2, 1]).1.loops }).wr TC_PC.PC core
        (k.nextPc pc [4, 3, 2, 1]).2 := by
  have hlen : j.progLen = k.progLen := by rw [Core.progLen, hlaunch, Core.progLen]
  simp only [State.passWith, hj, State.passPc, State.core_setCore_same, Core.nextPc_of_loops pc _ hloops, State.goPc]
  exact if_pos (hlen ▸ hin)

/-- An instruction that writes a value to address register d of its core, and whose next PC lies in the program, leaves
the rest of the core, every other core, every register but the PC, and memory as they were. -/
theorem State.scalarFrame_passWith (f : Core → Word)
    (hin : ((a.core core).nextPc pc [4, 3, 2, 1]).2 < (a.core core).progLen) :
    ∃ s' : State, (a.markIssue core).passWith core pc (fun k => k.setA d (f k)) = s' ∧
      (a.core core).ScalarFrame d (s'.core core) ∧ (∀ c : Nat, c ≠ core → s'.core c = a.core c) ∧
      (∀ off : Nat, off ≠ TC_PC.PC.off core → s'.reg off = a.reg off) ∧
      s'.mem = a.mem ∧ s'.poison = a.poison ∧ s'.waiters = a.waiters ∧
      (d ≠ 0 → (s'.core core).ar d = f ((a.markIssue core).core core)) := by
  generalize hv : f ((a.markIssue core).core core) = v
  have hwritten : (fun k : Core => k.setA d (f k)) ((a.markIssue core).core core) =
      { (a.core core).setA d v with firstIssue := some ((a.core core).firstIssue.getD a.now) } :=
    (congrArg _ hv).trans (a.setA_core_markIssue core d v)
  have hpass := State.passWith_within (s := a.markIssue core) (f := fun k => k.setA d (f k)) hwritten
    ((a.core core).setA_loops d v) ((a.core core).setA_launch d v) hin
  refine ⟨_, hpass, ?frame, fun c hc => ?others, fun off hoff => ?regs, ?mem, ?poison, ?waiters, fun hd => ?value⟩
  case frame => exact State.core_setCore_same (State.setCore _ core _) core _ ▸ Core.scalarFrame_setA _ _ _ _ _
  case others =>
    exact (State.core_setCore_other _ _ hc).trans
      ((State.core_setCore_other _ _ hc).trans (State.core_setCore_other _ _ hc))
  case regs =>
    rw [State.reg_wr_other _ _ _ _ _ hoff]
    simp only [State.setCore_reg, State.markIssue]
  case mem => simp only [State.wr, State.setReg_mem, State.setCore_mem, State.markIssue]
  case poison => simp only [State.wr, State.setReg_poison, State.setCore_poison, State.markIssue]
  case waiters => simp only [State.wr, State.setReg_waiters, State.setCore_waiters, State.markIssue]
  case value =>
    exact (congrArg (Core.ar · d) (State.core_setCore_same _ _ _)).trans
      ((Core.ar_congr rfl d).trans ((a.core core).ar_setA_same v hd))

end

/-- Settles O29: each of the four instructions passes issue on with a write of its destination. -/
theorem scalarInstructionsFrame : Obligations.ScalarInstructionsFrame := by
  unfold Obligations.ScalarInstructionsFrame
  rintro s a t core _ body _ kept hruns rfl rfl hin hkept
  have hwrites {i : Instr} {f : Core → Word} {v : Word} (hexec : exec i s =
        .next ((a.markIssue core).passWith core (a.rd TC_PC.PC core) fun k => k.setA (fieldAt body 47 43) (f k)))
      (hv : f ((a.markIssue core).core core) = v) :
      ∃ s' : State, exec i s = .next s' ∧ kept s' ∧
        (fieldAt body 47 43 ≠ 0 → (s'.core core).ar (fieldAt body 47 43) = v) := by
    obtain ⟨s', hpass, ⟨har, hvec, hpred, hcc, hbanks, hsp, hlayer, hopid⟩, hcores, hregs, hmem, hpoison, hwaiters,
      hvalue⟩ := State.scalarFrame_passWith (d := fieldAt body 47 43) f hin
    exact ⟨s', hpass ▸ hexec, (hkept s').mpr ⟨har, hvec, hpred, hcc, hbanks, hsp, hlayer, hopid, hcores, hregs, hmem,
      hpoison, hwaiters⟩, fun hd => (hvalue hd).trans hv⟩
  have har (n : Nat) : ((a.markIssue core).core core).ar n = (a.core core).ar n :=
    Core.ar_congr (by rw [State.core_markIssue]) n
  refine ⟨?aop, ?aopi, ?ali, ?ard⟩
  case aop =>
    intro hissues hfields
    exact hwrites (exec_aop hruns hissues hfields) (by rw [har, har])
  case aopi =>
    intro hissues hfields
    exact hwrites (exec_aopi hruns hissues hfields) (by rw [har])
  case ali =>
    intro hissues hfields
    exact hwrites (exec_ali hruns hissues hfields) (by rw [har])
  case ard =>
    intro hissues hfields
    exact hwrites (exec_ard hruns hissues hfields) (a.ardValue_markIssue core _ _)

/-! ### Control and signals -/

/-- Settles O39: each instruction passes its checks, and its condition tells which of its effects it has. -/
theorem tileControlAndSignalsComplete : Obligations.TileControlAndSignalsComplete := by
  unfold Obligations.TileControlAndSignalsComplete
  intro s a t hruns
  refine ⟨?nop, ?end_, ?br, ?taken, ?untaken, ?looped, ?passed, ?fence, ?signal, ?held, ?met, ?waits, ?counted, ?hinted⟩
  case nop =>
    intro core body hissues hfields
    exact State.live_effect hruns hissues hfields rfl rfl
  case end_ =>
    intro core body hissues hfields hquiet
    exact State.live_effect hruns hissues hfields rfl (if_pos hquiet)
  case br =>
    intro core body hissues hfields
    exact State.live_effect hruns hissues hfields rfl rfl
  case taken =>
    intro core body hissues hfields hholds
    exact State.live_effect hruns hissues hfields rfl (congrArg some (if_pos hholds))
  case untaken =>
    intro core body hissues hfields hfails
    exact State.live_effect hruns hissues hfields rfl (congrArg some (if_neg (Bool.eq_false_iff.mp hfails)))
  case looped =>
    rintro core body _ _ hissues hfields rfl rfl hformed hcount
    exact State.live_effect hruns hissues hfields (if_neg (Bool.eq_false_iff.mp hformed))
      (congrArg some (if_neg hcount))
  case passed =>
    rintro core body _ _ hissues hfields rfl rfl hformed hcount
    exact State.live_effect hruns hissues hfields (if_neg (Bool.eq_false_iff.mp hformed))
      (congrArg some (if_pos hcount))
  case fence =>
    intro core body hissues hfields hquiet hpeers
    have hdone : (!(fieldAt body 52 52 == 1) || (a.markIssue core).corePeersDone core) = true := by
      rcases hpeers with hkind | hpeers
      · rw [hkind]; rfl
      · rw [hpeers, Bool.or_true]
    exact State.live_effect hruns hissues hfields rfl (if_pos (Bool.and_eq_true_iff.mpr ⟨hquiet, hdone⟩))
  case signal =>
    rintro core body _ hissues hfields rfl hobj hnow
    have hgoes : ¬ (fieldAt body 53 53 = 1 ∧ (!((a.markIssue core).core core).copies.isEmpty) = true) := by
      rcases hnow with hrel | hempty
      · simp [hrel]
      · simp [hempty]
    exact State.live_effect hruns hissues hfields hobj (if_neg hgoes)
  case held =>
    rintro core body _ hissues hfields rfl hobj hrel hcopies hroom
    have hholds : fieldAt body 53 53 = 1 ∧ (!((a.markIssue core).core core).copies.isEmpty) = true :=
      ⟨hrel, by rw [hcopies]; rfl⟩
    exact State.live_effect hruns hissues hfields hobj ((if_pos hholds).trans (if_neg (Nat.not_le.mpr hroom)))
  case met =>
    rintro core body _ hissues hfields rfl hobj hcond
    exact State.live_effect hruns hissues hfields hobj (congrArg some (if_pos hcond))
  case waits =>
    rintro core body _ hissues hfields rfl hobj hcond
    exact State.live_effect hruns hissues hfields hobj (congrArg some (if_neg (Bool.eq_false_iff.mp hcond)))
  case counted =>
    intro core body hissues hfields hwin
    exact State.live_effect hruns hissues hfields rfl (congrArg some (if_pos hwin))
  case hinted =>
    rintro core body _ _ hissues hfields rfl hwin rfl
    exact State.live_effect hruns hissues hfields rfl (congrArg some (if_neg hwin))

end Sys2Proof.Machine

/-! Vector instructions and scratchpad moves (R102, R143, R147, R148, R162, R175). -/

namespace Sys2Proof.Machine

/-- A move whose ranges lie in the scratchpad, a fill reading none, has no exception of its own (R148). -/
theorem moveBounds_eq_nil {d m n dx sx : Nat} {fill : Bool} (hto : d + n ≤ spSize)
    (hfrom : fill = true ∨ m + n ≤ spSize) :
    (if n = 0 then []
     else (if spSize < d + n then [(5, dx)] else []) ++ (if !fill && spSize < m + n then [(5, sx)] else [])) =
      ([] : List (Nat × Nat)) := by
  have hread : ¬ (!fill && decide (spSize < m + n)) = true := by
    rcases hfrom with hfill | hfrom
    · simp [hfill]
    · simp [Nat.not_lt.mpr hfrom]
  rw [if_neg (Nat.not_lt.mpr hto), if_neg hread, List.append_nil, ite_self]

section
variable {s a b : State} {t core d m n : Nat} {body : BitVec 56} {bad : List Nat} {k : Core}

/-- A move within the scratchpad that meets no hazard reads its source, whose poison tells its end (R148, R175). -/
theorem execSmove_move (hruns : s.runsAt t a) (hissues : a.issuesNow core 0x18 body = true)
    (hk : k = (a.markIssue core).core core) (hd : d = (k.ar (fieldAt body 52 48)).toNat)
    (hm : m = (k.ar (fieldAt body 47 43)).toNat) (hn : n = (k.ar (fieldAt body 42 38)).toNat)
    (hfields : lowestOffence body (maskBits 54 53 ||| maskBits 37 0) [] = none) (hlen : n ≠ 0) (hto : d + n ≤ spSize)
    (hmove : fieldAt body 55 55 = 0) (hfrom : m + n ≤ spSize) (hhazard : k.hazard [(m, n)] [(d, n)] = false)
    (hb : b = (a.markIssue core).spParity core bad [(m, n)]) :
    execSmove t core body bad s = .next (
      if (b.core core).spPoisonIn [(m, n)] = true then
        (b.passPc core (a.rd TC_PC.PC core)).raise core 12 (a.rd TC_PC.PC core) 0
      else
        (b.setCore core ((b.core core).spWrite d ((b.core core).spBytes m n))).passPc core (a.rd TC_PC.PC core)) := by
  subst hk hd hm hn hb
  refine State.live_effect hruns hissues hfields (moveBounds_eq_nil hto (.inr hfrom)) ?_
  have hfill : (fieldAt body 55 55 == 1) = false := by rw [hmove]; rfl
  simp only [if_neg hlen, hfill, hhazard, Bool.false_eq_true, if_false, Bool.not_false, Bool.true_and, apply_ite some]

end

/-- Settles O42: each instruction passes its checks and meets no hazard; the parity and poison of what it reads tell its
end. -/
theorem tileVectorCompletes : Obligations.TileVectorCompletes := by
  unfold Obligations.TileVectorCompletes
  intro s a t hruns
  refine ⟨?vop, ?parity, ?vld, ?vldPoison, ?vst, ?move, ?movePoison, ?moveNothing, ?fill⟩
  case vop =>
    rintro core body r hissues hfields hr
    refine State.live_effect hruns hissues hfields rfl ?_
    simp only [← hr]
    cases r.vop body
    rfl
  case parity =>
    intro core body hissues hfields
    exact State.live_effect hruns hissues hfields rfl rfl
  case vld =>
    rintro core body bad _ _ _ _ hissues rfl rfl hfields hrange hhazard rfl rfl hclean
    exact State.live_effect hruns hissues hfields hrange
      ((if_neg (Bool.eq_false_iff.mp hhazard)).trans (if_neg (Bool.eq_false_iff.mp hclean)))
  case vldPoison =>
    rintro core body bad _ _ _ hissues rfl rfl hfields hrange hhazard rfl hpoison
    exact State.live_effect hruns hissues hfields hrange
      ((if_neg (Bool.eq_false_iff.mp hhazard)).trans (if_pos hpoison))
  case vst =>
    rintro core body _ _ _ _ hissues rfl rfl hfields hrange hhazard rfl rfl
    exact State.live_effect hruns hissues hfields hrange (if_neg (Bool.eq_false_iff.mp hhazard))
  case move =>
    rintro core body bad k _ d m n b hissues hk hd hm hn hfields hlen hto hmove hfrom hhazard hb rfl hclean
    exact (execSmove_move hruns hissues hk hd hm hn hfields hlen hto hmove hfrom hhazard hb).trans
      (congrArg _ (if_neg (Bool.eq_false_iff.mp hclean)))
  case movePoison =>
    intro core body bad k d m n b hissues hk hd hm hn hfields hlen hto hmove hfrom hhazard hb hpoison
    exact (execSmove_move hruns hissues hk hd hm hn hfields hlen hto hmove hfrom hhazard hb).trans
      (congrArg _ (if_pos hpoison))
  case moveNothing =>
    intro core body bad hissues hfields hlen
    exact State.live_effect hruns hissues hfields (if_pos hlen) (if_pos hlen)
  case fill =>
    rintro core body bad _ _ _ hissues rfl rfl rfl hfields hlen hto hfill hhazard
    refine State.live_effect hruns hissues hfields (moveBounds_eq_nil hto (.inl (by rw [hfill]; rfl))) ?_
    simp only [if_neg hlen, hfill, hhazard, Bool.false_eq_true, if_false, if_true, BEq.rfl, Bool.not_true,
      Bool.false_and]

end Sys2Proof.Machine

/-! Tile copies (R149, R150, R175 to R187): a TCOPY is checked and is in flight; its lines move as TCOPY_COMPLETE names
them; a line that is refused or lost is a COPY_FAULT. -/

namespace Sys2Proof.Machine

section
variable {s a b r : State} {t core n : Nat} {found : Found}

/-- A command none of whose reads is held has its effect on the state in which it reads, and what they found follows. -/
theorem State.reads_effect {source agent : Nat} {f : State → State} (heffect : f (s.reading found source agent) = r)
    (hfree : r.access.blocked = none) : s.reads found source agent f = r.readsDone := by
  rw [State.reads_done (by rwa [heffect]), heffect]

/-! ### TCOPY -/

variable {body : BitVec 56} {bad : List Nat} {k : Core} {o : CopyOp}

/-- A TCOPY of rows that its launch may reach is in flight; one without bytes completes, another is served (R149,
R177). -/
theorem execTcopy_next (hruns : s.runsAt t a) (hissues : a.issuesNow core 0x20 body = true)
    (hk : k = (a.markIssue core).core core)
    (ho : o = copyOf k ((a.markIssue core).coreCls core) body (a.rd TC_PC.PC core)) (hroom : k.copies.length < 64)
    (hfields : lowestOffence body (maskBits 49 48 ||| maskBits 27 0) [] = none)
    (hgeom : (k.ar (fieldAt body 37 33)).toNat / 2 ^ 39 = 0) (hsp : o.sx + o.rows * o.rowBytes ≤ spSize)
    (hreach : (if o.rowBytes = 0 then none else o.missing k.exts) = none)
    (hb : b = ((a.markIssue core).passWith core (a.rd TC_PC.PC core) fun k =>
      { k with nextCopy := k.nextCopy + 1, copies := k.copies ++ [o] }).showCopies core) :
    execTcopy t core body bad s = .next (if o.rowBytes = 0 then b.copyDone core o else b.goOn core bad) := by
  subst hk ho hb
  refine State.live_issues hruns hissues ((if_neg (Nat.not_le.mpr hroom)).trans ?_)
  refine (State.checked_passes hfields ?bounds).trans ?effect
  case bounds => rw [if_neg (not_not.mpr hgeom), if_neg (Nat.not_lt.mpr hsp)]; rfl
  case effect => simp only [hreach, apply_ite some]

/-! ### TCOPY_COMPLETE and COPY_FAULT -/

variable {conflicts : Nat}

/-- The lines that a list names move (R179). -/
theorem execTcopyComplete_named {only : List Nat} (hruns : s.runsAt t a) (hcopy : (a.core core).copyNo n = some o)
    (hb : b = (a.reading found 0 (0x1000 + core)).bumpWrap TC_SP_CONFLICT.COUNT core conflicts)
    (hr : r = b.copyLinesNow core n (some only) found) (hfree : r.access.blocked = none) :
    execTcopyComplete t core n conflicts (some only) found s = .next r.readsDone := by
  subst hb
  refine State.live_next hruns ?_
  simp only [hcopy]
  exact State.reads_effect hr.symm hfree

/-- A copy all of whose lines have moved completes, counted by its direction (R182, R513). -/
theorem execTcopyComplete_whole {p : CopyOp} {m : State} (hruns : s.runsAt t a)
    (hcopy : (a.core core).copyNo n = some o)
    (hb : b = (a.reading found 0 (0x1000 + core)).bumpWrap TC_SP_CONFLICT.COUNT core conflicts)
    (hm : m = b.moveAll core n found (o.bursts.length + 1)) (hleft : (m.core core).copyNo n = some p)
    (hwhole : m.copyWhole core p = true)
    (hr : r = (m.pmcCore core (if p.out then 9 else 8) p.pieces.length p.layer).copyDone core p)
    (hfree : r.access.blocked = none) :
    execTcopyComplete t core n conflicts none found s = .next r.readsDone := by
  subst hb hm
  refine State.live_next hruns ?_
  simp only [hcopy]
  refine State.reads_effect ?_ hfree
  simp only [hleft, hwhole, if_true, hr]

/-- A copy that has a fault of its own at a row and an address in it faults (R186, R187). -/
theorem execCopyFault_next {cause row va : Nat} (hruns : s.runsAt t a) (hk : k = a.core core)
    (hcopy : (k.copies ++ k.dropped).find? (fun o => o.k == n) = some o) (hrow : row < o.rows)
    (hlo : rowAddr o.ux o.stride row ≤ va) (hhi : va < rowAddr o.ux o.stride row + o.rowBytes)
    (hcause : (cause = 1 ∧ (a.isPeer ((physIn k.exts va 1 o.out).getD 0) = true ∨
        (!a.burstOk k.ctx o.out ((physIn k.exts va 1 o.out).getD 0) 1) = true)) ∨
      ((cause = 2 ∨ cause = 3) ∧ a.isPeer ((physIn k.exts va 1 o.out).getD 0) = true)) :
    execCopyFault t core n cause row va s = .next (a.copyFault core o cause row va) := by
  subst hk
  have hwithin : ¬ (o.rows ≤ row ∨ va < rowAddr o.ux o.stride row ∨ rowAddr o.ux o.stride row + o.rowBytes ≤ va) := by
    omega
  refine State.live_next hruns ?_
  simp only [hcopy, if_neg hwithin, if_pos hcause]

end

/-- Settles O43: a TCOPY by its bytes, TCOPY_COMPLETE by the lines it names and the copy's direction, COPY_FAULT by its
cause. -/
theorem tileCopiesComplete : Obligations.TileCopiesComplete := by
  unfold Obligations.TileCopiesComplete
  intro s a t hruns
  refine ⟨?nothing, ?served, ?named, ?wholeIn, ?wholeOut, ?refused, ?lost⟩
  case nothing =>
    intro core body bad k o hissues hk ho hroom hfields hgeom hsp hbytes
    exact (execTcopy_next hruns hissues hk ho hroom hfields hgeom hsp (if_pos hbytes) rfl).trans
      (congrArg _ (if_pos hbytes))
  case served =>
    intro core body bad k o hissues hk ho hroom hfields hgeom hsp hbytes hreach
    exact (execTcopy_next hruns hissues hk ho hroom hfields hgeom hsp ((if_neg hbytes).trans hreach) rfl).trans
      (congrArg _ (if_neg hbytes))
  case named =>
    intro core n conflicts only found o b r hcopy hb hr hfree
    exact execTcopyComplete_named hruns hcopy hb hr hfree
  case wholeIn =>
    intro core n conflicts found o p m b r hcopy hb hm hleft hwhole hout hr hfree
    exact execTcopyComplete_whole hruns hcopy hb hm hleft hwhole (by rw [hr, hout]; rfl) hfree
  case wholeOut =>
    intro core n conflicts found o p m b r hcopy hb hm hleft hwhole hout hr hfree
    exact execTcopyComplete_whole hruns hcopy hb hm hleft hwhole (by rw [hr, hout]; rfl) hfree
  case refused =>
    intro core n row va k o hk hcopy hrow hlo hhi hdenied
    exact execCopyFault_next hruns hk hcopy hrow hlo hhi
      (.inl ⟨rfl, hdenied.imp_right fun h => by rw [h]; rfl⟩)
  case lost =>
    intro core n cause row va k o hk hcopy hrow hlo hhi hcause hpeer
    exact execCopyFault_next hruns hk hcopy hrow hlo hhi (.inr ⟨hcause, hpeer⟩)

end Sys2Proof.Machine

/-! Launches (R129 to R131, R164, R207, R208): from the start of a chosen LAUNCH to its completion, and the exceptions
that reach a core from outside its program. -/

namespace Sys2Proof.Machine

section
variable {b c m n u : State} {q : Nat} {f : Fetched} {exts : List Extent} {cs : List (Nat × Nat)} {need : Nat}
  {x : InFlight}

/-- A chosen LAUNCH that passes its checks and that the Sluice admits starts with its claims (R207, R459). -/
theorem State.launchStart_admitted (hcores : b.badCore f.words = none) (hprep : b.prepLaunch q f.words = (.ok exts, m))
    (hidle : m.coresFree f.words = true) (hadmit : m.admitWhy (m.launchReq q f.words) = none)
    (hclaims : (m.stepRamp (m.launchReq q f.words)).admitLaunch (m.launchReq q f.words) = (cs, need, n))
    (hc : c = n.startHead q f exts) (hflight : c.flight q f.i = some x) :
    b.launchStart q f = ((c.setFlight { x with claims := cs, need := need }).passHead q).closeEvents := by
  subst hc
  simp only [State.launchStart, hcores, hprep, hidle, hadmit, hclaims, hflight, Bool.not_true, Bool.false_eq_true,
    if_false]

/-- A walk for the command at HEAD that does not fail leaves the queue's fault (R239). -/
theorem State.headWalk_leaves {f : State → State}
    (heffect : f (b.setQueue q { b.queue q with faulted := false }) = u) (hfault : (u.queue q).faulted = false) :
    b.headWalk q f = u.leaveFault q := by
  simp only [State.headWalk, heffect, hfault, Bool.false_eq_true, if_false]

end

/-- Settles O38: each clause is one branch of its command's effect. -/
theorem launchesComplete : Obligations.LaunchesComplete := by
  unfold Obligations.LaunchesComplete
  intro s a t hruns
  refine ⟨?starts, ?dispatched, ?loaded, ?completed, ?sibling, ?watchdog⟩
  case starts =>
    rintro q i need found f exts cs m n c u x b r hhead hkind hstatus rfl hc hu hcores hprep hidle hadmit hclaims
      hflight hfault rfl hfree
    have hstart := (State.launchStart_admitted hcores hprep hidle hadmit hclaims hc hflight).trans hu.symm
    show execLaunch t q i found s = _
    refine State.live_next hruns ?_
    simp only [hhead, hkind, hstatus, and_self, if_true]
    exact State.reads_effect (State.headWalk_leaves hstart hfault) hfree
  case dispatched =>
    intro q i x hflight hkind hbegun hstatus hsave husable hidle
    show execLaunchDispatch t q i s = _
    refine State.live_next hruns ?_
    simp only [hflight, hkind, hbegun, hstatus, hsave, husable, hidle, ne_eq, not_true_eq_false, Bool.false_eq_true,
      Option.isSome_none, or_self, if_true, if_false]
  case loaded =>
    rintro core found l _ r hlaunch hloaded hended hstate howed hasked rfl hr hfree
    show execProgramLoadDone t core found s = _
    refine State.live_next hruns ?_
    simp only [hlaunch, hloaded, hended, hstate, howed, bne_self_eq_false, Bool.or_self, Bool.false_or,
      decide_eq_true_eq, if_neg (Nat.not_lt.mpr hasked)]
    exact State.reads_effect hr.symm hfree
  case completed =>
    intro q i x hflight hkind hbegun hstatus hends
    show execLaunchComplete t q i s = _
    refine State.live_next hruns ?_
    simp only [hflight, hkind, hbegun, hstatus, hends, Option.isNone_none, and_self, if_true]
  case sibling =>
    intro core rank l hlaunch hfailed hended
    show execSibling t core s = _
    refine State.live_next hruns ?_
    simp only [hlaunch, hfailed, hended, Bool.false_eq_true, if_false]
  case watchdog =>
    intro core first l hlaunch hfirst hlimit hpassed
    show execWatchdog t core s = _
    refine State.live_next hruns ?_
    simp only [hlaunch, hfirst, hlimit, hpassed, and_self, if_true]

end Sys2Proof.Machine

/-! Queues as software drives them, the reading of their slots, and the commands that they start (R190 to R217, R315). -/

namespace Sys2Proof.Machine

section
variable {s a b : State} {t agent q i : Nat} {v : Word}

/-- A register access outside the condition under which its command does nothing, by an agent that the dike table admits,
is answered and has its effect. -/
theorem State.live_unless_allowed {p : Prop} [Decidable p] {off : Nat} {wr : Bool} {f : State → State}
    (hruns : s.runsAt t a) (hnot : ¬ p) (hallows : a.allows agent off wr = true) :
    s.live t (fun s => if p then s else s.gate agent off wr f) = .next (f (a.answer agent 0)) :=
  State.live_next hruns ((if_neg hnot).trans (State.gate_allows _ _ _ _ _ hallows))

/-! ### Stores to QE_Q_CFG and QE_Q_CTRL -/

/-- ENABLE 1 on a DISABLED queue whose rings are admitted makes it ACTIVE with its indices at 0 (R191). -/
theorem State.queueCfg_enables (hb : b = s.storeReg agent (QE_Q_CFG.ENABLE.off q) v)
    (henabled : b.flag QE_Q_CFG.ENABLE q = true) (hdisabled : b.rd QE_Q_STATUS.STATE q = 0)
    (hrings : b.ringsOk q = true) :
    s.queueCfg agent q v = (((((b.wr QE_Q_STATUS.HEAD q 0).wr QE_DB_TAIL.TAIL q 0).wr QE_DB_STATUS.CQ_TAIL q 0).wr
      QE_DB_CQ_HEAD.CQ_HEAD q 0).setQueue q (queueInit q)).qSet q 1 0 := by
  subst hb
  simp only [State.queueCfg, State.enableQueue, henabled, hdisabled, hrings, if_true]

/-- ENABLE 0 on a queue that is not DISABLED begins its disable (R192, R242). -/
theorem State.queueCfg_disables (hwas : s.flag QE_Q_CFG.ENABLE q = true)
    (hb : b = s.storeReg agent (QE_Q_CFG.ENABLE.off q) v) (hcleared : b.flag QE_Q_CFG.ENABLE q = false)
    (hstate : b.rd QE_Q_STATUS.STATE q ≠ 0) :
    s.queueCfg agent q v = ((b.setQueue q { b.queue q with
      enableKept := false, chosen := (b.queue q).chosen && b.headBusy q, refused := false, released := none }).leaveFault
        q).tryDisable q := by
  subst hb
  simp only [State.queueCfg, hwas, hcleared, State.setQueue_rd, hstate, Bool.false_eq_true, if_true, if_false]

/-- Of the bits of QE_Q_CTRL, the value 1 writes RESUME alone (R199). -/
theorem State.queueCtrl_resume : s.queueCtrl q 1 = (s.resumeQueue q).tryDisable q := by
  have hresume : QE_Q_CTRL.RESUME.get 1 = 1 := by decide
  have habandon : QE_Q_CTRL.ABANDON.get 1 ≠ 1 := by decide
  simp only [State.queueCtrl, hresume, habandon, false_and, if_true, if_false]

/-- The value 2 writes ABANDON alone, which acts where it can (R190). -/
theorem State.queueCtrl_abandon :
    s.queueCtrl q 2 = (if s.canAbandon q then s.abandonQueue q else s).tryDisable q := by
  have hresume : QE_Q_CTRL.RESUME.get 2 ≠ 1 := by decide
  have habandon : QE_Q_CTRL.ABANDON.get 2 = 1 := by decide
  simp only [State.queueCtrl, hresume, habandon, true_and, if_false]

end

/-- Settles O44: each register by its own effect, then the two readings of a slot. -/
theorem queueRegistersComplete : Obligations.QueueRegistersComplete := by
  unfold Obligations.QueueRegistersComplete
  intro s a t hruns
  refine ⟨?enabled, ?disabled, ?tail, ?resumed, ?abandoned, ?slot, ?again⟩
  case enabled =>
    intro agent q v b hq hv hallows hb henabled hdisabled hrings
    have hmeant : ¬ (16384 ≤ q ∨ QE_Q_CFG.ENABLE.get v ≠ 1) := not_or.mpr ⟨Nat.not_le.mpr hq, not_not.mpr hv⟩
    exact (State.live_unless_allowed hruns hmeant hallows).trans
      (congrArg _ (State.queueCfg_enables hb henabled hdisabled hrings))
  case disabled =>
    intro agent q v b hq hv hallows hwas hb hcleared hstate
    have hmeant : ¬ (16384 ≤ q ∨ QE_Q_CFG.ENABLE.get v ≠ 0) := not_or.mpr ⟨Nat.not_le.mpr hq, not_not.mpr hv⟩
    exact (State.live_unless_allowed hruns hmeant hallows).trans
      (congrArg _ (State.queueCfg_disables hwas hb hcleared hstate))
  case tail =>
    intro agent q v hq hallows
    exact State.live_unless_allowed hruns (Nat.not_le.mpr hq) hallows
  case resumed =>
    intro agent q hq hallows
    exact (State.live_unless_allowed hruns (Nat.not_le.mpr hq) hallows).trans (congrArg _ State.queueCtrl_resume)
  case abandoned =>
    intro agent q hq hallows
    exact (State.live_unless_allowed hruns (Nat.not_le.mpr hq) hallows).trans (congrArg _ State.queueCtrl_abandon)
  case slot =>
    rintro q i found _ r hnext hfirst rfl hr hfree
    show execSlotRead t q i found s = _
    refine State.live_next hruns ?_
    rw [if_pos ⟨hnext, hfirst⟩]
    exact State.reads_effect hr.symm hfree
  case again =>
    rintro q i first n found _ r hnext hfailed hdue rfl hr hfree
    show execSlotReread t q i found s = _
    refine State.live_next hruns ?_
    simp only [hfailed]
    rw [if_pos ⟨hnext, trivial, hdue⟩]
    exact State.reads_effect hr.symm hfree

section
variable {a b c d m n u : State} {q slot : Nat} {f : Fetched} {es exts : List Extent} {desc : List Word} {k : Bucket}
  {x : InFlight}

/-- A COLLECTIVE that passes its checks and whose regions are walked starts its bucket (R316, R323). -/
theorem State.collEnter_starts (hcheck : m.collCheck desc = none)
    (hwalk : m.walkRegions q (ceRegions desc { m.shape (m.newBucket q f slot desc []) with e := Desc.elements desc }) [] =
      (.ok exts, n))
    (hc : c = (n.startHead q f exts).passHead q) (hk : k = c.newBucket q f slot desc exts)
    (hd : d = { c with buckets := c.buckets ++ [k] }) (hflight : d.flight q f.i = some x) :
    m.collEnter q f slot desc = (d.setFlight { x with begun := true }).ceGo k := by
  subst hd hk hc
  simp only [State.collEnter, hcheck, hwalk, hflight]

/-- A COLLECTIVE with a READY slot whose descriptor is read is checked by it (R315). -/
theorem State.collStart_reads (hslot : b.collSlot f.words = some slot)
    (hdesc : b.readDesc q f.words = (.ok es, desc, m)) : b.collStart q f = m.collEnter q f slot desc := by
  simp only [State.collStart, hslot, hdesc]

end

/-- Settles O45: each command by its own branch; a COLLECTIVE by its checks, in their order. -/
theorem queueCommandsComplete : Obligations.QueueCommandsComplete := by
  unfold Obligations.QueueCommandsComplete
  intro s a t hruns
  refine ⟨?copied, ?written, ?signalled, ?waits, ?bucket, ?migrates, ?hinted, ?fenced, ?entered⟩
  case copied =>
    rintro q i x found _ r hstarted rfl hr hfree
    show execCopy t q i found s = _
    refine State.live_next hruns ?_
    simp only [hstarted]
    exact State.reads_effect hr.symm hfree
  case written =>
    rintro q i x found _ r hstarted hbegun rfl hr hfree
    show execInlineWrite t q i found s = _
    refine State.live_next hruns ?_
    simp only [hstarted, hbegun, Bool.false_eq_true, if_false]
    exact State.reads_effect hr.symm hfree
  case signalled =>
    intro q i x hstarted
    show execSignal t q i s = _
    refine State.live_next hruns ?_
    simp only [hstarted]
  case waits =>
    intro q i x hstarted hbegun
    show execWait t q i s = _
    refine State.live_next hruns ?_
    simp only [hstarted, hbegun, Bool.false_eq_true, if_false]
  case bucket =>
    rintro q i slot found f es exts desc m n c d u k x _ r hhead hkind hstatus hfree rfl hc hk hd hu hslot hdesc hcheck
      hwalk hflight hfault rfl hblocked
    have hstart := (State.collStart_reads hslot hdesc).trans
      ((State.collEnter_starts hcheck hwalk hc hk hd hflight).trans hu.symm)
    show execCollective t q i found s = _
    refine State.live_next hruns ?_
    simp only [hhead, hkind, hstatus, hfree, and_self, if_true]
    exact State.reads_effect (State.headWalk_leaves hstart hfault) hblocked
  case migrates =>
    intro q i x hstarted hbegun
    show execMigrate t q i s = _
    refine State.live_next hruns ?_
    simp only [hstarted, hbegun, Bool.false_eq_true, if_false]
  case hinted =>
    intro q i x hstarted
    show execHintCommand t q i s = _
    refine State.live_next hruns ?_
    simp only [hstarted]
  case fenced =>
    intro q i x hstarted hpeers
    have hdone : ((x.words.getD 1 0).toNat.testBit 0 && a.queueOwes q) = false := Bool.and_eq_false_iff.mpr hpeers
    show execFenceCommand t q i s = _
    refine State.live_next hruns ?_
    simp only [hstarted, hdone, Bool.false_eq_true, if_false]
  case entered =>
    intro q i st x hnext hdone hi
    show execCommandComplete t q i s = _
    refine State.live_next hruns ?_
    simp only [hnext, hdone, hi, if_true]

end Sys2Proof.Machine

/-! Record rings and translation (R225, R227, R228, R235, R237, R240, R242, R285): context roots, invalidations by tag,
faults that are open, and walks. -/

namespace Sys2Proof.Machine

section
variable {s : State} {agent : Nat} {v : Word}

/-- With no transaction open, a write of a register is performed and not shadowed (R70). -/
theorem State.txnWrite_idle {off : Nat} (live : State → State) (hidle : s.rd TXN_STATUS.STATE = 0) :
    s.txnWrite agent off v live = live s := by
  simp only [State.txnWrite, hidle, beq_self_eq_true, Bool.or_true, if_true]

/-- An invalidation by tag is taken while fewer than 64 are pending (R235, R237). -/
theorem State.invalAst_room (hroom : s.invals.length < 64) :
    s.invalAst agent v =
      s.invalidate (TR_INVAL_AST.TAG.get v) (TR_INVAL_AST.SIGNAL.get v == 1) (TR_INVAL_AST.SYNC.get v) agent :=
  if_neg (Nat.not_le.mpr hroom)

/-- A resolution that names an open fault closes it and acts on each of its queues (R242). -/
theorem State.faultResolve_open {f : OpenFault}
    (hopen : s.faults.find? (fun g =>
      g.slot == TR_FAULT_RESOLVE.SLOT.get v && g.seq % 2 ^ 32 == TR_FAULT_RESOLVE.SEQ.get v) = some f) :
    s.faultResolve v = (State.each
      { s with faults := s.faults.filter (fun x => x.slot != TR_FAULT_RESOLVE.SLOT.get v) } f.queues (fun s q =>
        s.resolveQueue (TR_FAULT_RESOLVE.ACTION.get v == 1) q)).slotFreed := by
  simp only [State.faultResolve, hopen]

end

/-- Settles O33: the ring and the three registers by their stores, the others by what their command finds: a pending
invalidation, an open fault, a chosen queue, a queue that runs. -/
theorem translationCompletes : Obligations.TranslationCompletes := by
  unfold Obligations.TranslationCompletes
  intro s a t hruns
  refine ⟨?ring, ?root, ?invalidated, ?completed, ?continued, ?resolved, ?walked, ?ahead⟩
  case ring =>
    intro agent ring v hring henable hallows hidle
    have hmeant : ¬ (21 ≤ ring ∨ (ringOf ring).enable.get v ≠ 1) :=
      not_or.mpr ⟨Nat.not_le.mpr hring, not_not.mpr henable⟩
    exact (State.live_unless_allowed hruns hmeant hallows).trans
      (congrArg _ (State.txnWrite_idle (s := a.answer agent 0) _ hidle))
  case root =>
    intro agent ctx v hctx hallows
    exact State.live_unless_allowed hruns (Nat.not_le.mpr hctx) hallows
  case invalidated =>
    rintro agent v _ hallows rfl hroom
    exact (State.live_allowed hruns hallows).trans (congrArg _ (State.invalAst_room hroom))
  case completed =>
    intro k x hfound hreleased
    show execInvalidationComplete t k s = _
    refine State.live_next hruns ?_
    simp only [hfound, hreleased, Bool.false_eq_true, if_false]
  case continued =>
    rintro slot f _ hfound rfl hdue hedge
    show execContinuationRecord t slot s = _
    refine State.live_next hruns ?_
    simp only [hfound, hdue, hedge, Bool.not_true, Bool.false_eq_true, or_self, if_false]
  case resolved =>
    rintro agent v _ f hallows rfl hopen
    exact (State.live_allowed hruns hallows).trans (congrArg _ (State.faultResolve_open hopen))
  case walked =>
    intro q found hchosen hsave
    show execWalk t q found s = _
    exact State.live_next hruns (if_pos ⟨hchosen, hsave⟩)
  case ahead =>
    intro q va found hqueue hnear
    show execWalkAhead t q va found s = _
    exact State.live_next hruns (if_pos (Bool.and_eq_true_iff.mpr ⟨hqueue, hnear⟩))

end Sys2Proof.Machine

/-! Sync objects (R246, R248, R250, R254 to R258): an operation on an object that nothing watches, the event
registers of host cores, and the row's commands. -/

namespace Sys2Proof.Machine

/-! ### An operation that nothing waits for (R246, R248, R254) -/

section
variable {s : State} {obj : Nat}

theorem State.wake_unwatched (val : Word) (hnone : ∀ w ∈ s.waiters, w.obj ≠ obj) : s.wake obj val = s := by
  have hmiss : ∀ w ∈ s.waiters, (w.obj == obj) = false := fun w hw => beq_false_of_ne (hnone w hw)
  simp only [State.wake]
  rw [List.filter_eq_self.mpr, List.filter_eq_nil_iff.mpr]
  · rfl
  all_goals
    intro w hw
    simp [hmiss w hw]

theorem State.evalTrigger_unarmed (hunarmed : s.flag SY_TRIG_CFG.ARM obj = false) : s.evalTrigger obj = s := by
  simp only [State.evalTrigger, hunarmed, Bool.false_and, Bool.false_eq_true, if_false]

theorem triggerCfg_off_ne_value_off (obj : Nat) : SY_TRIG_CFG.ARM.off obj ≠ SY_VAL.VALUE.off obj := by
  simp only [Fld.off, SY_TRIG_CFG.ARM, SY_VAL.VALUE]
  omega

/-- An operation changes VALUE alone when no waiter and no armed trigger sees it. -/
theorem State.syPerform_unwatched (set : Bool) (v : Word) (hnone : ∀ w ∈ s.waiters, w.obj ≠ obj)
    (hunarmed : s.flag SY_TRIG_CFG.ARM obj = false) :
    s.syPerform obj set v = s.setReg (SY_VAL.VALUE.off obj) (syNew set (s.reg (SY_VAL.VALUE.off obj)) v) := by
  have hwake (val : Word) : (s.setReg (SY_VAL.VALUE.off obj) val).wake obj val = s.setReg (SY_VAL.VALUE.off obj) val :=
    State.wake_unwatched val hnone
  have harm (val : Word) : (s.setReg (SY_VAL.VALUE.off obj) val).flag SY_TRIG_CFG.ARM obj = false := by
    rw [State.flag, State.rd_congr (State.reg_setReg_other s val (triggerCfg_off_ne_value_off obj))]
    exact hunarmed
  rw [State.syPerform, hwake, State.evalTrigger_unarmed (harm _)]

end

/-! ### The row's registers -/

section
variable {s a : State} {t agent obj : Nat}

/-- A command of register number n of a row, by an agent that the dike table admits, has its effect after the
answer. -/
theorem State.live_row_next {b : State} {n count off : Nat} {wr : Bool} {f : State → State} (hruns : s.runsAt t a)
    (hn : n < count) (hallows : a.allows agent off wr = true) (heffect : f (a.answer agent 0) = b) :
    s.live t (fun s => if count ≤ n then s else s.gate agent off wr f) = .next b :=
  heffect ▸ State.live_unless_allowed hruns (Nat.not_le.mpr hn) hallows

theorem exec_syAdd (v : Word) (hruns : s.runsAt t a) (hobj : obj < 8192)
    (hallows : a.allows agent (SY_ADD.V.off obj) true = true) :
    exec (.syAdd t agent obj v) s = .next ((a.answer agent 0).syPerform obj false v) :=
  State.live_row_next hruns hobj hallows rfl

theorem exec_sySet (v : Word) (hruns : s.runsAt t a) (hobj : obj < 8192)
    (hallows : a.allows agent (SY_SET.V.off obj) true = true) :
    exec (.sySet t agent obj v) s = .next ((a.answer agent 0).syPerform obj true v) :=
  State.live_row_next hruns hobj hallows rfl

theorem exec_syEventRead {core : Nat} (hruns : s.runsAt t a) (hcore : core < 96)
    (hallows : a.allows agent (SY_EVENT.OBJ.off core) false = true) :
    exec (.syEventRead t agent core) s = .next ((a.answer agent 0).eventRead agent core) :=
  State.live_row_next hruns hcore hallows rfl

end

/-- Settles O26: the command performs its operation, and neither a waiter nor the trigger sees the new VALUE. -/
theorem objectsAddAndSet : Obligations.ObjectsAddAndSet := by
  unfold Obligations.ObjectsAddAndSet
  intro s a t agent obj v hruns hobj hnone hunarmed
  have hperform (set : Bool) :=
    State.syPerform_unwatched (s := a.answer agent 0) (obj := obj) set v hnone hunarmed
  constructor
  · intro hallows
    exact (exec_syAdd v hruns hobj hallows).trans (congrArg _ (hperform false))
  · intro hallows
    exact (exec_sySet v hruns hobj hallows).trans (congrArg _ (hperform true))

/-! ### Words of packed fields -/

theorem testBit_foldl_or_shiftLeft (l : List (Nat × Nat)) (x i : Nat) :
    (l.foldl (fun a e => a ||| (e.2 <<< e.1)) x).testBit i =
      (x.testBit i || l.any fun e => decide (e.1 ≤ i) && e.2.testBit (i - e.1)) := by
  induction l generalizing x with
  | nil => simp
  | cons e l ih =>
    rw [List.foldl_cons, ih, List.any_cons, Nat.testBit_or, Nat.testBit_shiftLeft, Bool.or_assoc]

/-- A bit of a packed word is set by the fields that reach it. -/
theorem getLsbD_packWord (l : List (Nat × Nat)) (i : Nat) :
    (packWord l).getLsbD i = (decide (i < 64) && l.any fun e => decide (e.1 ≤ i) && e.2.testBit (i - e.1)) := by
  rw [packWord, BitVec.getLsbD_ofNat, packBits, testBit_foldl_or_shiftLeft, Nat.zero_testBit, Bool.false_or]

/-- The low word of an answer is the word that was answered. -/
theorem State.answer_word (s : State) (agent : Nat) (v : Word) : (s.answer agent v).reply.value.setWidth 64 = v := by
  simp only [State.answer]
  rw [BitVec.setWidth_setWidth_of_le _ (by decide), BitVec.setWidth_eq]

/-! ### Event registers (R258, R385) -/

section
variable {s : State} {c : Nat}

theorem State.pushEvent_joins (obj : Nat) (hroom : (Tab.get (fun _ => []) s.events c).length < 16) :
    Tab.get (fun _ => []) (s.pushEvent c obj).events c = Tab.get (fun _ => []) s.events c ++ [obj] ∧
      Tab.get (fun _ => false) (s.pushEvent c obj).eventIrq c = true := by
  simp only [State.pushEvent, hroom, if_true, Tab.get_put_same, and_self]

theorem State.pushEvent_dropped (obj : Nat) (hfull : ¬ (Tab.get (fun _ => []) s.events c).length < 16) :
    Tab.get (fun _ => []) (s.pushEvent c obj).events c = Tab.get (fun _ => []) s.events c ∧
      Tab.get (fun _ => false) (s.pushEvent c obj).eventLost c = true := by
  simp only [State.pushEvent, hfull, if_false, Tab.get_put_same, and_self]

/-- With an event at its head, SY_EVENT_c shows its object. -/
theorem State.eventView_oldest {o : Nat} {r : List Nat} (hevents : Tab.get (fun _ => []) s.events c = o :: r)
    (ho : o < 8192) : SY_EVENT.VALID.get (s.eventView c) = 1 ∧ SY_EVENT.OBJ.get (s.eventView c) = o := by
  simp only [State.eventView, hevents]
  constructor
  all_goals
    refine Nat.eq_of_testBit_eq fun i => ?_
    rw [Fld.testBit_get, getLsbD_packWord]
  · match i with
    | 0 =>
      have hhigh : o.testBit 13 = false := Nat.testBit_lt_two_pow ho
      simp [SY_EVENT.VALID, hhigh]
    | i + 1 => simp [SY_EVENT.VALID, Nat.testBit_succ]
  · by_cases hi : i < 13
    · have h13 : ¬ 13 ≤ i := by omega
      have h14 : ¬ 14 ≤ i := by omega
      have h64 : i < 64 := by omega
      simp [SY_EVENT.OBJ, hi, h13, h14, h64]
    · have hhigh : o.testBit i = false :=
        Nat.testBit_lt_two_pow (Nat.lt_of_lt_of_le ho (Nat.pow_le_pow_right Nat.two_pos (Nat.not_lt.mp hi)))
      simp [SY_EVENT.OBJ, hi, hhigh]

/-- Without events, SY_EVENT_c shows LOST alone. -/
theorem State.eventView_empty (hevents : Tab.get (fun _ => []) s.events c = []) :
    SY_EVENT.VALID.get (s.eventView c) = 0 := by
  simp only [State.eventView, hevents]
  cases Tab.get (fun _ => false) s.eventLost c <;> decide

theorem State.eventRead_reply (agent : Nat) : (s.eventRead agent c).reply.agent = agent ∧
    (s.eventRead agent c).reply.value.setWidth 64 = s.eventView c :=
  ⟨rfl, s.answer_word agent _⟩

theorem State.eventRead_pops (agent : Nat) :
    Tab.get (fun _ => []) (s.eventRead agent c).events c = (Tab.get (fun _ => []) s.events c).tail ∧
    Tab.get (fun _ => false) (s.eventRead agent c).eventIrq c = !(Tab.get (fun _ => []) s.events c).tail.isEmpty :=
  ⟨Tab.get_put_same _ _ _ _, Tab.get_put_same _ _ _ _⟩

end

/-- Settles O22: a push by its room, a read by what the register shows and what it leaves. -/
theorem eventRegisters : Obligations.EventRegisters := by
  unfold Obligations.EventRegisters
  refine ⟨?bounded, ?joins, ?dropped, ?popped, ?empty⟩
  case bounded =>
    intro s c obj hle
    by_cases hroom : (Tab.get (fun _ => []) s.events c).length < 16
    · rw [(State.pushEvent_joins obj hroom).1, List.length_append]
      exact hroom
    · rw [(State.pushEvent_dropped obj hroom).1]
      exact hle
  case joins =>
    intro s c obj hroom
    exact State.pushEvent_joins obj hroom
  case dropped =>
    intro s c obj hfull
    exact State.pushEvent_dropped obj hfull.not_lt
  case popped =>
    intro s a t agent c o r hruns hc hallows hevents ho
    obtain ⟨hagent, hword⟩ := State.eventRead_reply (s := a.answer agent 0) (c := c) agent
    obtain ⟨hleft, hirq⟩ := State.eventRead_pops (s := a.answer agent 0) (c := c) agent
    obtain ⟨hvalid, hobj⟩ := State.eventView_oldest (s := a.answer agent 0) hevents ho
    rw [State.answer_events, hevents] at hleft hirq
    exact ⟨_, exec_syEventRead hruns hc hallows, hleft, hirq, hagent, hword ▸ hvalid, hword ▸ hobj⟩
  case empty =>
    intro s a t agent c hruns hc hallows hevents
    obtain ⟨hagent, hword⟩ := State.eventRead_reply (s := a.answer agent 0) (c := c) agent
    obtain ⟨hleft, hirq⟩ := State.eventRead_pops (s := a.answer agent 0) (c := c) agent
    have hvalid := State.eventView_empty (s := a.answer agent 0) hevents
    rw [State.answer_events, hevents] at hleft hirq
    exact ⟨_, exec_syEventRead hruns hc hallows, hleft, hirq, hagent, hword ▸ hvalid⟩

/-- Settles O47: the registers by their effects, then the oldest advance and the wait whose window has ended. -/
theorem syncObjectsComplete : Obligations.SyncObjectsComplete := by
  unfold Obligations.SyncObjectsComplete
  intro s a t hruns
  refine ⟨?added, ?set, ?advanced, ?trigger, ?event, ?expired⟩
  case added =>
    intro agent obj v hobj hallows
    exact exec_syAdd v hruns hobj hallows
  case set =>
    intro agent obj v hobj hallows
    exact exec_sySet v hruns hobj hallows
  case advanced =>
    intro q n r hadvances
    show execAdvance t s = _
    refine State.live_next hruns ?_
    simp only [hadvances]
  case trigger =>
    intro agent obj v hobj hallows hidle
    exact State.live_row_next hruns hobj hallows (State.txnWrite_idle _ hidle)
  case event =>
    intro agent core hcore hallows
    exact exec_syEventRead hruns hcore hallows
  case expired =>
    intro w x hfound hended
    show execWaitTimeout t w s = _
    refine State.live_next hruns ?_
    simp only [hfound, hended, Bool.false_eq_true, if_false]

end Sys2Proof.Machine

/-! Mailboxes (R262, R263, R265, R266): what each register does to a mailbox in its state, and the response window. -/

namespace Sys2Proof.Machine

/-! ### The registers of a mailbox, by its state -/

section
variable {s : State} {agent m : Nat} {v : Word}

/-- A FREE mailbox goes to the host core or service processor that reads MB_LOCK (R262). -/
theorem State.mbLockRead_free (hfree : s.mbState m = 0) (hreader : (isHost agent || isService agent) = true) :
    s.mbLockRead agent m = ((s.wr MB_STATUS.STATE m 1).wr MB_STATUS.OWNER m agent).answer agent 0 :=
  if_pos ⟨hfree, hreader⟩

/-- GO 1 of the owner frees a mailbox (R263). -/
theorem State.mbReleaseWrite_owner (hgo : MB_RELEASE.GO.get v = 1) (hheld : s.mbState m ≠ 0)
    (howner : s.mbOwner m = agent) : s.mbReleaseWrite agent m v = s.mbFree m := by
  rw [State.mbReleaseWrite, if_pos ⟨hheld, howner⟩, hgo]
  rfl

theorem State.mbReqPush_room (howner : s.mbOwner m = agent) (hstate : s.mbState m = 1 ∨ s.mbState m = 3)
    (hroom : (s.mbox m).req.length < 32) :
    s.mbReqPush agent m v = s.setMbox m { s.mbox m with req := (s.mbox m).req ++ [v] } := by
  rw [State.mbReqPush, if_pos ⟨howner, hstate⟩, if_pos hroom]

theorem State.mbReqPop_oldest {w : Word} {r : List Word} (hsent : s.mbState m = 2)
    (hresponds : s.responds m agent = true) (hreq : (s.mbox m).req = w :: r) :
    s.mbReqPop agent m = (s.setMbox m { s.mbox m with req := r }).answer agent w := by
  rw [State.mbReqPop, if_pos ⟨hsent, hresponds⟩]
  simp only [hreq]

theorem State.mbRspPush_room (hsent : s.mbState m = 2) (hresponds : s.responds m agent = true)
    (hroom : (s.mbox m).rsp.length < 32) :
    s.mbRspPush agent m v = s.setMbox m { s.mbox m with rsp := (s.mbox m).rsp ++ [v] } := by
  rw [State.mbRspPush, if_pos ⟨hsent, hresponds⟩, if_pos hroom]

theorem State.mbRspPop_oldest {w : Word} {r : List Word} (hdone : s.mbState m = 3) (howner : s.mbOwner m = agent)
    (hrsp : (s.mbox m).rsp = w :: r) :
    s.mbRspPop agent m = (s.setMbox m { s.mbox m with rsp := r }).answer agent w := by
  rw [State.mbRspPop, if_pos ⟨hdone, howner⟩]
  simp only [hrsp]

/-- A SEND of a host core interrupts the pair (R263). -/
theorem State.mbSendWrite_host (howner : s.mbOwner m = agent) (hstate : s.mbState m = 1 ∨ s.mbState m = 3)
    (hfits : s.flag MB_STATUS.OVERFLOW m = false) (hhost : isHost agent = true) :
    s.mbSendWrite agent m v = (s.setMbox m
      { s.mbox m with rsp := [], cmd := MB_SEND.CMD.get v, sentAt := s.now, irq := true }).wr MB_STATUS.STATE m 2 := by
  rw [State.mbSendWrite, if_pos ⟨howner, hstate⟩]
  simp only [hfits, hhost, Bool.false_eq_true, if_false, if_true]

/-- A SEND of a request that overflowed ends at once with REQ_OVERFLOW (R263). -/
theorem State.mbSendWrite_overflow (howner : s.mbOwner m = agent) (hstate : s.mbState m = 1 ∨ s.mbState m = 3)
    (hover : s.flag MB_STATUS.OVERFLOW m = true) :
    s.mbSendWrite agent m v = ((s.setMbox m
      { s.mbox m with rsp := [], cmd := MB_SEND.CMD.get v, sentAt := s.now }).wr MB_STATUS.STATE m 3).wr
        MB_ACK.CODE m 7 := by
  rw [State.mbSendWrite, if_pos ⟨howner, hstate⟩]
  simp only [hover, if_true]

/-- A SENT mailbox has not timed out. -/
theorem State.not_timedOut_of_sent (hsent : s.mbState m = 2) :
    ¬ (s.mbState m = 3 ∧ s.rd MB_ACK.CODE m = 6 ∧ s.responds m agent = true) := by
  rintro ⟨hdone, -, -⟩
  rw [hsent] at hdone
  cases hdone

/-- From the end tick on, the responder's write of MB_ACK ends the window and is counted (R265). -/
theorem State.mbAckWrite_late (hsent : s.mbState m = 2) (hresponds : s.responds m agent = true)
    (hdue : s.mbDue m ≤ s.now) :
    s.mbAckWrite agent m v =
      ((s.mbTimeout m).bump MB_STATUS.LATE m).report agent (MB_ACK.CODE.off m) (v.toNat / 256 != 0) false := by
  rw [State.mbAckWrite, if_neg (State.not_timedOut_of_sent hsent), if_pos ⟨hsent, hresponds⟩, if_pos hdue]

/-- Before the end tick, a defined code ends the request (R263, R266). -/
theorem State.mbAckWrite_inTime (hsent : s.mbState m = 2) (hresponds : s.responds m agent = true)
    (hopen : s.now < s.mbDue m) (hcode : ackCode (MB_ACK.CODE.get v) = true) :
    s.mbAckWrite agent m v =
      (s.mbDone m (MB_ACK.CODE.get v)).report agent (MB_ACK.CODE.off m) (v.toNat / 256 != 0) false := by
  rw [State.mbAckWrite, if_neg (State.not_timedOut_of_sent hsent), if_pos ⟨hsent, hresponds⟩,
    if_neg (Nat.not_le.mpr hopen), if_pos hcode]

/-- After a timeout the responder's write of MB_ACK is counted alone (R265). -/
theorem State.mbAckWrite_timedOut (hdone : s.mbState m = 3) (hcode : s.rd MB_ACK.CODE m = 6)
    (hresponds : s.responds m agent = true) :
    s.mbAckWrite agent m v =
      (s.bump MB_STATUS.LATE m).report agent (MB_ACK.CODE.off m) (v.toNat / 256 != 0) false :=
  if_pos ⟨hdone, hcode, hresponds⟩

end

/-! ### The response window (R265) -/

section
variable {s a : State} {t agent m : Nat} {v : Word}

theorem exec_mailboxTimeout (hruns : s.runsAt t a) :
    exec (.mailboxTimeout t m) s = .next (if a.mbState m = 2 ∧ a.mbDue m ≤ a.now then a.mbTimeout m else a) :=
  State.live_next (f := fun s => if s.mbState m = 2 ∧ s.mbDue m ≤ s.now then s.mbTimeout m else s) hruns rfl

theorem exec_mailboxTimeout_due (hruns : s.runsAt t a) (hsent : a.mbState m = 2) (hdue : a.mbDue m ≤ a.now) :
    exec (.mailboxTimeout t m) s = .next (a.mbTimeout m) := by
  rw [exec_mailboxTimeout hruns, if_pos ⟨hsent, hdue⟩]

/-- MB_ACK and MB_STATUS of a mailbox are two registers. -/
theorem mailboxAck_off_ne_status_off (m : Nat) : MB_ACK.CODE.off m ≠ MB_STATUS.STATE.off m := by
  simp only [Fld.off, MB_ACK.CODE, MB_STATUS.STATE]
  omega

/-- Neither register that a report changes is a mailbox's. -/
theorem State.rd_report_mailbox (s : State) (off : Nat) (ignored bad : Bool) {f : Fld} {i : Nat}
    (hf : 0x9000000 ≤ f.off i) : (s.report agent off ignored bad).rd f i = s.rd f i :=
  State.rd_congr (State.reg_report_other _ _ _ _ _ (by omega) (by omega))

theorem State.mbState_mbTimeout (s : State) (m : Nat) : (s.mbTimeout m).mbState m = 3 := by
  rw [State.mbState, State.mbTimeout, State.setMbox_rd, State.rd_wr_same _ _ _ _ (by decide)]
  rfl

theorem State.ackCode_mbTimeout (s : State) (m : Nat) : (s.mbTimeout m).rd MB_ACK.CODE m = 6 := by
  rw [State.mbTimeout, State.setMbox_rd, State.rd_wr_reg _ _ _ _ _ _ (mailboxAck_off_ne_status_off m),
    State.rd_wr_same _ _ _ _ (by decide)]
  rfl

theorem State.late_mbTimeout (s : State) (m : Nat) :
    (s.mbTimeout m).rd MB_STATUS.LATE m = s.rd MB_STATUS.LATE m := by
  rw [State.mbTimeout, State.setMbox_rd, State.rd_wr_bits _ _ _ _ _ _ (by decide) (by decide),
    State.rd_wr_reg _ MB_ACK.CODE MB_STATUS.LATE _ _ _ (mailboxAck_off_ne_status_off m).symm]

/-- A count stops at the field's maximum. -/
theorem State.rd_bump_same (s : State) (f : Fld) (i n : Nat) (h : f.lo + f.w ≤ 64) :
    (s.bump f i n).rd f i = min (s.rd f i + n) (2 ^ f.w - 1) := by
  rw [State.bump, State.rd_wr_same s f i _ h]
  exact Nat.mod_eq_of_lt (Nat.lt_of_le_of_lt (Nat.min_le_right _ _) (Nat.sub_lt (Nat.two_pow_pos _) Nat.one_pos))

/-- A late acknowledgement leaves the mailbox as its timeout does, and LATE one higher (R265). -/
theorem State.mbTimeout_counted (s : State) (m : Nat) {b : State}
    (hb : b = ((s.mbTimeout m).bump MB_STATUS.LATE m).report agent (MB_ACK.CODE.off m) (v.toNat / 256 != 0) false) :
    b.mbState m = 3 ∧ b.rd MB_ACK.CODE m = 6 ∧
      b.rd MB_STATUS.LATE m = min (s.rd MB_STATUS.LATE m + 1) (2 ^ MB_STATUS.LATE.w - 1) := by
  have hshown (f : Fld) (hf : 0x9000000 ≤ f.off m) : b.rd f m = ((s.mbTimeout m).bump MB_STATUS.LATE m).rd f m := by
    rw [hb, State.rd_report_mailbox _ _ _ _ hf]
  refine ⟨?state, ?code, ?late⟩
  case state =>
    rw [State.mbState, hshown _ (Nat.le_add_right_of_le (by decide)), State.bump,
      State.rd_wr_bits _ _ _ _ _ _ (by decide) (by decide)]
    exact s.mbState_mbTimeout m
  case code =>
    rw [hshown _ (Nat.le_add_right_of_le (by decide)), State.bump,
      State.rd_wr_reg _ MB_STATUS.LATE MB_ACK.CODE _ _ _ (mailboxAck_off_ne_status_off m), s.ackCode_mbTimeout]
  case late =>
    rw [hshown _ (Nat.le_add_right_of_le (by decide)), State.rd_bump_same _ _ _ _ (by decide), s.late_mbTimeout]

end

/-- Settles O23: on either side of the end tick, the command that ends the window, and the responder's late writes of
MB_ACK. -/
theorem mailboxWindows : Obligations.MailboxWindows := by
  unfold Obligations.MailboxWindows
  rintro s a t m agent _ v hruns hm rfl
  refine ⟨?ends, ?runs, ?late, ?after⟩
  case ends =>
    intro hsent hdue
    exact ⟨_, exec_mailboxTimeout_due hruns hsent hdue, a.mbState_mbTimeout m, a.ackCode_mbTimeout m⟩
  case runs =>
    intro _ hopen
    rw [exec_mailboxTimeout hruns, if_neg fun h => Nat.not_le.mpr hopen h.2]
  case late =>
    intro hsent hdue hresponds hallows
    have hack := State.mbAckWrite_late (s := a.answer agent 0) (v := v) hsent hresponds hdue
    exact ⟨_, State.live_row_next hruns hm hallows hack, State.mbTimeout_counted (a.answer agent 0) m rfl⟩
  case after =>
    intro hdone hcode hresponds hallows
    exact State.live_row_next hruns hm hallows (State.mbAckWrite_timedOut hdone hcode hresponds)

/-- Settles O48: each register by what it does to the mailbox in its state; the end of the window by its command. -/
theorem mailboxesComplete : Obligations.MailboxesComplete := by
  unfold Obligations.MailboxesComplete
  intro s a t hruns
  refine ⟨?locked, ?released, ?reqPushed, ?reqPopped, ?rspPushed, ?rspPopped, ?sent, ?overflowed, ?acked, ?timedOut⟩
  case locked =>
    intro agent m hm hallows hreader hfree
    exact State.live_row_next hruns hm hallows (State.mbLockRead_free hfree hreader)
  case released =>
    rintro agent m v _ hm hallows rfl hgo hheld howner
    exact State.live_row_next hruns hm hallows (State.mbReleaseWrite_owner hgo hheld howner)
  case reqPushed =>
    intro agent m v hm hallows howner hstate hroom
    exact State.live_row_next hruns hm hallows (State.mbReqPush_room howner hstate hroom)
  case reqPopped =>
    intro agent m w r hm hallows hsent hresponds hreq
    exact State.live_row_next hruns hm hallows (State.mbReqPop_oldest hsent hresponds hreq)
  case rspPushed =>
    intro agent m v hm hallows hsent hresponds hroom
    exact State.live_row_next hruns hm hallows (State.mbRspPush_room hsent hresponds hroom)
  case rspPopped =>
    intro agent m w r hm hallows hdone howner hrsp
    exact State.live_row_next hruns hm hallows (State.mbRspPop_oldest hdone howner hrsp)
  case sent =>
    rintro agent m v _ hm hallows rfl howner hstate hfits hhost
    exact State.live_row_next hruns hm hallows (State.mbSendWrite_host howner hstate hfits hhost)
  case overflowed =>
    rintro agent m v _ hm hallows rfl howner hstate hover
    exact State.live_row_next hruns hm hallows (State.mbSendWrite_overflow howner hstate hover)
  case acked =>
    intro agent m v hm hallows hsent hresponds hopen hcode
    exact State.live_row_next hruns hm hallows (State.mbAckWrite_inTime hsent hresponds hopen hcode)
  case timedOut =>
    intro m hsent hdue
    exact exec_mailboxTimeout_due hruns hsent hdue

end Sys2Proof.Machine

/-! The interleave of HBM (R270), and the rows of its channels: the line store, the scrubber, retraining, loss and repair
(R275, R278, R286 to R293). -/

namespace Sys2Proof.Machine

/-! ### The interleave -/

theorem channelOf_fst_lt (g : Nat) : (channelOf g).1 < 384 := Nat.mod_lt _ (by decide)

/-- Two granules on one channel and in one row of 384 are the same: a row only rotates its channels. -/
theorem channelOf_injective : Function.Injective channelOf := by
  intro g h heq
  simp only [channelOf, Prod.mk.injEq] at heq
  obtain ⟨hch, hrow⟩ := heq
  rw [hrow] at hch
  omega

/-- The granule of row n that lies on channel c before any repair. -/
def granuleIn (c n : Nat) : Nat := 384 * n + (c + 384 - 97 * n % 384) % 384

theorem granuleIn_in_row (c n : Nat) : 384 * n ≤ granuleIn c n ∧ granuleIn c n < 384 * n + 384 := by
  unfold granuleIn
  omega

theorem channelOf_granuleIn {c : Nat} (hc : c < 384) (n : Nat) : channelOf (granuleIn c n) = (c, n) := by
  obtain ⟨hlo, hhi⟩ := granuleIn_in_row c n
  have hrow : granuleIn c n / 384 = n := by omega
  simp only [channelOf, hrow, Prod.mk.injEq, and_true]
  unfold granuleIn
  omega

/-- Settles O12: a row of 384 granules is a rotation of the 384 channels. -/
theorem granulesHaveTheirOwnPlaces : Obligations.GranulesHaveTheirOwnPlaces := by
  unfold Obligations.GranulesHaveTheirOwnPlaces
  refine ⟨channelOf_fst_lt, fun g h heq => channelOf_injective heq, fun n c hc => ⟨granuleIn c n, ?_⟩⟩
  obtain ⟨hlo, hhi⟩ := granuleIn_in_row c n
  exact ⟨hlo, hhi, channelOf_granuleIn hc n⟩

/-! ### Retraining, loss and repair -/

section
variable {s a b c : State} {t ch : Nat}

/-- A channel that answers retrains for its errors, an interface error or a temperature change (R286). -/
theorem exec_retrain_event {cause : Nat} (agent : Nat) (hruns : s.runsAt t a) (hch : ch < 384)
    (hcause : cause = 0 ∧ (a.chan ch).ceWin.1 = a.winNum 1000000 ∧ a.rd HM_CFG.CE_RETRAIN < (a.chan ch).ceWin.2 ∨
      cause = 1 ∨ cause = 2)
    (hcan : a.canRetrain ch = true) : exec (.retrain t ch cause agent) s = .next (a.holdChan ch 1) := by
  show execRetrain t ch cause agent s = _
  refine State.live_next hruns ?_
  rcases hcause with ⟨rfl, hwindow, hmany⟩ | rfl | rfl
  · simp [Nat.not_le.mpr hch, hcan, hwindow, hmany]
  · simp [Nat.not_le.mpr hch, hcan]
  · simp [Nat.not_le.mpr hch, hcan]

/-- An attempt that fails ends, and a third failure in a row loses the channel (R288). -/
theorem exec_retrainFail_trains (hruns : s.runsAt t a) (hch : ch < 384) (htrains : a.rd HM_CH_STATUS.STATE ch = 1)
    (hb : b = (a.setChan ch { a.chan ch with failedAt := some a.now }).wr HM_CH_STATUS.TRAIN_FAILS ch
      (a.rd HM_CH_STATUS.TRAIN_FAILS ch + 1))
    (hc : c = b.resumeChan ch 3 (a.rd HM_CH_STATUS.TRAIN_FAILS ch + 1) 0) :
    exec (.retrainFail t ch) s =
      .next ((if 3 ≤ a.rd HM_CH_STATUS.TRAIN_FAILS ch + 1 then c.trainingLost ch else c).releaseReqs ch) := by
  subst hb hc
  show execRetrainFail t ch s = _
  exact State.live_next hruns (if_pos ⟨hch, htrains⟩)

/-- A service processor retires a channel that is not lost (R290). -/
theorem State.retireWrite_serving {agent : Nat} (hservice : isService agent = true) (hserves : (s.chan ch).lost = false) :
    s.retireWrite agent ch = (s.declareLost ch 2).releaseReqs ch := by
  simp [State.retireWrite, hservice, hserves]

/-- A granule that is not the last of its repair moves (R292, R293). -/
theorem exec_granuleMove_next {answers : Bool} {ecc : List (Nat × EccFinding)} {r : Repair} {n g : Nat} {ls : List Nat}
    (hruns : s.runsAt t a) (hfind : a.repairs.zipIdx.find? (fun e => !e.1.done && !a.chanHeld e.1.ch) = some (r, n))
    (hg : g = a.granuleAt n r.ch r.moved) (hls : ls = (List.range 64).map (fun k => g * 64 + k))
    (hb : b = a.each ls fun s l => if answers && !r.dead then (s.countRead r.ch).findErrors ecc [l] 3 0
      else if s.inStore l then s else s.setPoison l true)
    (hmore : r.moved + 1 < a.toMove n) (hsame : b.toMove n = a.toMove n)
    (hc : c = State.mapRepair { b with lineStore := b.lineStore.filter (fun e => e.1 / 64 != g) } n fun x =>
      { x with moved := r.moved + 1, done := false }) :
    exec (.granuleMove t answers ecc) s =
      .next ((c.each ls fun s l => s.countWrite (s.chanOf (64 * l))).wr HM_STATUS.MOVED 0 (r.moved + 1)) := by
  have hlast (store : List (Nat × Nat)) :
      decide (State.toMove { b with lineStore := store } n ≤ r.moved + 1) = false :=
    decide_eq_false (Nat.not_le.mpr (hsame ▸ hmore))
  subst hg hls
  show execGranuleMove t answers ecc s = _
  refine State.live_next hruns ?_
  simp only [hfind, ← hb, hlast, Bool.false_eq_true, if_false, ← hc]

end

/-- Settles O51: each row by the condition under which it has its effect. -/
theorem memoryChannelsComplete : Obligations.MemoryChannelsComplete := by
  unfold Obligations.MemoryChannelsComplete
  intro s a t hruns
  refine ⟨?leaves, ?scrubbed, ?errors, ?event, ?written, ?relocked, ?trained, ?failed, ?thirdFailure, ?retried,
    ?retiredByErrors, ?retiredByService, ?moved⟩
  case leaves =>
    intro line hidle
    show execLineStoreWriteback t line s = _
    exact State.live_next hruns (if_pos hidle)
  case scrubbed =>
    intro line ecc hdram hlives hfree
    show execScrub t line ecc s = _
    exact State.live_next hruns (if_pos (by simp [hdram, hlives, hfree]))
  case errors =>
    intro ch agent hch hcan hwindow hmany
    exact exec_retrain_event agent hruns hch (.inl ⟨rfl, hwindow, hmany⟩) hcan
  case event =>
    intro ch cause agent hch hcause hcan
    exact exec_retrain_event agent hruns hch (.inr hcause) hcan
  case written =>
    intro ch agent hch hallows hcan
    exact (exec_retrain_software s t ch agent).trans (State.live_row_next hruns hch hallows (if_pos hcan))
  case relocked =>
    intro ch agent hch hheld
    show execRetrain t ch 4 agent s = _
    exact State.live_next hruns (by simp [Nat.not_le.mpr hch, hheld])
  case trained =>
    rintro ch _ hch htrains rfl
    show execRetrainDone t ch s = _
    exact State.live_next hruns (if_pos ⟨hch, htrains⟩)
  case failed =>
    intro ch b hch htrains hfew hb
    rw [exec_retrainFail_trains hruns hch htrains hb rfl, if_neg (by omega)]
  case thirdFailure =>
    intro ch b hch htrains htwo hb
    rw [exec_retrainFail_trains hruns hch htrains hb rfl, if_pos (by omega)]
  case retried =>
    intro ch f hch hfailed hdue hcan
    show execRetrainRetry t ch s = _
    refine State.live_next hruns ?_
    simp only [hfailed]
    exact if_pos ⟨hch, hdue, hcan⟩
  case retiredByErrors =>
    intro ch agent hch hauto hwindow hmany hserves
    show execRetire t ch 1 agent s = _
    exact State.live_next hruns (by simp [Nat.not_le.mpr hch, hauto, hwindow, hmany, hserves])
  case retiredByService =>
    intro ch agent hch hallows hservice hserves
    exact (exec_retire_software s t ch agent).trans
      (State.live_row_next hruns hch hallows (State.retireWrite_serving hservice hserves))
  case moved =>
    intro answers ecc r n g ls b c
    exact exec_granuleMove_next hruns

end Sys2Proof.Machine

/-! Accesses of agents that do not cache, invalidations and probes (R291, R299, R399, R401, R407). -/

namespace Sys2Proof.Machine

section
variable {s a b r : State} {t agent line : Nat} {found : Found}

theorem State.orHold_free {f : State → State} (q : HeldReq) (hfree : s.holdKey line = none) : s.orHold line q f = f s := by
  simp only [State.orHold, hfree]

theorem State.orHold_held {f : State → State} {k : Nat} (q : HeldReq) (hheld : s.holdKey line = some k) :
    s.orHold line q f = { s with heldReqs := s.heldReqs ++ [(k, q)] }.noteWait k := by
  simp only [State.orHold, hheld]

/-- A coherent read that the home takes and the dike table admits is held at its line or performed. -/
theorem exec_coherentRead_admitted (hruns : s.runsAt t a) (htakes : a.homeTakes line = true)
    (hadmits : a.admits agent false (64 * line) 64 = true) :
    exec (.coherentRead t agent line found) s =
      .next (a.orHold line (.read agent line found) fun s => s.readNow agent line found) := by
  show execCoherentRead t agent line found s = _
  exact State.live_next hruns (by simp [htakes, hadmits])

theorem exec_nonCachingWrite_admitted {mask : Word} {d : Line} (hruns : s.runsAt t a) (htakes : a.homeTakes line = true)
    (hadmits : a.admits agent true (64 * line) 64 = true) :
    exec (.nonCachingWrite t agent line mask d found) s =
      .next (a.orHold line (.write agent line mask d found) fun s => s.writeNow agent line mask d found) := by
  show execNonCachingWrite t agent line mask d found s = _
  exact State.live_next hruns (by simp [htakes, hadmits])

/-- A non-caching write that nothing holds is answered (R401). -/
theorem exec_nonCachingWrite_next {mask : Word} {d : Line} (hruns : s.runsAt t a) (htakes : a.homeTakes line = true)
    (hadmits : a.admits agent true (64 * line) 64 = true) (hhold : a.holdKey line = none)
    (hb : b = a.reading found 0 agent) (hr : r = (b.coWrite line mask d).answer agent 0 0 (b.failedLine line))
    (hfree : r.access.blocked = none) : exec (.nonCachingWrite t agent line mask d found) s = .next r.readsDone := by
  rw [exec_nonCachingWrite_admitted hruns htakes hadmits, State.orHold_free _ hhold]
  exact congrArg _ (State.reads_effect (by rw [hr, hb]) hfree)

end

/-- Settles O37: an access is held at its line or performed, an invalidation is the front of its queue, and a probe passes
the gate of its register. -/
theorem coherentAccessesComplete : Obligations.CoherentAccessesComplete := by
  unfold Obligations.CoherentAccessesComplete
  intro s a t hruns
  refine ⟨?readHeld, ?read, ?written, ?invalidated, ?probed⟩
  case readHeld =>
    intro agent line k found htakes hadmits hheld
    rw [exec_coherentRead_admitted hruns htakes hadmits, State.orHold_held _ hheld]
  case read =>
    intro agent line found b r htakes hadmits hhold hb hr hfree
    rw [exec_coherentRead_admitted hruns htakes hadmits, State.orHold_free _ hhold]
    exact congrArg _ (State.reads_effect (by rw [hr, hb]) hfree)
  case written =>
    intro agent line mask d found b r htakes hadmits hhold hb hr hfree
    exact exec_nonCachingWrite_next hruns htakes hadmits hhold hb hr hfree
  case invalidated =>
    intro cluster e r hfront
    show execInvalidation t cluster s = _
    exact State.live_next hruns (by simp only [hfront])
  case probed =>
    intro agent v hallows
    exact State.live_allowed hruns hallows

end Sys2Proof.Machine

/-! What a write of a line and a memory-side addition leave in HBM (R274, R277 to R280, R391, R401): the home of a line
that no core holds only counts the request, and the line's channel stores it. -/

namespace Sys2Proof.Machine

/-! ### States whose memory, or whose lines, are the same -/

/-- Memory, the poison marks and what a watched access knows are the same in two states. -/
structure SameMemory (s t : State) : Prop where
  mem : t.mem = s.mem
  poison : t.poison = s.poison
  access : t.access = s.access

/-- So are the directory, the line stores, the losses and repairs of channels, and which channels hold requests. -/
structure SameLines (s t : State) : Prop extends SameMemory s t where
  dir : t.dir = s.dir
  lineStore : t.lineStore = s.lineStore
  chans : t.chans = s.chans
  repairs : t.repairs = s.repairs
  chanHeld : ∀ c, t.chanHeld c = s.chanHeld c

section
variable {s t u : State} {line : Nat}

theorem SameMemory.refl (s : State) : SameMemory s s := ⟨rfl, rfl, rfl⟩

theorem SameMemory.trans (h : SameMemory s t) (k : SameMemory t u) : SameMemory s u :=
  ⟨k.mem.trans h.mem, k.poison.trans h.poison, k.access.trans h.access⟩

theorem SameMemory.byte (h : SameMemory s t) (q : Nat) : t.byte q = s.byte q := by simp only [State.byte, h.mem]

theorem SameMemory.memLine (h : SameMemory s t) (l : Nat) : t.memLine l = s.memLine l := by
  simp only [State.memLine, State.readLE, State.bytes, h.byte]

theorem SameMemory.poisoned (h : SameMemory s t) (l : Nat) : t.poisoned l = s.poisoned l := by
  simp only [State.poisoned, h.poison]

theorem SameMemory.finding (h : SameMemory s t) (l : Nat) : t.finding l = s.finding l := by
  simp only [State.finding, h.access]

theorem SameLines.trans (h : SameLines s t) (k : SameLines t u) : SameLines s u :=
  ⟨h.toSameMemory.trans k.toSameMemory, k.dir.trans h.dir, k.lineStore.trans h.lineStore, k.chans.trans h.chans,
    k.repairs.trans h.repairs, fun c => (k.chanHeld c).trans (h.chanHeld c)⟩

theorem SameLines.dirEntry (h : SameLines s t) (l : Nat) : t.dirEntry l = s.dirEntry l := by
  simp only [State.dirEntry, h.dir]

theorem SameLines.inStore (h : SameLines s t) (l : Nat) : t.inStore l = s.inStore l := by
  simp only [State.inStore, h.lineStore]

theorem SameLines.chanOf (h : SameLines s t) (pa : Nat) : t.chanOf pa = s.chanOf pa := by
  simp only [State.chanOf, h.repairs]

theorem SameLines.hbmDead (h : SameLines s t) (pa : Nat) : t.hbmDead pa = s.hbmDead pa := by
  simp only [State.hbmDead, State.chan, h.chans, h.repairs, h.chanOf]

/-- HBM is the lowest part of the map, whatever the registers hold (R45). -/
theorem State.region_eq_hbm_iff (s : State) (pa : Nat) : s.region pa = .hbm ↔ pa < 0xBE80000000 := by
  by_cases h : pa < 0xBE80000000
  · exact iff_of_true (if_pos h) h
  · refine iff_of_false ?_ h
    rw [State.region, if_neg h]
    repeat' refine ok_ite (Q := fun r => r ≠ Region.hbm) ?_ ?_
    all_goals exact Region.noConfusion

theorem State.region_hbm_of_region_hbm (t : State) {pa : Nat} (hhbm : s.region pa = .hbm) : t.region pa = .hbm :=
  (t.region_eq_hbm_iff pa).mpr ((s.region_eq_hbm_iff pa).mp hhbm)

theorem SameLines.holdKey (h : SameLines s t) (hhbm : s.region (64 * line) = .hbm) : t.holdKey line = s.holdKey line := by
  simp only [State.holdKey, hhbm, State.region_hbm_of_region_hbm t hhbm, h.chanOf, h.chanHeld, h.hbmDead, h.inStore]

end

/-! ### The home of a line that no core holds -/

section
variable {s : State} {line : Nat}

/-- The count of lookups is not the state of a channel. -/
theorem State.sameLines_bump_lookups (s : State) (slice : Nat) : SameLines s (s.bump DIR_S_LOOKUPS.COUNT slice) := by
  refine ⟨⟨rfl, rfl, rfl⟩, rfl, rfl, rfl, rfl, fun c => ?_⟩
  have hne : HM_CH_STATUS.STATE.off c ≠ DIR_S_LOOKUPS.COUNT.off slice := by
    simp only [Fld.off, HM_CH_STATUS.STATE, DIR_S_LOOKUPS.COUNT]
    omega
  have hrd : (s.bump DIR_S_LOOKUPS.COUNT slice).rd HM_CH_STATUS.STATE c = s.rd HM_CH_STATUS.STATE c :=
    State.rd_congr (State.reg_wr_other s _ _ _ _ hne)
  simp only [State.chanHeld, hrd]

/-- The loss of reservations changes host cores alone. -/
theorem State.sameLines_dropResv (s : State) (line : Nat) (except : Option Nat) :
    SameLines s (s.dropResv line except) := by
  refine List.foldlRecOn (motive := fun x => SameLines s x) _ _ ⟨⟨rfl, rfl, rfl⟩, rfl, rfl, rfl, rfl, fun _ => rfl⟩ ?_
  intro x hx c _
  split
  · exact hx
  · dsimp only
    split
    · exact hx.trans ⟨⟨rfl, rfl, rfl⟩, rfl, rfl, rfl, rfl, fun _ => rfl⟩
    · exact hx

/-- With no invalidation queued there is nothing to settle (R397). -/
theorem State.settle_of_invq_nil (hinvq : s.invq = []) (line : Nat) : s.settle line = s := by
  refine List.foldlRecOn (motive := fun x => x = s) _ _ rfl ?_
  rintro _ rfl k -
  simp [hinvq, Tab.get]

section
variable (hdir : s.dirEntry line = none) (hinvq : s.invq = []) (hgrants : s.grants = [])
include hdir hinvq hgrants

theorem State.lookup_unheld : s.lookup line = s.bump DIR_S_LOOKUPS.COUNT (sliceOf line) := by
  have hbusy : s.busy line = false := by simp [State.busy, hgrants]
  simp [State.lookup, State.waitBusy, hbusy, State.settle_of_invq_nil hinvq, State.dirTouch, hdir]

/-- A request for a line that no core holds is ordered at its home: its lookup is counted, and reservations are lost. -/
theorem State.sameLines_ordered : SameLines s ((s.lookup line).dropResv line) := by
  rw [State.lookup_unheld hdir hinvq hgrants]
  exact (State.sameLines_bump_lookups s _).trans (State.sameLines_dropResv _ _ _)

theorem State.coWrite_unheld (mask : Word) (d : Line) :
    s.coWrite line mask d = ((s.lookup line).dropResv line).storeLine line mask d := by
  unfold State.coWrite
  dsimp only
  rw [(State.sameLines_ordered hdir hinvq hgrants).dirEntry, hdir]

theorem State.coTake_unheld : s.coTake line = (s.lookup line).dropResv line := by
  unfold State.coTake
  dsimp only
  rw [(State.sameLines_ordered hdir hinvq hgrants).dirEntry, hdir]

end

/-! ### A line stored at its channel -/

theorem State.noteHeld_free (hfree : s.holdKey line = none) : s.noteHeld line = s := by
  simp [State.noteHeld, hfree]

/-- An event of a counter changes registers alone. -/
theorem State.pmcHub_eq (s : State) (h sel : Nat) (ctx layer : Option Nat) (n : Nat) :
    ∃ regs : Tab Word, s.pmcHub h sel ctx layer n = { s with regs := regs } := by
  refine List.foldlRecOn (motive := fun x => ∃ regs : Tab Word, x = { s with regs := regs }) _ _ ⟨s.regs, rfl⟩ ?_
  rintro _ ⟨regs, rfl⟩ e -
  exact ⟨_, rfl⟩

theorem State.countWrite_eq (s : State) (c : Nat) : ∃ regs : Tab Word, s.countWrite c = { s with regs := regs } :=
  State.pmcHub_eq _ _ _ _ _ _

theorem State.countRead_eq (s : State) (c : Nat) : ∃ regs : Tab Word, s.countRead c = { s with regs := regs } :=
  State.pmcHub_eq _ _ _ _ _ _

theorem State.countMop_eq (s : State) (line : Nat) : ∃ regs : Tab Word, s.countMop line = { s with regs := regs } := by
  unfold State.countMop
  split
  · exact State.pmcHub_eq _ _ _ _ _ _
  · exact ⟨s.regs, rfl⟩

theorem State.poisoned_countWrite (s : State) (c l : Nat) : (s.countWrite c).poisoned l = s.poisoned l := by
  obtain ⟨regs, h⟩ := s.countWrite_eq c
  rw [h]; rfl

theorem State.access_countWrite (s : State) (c : Nat) : (s.countWrite c).access = s.access := by
  obtain ⟨regs, h⟩ := s.countWrite_eq c
  rw [h]

theorem State.access_setLine (s : State) (line : Nat) (mask : Word) (d : Line) :
    (s.setLine line mask d).access = s.access := by
  refine List.foldlRecOn (motive := fun x : State => x.access = s.access) _ _ rfl ?_
  intro x hx k _
  split
  · exact hx
  · exact hx

@[simp] theorem State.access_putLine (s : State) (line : Nat) (mask : Word) (d : Line) (p : Bool) :
    (s.putLine line mask d p).access = s.access :=
  State.access_setLine s line mask d

/-- Storing a line that no channel and no port holds is no read. -/
theorem State.access_storeLine (mask : Word) (d : Line) (p : Bool) (hfree : s.holdKey line = none) :
    (s.storeLine line mask d p).access = s.access := by
  have hbump (x : State) (f : Fld) (i n : Nat) : (x.bump f i n).access = x.access := rfl
  simp only [State.storeLine, State.noteHeld_free hfree]
  split
  · split
    · exact hbump _ _ _ _
    · rw [hbump, State.access_putLine]
  · split
    · exact State.access_putLine _ _ _ _ _
    · split
      · rfl
      · rw [State.access_countWrite, State.access_putLine]

/-- The poison marks after a line of HBM whose channel answers is stored (R274). -/
theorem State.poisoned_storeLine_hbm (mask : Word) (d : Line) (p : Bool) (l : Nat) (hfree : s.holdKey line = none)
    (hhbm : s.region (64 * line) = .hbm) (hlives : s.inStore line = true ∨ s.hbmDead (64 * line) = false) :
    (s.storeLine line mask d p).poisoned l =
      if l = line then p || (s.poisoned line && mask != fullMask) else s.poisoned l := by
  simp only [State.storeLine, State.noteHeld_free hfree, hhbm]
  split
  · exact State.poisoned_putLine _ _ _ _ _ _
  · next hstore =>
    have hlive : ¬ s.hbmDead (64 * line) = true := by simp [hlives.resolve_left hstore]
    rw [if_neg hlive, State.poisoned_countWrite, State.poisoned_putLine]

end

/-! ### A command whose reads find nothing -/

section
variable {s : State} (hdue : s.access.due = [])
include hdue

/-- A command whose reads found no error leaves what its effect left. -/
theorem State.readsDone_of_due_nil : s.readsDone = { s with access := .idle } := by
  simp only [State.readsDone, hdue, State.each, List.foldl_nil]

theorem State.byte_readsDone (q : Nat) : s.readsDone.byte q = s.byte q := by
  rw [State.readsDone_of_due_nil hdue]
  rfl

theorem State.readLE_readsDone (pa n : Nat) : s.readsDone.readLE pa n = s.readLE pa n := by
  rw [State.readsDone_of_due_nil hdue]
  rfl

theorem State.poisoned_readsDone (l : Nat) : s.readsDone.poisoned l = s.poisoned l := by
  rw [State.readsDone_of_due_nil hdue]
  rfl

theorem State.reply_readsDone : s.readsDone.reply = s.reply := by
  rw [State.readsDone_of_due_nil hdue]

end

@[simp] theorem State.poisoned_answer (s : State) (g : Nat) (v : Word) (c : Nat) (p : Bool) (l : Nat) :
    (s.answer g v c p).poisoned l = s.poisoned l := rfl

/-! ### A write of an agent that does not cache -/

@[simp] theorem State.reading_byte (s : State) (found : Found) (source who q : Nat) :
    (s.reading found source who).byte q = s.byte q := rfl

@[simp] theorem State.reading_poisoned (s : State) (found : Found) (source who l : Nat) :
    (s.reading found source who).poisoned l = s.poisoned l := rfl

/-- What a write leaves in a line of HBM that no core holds and that answers. -/
theorem State.coWrite_hbm {s : State} {line : Nat} (mask : Word) (d : Line) (hdir : s.dirEntry line = none)
    (hinvq : s.invq = []) (hgrants : s.grants = []) (hhbm : s.region (64 * line) = .hbm) (hfree : s.holdKey line = none)
    (hlives : s.inStore line = true ∨ s.hbmDead (64 * line) = false) :
    (∀ q, (s.coWrite line mask d).byte q =
      if q / 64 = line ∧ mask.getLsbD (q % 64) then Line.byte d (q % 64) else s.byte q) ∧
    (∀ l, (s.coWrite line mask d).poisoned l =
      if l = line then s.poisoned line && mask != fullMask else s.poisoned l) ∧
    (s.coWrite line mask d).access = s.access := by
  have hsame := State.sameLines_ordered hdir hinvq hgrants
  rw [State.coWrite_unheld hdir hinvq hgrants]
  generalize (s.lookup line).dropResv line = u at hsame
  have hhbm' : u.region (64 * line) = .hbm := State.region_hbm_of_region_hbm u hhbm
  have hfree' : u.holdKey line = none := (hsame.holdKey hhbm).trans hfree
  have hlives' : u.inStore line = true ∨ u.hbmDead (64 * line) = false := by rwa [hsame.inStore, hsame.hbmDead]
  refine ⟨fun q => ?bytes, fun l => ?marks, ?access⟩
  case bytes => rw [State.byte_storeLine_hbm _ _ _ _ _ _ hhbm' hlives', hsame.byte]
  case marks =>
    rw [State.poisoned_storeLine_hbm _ _ _ _ hfree' hhbm' hlives', Bool.false_or, hsame.poisoned, hsame.poisoned]
  case access => rw [State.access_storeLine _ _ _ hfree', hsame.access]

/-- Settles O24: the home stores the line at its channel, under the mask. -/
theorem nonCachingWritesOfALine : Obligations.NonCachingWritesOfALine := by
  unfold Obligations.NonCachingWritesOfALine
  intro s a t agent line mask d found hruns hsave hhbm hadmits hhold hdir hinvq hgrants hlives
  have htakes : a.homeTakes line = true := by simp [State.homeTakes, State.cacheable, hhbm, Region.coherent, hsave]
  obtain ⟨hbytes, hpoison, haccess⟩ :=
    State.coWrite_hbm (s := a.reading found 0 agent) mask d hdir hinvq hgrants hhbm hhold hlives
  generalize hw : (a.reading found 0 agent).coWrite line mask d = w at hbytes hpoison haccess
  have hfree : (w.answer agent 0 0 ((a.reading found 0 agent).failedLine line)).access.blocked = none :=
    congrArg Access.blocked haccess
  have hdue : (w.answer agent 0 0 ((a.reading found 0 agent).failedLine line)).access.due = [] :=
    congrArg Access.due haccess
  refine ⟨_, exec_nonCachingWrite_next hruns htakes hadmits hhold rfl (by rw [hw]) hfree, ?_⟩
  simp only [State.byte_readsDone hdue, State.poisoned_readsDone hdue, State.byte_answer, State.poisoned_answer, hbytes,
    hpoison, State.reading_byte, State.reading_poisoned]
  refine ⟨fun k hk => ?_, fun pa hpa => if_neg fun h => hpa h.1, if_pos trivial, fun l hl => if_neg hl⟩
  have hline : (64 * line + k) / 64 = line := by omega
  have hoff : (64 * line + k) % 64 = k := by omega
  simp only [hline, hoff, true_and]

end Sys2Proof.Machine

/-! What a memory-side addition leaves in HBM (R274, R277 to R280): the line comes to its channel's line store as memory has
it, and the adder gives the new bytes of the element there. -/

namespace Sys2Proof.Machine

/-! ### A line at its adder -/

section
variable {s : State} {line : Nat}

theorem State.leaveStore_sameMemory (s : State) (line : Nat) : SameMemory s (s.leaveStore line) := by
  obtain ⟨regs, h⟩ := State.countWrite_eq { s with lineStore := s.lineStore.filter (fun e => e.1 != line) }
    (s.chanOf (64 * line))
  rw [State.leaveStore, h]
  exact ⟨rfl, rfl, rfl⟩

theorem State.countMop_sameMemory (s : State) (line : Nat) : SameMemory s (s.countMop line) := by
  obtain ⟨regs, h⟩ := s.countMop_eq line
  rw [h]
  exact ⟨rfl, rfl, rfl⟩

/-- A line of HBM that is neither poison nor lost, and in which the ECC finds nothing, is read as memory has it (R274). -/
theorem State.fetchLine_hbm_clean (hhbm : s.region (64 * line) = .hbm) (hfree : s.holdKey line = none)
    (hclean : s.poisoned line = false) (hlives : s.hbmDead (64 * line) = false) (hfinding : s.finding line = .clean) :
    ∃ regs : Tab Word, s.fetchLine line = (s.memLine line, false, { s with regs := regs }) := by
  obtain ⟨regs, hcount⟩ := s.countRead_eq (s.chanOf (64 * line))
  have hfinding' : State.finding { s with regs := regs } line = .clean := hfinding
  have hclean' : State.poisoned { s with regs := regs } line = false := hclean
  unfold State.fetchLine
  rw [State.noteHeld_free hfree]
  dsimp only
  rw [hhbm]
  dsimp only
  by_cases hstore : s.inStore line = true
  · exact ⟨s.regs, by rw [if_pos hstore, hclean]⟩
  · refine ⟨regs, ?_⟩
    rw [if_neg hstore, hlives]
    unfold State.dramLine
    dsimp only
    rw [hcount, hclean', hfinding']
    rfl

/-- The reads of an adder, which carry its SOURCE, leave the access as it was (R276). -/
theorem State.adderLine_hbm_clean (hon : s.access.on = true) (hhbm : s.region (64 * line) = .hbm)
    (hfree : s.holdKey line = none) (hclean : s.poisoned line = false) (hlives : s.hbmDead (64 * line) = false)
    (hfinding : s.finding line = .clean) :
    ∃ u, s.adderLine line = (s.memLine line, false, u) ∧ SameMemory s u := by
  have hread : s.readFor 2 = { s with access := { s.access with source := 2 } } := if_pos hon
  obtain ⟨regs, hfetch⟩ := State.fetchLine_hbm_clean (s := { s with access := { s.access with source := 2 } }) hhbm hfree
    hclean hlives hfinding
  refine ⟨{ s with regs := regs }, ?_, rfl, rfl, rfl⟩
  unfold State.adderLine
  rw [hread, hfetch]
  dsimp only
  rw [State.readFor, if_pos hon]
  rfl

/-- A line store with room for a line: of 64 other lines of the channel the least recently used leaves (R278). -/
def State.withRoom (s : State) (line : Nat) (others : List (Nat × Nat)) : State :=
  if s.inStore line then s
  else if others.length < 64 then s
  else
    match others with
    | [] => s
    | x :: r => s.leaveStore (r.foldl (fun a e => if e.2 < a.2 then e else a) x).1

theorem State.withRoom_sameMemory (s : State) (line : Nat) (others : List (Nat × Nat)) :
    SameMemory s (s.withRoom line others) := by
  unfold State.withRoom
  split
  · exact SameMemory.refl s
  · split
    · exact SameMemory.refl s
    · split
      · exact SameMemory.refl s
      · exact State.leaveStore_sameMemory _ _

/-- An unpoisoned line of HBM comes to its adder: its copies are taken, it is read, and it enters the line store. -/
theorem State.adderTake_hbm {c u v : State} {d : Line} (htake : s.coTake line = c) (hhbm : c.region (64 * line) = .hbm)
    (hread : c.adderLine line = (d, false, u))
    (hroom : v = u.withRoom line
      (c.lineStore.filter (fun e => c.chanOf (64 * e.1) == c.chanOf (64 * line) && e.1 != line))) :
    s.adderTake line =
      (d, false, { v with lineStore := v.lineStore.filter (fun e => e.1 != line) ++ [(line, v.now)] }) := by
  unfold State.adderTake
  rw [htake]
  dsimp only
  rw [hhbm]
  dsimp only
  rw [hread, hroom]
  rfl

/-- A line of HBM that no core holds and that nothing is wrong with comes to its adder as memory has it, and lies in the
line store of its channel then (R277, R278). -/
theorem State.adderTake_hbm_clean (hon : s.access.on = true) (hdir : s.dirEntry line = none) (hinvq : s.invq = [])
    (hgrants : s.grants = []) (hhbm : s.region (64 * line) = .hbm) (hfree : s.holdKey line = none)
    (hclean : s.poisoned line = false) (hlives : s.hbmDead (64 * line) = false) (hfinding : s.finding line = .clean) :
    ∃ u, s.adderTake line = (s.memLine line, false, u) ∧ SameMemory s u ∧ u.inStore line = true := by
  have hsame := State.sameLines_ordered hdir hinvq hgrants
  have htake := State.coTake_unheld hdir hinvq hgrants
  generalize (s.lookup line).dropResv line = c at hsame htake
  have hhbm' : c.region (64 * line) = .hbm := State.region_hbm_of_region_hbm c hhbm
  obtain ⟨u, hread, hread_same⟩ := State.adderLine_hbm_clean ((congrArg Access.on hsame.access).trans hon) hhbm'
    ((hsame.holdKey hhbm).trans hfree) ((hsame.poisoned line).trans hclean) ((hsame.hbmDead _).trans hlives)
    ((hsame.finding line).trans hfinding)
  rw [hsame.memLine] at hread
  obtain ⟨hmem, hpoison, haccess⟩ := (hsame.toSameMemory.trans hread_same).trans (u.withRoom_sameMemory line _)
  exact ⟨_, State.adderTake_hbm htake hhbm' hread rfl, ⟨hmem, hpoison, haccess⟩, by simp [State.inStore]⟩

end

/-! ### Eight bytes of a line -/

/-- A number read is what its bytes say. -/
theorem State.readLE_of_bytes {s : State} {pa n v : Nat}
    (hbytes : ∀ k < n, s.byte (pa + k) = BitVec.ofNat 8 (v >>> (8 * k))) : s.readLE pa n = v % 2 ^ (8 * n) := by
  induction n generalizing pa v with
  | zero => simp [State.readLE, State.bytes, leNat, Nat.mod_one]
  | succ n ih =>
    have hrest : s.readLE (pa + 1) n = v / 256 % 2 ^ (8 * n) := by
      refine ih fun k hk => ?_
      rw [Nat.add_assoc, Nat.add_comm 1 k, hbytes (k + 1) (by omega), Nat.mul_add, Nat.add_comm, Nat.shiftRight_add]
      simp [Nat.shiftRight_eq_div_pow]
    have hsplit : s.readLE pa (n + 1) = (s.byte pa).toNat + 256 * s.readLE (pa + 1) n := by
      simp [State.readLE, State.bytes, List.range_succ_eq_map, leNat, Function.comp_def, Nat.add_assoc, Nat.add_comm 1]
    have h0 := hbytes 0 (by omega)
    rw [hsplit, hrest, Nat.mul_add, Nat.mul_one, Nat.add_comm (8 * n), pow_add, Nat.mod_mul]
    simpa using congrArg BitVec.toNat h0

theorem getLsbD_maskOf (o n i : Nat) :
    (maskOf o n).getLsbD i = (decide (i < 64) && decide (o ≤ i) && decide (i - o < n)) := by
  simp [maskOf, BitVec.getLsbD_ofNat, Nat.testBit_shiftLeft, Nat.testBit_two_pow_sub_one, Bool.and_assoc]

/-- A byte of a number placed in a line. -/
theorem Line.byte_shifted {v o size k : Nat} (hv : v < 2 ^ (8 * size)) (hfits : o + size ≤ 64) :
    Line.byte (BitVec.ofNat 512 (v <<< (8 * o))) (o + k) = BitVec.ofNat 8 (v >>> (8 * k)) := by
  have hlt : v <<< (8 * o) < 2 ^ 512 :=
    (Nat.shiftLeft_lt hv).trans_le (Nat.pow_le_pow_right (by decide) (by omega))
  rw [Line.byte, BitVec.toNat_ofNat, Nat.mod_eq_of_lt hlt, Nat.mul_add, Nat.shiftRight_add, Nat.shiftLeft_shiftRight]

/-- A number read from a line is a part of the line. -/
theorem State.readLE_memLine {s : State} {pa size : Nat} (hfits : pa % 64 + size ≤ 64) :
    s.readLE pa size = ((s.memLine (pa / 64)).toNat >>> (8 * (pa % 64))) % 2 ^ (8 * size) := by
  refine State.readLE_of_bytes fun k hk => ?_
  have hpa : pa + k = 64 * (pa / 64) + (pa % 64 + k) := by omega
  rw [hpa, ← State.byte_memLine _ _ _ (by omega), Line.byte, Nat.mul_add, Nat.shiftRight_add]

theorem State.holdKey_inStore {s : State} {line : Nat} (hhbm : s.region (64 * line) = .hbm)
    (hstore : s.inStore line = true) : s.holdKey line = none := by
  simp [State.holdKey, hhbm, hstore]

section
variable {s : State} {pa size v : Nat}

/-- An element stored in a line of HBM that answers is read back. -/
theorem State.readLE_storeLine_elem (hhbm : s.region (64 * (pa / 64)) = .hbm)
    (hlives : s.inStore (pa / 64) = true ∨ s.hbmDead (64 * (pa / 64)) = false) (hfits : pa % 64 + size ≤ 64)
    (hv : v < 2 ^ (8 * size)) :
    (s.storeLine (pa / 64) (maskOf (pa % 64) size) (BitVec.ofNat 512 (v <<< (8 * (pa % 64))))).readLE pa size = v := by
  refine (State.readLE_of_bytes (v := v) fun k hk => ?_).trans (Nat.mod_eq_of_lt hv)
  have hline : (pa + k) / 64 = pa / 64 := by omega
  have hoff : (pa + k) % 64 = pa % 64 + k := by omega
  have hin : (maskOf (pa % 64) size).getLsbD (pa % 64 + k) = true := by
    simp only [getLsbD_maskOf, Bool.and_eq_true, decide_eq_true_eq]
    omega
  rw [State.byte_storeLine_hbm _ _ _ _ _ _ hhbm hlives, hline, hoff, if_pos ⟨rfl, hin⟩, Line.byte_shifted hv hfits]

/-- An element stored leaves the bytes around it. -/
theorem State.byte_storeLine_elem_other {p : Nat} (d : Line) (hhbm : s.region (64 * (pa / 64)) = .hbm)
    (hlives : s.inStore (pa / 64) = true ∨ s.hbmDead (64 * (pa / 64)) = false) (hout : p < pa ∨ pa + size ≤ p) :
    (s.storeLine (pa / 64) (maskOf (pa % 64) size) d).byte p = s.byte p := by
  rw [State.byte_storeLine_hbm _ _ _ _ _ _ hhbm hlives, if_neg]
  rintro ⟨hline, hin⟩
  simp only [getLsbD_maskOf, Bool.and_eq_true, decide_eq_true_eq] at hin
  omega

/-- What an adder leaves that counts an operation on a line of its line store and gives the new value of an element: the
value, every other byte, the poison marks and the access (R274, R278, R280). -/
theorem State.storeLine_countMop_elem (hhbm : s.region (64 * (pa / 64)) = .hbm)
    (hstore : s.inStore (pa / 64) = true) (hclean : s.poisoned (pa / 64) = false) (hfits : pa % 64 + size ≤ 64)
    (hv : v < 2 ^ (8 * size)) {n : State} (hn : n = (s.countMop (pa / 64)).storeLine (pa / 64) (maskOf (pa % 64) size)
      (BitVec.ofNat 512 (v <<< (8 * (pa % 64))))) :
    n.readLE pa size = v ∧ (∀ p, p < pa ∨ pa + size ≤ p → n.byte p = s.byte p) ∧
      (∀ l, n.poisoned l = s.poisoned l) ∧ n.access = s.access := by
  subst hn
  obtain ⟨regs, hcount⟩ := s.countMop_eq (pa / 64)
  have hsame := s.countMop_sameMemory (pa / 64)
  have hhbm' := State.region_hbm_of_region_hbm (s.countMop (pa / 64)) hhbm
  have hstore' : (s.countMop (pa / 64)).inStore (pa / 64) = true := by rwa [hcount]
  have hfree := State.holdKey_inStore hhbm' hstore'
  refine ⟨State.readLE_storeLine_elem hhbm' (.inl hstore') hfits hv, fun p hp => ?bytes, fun l => ?marks, ?access⟩
  case bytes => rw [State.byte_storeLine_elem_other _ hhbm' (.inl hstore') hp, hsame.byte]
  case marks =>
    rw [State.poisoned_storeLine_hbm _ _ _ _ hfree hhbm' (.inl hstore'), hsame.poisoned, hsame.poisoned, hclean]
    split
    · next hl => simp [hl, hclean]
    · rfl
  case access => rw [State.access_storeLine _ _ _ hfree, hsame.access]

end

/-! ### IADD64 -/

/-- Reads that find nothing in a line deliver it as it is stored. -/
theorem State.finding_reading_clean (s : State) {found : Found} (source who : Nat) {line : Nat}
    (hnone : ∀ e ∈ found.ecc, e.1 ≠ line) : (s.reading found source who).finding line = .clean := by
  have hfind : found.ecc.find? (fun e => e.1 == line) = none := by simpa using hnone
  simp [State.finding, State.reading, hfind]

/-- An IADD64 whose line its adder takes unpoisoned adds in it and answers. -/
theorem exec_iadd64_next {s a c w u : State} {t agent old : Nat} {r : MopReq} {d : Line} (hruns : s.runsAt t a)
    (hsave : a.save.phase = 0) (hform : r.form = .scalar) (hcoh : (a.region r.pa).coherent = true)
    (halign : r.pa % 8 = 0) (hadmits : a.admits agent true r.pa 8 = true) (hhold : a.holdKey (r.pa / 64) = none)
    (hc : c = a.reading r.found 0 agent) (hlost : c.lostLine (r.pa / 64) = false)
    (htake : c.adderTake (r.pa / 64) = (d, false, w)) (hold : old = (d.toNat >>> (8 * (r.pa % 64))) % 2 ^ (8 * 8))
    (hu : u = ((w.countMop (r.pa / 64)).storeLine (r.pa / 64) (maskOf (r.pa % 64) 8)
      (BitVec.ofNat 512 (((old + r.operand.toNat) % 2 ^ 64) <<< (8 * (r.pa % 64))))).answer agent
        (if r.fetch then BitVec.ofNat 64 old else 0))
    (hfree : u.access.blocked = none) : exec (.iadd64 t agent r) s = .next u.readsDone :=
  State.live_scalar hruns (code := 0x02) (size := 8) rfl (fun old y _ => (old + y) % 2 ^ 64) (fun _ _ => rfl)
    (mopWord_below (by decide)) agent old _ _ r d c w u hsave hform hcoh halign hadmits hhold hc hlost (by rw [htake])
    (by rw [htake]) (by rw [htake]) hold rfl (Nat.add_mod_mod _ _ _).symm hu hfree

theorem State.readLE_lt (s : State) (pa n : Nat) : s.readLE pa n < 2 ^ (8 * n) := by
  have h := leNat_lt (s.bytes pa n)
  rwa [State.length_bytes] at h

/-- The old value of 64 bits that a request fetches, in an answer of 512. -/
theorem fetched_setWidth (fetch : Bool) {old : Nat} (hold : old < 2 ^ 64) :
    (if fetch then BitVec.ofNat 64 old else 0).setWidth 512 = if fetch then BitVec.ofNat 512 old else 0 := by
  split
  · exact BitVec.setWidth_ofNat_of_le_of_lt (by decide) hold
  · exact BitVec.setWidth_zero _ _

/-- Settles O25: the adder takes the line as memory has it, and stores the sum in its eight bytes. -/
theorem memorySideAddsInMemory : Obligations.MemorySideAddsInMemory := by
  unfold Obligations.MemorySideAddsInMemory
  intro s a t agent r hruns hsave hform hhbm halign hadmits hdir hinvq hgrants hhold hclean hlives hnone
  have hhbmLine (x : State) : x.region (64 * (r.pa / 64)) = .hbm := by
    rw [State.region_eq_hbm_iff] at hhbm ⊢
    omega
  have hcoh : (a.region r.pa).coherent = true := by rw [hhbm]; rfl
  have hfits : r.pa % 64 + 8 ≤ 64 := by omega
  obtain ⟨w, htake, htaken, hstore⟩ := State.adderTake_hbm_clean (s := a.reading r.found 0 agent) rfl hdir hinvq hgrants
    (hhbmLine _) hhold hclean hlives (State.finding_reading_clean a 0 agent hnone)
  have hlost : (a.reading r.found 0 agent).lostLine (r.pa / 64) = false := by simp [State.lostLine, hhbmLine]
  have hold : a.readLE r.pa 8 = ((a.memLine (r.pa / 64)).toNat >>> (8 * (r.pa % 64))) % 2 ^ (8 * 8) :=
    State.readLE_memLine hfits
  have hstep := exec_iadd64_next hruns hsave hform hcoh halign hadmits hhold rfl hlost htake hold rfl
  have hsum : (a.readLE r.pa 8 + r.operand.toNat) % 2 ^ 64 < 2 ^ (8 * 8) := Nat.mod_lt _ (by decide)
  obtain ⟨hread, hframe, hmarks, haccess⟩ := State.storeLine_countMop_elem (hhbmLine w) hstore
    ((htaken.poisoned _).trans hclean) hfits hsum rfl
  generalize (w.countMop (r.pa / 64)).storeLine _ _ _ = n at hstep hread hframe hmarks haccess
  have hquiet := haccess.trans htaken.access
  generalize hu : n.answer agent (if r.fetch then BitVec.ofNat 64 (a.readLE r.pa 8) else 0) = u at hstep
  have hdue : u.access.due = [] := hu ▸ congrArg Access.due hquiet
  refine ⟨_, hstep (hu ▸ congrArg Access.blocked hquiet), ?_⟩
  rw [State.readLE_readsDone hdue, State.reply_readsDone hdue]
  simp only [State.byte_readsDone hdue, State.poisoned_readsDone hdue]
  subst hu
  refine ⟨hread, fun p hp => (hframe p hp).trans (htaken.byte p), fun l => (hmarks l).trans (htaken.poisoned l), ?_⟩
  exact fetched_setWidth r.fetch (State.readLE_lt a r.pa 8)

end Sys2Proof.Machine

/-! The far tier (R295 to R312): its ports and objects, the phases of a migration, and the rills. -/

namespace Sys2Proof.Machine

section
variable {s a b : State} {t n : Nat} {m : Mig}

/-! ### Migrations -/

/-- A migration that is ready and whose target is not HOME has its leaves checked (R304). -/
theorem exec_migrationCheck_checks {r : State} {found : Found} (hruns : s.runsAt t a) (hmig : a.migOf n = some m)
    (hready : a.migReady m = true) (hmoves : a.rd TIER_OBJ_CFG.HOME n ≠ m.target)
    (hr : (a.reading found 0 (a.migAgent m)).checkMig n m = r) (hfree : r.access.blocked = none) :
    exec (.migrationCheck t n found) s = .next r.readsDone := by
  show execMigrationCheck t n found s = _
  refine State.live_next hruns ?_
  simp only [hmig, hready, if_neg hmoves, Bool.not_true, Bool.false_eq_true, if_false]
  exact State.reads_effect hr hfree

/-- A migration in COPY copies lines (R304, R307). -/
theorem exec_migrationCopy_copies {r : State} {only : Option (List Nat)} {found : Found} (hruns : s.runsAt t a)
    (hmig : a.migOf n = some m) (hphase : m.phase = 2)
    (hr : (a.reading found 0 (a.migAgent m)).copyMig n m only = r) (hfree : r.access.blocked = none) :
    exec (.migrationCopy t n only found) s = .next r.readsDone := by
  show execMigrationCopy t n only found s = _
  refine State.live_next hruns ?_
  simp only [hmig, hphase, ne_eq, not_true_eq_false, if_false]
  exact State.reads_effect hr hfree

/-- A migration whose leaves do not match fails with MISMATCH (R304). -/
theorem State.checkMig_mismatch {e : State} (hleaves : b.leavesOk n = (false, e)) :
    b.checkMig n m = (e.wr TIER_OBJ_CFG.LAST n 1).endMig m 4 8 true := by
  simp only [State.checkMig, hleaves]

/-- A migration whose leaves match enters DRAIN: the leaves are cleared and the invalidations asked for (R304, R377). -/
theorem State.checkMig_drains {e c d : State} {k : Mig} {tag : Nat} (hleaves : b.leavesOk n = (true, e))
    (hc : c = (((e.wr TIER_OBJ_CFG.STATE n 2).tracePhase m 0).rewriteLeaves n (fun _ pte => clearV pte)).tracePhase m 1)
    (htag : tag = c.rd TIER_OBJ_CFG.CONTEXT n)
    (hasks : (c.tlbDrop tag).startInval { m with phase := 1, tlb := c.tlbMarks tag } = (d, k)) :
    b.checkMig n m = d.setMig m k := by
  subst htag hc
  simp only [State.checkMig, hleaves, hasks]

/-- Lines of a list are copied and counted, and the migration stays in COPY (R304). -/
theorem State.copyMig_some {e : State} {bad lost : Nat} {l ks : List Nat}
    (hks : ks = (b.linesLeft m).filter l.contains)
    (hmoved : b.moveLines (b.objBacking n (1 - m.target)) (b.objBacking n m.target) ks = (bad, lost, e)) :
    b.copyMig n m (some l) =
      e.setMig m { m with copied := m.copied ++ ks, bad := m.bad + bad, lost := m.lost + lost } := by
  subst hks
  simp only [State.copyMig, hmoved, Option.isSome_some, if_true]

/-- After the last line REMAP follows (R304). -/
theorem State.copyMig_none {e : State} {bad lost : Nat}
    (hmoved : b.moveLines (b.objBacking n (1 - m.target)) (b.objBacking n m.target) (b.linesLeft m) = (bad, lost, e)) :
    b.copyMig n m none = e.remap m (m.bad + bad) (m.lost + lost) := by
  simp only [State.copyMig, hmoved, Option.isSome_none, Bool.false_eq_true, if_false]

end

/-- Settles O52: each row by the condition under which it has its effect, a migration's by its phase. -/
theorem farTierComplete : Obligations.FarTierComplete := by
  unfold Obligations.FarTierComplete
  intro s a t hruns
  refine ⟨?recovers, ?recovered, ?down, ?error, ?object, ?noMove, ?mismatch, ?checked, ?asks, ?drained, ?lines,
    ?lastLines, ?rillEnabled, ?evaluated⟩
  case recovers =>
    intro port hport hactive hup
    show execCxlLinkRecovery t port s = _
    exact State.live_next hruns (if_pos ⟨hport, hactive, by simp [hup]⟩)
  case recovered =>
    intro port hrecovers hintime
    show execCxlLinkRecovered t port s = _
    exact State.live_next hruns (if_pos (by simp [hrecovers, hintime]))
  case down =>
    intro port hrecovers hover
    show execCxlPortDown t port s = _
    exact State.live_next hruns (if_pos (by simp [hrecovers, hover]))
  case error =>
    intro port status hport
    show execCxlError t port status s = _
    exact State.live_next hruns (if_neg (Nat.not_le.mpr hport))
  case object =>
    intro agent n v hn hallows
    exact State.live_row_next hruns hn hallows rfl
  case noMove =>
    intro n found m hmig hready hhome
    show execMigrationCheck t n found s = _
    refine State.live_next hruns ?_
    simp only [hmig, hready, hhome, Bool.not_true, Bool.false_eq_true, if_true, if_false]
  case mismatch =>
    rintro n found m e _ r hmig hready hmoves rfl hleaves hr hfree
    exact exec_migrationCheck_checks hruns hmig hready hmoves ((State.checkMig_mismatch hleaves).trans hr.symm) hfree
  case checked =>
    rintro n tag found m k e c d _ r hmig hready hmoves rfl hc htag hleaves hasks hr hfree
    exact exec_migrationCheck_checks hruns hmig hready hmoves
      ((State.checkMig_drains hleaves hc htag hasks).trans hr.symm) hfree
  case asks =>
    intro n m hmig hphase hinval
    show execMigrationDrain t n s = _
    refine State.live_next hruns ?_
    simp only [hmig, hphase, hinval, ne_eq, not_true_eq_false, if_false]
  case drained =>
    intro n k m hmig hphase hinval hdone htlb
    show execMigrationDrain t n s = _
    refine State.live_next hruns ?_
    simp only [hmig, hphase, hinval, hdone, htlb, ne_eq, not_true_eq_false, Bool.not_true, Bool.or_self,
      Bool.false_eq_true, if_false]
  case lines =>
    rintro n bad lost l ks found m e _ r hmig hphase rfl hks hmoved hr hfree
    exact exec_migrationCopy_copies hruns hmig hphase ((State.copyMig_some hks hmoved).trans hr.symm) hfree
  case lastLines =>
    rintro n bad lost found m e _ r hmig hphase rfl hmoved hr hfree
    exact exec_migrationCopy_copies hruns hmig hphase ((State.copyMig_none hmoved).trans hr.symm) hfree
  case rillEnabled =>
    intro agent n v hn hv hallows hidle
    have hmeant : ¬ (64 ≤ n ∨ TIER_RILL_CFG.ENABLE.get v ≠ 1) := not_or.mpr ⟨Nat.not_le.mpr hn, not_not.mpr hv⟩
    exact (State.live_unless_allowed hruns hmeant hallows).trans
      (congrArg _ (State.txnWrite_idle (s := a.answer agent 0) _ hidle))
  case evaluated =>
    rintro q found f l c _ r hhead hlaunch hnew hqruns hrills rfl hc hr hfree
    subst hc
    show execRillEvaluation t q found s = _
    refine State.live_next hruns ?_
    simp only [hhead, hlaunch, hnew, hqruns, hrills, ne_eq, not_true_eq_false, Bool.not_true, Bool.false_eq_true,
      or_self, if_false]
    exact State.reads_effect hr.symm hfree

end Sys2Proof.Machine

/-! The device's basic steps: what runs from the queue, and what runs while it is held (R478, R481, R484, R531). -/

namespace Sys2Proof.Machine

/-! ### The queue of waiting commands -/

/-- Settles O1: the step splits on the front of the queue. -/
theorem stepRunsFrontCommand : Obligations.StepRunsFrontCommand := by
  unfold Obligations.StepRunsFrontCommand
  exact ⟨fun c rest s => rfl, fun s hempty => by simp only [step, hempty]⟩

/-- The queue is no field that writes of memory, writes of registers or a package reset change. -/
theorem closedMem_pending (l : List Instr) : ClosedMem fun s : State => s.pending = l where
  other _ _ _ _ _ hpending h := hpending.trans h
  reg _ _ _ h := h
  dropReg _ _ _ _ _ hpending _ h := hpending.trans h
  byte _ _ _ h := h
  mark _ _ _ h := h
  dropMem _ _ _ _ _ _ _ hpending h := hpending.trans h
  reset _ h := h

theorem exec_pending {c : Instr} {s t : State} (hexec : exec c s = .next t) : t.pending = s.pending :=
  exec_keeps (closedMem_pending s.pending) rfl t hexec

theorem step_pending {s t : State} (hstep : step s = .next t) : t.pending = s.pending.tail := by
  unfold step at hstep
  split at hstep
  next hempty =>
    cases hstep
    rw [hempty, List.tail_nil]
  next c rest hfront =>
    rw [hfront, List.tail_cons]
    exact exec_pending hstep

/-- Settles O6: no operation of the model changes the queue, and a step takes its front. -/
theorem commandsKeepTheQueue : Obligations.CommandsKeepTheQueue := by
  unfold Obligations.CommandsKeepTheQueue
  exact ⟨fun _ _ _ => exec_pending, fun _ _ => step_pending⟩

/-! ### The held device -/

/-- A command that asks whether the device carries out commands moves only the clock of a device that does not. -/
theorem next_of_held {s effect : State} {t : Nat} (hheld : s.awake = false) :
    (Host.Outcome.next (if (s.advance t).awake = true then effect else s.advance t) : Res) = .next (s.advance t) :=
  State.live_held s t (fun _ => effect) hheld

/-- Settles O8: the commands that `Instr.runsHeld` does not list ask whether the device carries out commands before they
have any effect. -/
theorem heldDeviceMovesOnlyItsClock : Obligations.HeldDeviceMovesOnlyItsClock := by
  unfold Obligations.HeldDeviceMovesOnlyItsClock
  intro c s hclass hheld
  cases c
  case packageReset | pllLockLoss | powerSample | thermalSample | holdVinLoss | holdOkChange | saveStart | saveDrainEnd
      | saveComplete | i3cWrite | i3cRead | i3cDynamicAddress | testMode => cases hclass
  all_goals exact ⟨_, next_of_held hheld⟩

end Sys2Proof.Machine

/-! Package reset (R484). -/

namespace Sys2Proof

/-- Taking entries out of a table leaves the keys whose entries stay. -/
theorem Tab.get_filter {α : Type} (d : Nat → α) (t : Tab α) {f : Nat × α → Bool} {k : Nat}
    (hkeeps : ∀ v, f (k, v) = true) : Tab.get d (t.filter f) k = Tab.get d t k := by
  induction t with
  | nil => rfl
  | cons e r ih =>
    obtain ⟨j, v⟩ := e
    by_cases hj : j = k
    · subst hj
      simp [Tab.get, hkeeps v]
    · cases hf : f (j, v) <;> simp [Tab.get, hf, hj, ih]

namespace Machine

/-- The keep store is kept (R484). -/
theorem State.byte_packageReset_keep (s : State) {pa : Nat} (hlo : keepBase ≤ pa) (hhi : pa < keepBase + 0x4000000) :
    s.packageReset.byte pa = s.byte pa :=
  Tab.get_filter memDefault s.mem fun _ => by simp [keepByte, hlo, hhi]

/-- With no save to wait for, every source that starts a package reset performs it (R25, R481, R484). -/
theorem execPackageReset_now {s a : State} {t : Nat} {src : ResetSource} (ha : a = s.advance t)
    (hstarts : startsReset src = true) (hsave : a.save.phase = 0) : execPackageReset t src s = .next a.packageReset := by
  subst ha
  by_cases hhub : src = .hubLoss
  · subst hhub
    rfl
  · rw [execPackageReset_due s t hstarts hhub]
    exact congrArg _ (if_neg fun hsaves => by omega)

/-- Settles O28: the state after the reset is that of `State.reset` but for the fields that are kept. -/
theorem packageResetKeeps : Obligations.PackageResetKeeps := by
  unfold Obligations.PackageResetKeeps
  intro s a t src ha hstarts hsave
  exact ⟨a.packageReset, execPackageReset_now ha hstarts hsave, fun pa => a.byte_packageReset_keep, rfl, rfl, rfl,
    fun _ => rfl, fun _ => ⟨rfl, rfl⟩, fun _ => rfl, fun _ => rfl, fun _ => rfl, rfl, rfl, rfl, rfl, rfl, rfl⟩

end Machine

end Sys2Proof

/-! Admission of host cores by the dike table (R441, R443, R444). -/

namespace Sys2Proof.Machine

/-- Some rule of a list covers every page up to the reach of the first. -/
theorem exists_rule_of_lt_reachOf {wr : Bool} {page p : Nat} {rs : List DikeRule} (hlo : page ≤ p)
    (hhi : p < reachOf wr page rs) :
    ∃ r ∈ rs, (if wr then r.w else r.r) = true ∧ r.base ≤ p ∧ p < r.base + r.pages := by
  induction rs with
  | nil => exact absurd hhi (Nat.not_lt.mpr hlo)
  | cons r rs ih =>
    have htail (hrest : p < reachOf wr page rs) :
        ∃ x ∈ r :: rs, (if wr then x.w else x.r) = true ∧ x.base ≤ p ∧ p < x.base + x.pages := by
      obtain ⟨x, hx, hcover⟩ := ih hrest
      exact ⟨x, List.mem_cons_of_mem _ hx, hcover⟩
    by_cases hcovers : ((if wr then r.w else r.r) && decide (r.base ≤ page) && decide (page < r.base + r.pages)) = true
    · rw [reachOf, if_pos hcovers, lt_max_iff] at hhi
      simp only [Bool.and_eq_true, decide_eq_true_eq] at hcovers
      obtain ⟨⟨hright, hbase⟩, -⟩ := hcovers
      exact hhi.elim htail fun hmine => ⟨r, List.mem_cons_self, hright, hbase.trans hlo, hmine⟩
    · rw [reachOf, if_neg hcovers] at hhi
      exact htail hhi

/-- Every page of a covered range has a rule. -/
theorem exists_rule_of_covered {wr : Bool} {rs : List DikeRule} {n page last p : Nat}
    (hcovered : covered wr rs n page last = true) (hlo : page ≤ p) (hhi : p ≤ last) :
    ∃ r ∈ rs, (if wr then r.w else r.r) = true ∧ r.base ≤ p ∧ p < r.base + r.pages := by
  induction n generalizing page with
  | zero => cases hcovered
  | succ n ih =>
    by_cases hreach : p < reachOf wr page rs
    · exact exists_rule_of_lt_reachOf hlo hreach
    · rw [covered] at hcovered
      split at hcovered
      next => cases hcovered
      next =>
        split at hcovered
        next hend => omega
        next => exact ih hcovered (Nat.not_lt.mp hreach)

theorem State.subject_host (s : State) {c : Nat} (hc : c < 96) : s.subject (0x100 + c) = .host c := by
  have hservice : isService (0x100 + c) = false := by
    simp only [isService, Bool.and_eq_false_iff, decide_eq_false_iff_not]
    omega
  have hhost : isHost (0x100 + c) = true := by
    simp only [isHost, Bool.and_eq_true, decide_eq_true_eq]
    omega
  simp [State.subject, hservice, hhost]

/-- An access of a host core that is admitted is covered by the rules that name the core, outside the boot area (R443,
R444). -/
theorem State.admitsSub_host {s : State} {c pa len : Nat} {wr : Bool} (hadmits : s.admitsSub (.host c) wr pa len = true) :
    (∃ n, Machine.covered wr (s.dike.rules.filter fun r => s.ruleNames r (.host c)) n (pa / 4096)
      ((pa + max len 1 - 1) / 4096) = true) ∧ inBootArea pa (max len 1) = false := by
  simp only [State.admitsSub, Bool.and_eq_true, Bool.not_eq_true'] at hadmits
  obtain ⟨-, ⟨hcovered, hboot⟩, -⟩ := hadmits
  exact ⟨⟨_, hcovered⟩, hboot⟩

/-- Settles O11: the rules that cover the range are those that name the core. -/
theorem admissionNeedsRules : Obligations.AdmissionNeedsRules := by
  unfold Obligations.AdmissionNeedsRules
  intro s c pa len page wr hc hadmits hfirst hlast
  rw [State.admits, s.subject_host hc] at hadmits
  obtain ⟨⟨n, hcovered⟩, hboot⟩ := State.admitsSub_host hadmits
  obtain ⟨r, hr, hright, hbase, hpages⟩ := exists_rule_of_covered hcovered hfirst hlast
  obtain ⟨hrule, hnames⟩ := List.mem_filter.mp hr
  exact ⟨⟨r, hrule, hnames, hright, hbase, hpages⟩, hboot⟩

end Sys2Proof.Machine

/-! Collective engines (R318, R331, R335, R339, R340). -/

namespace Sys2Proof.Machine

section
variable {s a b c r : State} {t q i : Nat} {found : Found} {x : Bucket}

/-- A bucket that is whole in its window after what the command did ends with OK (R335). -/
theorem execBucketComplete_whole (hruns : s.runsAt t a) (hbucket : a.bucketAt q i = some x)
    (hb : b = a.reading found 0 (0xA000 + x.hub)) (hc : c = b.ceGo x) (hwhole : c.bucketWhole (c.again x) = true)
    (hopen : c.now < c.bucketDue (c.again x)) (hr : r = c.ceEnd (c.again x) 0 0) (hfree : r.access.blocked = none) :
    execBucketComplete t q i found s = .next r.readsDone := by
  subst hb hc hr
  refine State.live_next hruns ?_
  simp only [hbucket]
  exact State.reads_effect (if_pos (by simp [hwhole, hopen])) hfree

end

/-- Settles O53: each row by the condition under which it has its effect. -/
theorem collectivesComplete : Obligations.CollectivesComplete := by
  unfold Obligations.CollectivesComplete
  intro s a t hruns
  refine ⟨?settings, ?checked, fun q i found x c b r => execBucketComplete_whole hruns, ?lost, ?again, ?done⟩
  case settings =>
    intro agent n v hn hallows hidle
    exact State.live_row_next hruns hn hallows (State.txnWrite_idle (s := a.answer agent 0) _ hidle)
  case checked =>
    rintro n found _ r hn hchecking rfl hr hfree
    show execEpochCheckDone t n found s = _
    exact State.live_next hruns ((if_pos ⟨hn, hchecking⟩).trans (State.reads_effect hr.symm hfree))
  case lost =>
    intro q i x hbucket hover
    show execBucketTimeout t q i s = _
    exact State.live_next hruns (by simp only [hbucket, if_pos hover])
  case again =>
    intro h r hresend
    show execCollResend t h s = _
    exact State.live_next hruns (by simp only [hresend])
  case done =>
    intro port found x l b r hsave hrx hdone
    exact State.live_request (fun s x => s.msgColl port x) hruns hsave hrx hdone

end Sys2Proof.Machine

/-! Flits and links (R344, R345, R347, R349, R350, R352 to R357, R360). -/

namespace Sys2Proof.Machine

section
variable {s a : State} {t link : Nat}

/-- A command of register number n of a row that asks whether n is within the row, by an agent that the dike table
admits, has its effect after the answer. -/
theorem State.live_within_next {b : State} {n count agent off : Nat} {wr : Bool} {f : State → State} (hruns : s.runsAt t a)
    (hn : n < count) (hallows : a.allows agent off wr = true) (heffect : f (a.answer agent 0) = b) :
    s.live t (fun s => if n < count then s.gate agent off wr f else s) = .next b :=
  State.live_next hruns ((if_pos hn).trans ((State.gate_allows _ _ _ _ _ hallows).trans heffect))

/-- An ACTIVE link with nothing to send again has a new flit to send or sends a NULL flit (R344). -/
theorem execFlitSend_null (hruns : s.runsAt t a) (hlink : link < 24) (hactive : a.linkState link = 2)
    (hsave : a.save.phase = 0) (hagain : (a.link link).again = [])
    (hnothing : 1024 ≤ (a.link link).replay.length ∨ a.pickFlit link = none) :
    execFlitSend t link s = .next (a.sendNull link) := by
  refine State.live_next hruns ((if_pos ⟨hlink, hactive, hsave⟩).trans ?_)
  simp only [hagain]
  by_cases hfull : 1024 ≤ (a.link link).replay.length
  · rw [if_pos hfull]
  · simp only [if_neg hfull, hnothing.resolve_left hfull]

theorem execFlitSend_new {p : Pick} {turns : Tab Nat} (hruns : s.runsAt t a) (hlink : link < 24)
    (hactive : a.linkState link = 2) (hsave : a.save.phase = 0) (hagain : (a.link link).again = [])
    (hroom : (a.link link).replay.length < 1024) (hpick : a.pickFlit link = some (p, turns)) :
    execFlitSend t link s = .next (a.sendNew link p turns) := by
  refine State.live_next hruns ((if_pos ⟨hlink, hactive, hsave⟩).trans ?_)
  simp only [hagain, if_neg (Nat.not_le.mpr hroom), hpick]

theorem State.retrainLink_active (hactive : s.linkState link = 2) : s.retrainLink link = s.enterRetrain link :=
  if_pos hactive

theorem State.trainLink_down (hdown : s.linkState link = 4) : s.trainLink link = s.beginTraining link :=
  if_pos hdown

/-- A link retrains for an event that the link has found (R353). -/
theorem execLinkRetrain_event {cause : Nat} (agent : Nat) (hruns : s.runsAt t a) (hlink : link < 24)
    (hactive : a.linkState link = 2) (hsoftware : cause ≠ 3)
    (hreplays : cause = 0 → (a.link link).replayWin.1 = a.winNum 1000000 ∧
      a.rd LK_LINK_CFG.REPLAY_LIMIT link < (a.link link).replayWin.2) :
    execLinkRetrain t link cause agent s = .next (a.enterRetrain link) := by
  refine State.live_next hruns ((if_neg (Nat.not_le.mpr hlink)).trans ((if_neg hsoftware).trans ?_))
  by_cases hcause : cause = 0
  · rw [if_pos hcause]
    exact (if_pos (hreplays hcause)).trans (State.retrainLink_active hactive)
  · rw [if_neg hcause]
    exact State.retrainLink_active hactive

end

/-- Settles O54: a link sends by what it has to send again and what it picks; a flit is judged by its correction, its
checksum, its kind and its number. -/
theorem flitsComplete : Obligations.FlitsComplete := by
  unfold Obligations.FlitsComplete
  intro s a t hruns
  refine ⟨?again, fun link => execFlitSend_null hruns, fun link p turns => execFlitSend_new hruns, ?uncorrected,
    ?broken, ?header, ?accepted, ?replay, ?tokens⟩
  case again =>
    intro link f r hlink hactive hsave hagain
    show execFlitSend t link s = _
    exact State.live_next hruns ((if_pos ⟨hlink, hactive, hsave⟩).trans (by simp only [hagain]))
  case uncorrected =>
    intro link n words hlink hactive
    show execFlitReceive t link words n true s = _
    exact State.live_next hruns (if_pos ⟨hlink, hactive⟩)
  case broken =>
    intro link n words hlink hactive hbroken
    show execFlitReceive t link words n false s = _
    exact State.live_next hruns ((if_pos ⟨hlink, hactive⟩).trans (by simp [hbroken]))
  case header =>
    rintro link n words _ hlink hactive rfl hintact hnull
    show execFlitReceive t link words n false s = _
    exact State.live_next hruns ((if_pos ⟨hlink, hactive⟩).trans (by simp [hintact, hnull]))
  case accepted =>
    rintro link n words _ hlink hactive rfl hintact hnull hnext
    show execFlitReceive t link words n false s = _
    exact State.live_next hruns ((if_pos ⟨hlink, hactive⟩).trans (by simp [hintact, hnull, hnext]))
  case replay =>
    intro link hactive hunacked hdue
    show execReplayTimeout t link s = _
    exact State.live_next hruns (if_pos ⟨hactive, by simp [hunacked], hdue⟩)
  case tokens =>
    intro link n k hlink hearned hn hout
    show execTokenEarn t link s = _
    refine State.live_next hruns ?_
    simp only [hearned]
    exact if_pos ⟨hlink, hn, hout⟩

/-- Settles O55: each row by the state of its link, its timer and, where it is a register, the dike table. -/
theorem linksComplete : Obligations.LinksComplete := by
  unfold Obligations.LinksComplete
  intro s a t hruns
  refine ⟨?settings, ?trained, ?resumed, ?fresh, ?notTrained, ?replays, ?errors, ?asked, ?notRetrained, ?alone, ?train,
    ?lost, ?window, ?rejoined⟩
  case settings =>
    intro agent link v hlink hallows hidle
    exact State.live_within_next hruns hlink hallows (State.txnWrite_idle (s := a.answer agent 0) _ hidle)
  case trained =>
    intro link peer lastSeq resume htrains
    show execTrainingDone t link peer resume lastSeq s = _
    exact State.live_next hruns (by simp only [htrains])
  case resumed =>
    intro link peer lastSeq hretrains hresume
    show execTrainingDone t link peer true lastSeq s = _
    exact State.live_next hruns (by simp only [hretrains, hresume, Bool.and_self, if_true])
  case fresh =>
    intro link peer lastSeq hretrains
    show execTrainingDone t link peer false lastSeq s = _
    exact State.live_next hruns (by simp only [hretrains, Bool.false_and, Bool.false_eq_true, if_false])
  case notTrained =>
    intro link htrains hover
    show execTrainingTimeout t link s = _
    exact State.live_next hruns (if_pos ⟨htrains, hover⟩)
  case replays =>
    intro link agent hlink hwindow hmany hactive
    exact execLinkRetrain_event agent hruns hlink hactive (by decide) fun _ => ⟨hwindow, hmany⟩
  case errors =>
    intro link cause agent hlink hcause hactive
    exact execLinkRetrain_event agent hruns hlink hactive (by omega) fun hzero => by omega
  case asked =>
    intro link agent hlink hallows hactive
    show execLinkRetrain t link 3 agent s = _
    exact State.live_next hruns ((if_neg (Nat.not_le.mpr hlink)).trans ((if_pos rfl).trans
      ((State.gate_allows _ _ _ _ _ hallows).trans (State.retrainLink_active (s := a.answer agent 0) hactive))))
  case notRetrained =>
    intro link hretrains hover
    show execRetrainTimeout t link s = _
    exact State.live_next hruns (if_pos ⟨hretrains, hover⟩)
  case alone =>
    intro link hdown hauto hdue
    show execAutoTrain t link s = _
    exact State.live_next hruns (if_pos ⟨hdown, hauto, hdue⟩)
  case train =>
    intro agent link hlink hallows hdown
    exact State.live_within_next hruns hlink hallows (State.trainLink_down (s := a.answer agent 0) hdown)
  case lost =>
    intro tag r hfind hover
    show execPeerTimeout t tag s = _
    exact State.live_next hruns (by simp only [hfind, hover, if_true])
  case window =>
    intro agent w v hw hallows hidle
    exact State.live_within_next hruns hw hallows (State.txnWrite_idle (s := a.answer agent 0) _ hidle)
  case rejoined =>
    intro w link hactive hedge hnone
    show execLinkRejoin t w link s = _
    exact State.live_next hruns (if_pos ⟨hactive, hedge, by simp [hnone]⟩)

end Sys2Proof.Machine

/-! Ethernet ports (R362 to R365, R369). -/

namespace Sys2Proof.Machine

section
variable {s a b r : State} {t port : Nat} {bytes : List Byte} {found : Found} {f : FrameParts} {d : Datagram}

/-! ### A frame that arrives -/

/-- A frame that a port takes and that holds back no class is fabric traffic or a management frame (R362, R365). -/
theorem State.frameIn_taken (hf : f = frameParts bytes) (hfits : s.frameFits port bytes.length = true) (htags : f.tags ≤ 1)
    (hpause : s.flag LK_ETH_CFG.PFC port = false ∨ f.type ≠ 0x8808 ∨ beNat (f.body.take 2) ≠ 0x0101) :
    s.frameIn port bytes = ((s.fabricOf port f).map (s.takeFabric port)).getD (s.mgmtFrame port bytes) := by
  subst hf
  have htaken : ¬ (!s.frameFits port bytes.length || decide (1 < (frameParts bytes).tags)) = true := by
    simp [hfits, htags]
  have hnot : ¬ (s.flag LK_ETH_CFG.PFC port && (frameParts bytes).type == 0x8808 &&
      beNat ((frameParts bytes).body.take 2) == 0x0101) = true := by
    simp only [Bool.and_eq_true, beq_iff_eq]
    rintro ⟨⟨hpfc, htype⟩, hop⟩
    rcases hpause with h | h | h
    · simp [hpfc] at h
    · exact h htype
    · exact h hop
  simp only [State.frameIn, if_neg htaken, if_neg hnot]
  cases s.fabricOf port (frameParts bytes) <;> rfl

/-- A port that runs takes a frame, and what its reads found follows (R274). -/
theorem State.live_receiveFrame (hruns : s.runsAt t a) (hport : port < 4) (heth : a.ethRuns port = true)
    (hb : b = a.reading found 0 (0x9100 + port)) (hr : b.frameIn port bytes = r) (hfree : r.access.blocked = none) :
    s.live t (fun s => s.receiveFrame port bytes found) = .next r.readsDone := by
  subst hb
  exact State.live_next hruns ((if_pos ⟨hport, heth⟩).trans (State.reads_effect hr hfree))

/-! ### Fabric traffic (R363, R364) -/

theorem State.takeFabric_unsound (hsound : d.sound = false) :
    s.takeFabric port d = s.bump LK_ETH_STATUS.CSUM_DROP port := by
  simp [State.takeFabric, hsound]

theorem State.takeFabric_unknown (hsound : d.sound = true) (hentry : s.entryOf d.src.1 d.src.2 = none) :
    s.takeFabric port d = s.bump LK_ETH_STATUS.NO_PEER port := by
  simp [State.takeFabric, hsound, hentry]

theorem State.takeFabric_packet {e : Nat} {k : Packet} (hk : k = packetOf d.data) (hsound : d.sound = true)
    (hentry : s.entryOf d.src.1 d.src.2 = some e) (hup : s.rd LK_EPEER_CFG.STATE e ≠ 2) (hnak : k.nak = false)
    (hcarries : k.ackOnly = false) : s.takeFabric port d = (s.ackPackets e k.cls k.ack).takePacket port e k := by
  subst hk
  simp [State.takeFabric, hsound, hentry, hup, hnak, hcarries]

end

/-- Settles O57: a frame by what it is and whether its packet is sound and of a known sender, the other rows by their
conditions. -/
theorem ethernetCompletes : Obligations.EthernetCompletes := by
  unfold Obligations.EthernetCompletes
  intro s a t hruns
  refine ⟨?unsound, ?unknown, ?packet, ?management, ?resent, ?down, ?settings, ?sent, ?port⟩
  case unsound =>
    intro port bytes found f d b r hport heth hb hf hfits htags hpause hfabric hsound hr
    refine State.live_receiveFrame hruns hport heth hb ?_
    rw [State.frameIn_taken hf hfits htags hpause, hfabric, hr]
    exact State.takeFabric_unsound hsound
  case unknown =>
    intro port bytes found f d b r hport heth hb hf hfits htags hpause hfabric hsound hentry hr
    refine State.live_receiveFrame hruns hport heth hb ?_
    rw [State.frameIn_taken hf hfits htags hpause, hfabric, hr]
    exact State.takeFabric_unknown hsound hentry
  case packet =>
    intro port bytes found f d e k b r hport heth hb hf hfits htags hpause hk hfabric hsound hentry hup hnak hcarries hr
    refine State.live_receiveFrame hruns hport heth hb ?_
    rw [State.frameIn_taken hf hfits htags hpause, hfabric, hr]
    exact State.takeFabric_packet hk hsound hentry hup hnak hcarries
  case management =>
    intro port bytes found f b r hport heth hb hf hfits htags hpause hfabric hr
    refine State.live_receiveFrame hruns hport heth hb ?_
    rw [State.frameIn_taken hf hfits htags hpause, hfabric, hr]
    rfl
  case resent =>
    rintro peer cls _ rfl hunacked hover
    show execRtoResend t peer cls s = _
    exact State.live_next hruns (if_pos ⟨by simp [hunacked], hover⟩)
  case down =>
    intro peer c hc hup hunacked hover
    show execEpeerDown t peer s = _
    refine State.live_next hruns (if_pos ⟨hup, ?_⟩)
    exact List.any_eq_true.mpr ⟨c, List.mem_range.mpr hc, by simp [hunacked, hover]⟩
  case settings =>
    intro agent peer v hpeer hallows
    exact State.live_within_next hruns hpeer hallows rfl
  case sent =>
    rintro agent port v found _ r hport hallows rfl hr hfree
    exact State.live_within_next hruns hport hallows (State.reads_effect (s := a.answer agent 0) hr.symm hfree)
  case port =>
    intro port up hport
    show execEthLinkUp t port up s = _
    exact State.live_next hruns (if_pos hport)

end Sys2Proof.Machine

/-! What host cores execute: loads, stores, atomics and reservations (R378 to R380, R402, R411). -/

namespace Sys2Proof.Machine

/-! ### Loads (R379, R411) -/

section
variable {s b : State} {core pa size tag : Nat} {kind : AccessKind}

/-- A load that nothing stalls and that no cause refuses takes forwarded bytes when stores of its core overlap it. -/
theorem State.load_forwards {x : List Byte} (hstalls : s.loadStalls core = false)
    (hcause : s.hostCause core false pa size kind = 0) (hcmo : kind ≠ .cmo) (hfetch : kind ≠ .fetch)
    (hoverlaps : (s.host core).overlaps pa size = true) (hforwarded : s.forwarded core pa size = some x) :
    s.load core pa size tag kind = s.loaded core kind x := by
  simp [State.load, hstalls, hcause, hcmo, hfetch, hoverlaps, hforwarded]

/-- One that no store of its core overlaps, or a fetch, is performed. -/
theorem State.load_performs (hstalls : s.loadStalls core = false) (hcause : s.hostCause core false pa size kind = 0)
    (hcmo : kind ≠ .cmo) (happart : kind = .fetch ∨ (s.host core).overlaps pa size = false) :
    s.load core pa size tag kind = s.doLoad core pa size tag kind := by
  have hnot : ¬ (kind != .fetch && (s.host core).overlaps pa size) = true := by
    rcases happart with h | h <;> simp [h]
  simp only [State.load, hstalls, hcause, if_neg hcmo, if_neg hnot, Bool.false_eq_true, if_false]

theorem State.load_faults (hstalls : s.loadStalls core = false) (hcause : s.hostCause core false pa size kind ≠ 0) :
    s.load core pa size tag kind = s.accessFault core (s.hostCause core false pa size kind) pa := by
  obtain ⟨n, hn⟩ := Nat.exists_eq_succ_of_ne_zero hcause
  simp [State.load, hstalls, hn]

/-- Outside register space and the peer windows a load is performed on the bytes of memory, which may be poison. -/
theorem State.doLoad_memory {x : List Byte × Option Nat × State} (hpeer : s.region pa ≠ .peer)
    (hregs : s.region pa ≠ .regs) (hbytes : s.hostBytes core pa size (kind == .fetch) = some x) :
    s.doLoad core pa size tag kind = x.2.1.elim (x.2.2.loaded core kind x.1) (x.2.2.poisonFault core) := by
  obtain ⟨bytes, bad, m⟩ := x
  unfold State.doLoad
  split
  next h => exact absurd h hpeer
  next h => exact absurd h hregs
  next =>
    rw [hbytes]
    cases bad <;> rfl

end

section
variable {s a b r : State} {t core pa size tag : Nat} {kind : AccessKind} {found : Found}

/-- A load that reads its core's own caches has their parity checked (R372, R379). -/
theorem execHostCoreLoad_reads (hruns : s.runsAt t a) (hissues : a.hostIssues core = true) (hpos : 1 ≤ size)
    (hsize : size ≤ 64)
    (hb : b = ((a.reading found 0 (0x100 + core)).ownParity core (linesOf pa size) found).tlbUse core tag)
    (hreads : (a.reading found 0 (0x100 + core)).readsCaches core pa size kind = true)
    (hr : b.load core pa size tag kind = r) (hfree : r.access.blocked = none) :
    execHostCoreLoad t core pa size tag kind found s = .next r.readsDone := by
  subst hb
  refine State.live_next hruns ((if_pos (by simp [hissues, hpos, hsize])).trans (State.reads_effect ?_ hfree))
  simp only [hreads, if_true, hr]

/-- One that takes forwarded data or faults does not. -/
theorem execHostCoreLoad_apart (hruns : s.runsAt t a) (hissues : a.hostIssues core = true) (hpos : 1 ≤ size)
    (hsize : size ≤ 64) (hb : b = (a.reading found 0 (0x100 + core)).tlbUse core tag)
    (hreads : (a.reading found 0 (0x100 + core)).readsCaches core pa size kind = false)
    (hr : b.load core pa size tag kind = r) (hfree : r.access.blocked = none) :
    execHostCoreLoad t core pa size tag kind found s = .next r.readsDone := by
  subst hb
  refine State.live_next hruns ((if_pos (by simp [hissues, hpos, hsize])).trans (State.reads_effect ?_ hfree))
  simp only [hreads, Bool.false_eq_true, if_false, hr]

end

/-! ### Stores (R378, R412) -/

section
variable {s a b m r : State} {t core pa size tag i : Nat} {kind : AccessKind} {data : Line} {e : SbEntry} {found : Found}

theorem State.store_faults (hstalls : s.storeStalls core (storePieces pa size data).length = false)
    (hcause : s.hostCause core true pa size kind ≠ 0) :
    s.store core pa size tag kind data = s.accessFault core (s.hostCause core true pa size kind) pa := by
  obtain ⟨n, hn⟩ := Nat.exists_eq_succ_of_ne_zero hcause
  simp [State.store, hstalls, hn]

theorem State.store_enters (hcmo : kind ≠ .cmo) (hfetch : kind ≠ .fetch)
    (hstalls : s.storeStalls core (storePieces pa size data).length = false)
    (hcause : s.hostCause core true pa size kind = 0) :
    s.store core pa size tag kind data = (s.each (storePieces pa size data) fun s p => s.pushStore core tag p).issuePeers
      core := by
  simp [State.store, hstalls, hcause, hcmo, hfetch]

theorem execHostCoreStore_next (hruns : s.runsAt t a) (hissues : a.hostIssues core = true) (hpos : 1 ≤ size)
    (hsize : size ≤ 64) (hb : b = a.tlbUse core tag) (hr : b.store core pa size tag kind data = r) :
    execHostCoreStore t core pa size tag kind data s = .next r :=
  State.live_next hruns ((if_pos (by simp [hissues, hpos, hsize])).trans (by rw [← hb, hr]))

/-- A store that its core holds the line for is performed there (R412). -/
theorem State.ackCached_performed (hb : b = s.settle (e.pa / 64)) (hperforms : b.performCached core e = some m) :
    s.ackCached core e = m := by
  unfold State.ackCached
  dsimp only
  rw [← hb, hperforms]

/-- A store that has been sent into a peer window ends as the command says (R354, R378). -/
theorem execStoreAck_sent {ack : AckKind} (hruns : s.runsAt t a) (hcore : core < 96) (hentry : (a.host core).sb[i]? = some e)
    (hsent : e.sent = true) : execStoreAck t core i ack found s = .next (a.ackPeer core e ack) :=
  State.live_next hruns (by simp [hcore, hentry, hsent])

/-- Another store that its order allows is performed in the line that its core holds for it (R411, R412). -/
theorem execStoreAck_cached (hruns : s.runsAt t a) (hcore : core < 96) (hentry : (a.host core).sb[i]? = some e)
    (hsent : e.sent = false) (hmay : a.mayStore core i e = true) (hpeer : a.region e.pa ≠ .peer)
    (hcoherent : (a.region e.pa).coherent = true)
    (hb : b = ((a.reading found 0 (0x100 + core)).ownParity core [e.pa / 64] found).settle (e.pa / 64))
    (hperforms : b.performCached core e = some m) (hfree : m.access.blocked = none) :
    execStoreAck t core i .ok found s = .next m.readsDone := by
  refine State.live_next hruns ?_
  simp only [if_pos hcore, hentry, hpeer, hsent, hmay, hcoherent, ne_eq, not_true_eq_false, Bool.not_true,
    Bool.false_eq_true, or_self, if_true, if_false]
  exact State.reads_effect (State.ackCached_performed hb hperforms) hfree

/-- Outside HBM and the far tier it is performed at its target (R378). -/
theorem execStoreAck_target (hruns : s.runsAt t a) (hcore : core < 96) (hentry : (a.host core).sb[i]? = some e)
    (hsent : e.sent = false) (hmay : a.mayStore core i e = true) (hpeer : a.region e.pa ≠ .peer)
    (hapart : (a.region e.pa).coherent = false) : execStoreAck t core i .ok found s = .next (a.ackTarget core e) :=
  State.live_next hruns (by simp [hcore, hentry, hsent, hmay, hpeer, hapart])

end

/-! ### Atomics and reservations (R380, R402) -/

section
variable {s a b c m r : State} {t core pa size tag op : Nat} {x y : Word} {found : Found}

theorem execHostAtomic_faults (hruns : s.runsAt t a) (hissues : a.hostIssues core = true)
    (hstalls : a.atomicStalls core = false) (hcause : a.atomicCause core true pa size ≠ 0) :
    execHostAtomic t core pa size tag op x y found s =
      .next (a.accessFault core (a.atomicCause core true pa size) pa) := by
  obtain ⟨n, hn⟩ := Nat.exists_eq_succ_of_ne_zero hcause
  exact State.live_next hruns (by simp [hissues, hstalls, hn])

/-- An atomic of an element at its alignment with a code of R279 is performed by the adder of its line (R402). -/
theorem execHostAtomic_adder (hruns : s.runsAt t a) (hissues : a.hostIssues core = true)
    (hstalls : a.atomicStalls core = false) (hcause : a.atomicCause core true pa size = 0)
    (helement : ([1, 2, 4, 8] : List Nat).contains size = true) (haligned : pa % size = 0) (hop : mopSize op = some size)
    (hb : b = (a.reading found 2 (0x100 + core)).tlbUse core tag) (hr : b.adderAtomic core pa size op x y = r)
    (hfree : r.access.blocked = none) : execHostAtomic t core pa size tag op x y found s = .next r.readsDone := by
  subst hb
  refine State.live_next hruns ?_
  simp only [hissues, hstalls, hcause, helement, haligned, hop, Bool.not_true, Bool.or_self, bne_self_eq_false,
    Bool.false_eq_true, if_true, if_false]
  exact State.reads_effect hr hfree

/-- One of the core instruction set alone is performed at the home (R402). -/
theorem execHostAtomic_home (hruns : s.runsAt t a) (hissues : a.hostIssues core = true)
    (hstalls : a.atomicStalls core = false) (hcause : a.atomicCause core true pa size = 0)
    (helement : ([1, 2, 4, 8] : List Nat).contains size = true) (haligned : pa % size = 0) (hop : mopSize op = none)
    (hb : b = (a.reading found 0 (0x100 + core)).tlbUse core tag) (hr : b.homeAtomic core pa size op x y = r)
    (hfree : r.access.blocked = none) : execHostAtomic t core pa size tag op x y found s = .next r.readsDone := by
  subst hb
  refine State.live_next hruns ?_
  simp only [hissues, hstalls, hcause, helement, haligned, hop, Bool.not_true, Bool.or_self, bne_self_eq_false,
    Bool.false_eq_true, if_false, reduceCtorEq, Option.isSome_none]
  exact State.reads_effect hr hfree

/-- The old value that an adder answers reaches the core's register (R402). -/
theorem State.adderAtomic_ok {old : Word}
    (hmop : b.mop (0x100 + core) op ⟨.scalar, pa, true, hostOperand size op x y, 0, 0, 0, .none, none⟩ =
      (some (.ok old), m)) : b.adderAtomic core pa size op x y = m.loaded core .plain (natLE size old.toNat) := by
  simp only [State.adderAtomic, hmop]

theorem execLoadReserved_faults (hruns : s.runsAt t a) (hissues : a.hostIssues core = true)
    (hstalls : a.loadStalls core = false) (hcause : a.atomicCause core false pa size ≠ 0) :
    execLoadReserved t core pa size tag found s =
      .next (a.accessFault core (a.atomicCause core false pa size) pa) := by
  obtain ⟨n, hn⟩ := Nat.exists_eq_succ_of_ne_zero hcause
  exact State.live_next hruns (by simp [hissues, hstalls, hn])

/-- A load-reserved in one granule, without a store to wait for and without poison, takes its bytes and the reservation
(R380). -/
theorem execLoadReserved_takes {z : List Byte × Option Nat × State} (hruns : s.runsAt t a)
    (hissues : a.hostIssues core = true) (hstalls : a.loadStalls core = false)
    (hcause : a.atomicCause core false pa size = 0) (hpos : 1 ≤ size) (hgranule : pa / 64 = (pa + size - 1) / 64)
    (hapart : (a.host core).overlaps pa size = false)
    (hb : b = ((a.reading found 0 (0x100 + core)).ownParity core [pa / 64] found).tlbUse core tag)
    (hbytes : b.hostBytes core pa size = some z) (hclean : z.2.1 = none)
    (hr : r = (z.2.2.setHost core { z.2.2.host core with resv := some (pa / 64) }).loaded core .plain z.1)
    (hfree : r.access.blocked = none) : execLoadReserved t core pa size tag found s = .next r.readsDone := by
  obtain ⟨bytes, bad, m⟩ := z
  subst hb hclean
  have hformed : ¬ (size = 0 ∨ pa / 64 ≠ (pa + size - 1) / 64 ∨ (a.host core).overlaps pa size = true) := by
    simp only [hapart, Bool.false_eq_true, or_false]
    omega
  refine State.live_next hruns ?_
  simp only [hissues, hstalls, hcause, if_neg hformed, Bool.not_true, Bool.or_self, Bool.false_eq_true, if_false]
  refine State.reads_effect ?_ hfree
  simp only [hbytes, hr]

variable {data : Word} {broken : Bool}

/-- A store-conditional in one granule that nothing stalls and no cause refuses is decided in the core or sent to the
home; an exception since has lost its reservation (R380). -/
theorem execStoreConditional_next (hruns : s.runsAt t a) (hissues : a.hostIssues core = true)
    (hstalls : a.atomicStalls core = false)
    (hb : b = if broken then a.setHost core { a.host core with resv := none } else a)
    (hcause : b.atomicCause core true pa size = 0) (hpos : 1 ≤ size) (hsize : size ≤ 8)
    (hgranule : pa / 64 = (pa + size - 1) / 64) (hm : m = b.tlbUse core tag)
    (hr : m.conditional core pa size data = r) : execStoreConditional t core pa size tag data broken s = .next r := by
  subst hb hm
  refine State.live_next hruns ?_
  simp only [hissues, hstalls, hcause, Bool.not_true, Bool.or_self, Bool.false_eq_true, if_false]
  exact (if_neg (by omega)).trans hr

/-- Without its reservation it fails in the core. -/
theorem State.conditional_fails (hresv : (s.host core).resv ≠ some (pa / 64)) :
    s.conditional core pa size data = s.setHost core { s.host core with resv := none, scOk := false } := by
  simp only [State.conditional, if_pos hresv]

/-- In a line held EXCLUSIVE it succeeds. -/
theorem State.conditional_exclusive (hresv : (s.host core).resv = some (pa / 64))
    (hexcl : (s.host core).cache.any (fun x => x.line == pa / 64 && x.excl) = true) :
    s.conditional core pa size data =
      (s.setHost core { s.host core with scPend := some (pa, size, data) }).scStore core (pa / 64) := by
  simp only [State.conditional, hresv, ne_eq, not_true_eq_false, if_false, hexcl, if_true]

/-- In another the home decides. -/
theorem State.conditional_asks (hresv : (s.host core).resv = some (pa / 64))
    (hexcl : (s.host core).cache.any (fun x => x.line == pa / 64 && x.excl) = false) :
    s.conditional core pa size data = s.setHost core { s.host core with scPend := some (pa, size, data) } := by
  simp only [State.conditional, hresv, ne_eq, not_true_eq_false, if_false, hexcl, Bool.false_eq_true]

end

/-- Settles O34: a load by whether it reads the caches, a store by its buffer's entry, an atomic by its code, a
store-conditional by its reservation and its line. -/
theorem hostAccessesComplete : Obligations.HostAccessesComplete := by
  unfold Obligations.HostAccessesComplete
  intro s a t hruns
  refine ⟨?forwarded, ?loaded, ?elsewhere, ?poison, ?refused, ?storeRefused, fun core pa size tag op x y found =>
    execHostAtomic_faults hruns, fun core pa size tag found => execLoadReserved_faults hruns, ?entered, ?cached,
    fun core i ack e found => execStoreAck_sent hruns, fun core i e found => execStoreAck_target hruns, ?adder, ?home,
    fun core pa size tag found z b r => execLoadReserved_takes hruns, ?fails, ?exclusive, ?asks⟩
  case forwarded =>
    intro core pa size tag kind found x b r hissues hpos hsize hcmo hfetch hb hstalls hcause hoverlaps hforwarded hreads hr
    exact execHostCoreLoad_apart hruns hissues hpos hsize hb hreads
      ((State.load_forwards hstalls hcause hcmo hfetch hoverlaps hforwarded).trans hr.symm)
  case loaded =>
    intro core pa size tag kind found x b r hissues hpos hsize hcmo hb hreads hstalls hcause happart hpeer hregs hbytes
      hclean hr
    refine execHostCoreLoad_reads hruns hissues hpos hsize hb hreads ?_
    rw [State.load_performs hstalls hcause hcmo happart, State.doLoad_memory hpeer hregs hbytes, hclean, Option.elim_none,
      hr]
  case elsewhere =>
    intro core pa size tag kind found b r hissues hpos hsize hcmo hb hreads hstalls hcause happart _ hr
    exact execHostCoreLoad_reads hruns hissues hpos hsize hb hreads
      ((State.load_performs hstalls hcause hcmo happart).trans hr.symm)
  case poison =>
    intro core pa size tag line kind found x b r hissues hpos hsize hcmo hb hreads hstalls hcause happart hpeer hregs
      hbytes hpoison hr
    refine execHostCoreLoad_reads hruns hissues hpos hsize hb hreads ?_
    rw [State.load_performs hstalls hcause hcmo happart, State.doLoad_memory hpeer hregs hbytes, hpoison, Option.elim_some,
      hr]
  case refused =>
    intro core pa size tag kind found b r hissues hpos hsize hb hreads hstalls hcause hr
    exact execHostCoreLoad_apart hruns hissues hpos hsize hb hreads ((State.load_faults hstalls hcause).trans hr.symm)
  case storeRefused =>
    intro core pa size tag kind data b hissues hpos hsize hb hstalls hcause
    exact execHostCoreStore_next hruns hissues hpos hsize hb (State.store_faults hstalls hcause)
  case entered =>
    intro core pa size tag kind data b hissues hpos hsize hb hcmo hfetch hstalls hcause
    exact execHostCoreStore_next hruns hissues hpos hsize hb (State.store_enters hcmo hfetch hstalls hcause)
  case cached =>
    rintro core i e found m b _ hcore hentry hsent hmay hpeer hcoherent hb hperforms rfl hfree
    exact execStoreAck_cached hruns hcore hentry hsent hmay hpeer hcoherent hb hperforms hfree
  case adder =>
    intro core pa size tag op x y old found m b r hissues hstalls hcause helement haligned hop hb hmop hr
    exact execHostAtomic_adder hruns hissues hstalls hcause helement haligned hop hb
      ((State.adderAtomic_ok hmop).trans hr.symm)
  case home =>
    intro core pa size tag op x y found b r hissues hstalls hcause helement haligned hop hb _ hr
    exact execHostAtomic_home hruns hissues hstalls hcause helement haligned hop hb hr.symm
  case fails =>
    intro core pa size tag data broken b m hissues hstalls hb hcause hpos hsize hgranule hm hresv
    exact execStoreConditional_next hruns hissues hstalls hb hcause hpos hsize hgranule hm (State.conditional_fails hresv)
  case exclusive =>
    intro core pa size tag data broken b m hissues hstalls hb hcause hpos hsize hgranule hm hresv hexcl
    exact execStoreConditional_next hruns hissues hstalls hb hcause hpos hsize hgranule hm
      (State.conditional_exclusive hresv hexcl)
  case asks =>
    intro core pa size tag data broken b m hissues hstalls hb hcause hpos hsize hgranule hm hresv hexcl
    exact execStoreConditional_next hruns hissues hstalls hb hcause hpos hsize hgranule hm
      (State.conditional_asks hresv hexcl)

end Sys2Proof.Machine

/-! Barriers, TLB invalidations, system registers of host cores, and what cores ask of homes (R372, R374, R376, R377, R380,
R382, R384, R388, R396, R400, R402). -/

namespace Sys2Proof.Machine

section
variable {s a : State} {t core : Nat}

/-! ### Barriers and system registers -/

/-- A core that waits at no barrier and for no store-conditional waits at the barrier it asks for until that can
complete (R382). -/
theorem State.barrier_taken {kind : Nat} (hhost : s.hostRuns core = true) (hnone : (s.host core).barrier = 0)
    (hdecided : (s.host core).scPend = none) :
    s.barrier core kind =
      (s.setHost core { s.host core with barrier := kind, barSeq := (s.host core).nextAcc }).tryBarrier core := by
  simp [State.barrier, hhost, hnone, hdecided]

/-- A system register of a core that runs and waits at no barrier is accessed after the lost stores that a handler
takes (R384). -/
theorem State.systemTurn_taken (returned : Bool) (f : State → State) (hhost : s.hostRuns core = true)
    (hnone : (s.host core).barrier = 0) :
    s.systemTurn core returned f = f (if returned then s.takeLost core else s) := by
  simp [State.systemTurn, hhost, hnone]

theorem State.live_systemTurn {returned : Bool} {f : State → State} (hruns : s.runsAt t a)
    (hhost : a.hostRuns core = true) (hnone : (a.host core).barrier = 0) :
    s.live t (fun s => s.systemTurn core returned f) = .next (f (if returned then a.takeLost core else a)) :=
  State.live_next hruns (State.systemTurn_taken returned f hhost hnone)

end

/-- Settles O35: each barrier by the state of its core, each register by its turn. -/
theorem barriersAndSystemRegistersComplete : Obligations.BarriersAndSystemRegistersComplete := by
  unfold Obligations.BarriersAndSystemRegistersComplete
  intro s a t hruns
  have hbarrier (core kind : Nat) (hhost : a.hostRuns core = true) (hnone : (a.host core).barrier = 0)
      (hdecided : (a.host core).scPend = none) := State.live_next (f := fun s => s.barrier core kind) hruns
    (State.barrier_taken hhost hnone hdecided)
  refine ⟨fun core => hbarrier core 1, fun core => hbarrier core 2, fun core => hbarrier core 3,
    fun core => hbarrier core 4, fun core => hbarrier core 5, ?tlb, fun core returned =>
    State.live_systemTurn hruns, ?strict, fun core v => State.live_systemTurn (returned := false) hruns⟩
  case tlb =>
    rintro core tag _ hhost hnone rfl
    show execTlbInvalidation t core tag s = _
    exact State.live_next hruns (if_pos (by simp [hhost, hnone]))
  case strict =>
    intro core returned v hhost hnone hsettled
    show execHcStrictWrite t core returned v s = _
    exact State.live_next hruns ((if_pos hsettled).trans (State.systemTurn_taken returned _ hhost hnone))
/-! ### Evictions, notices and requests of homes -/

section
variable {s a b m r : State} {t core line : Nat} {found : Found}

/-- A read for a shared copy that the home takes is performed when nothing holds its line (R400). -/
theorem execReadShared_next {x : Line × Bool × State} (hruns : s.runsAt t a) (htakes : a.homeTakes line = true)
    (hreleased : (a.host core).released = true) (hhold : a.holdKey line = none) (hb : b = a.reading found 0 (0x100 + core))
    (hx : b.readShared core line = some x) (hr : r = x.2.2.answerLine (0x100 + core) x.1 x.2.1)
    (hfree : r.access.blocked = none) : execReadShared t core line found s = .next r.readsDone := by
  obtain ⟨d, p, m⟩ := x
  subst hb
  refine State.live_next hruns ((if_neg (by simp [htakes, hreleased])).trans ((State.orHold_free _ hhold).trans ?_))
  exact State.reads_effect (by simp only [hx, hr]) hfree

theorem execReadForOwnership_next (hruns : s.runsAt t a) (htakes : a.homeTakes line = true)
    (hreleased : (a.host core).released = true) (hhold : a.holdKey line = none) (hb : b = a.reading found 0 (0x100 + core))
    (hm : b.readOwn core line = some m) (hfree : m.access.blocked = none) :
    execReadForOwnership t core line found s = .next m.readsDone := by
  subst hb
  refine State.live_next hruns ((if_neg (by simp [htakes, hreleased])).trans ((State.orHold_free _ hhold).trans ?_))
  exact State.reads_effect (by simp only [hm, Option.getD_some]) hfree

/-- An outstanding store-conditional whose core the home's entry does not list fails (R380, R402). -/
theorem execConditionalReadForOwnership_fails (hruns : s.runsAt t a) (hasks : a.asksCond core line = true)
    (hhold : a.holdKey line = none)
    (hb : b = ((a.reading found 0 (0x100 + core)).flushWb core line).lookup line) (hentry : b.dirEntry line = none)
    (hr : r = b.setHost core { b.host core with scPend := none, scOk := false, resv := none })
    (hfree : r.access.blocked = none) : execConditionalReadForOwnership t core line found s = .next r.readsDone := by
  subst hb
  refine State.live_next hruns ((if_pos hasks).trans ((State.orHold_free _ hhold).trans ((if_pos hasks).trans ?_)))
  refine State.reads_effect ?_ hfree
  simp only [hentry, Bool.false_eq_true, if_false, hr]

/-- One whose core it lists, or may list, is granted ownership (R402). -/
theorem execConditionalReadForOwnership_grants {e : DirEntry} (hruns : s.runsAt t a) (hasks : a.asksCond core line = true)
    (hhold : a.holdKey line = none)
    (hb : b = ((a.reading found 0 (0x100 + core)).flushWb core line).lookup line) (hentry : b.dirEntry line = some e)
    (hlists : e.state = 2 ∨ ((e.state = 1 ∨ e.state = 3) ∧ e.ptrs.contains core = true))
    (hm : b.readOwn core line = some m) (hfree : m.access.blocked = none) :
    execConditionalReadForOwnership t core line found s = .next m.readsDone := by
  subst hb
  have hholds : (e.state == 2 || (e.state == 1 || e.state == 3) && e.ptrs.contains core) = true := by
    simpa only [Bool.or_eq_true, Bool.and_eq_true, beq_iff_eq] using hlists
  refine State.live_next hruns ((if_pos hasks).trans ((State.orHold_free _ hhold).trans ((if_pos hasks).trans ?_)))
  refine State.reads_effect ?_ hfree
  simp only [hentry, hholds, if_true, hm, Option.getD_some]

end

/-- Settles O36: an eviction by its line in the cache, a notice and a write-back by their entry of the buffer, a read by its
place at the home, a store-conditional by the home's entry. -/
theorem homeRequestsComplete : Obligations.HomeRequestsComplete := by
  unfold Obligations.HomeRequestsComplete
  intro s a t hruns
  refine ⟨?evicted, ?notice, ?writeBack, fun core line found x b r => execReadShared_next hruns, ?owned,
    fun core line found b r => execConditionalReadForOwnership_fails hruns, ?granted⟩
  case evicted =>
    intro core line parityOk x hfind hawaits
    show execL2Eviction t core line parityOk s = _
    exact State.live_next hruns (by simp only [hfind, hawaits, Bool.false_eq_true, if_false])
  case notice =>
    intro core line x hfind hclean hpoison
    show execNotice t core line s = _
    exact State.live_next hruns (by simp only [hfind, hclean, hpoison, Bool.or_self, Bool.false_eq_true, if_false])
  case writeBack =>
    intro core line x hfind htakes hdirty hhold
    show execWriteBack t core line s = _
    refine State.live_next hruns ?_
    simp only [hfind]
    exact (if_pos (by simpa [htakes] using hdirty)).trans (State.orHold_free _ hhold)
  case owned =>
    rintro core line found m b _ htakes hreleased hhold hb hm rfl hfree
    exact execReadForOwnership_next hruns htakes hreleased hhold hb hm hfree
  case granted =>
    rintro core line found m e b _ hasks hhold hb hentry hlists hm rfl hfree
    exact execConditionalReadForOwnership_grants hruns hasks hhold hb hentry hlists hm hfree

end Sys2Proof.Machine

/-! Fences, context resets and die resets (R405, R486 to R489, R491, R492). -/

namespace Sys2Proof.Machine

/-- A die that ends its reset with its PLLs locked is readmittable, and its cores' idle counters count from then (R488,
R489). -/
theorem execDieResetDone_locked {s a b : State} {t die : Nat} (hruns : s.runsAt t a) (hdie : die < 4)
    (hresets : a.dieState die = 2) (hb : b = (a.clkBit SYS_CLK_STATUS.TDIE_LOCK die true).setDie die 3) :
    execDieResetDone t die true s = .next (b.each (b.dieCores die) fun s c =>
      s.setReg (TC_CYC_IDLE.COUNT.off c) (BitVec.ofNat 64 (aclkOf s.now))) := by
  subst hb
  exact State.live_next hruns ((if_neg (by omega)).trans (if_pos rfl))

/-- Settles O59: the registers by their stores, the others by the request or the state of their die. -/
theorem resetsComplete : Obligations.ResetsComplete := by
  unfold Obligations.ResetsComplete
  intro s a t hruns
  refine ⟨fun agent v => State.live_allowed hruns, ?context, ?tensor, ?host0, ?host1, ?hostDie, ?software, ?pll, ?resets,
    fun die b => execDieResetDone_locked hruns, ?unlocked, ?readmitted⟩
  case context =>
    intro r l hrequests hsave
    show execContextReset t s = _
    exact State.live_next hruns (by simp only [hrequests, hsave, if_true])
  case tensor =>
    intro agent n v hn hallows
    exact State.live_row_next hruns hn hallows rfl
  case host0 =>
    intro agent v hallows
    exact State.live_row_next (n := 0) (count := 2) hruns (by decide) hallows rfl
  case host1 =>
    intro agent v hallows
    exact State.live_row_next (n := 1) (count := 2) hruns (by decide) hallows rfl
  case hostDie =>
    intro agent v hallows hgo
    show execHostDieReset t agent v s = _
    exact State.live_next hruns ((State.gate_allows _ _ _ _ _ hallows).trans (if_pos hgo))
  case software =>
    intro die agent hdie hallows
    exact (exec_cofferdam_software s t die agent).trans (State.live_row_next hruns hdie hallows rfl)
  case pll =>
    intro die agent hdie
    show execCofferdam t die false agent s = _
    exact State.live_next hruns ((if_neg (Nat.not_le.mpr hdie)).trans (if_neg Bool.false_ne_true))
  case resets =>
    intro die hdie hwalled hwaits
    show execDieResetting t die s = _
    exact State.live_next hruns (if_neg (by simp [hwalled, hwaits, hdie]))
  case unlocked =>
    intro die hdie hresets
    show execDieResetDone t die false s = _
    exact State.live_next hruns ((if_neg (by omega)).trans (if_neg Bool.false_ne_true))
  case readmitted =>
    intro agent die hdie hallows hreset
    show execReadmit t agent die s = _
    exact State.live_row_next hruns hdie hallows (if_pos hreset)

end Sys2Proof.Machine

/-! The commands that service firmware answers (R434, R447, R450, R451, R475, R502, R503). -/

namespace Sys2Proof.Machine

section
variable {s b : State} {m code n : Nat} {w : List Word} {f : List Word → Nat → State → FwRes}

/-! ### A command in its turn -/

theorem State.takeReq_eq (hw : w = (s.takeReq m n).1) (hb : b = (s.takeReq m n).2) : s.takeReq m n = (w, b) :=
  Prod.ext hw.symm hb.symm

/-- A command that firmware of hub 0 holds takes its words and is answered with what it gives (R450). -/
theorem State.fwHub0_answers {answer : FwRes} (hm : m < 32) (hholds : s.fwHolds m code = true) (hw : w = (s.takeReq m n).1)
    (hb : b = (s.takeReq m n).2) (hf : f w (b.mbOwner m) b = answer) :
    s.fwHub0 m code n f = answer.2.2.fwAnswer m answer.1 answer.2.1 := by
  subst hw hb hf
  simp only [State.fwHub0, hholds, if_true, if_neg (Nat.not_le.mpr hm)]

/-- One of the three commands of images is so answered in its turn, to an administrator (R443, R450). -/
theorem State.fwImage_answers {answer : FwRes} (hturn : s.imageTurn m = true) (hm : m < 32)
    (hholds : s.fwHolds m code = true) (hw : w = (s.takeReq m n).1) (hb : b = (s.takeReq m n).2)
    (hadmin : b.isAdmin (b.mbOwner m) = true) (hf : f w (b.mbOwner m) b = answer) :
    s.fwImage m code n f = answer.2.2.fwAnswer m answer.1 answer.2.1 :=
  (if_pos hturn).trans (State.fwHub0_answers hm hholds hw hb ((if_pos hadmin).trans hf))

end

/-- Settles O49: each command by its mailbox, its turn and its operands. -/
theorem firmwareComplete : Obligations.FirmwareComplete := by
  unfold Obligations.FirmwareComplete
  intro s a t hruns
  refine ⟨?attest, ?certificates, ?image, ?next, ?rollback, ?log, ?graph, ?collect⟩
  case attest =>
    intro m w b hm hholds hw hb haligned hmay
    show execAttest t m s = _
    exact State.live_next hruns (State.fwHub0_answers (answer := (1, [4096], _)) hm hholds hw hb
      ((if_neg (not_not.mpr haligned)).trans (if_neg (by rw [hmay]; exact Bool.false_ne_true))))
  case certificates =>
    rintro m _ w b hm hholds hw hb rfl hmay
    show execGetCerts t m s = _
    refine State.live_next hruns ?_
    by_cases hshort : (w.getD 1 0).toNat < Config.certificates.length
    · rw [if_pos hshort]
      exact State.fwHub0_answers (answer := (3, [], _)) hm hholds hw hb (if_pos hshort)
    · rw [if_neg hshort]
      exact State.fwHub0_answers (answer := (1, [_], _)) hm hholds hw hb ((if_neg hshort).trans
        (if_neg (by rw [hmay]; exact Bool.false_ne_true)))
  case image =>
    rintro m pa len slot n ok found w e c bs bad _ r rfl hw he hpa hlen hslot hbs hbad hc hn hturn hm hholds hadmin htwo
      hother hmay hfits hr hfree
    show execImageWrite t m ok found s = _
    refine State.live_next hruns (State.reads_effect ?_ hfree)
    refine (State.fwImage_answers hturn hm hholds hw he hadmin rfl).trans ?_
    have hslots : ¬ (2 ≤ slot ∨ slot = e.rd BOOT_STATUS.SLOT) := by omega
    rw [← hpa, ← hlen, ← hslot]
    simp only [if_neg hslots, hmay, Bool.not_true, Bool.false_eq_true, if_false, ← hbs, ← hbad, ← hc, ← hn, hr]
    by_cases hclean : n = 1
    · subst hclean
      simp only [if_neg (Nat.not_lt.mpr hfits), ne_eq, not_true_eq_false, if_false]
      cases ok <;> rfl
    · simp only [hclean, ne_eq, not_false_eq_true, if_true]
  case next =>
    intro m w b hturn hm hholds hw hb hadmin
    show execSetNext t m s = _
    refine State.live_next hruns ?_
    rw [State.fwImage_answers hturn hm hholds hw hb hadmin rfl]
  case rollback =>
    intro m b hturn hm hholds hb hadmin
    show execRollbackCommit t m s = _
    exact State.live_next hruns (State.fwImage_answers (answer := (1, [], _)) hturn hm hholds rfl hb hadmin rfl)
  case log =>
    rintro m w b _ hm hholds hw hb haligned hroom hmay rfl
    show execThrottleLog t m s = _
    exact State.live_next hruns (State.fwHub0_answers (answer := (1, [_, _], _)) hm hholds hw hb
      ((if_neg (by omega)).trans (if_neg (by rw [hmay]; exact Bool.false_ne_true))))
  case graph =>
    rintro m t2 n w b _ g hholds hw hb hmay hgraph hroom rfl
    show execWaitGraph t m t2 s = _
    refine State.live_next hruns ?_
    simp only [hholds, State.takeReq_eq hw hb, hmay, hgraph, if_neg (Nat.not_lt.mpr hroom), Bool.not_true,
      Bool.false_eq_true, if_true, if_false]
  case collect =>
    rintro m w b _ hholds hw hb hroom hctx hmay rfl
    have hoperands : ¬ ((w.getD 1 0).toNat < 1024 ∨ 4096 ≤ (w.getD 2 0).toNat) := by omega
    show execStateCollect t m s = _
    refine State.live_next hruns ?_
    simp only [hholds, State.takeReq_eq hw hb, hmay, if_neg hoperands, Bool.not_true, Bool.false_eq_true, if_true, if_false]

end Sys2Proof.Machine

/-! Power and the Sluice (R454, R458, R460, R462, R464, R466, R472). -/

namespace Sys2Proof.Machine

section
variable {s a b : State} {t k cluster : Nat} {r : Reservation}

/-- The end of a reservation's window closes the events that it held open (R458, R472). -/
theorem execReservationEnd_next (hruns : s.runsAt t a) (hfind : (a.reservs.find? fun x => x.k == k) = some r)
    (hends : r.hi ≤ a.now) (hb : a.windowEnds r = b) : execReservationEnd t k s = .next b.closeEvents :=
  State.live_next hruns (by simp only [hfind, if_pos hends, hb])

/-- HCLK steps in a cluster that no sag and no save holds and that has not stepped before (R466). -/
theorem not_hclk_held (hcluster : cluster < 12) (hsag : a.flag SLU_PKG_STATUS.SAG = false) (hsave : a.save.phase = 0)
    (hfirst : Tab.get (fun _ => 0) a.hclkAt cluster = 0) :
    ¬ (12 ≤ cluster ∨ a.flag SLU_PKG_STATUS.SAG = true ∨ a.save.phase ≠ 0 ∨
      (Tab.get (fun _ => 0) a.hclkAt cluster ≠ 0 ∧
        a.now < Tab.get (fun _ => 0) a.hclkAt cluster - 1 + a.hclkGap cluster)) := by
  simp [hcluster, hsag, hsave, hfirst]

end

/-- Settles O46: each row by its window, its timer or its limits. -/
theorem powerAndSluiceComplete : Obligations.PowerAndSluiceComplete := by
  unfold Obligations.PowerAndSluiceComplete
  intro s a t hruns
  refine ⟨?choice, ?grant, ?ends, ?stands, ?starved, ?continued, ?ramp, ?up, ?down, ?sample⟩
  case choice =>
    intro hsave
    show execSluiceChoice t s = _
    exact State.live_next hruns (if_neg (not_not.mpr hsave))
  case grant =>
    intro k r hfind hwaiting hdue hwindow hsave
    show execReservationGrant t k s = _
    refine State.live_next hruns ?_
    simp only [hfind]
    exact if_pos ⟨hwaiting, hdue, hwindow, hsave⟩
  case ends =>
    intro k r hfind hends hgrant
    exact execReservationEnd_next hruns hfind hends (if_neg (by simp [hgrant]))
  case stands =>
    intro k r hfind hends hgrant
    exact execReservationEnd_next hruns hfind hends (if_pos hgrant)
  case starved =>
    intro q f hrefused hdue
    show execStarve t q s = _
    exact State.live_next hruns (by simp only [hrefused, if_pos hdue])
  case continued =>
    intro e k hk hfind
    show execThrottleCont t s = _
    exact State.live_next hruns rfl
  case ramp =>
    rintro die _ hedge hramps hthermal hcurrent hsag rfl hfull
    show execDutyRamp t die s = _
    exact State.live_next hruns ((if_pos ⟨hedge, hramps, by simp [hthermal], by simp [hcurrent], by simp [hsag]⟩).trans
      (if_pos hfull))
  case up =>
    intro cluster hcluster hsag hsave hfirst hup hroom
    show execHclkStep t cluster true s = _
    exact State.live_next hruns ((if_neg (not_hclk_held hcluster hsag hsave hfirst)).trans
      ((if_pos rfl).trans (if_pos (by simp [hup, hroom]))))
  case down =>
    intro cluster hcluster hsag hsave hfirst hdown hroom
    show execHclkStep t cluster false s = _
    exact State.live_next hruns ((if_neg (not_hclk_held hcluster hsag hsave hfirst)).trans
      ((if_neg Bool.false_ne_true).trans (if_pos (by simp [hdown, hroom]))))
  case sample =>
    intro x b hedge hnew hb hsave
    have hdue : a.edge 1000 = true ∧ (!a.samples.any fun r => r.tick == a.now) = true := ⟨hedge, by simp [hnew]⟩
    obtain ⟨ha, -⟩ := hruns
    show execPowerSample t x s = _
    unfold execPowerSample
    dsimp only
    rw [← ha, if_pos hdue, ← hb, if_pos hsave]

end Sys2Proof.Machine

/-! The hold-up save (R468, R469, R477, R478, R481, R482). -/

namespace Sys2Proof.Machine

section
variable {s : State} {t : Nat}

/-- A save that may start closes the transaction and notes its cause, its tick and VIN; a sag opens an event (R472, R477,
R478). -/
theorem State.startSave_starts {b : State} {cause : Nat} (hmay : s.maySave = true)
    (hb : b = if cause < 2 then s.openEvent 4 15 nobodys 0 (s.rd SLU_PKG_EXC.VIN_MV) true else s) :
    s.startSave cause = { ((b.wr TXN_STATUS.STATE 0 0).wr TXN_STATUS.OWNER 0 0).wr TXN_STATUS.OVERFLOW 0 0 with
      txn := ⟨[], 0, 0, 0, false, 0⟩, save := ⟨1, b.tb, cause, 0, s.rd SLU_PKG_EXC.VIN_MV, false, b.now⟩ } := by
  unfold State.startSave
  dsimp only
  rw [if_pos hmay, ← hb]
  rfl

end

/-- Settles O58: each row by the phase of the save, a sample of temperatures by its hottest reading. -/
theorem saveCompletes : Obligations.SaveCompletes := by
  unfold Obligations.SaveCompletes
  intro s a t ha
  refine ⟨?starts, ?drained, ?complete, ?stopped, ?noSave, ?holdVin, ?cool, ?hot⟩
  case starts =>
    intro cause b hmay hb
    show execSaveStart t cause s = _
    unfold execSaveStart
    rw [← ha, State.startSave_starts hmay hb]
  case drained =>
    intro b hphase hdue hb
    show execSaveDrainEnd t s = _
    unfold execSaveDrainEnd
    dsimp only
    have hcause : a.abandonStores.save.cause = b.save.cause := by rw [hb]
    have hstart : a.abandonStores.save.start = b.save.start := by rw [hb]
    rw [← ha, if_pos ⟨hphase, hdue⟩, ← hb, hcause, hstart]
  case complete =>
    intro b hphase hb
    show execSaveComplete t s = _
    unfold execSaveComplete
    dsimp only
    rw [← ha, if_pos hphase, ← hb]
  case stopped =>
    intro hphase
    show execHoldVinLoss t s = _
    unfold execHoldVinLoss
    dsimp only
    rw [← ha, if_pos hphase]
  case noSave =>
    intro hfirst hsecond
    show execHoldVinLoss t s = _
    unfold execHoldVinLoss
    dsimp only
    rw [← ha, if_neg (not_or.mpr ⟨hfirst, hsecond⟩)]
  case holdVin =>
    intro mv
    show execHoldOkChange t mv s = _
    rw [execHoldOkChange, ← ha]
  case cool =>
    intro temps hedge hreset hsave hcool
    show execThermalSample t temps s = _
    unfold execThermalSample
    dsimp only
    rw [← ha, if_neg (by simp [hedge, hreset]), if_pos hsave, hcool, if_neg Bool.false_ne_true]
  case hot =>
    intro temps hedge hreset hsave hhot
    show execThermalSample t temps s = _
    unfold execThermalSample
    dsimp only
    rw [← ha, if_neg (by simp [hedge, hreset]), if_pos hsave, if_pos hhot]

end Sys2Proof.Machine

/-! Trace, debug and the I3C port (R509, R511, R513 to R516, R529). -/

namespace Sys2Proof.Machine

/-- Settles O60: each row by what it needs: an event offered, an edge of its interval, the dike table, or the I3C port. -/
theorem traceAndDebugComplete : Obligations.TraceAndDebugComplete := by
  unfold Obligations.TraceAndDebugComplete
  rintro s a t ha
  refine ⟨?event, ?budget, ?mark, ?sample, ?scratchpad, ?halt0, ?halt1, ?jtag, ?index, ?item, ?address⟩
  case event =>
    intro e r hawake hoffers
    show execTraceEvent t s = _
    exact State.live_next ⟨ha, hawake⟩ (by simp only [hoffers])
  case budget =>
    intro hawake hedge
    show execTraceBudgetWindow t s = _
    exact State.live_next ⟨ha, hawake⟩ (if_neg (by simp [hedge]))
  case mark =>
    intro agent v hawake hallows
    exact State.live_allowed ⟨ha, hawake⟩ hallows
  case sample =>
    intro hawake henabled hedge
    show execCounterSample t s = _
    exact State.live_next ⟨ha, hawake⟩ (if_neg (by simp [henabled, hedge]))
  case scratchpad =>
    intro agent bad hawake hallows
    exact State.live_allowed ⟨ha, hawake⟩ hallows
  case halt0 =>
    intro agent v hawake hallows
    exact State.live_row_next (n := 0) (count := 2) ⟨ha, hawake⟩ (by decide) hallows rfl
  case halt1 =>
    intro agent v hawake hallows
    exact State.live_row_next (n := 1) (count := 2) ⟨ha, hawake⟩ (by decide) hallows rfl
  case jtag =>
    rintro wr target v found _ r hawake hopen rfl hr hfree
    show execJtagDebugAccess t wr target v found s = _
    have hadmitted : ¬ (a.locked && !a.flag DBG_CFG.EXT_DEBUG) = true := by
      rcases hopen with h | h <;> simp [h]
    exact State.live_next ⟨ha, hawake⟩ ((if_neg hadmitted).trans (State.reads_effect hr.symm hfree))
  case index =>
    intro index hon
    subst ha
    exact congrArg _ (if_pos hon)
  case item =>
    intro hon
    subst ha
    exact congrArg _ (if_pos hon)
  case address =>
    intro addr hon
    subst ha
    exact congrArg _ (if_pos hon)

end Sys2Proof.Machine
